-- ==== Sys2Proof/Word.lean ====
section
/-! DEFINITION. The word types of the chip. -/

namespace Sys2Proof

/-- A byte. -/
abbrev Byte := BitVec 8
/-- A register of a register block, an address register or a scalar register (R95, R473). -/
abbrev Word32 := BitVec 32
/-- One 64-byte word of tile SRAM or of a stack (R54, R181). -/
abbrev Line := BitVec 512

end Sys2Proof
end

