-- ==== Sys2Proof/Types.lean ====
section
/-! DEFINITION. The types of the operands that commands carry, and the records of the spec among them. -/

namespace Sys2Proof.Machine

/-- A physical tile of the chip, 0 to 159 (R15, R54). -/
abbrev TileId := Fin 160
/-- A word index of a tile, 0 to 65,535 (R91). -/
abbrev WordIx := Fin 65536
/-- A bank of a tile (R54). -/
abbrev BankIx := Fin 64
/-- A partition, 0 to 15 (R399). -/
abbrev PartId := Fin 16
/-- A port CK0 to CK11 (R311). -/
abbrev PortId := Fin 12
/-- A barrier of a partition (R298). -/
abbrev BarIx := Fin 32
/-- A stack (R181). -/
abbrev StackId := Fin 8
/-- A pseudo-channel of a stack (R181). -/
abbrev ChId := Fin 32
/-- A half of the staging region (R207). -/
abbrev HalfIx := Fin 2
/-- A descriptor of the staging table (R207). -/
abbrev DescIx := Fin 4096
/-- A lane of a port (R341). -/
abbrev LaneIx := Fin 9
/-- A PCIe function: 0 the physical function, p + 1 the virtual function of partition p (R428). -/
abbrev FnId := Fin 17
/-- An MSI-X vector of a function (R436). -/
abbrev VecIx := Fin 8
/-- A time trigger (R464). -/
abbrev TrigIx := Fin 4
/-- A check-value unit (R466). -/
abbrev CrcIx := Fin 4
/-- A supply rail, in the row order of R495. -/
abbrev RailIx := Fin 9
/-- A temperature sensor, in the row order of R506. -/
abbrev SensorIx := Fin 28

/-- The three engines of a tile, each with its own instruction stream (R64). -/
inductive Eng where
  | mx | vx | mv
  deriving DecidableEq, Repr

/-- The fields of an instruction word beside its opcode (R87).
`resv` is bits 99 to 97, of which the K2 uses bit 97 as DIGEST (R142). -/
structure IWord where
  engine : BitVec 4
  wait : BitVec 12
  modf : BitVec 4
  resv : BitVec 3
  fend : Bool
  ops : BitVec 96
  deriving DecidableEq, Repr

/-- The fields of no instruction. -/
def IWord.reset : IWord where
  engine := 0
  wait := 0
  modf := 0
  resv := 0
  fend := false
  ops := 0

/-- What a PARITY_REPLAY event is: the failure of a check, or the end of the replay in progress (R72 to R74). -/
inductive ParityEv where
  /-- A check failed: source (0 MX, 1 VX, 2 MV, 3 mesh ejection), in a queue entry or not, and the instruction's program counter. -/
  | detect (source : BitVec 2) (queue : Bool) (pc : BitVec 32)
  /-- The replay in progress ends; `ok` is false where its check fails too. -/
  | finish (source : BitVec 2) (ok : Bool)
  deriving DecidableEq, Repr

/-- The S-class message of a model's lead chip (R266). -/
structure GroupMsg where
  stepNo : BitVec 64
  header : BitVec 512
  slots : List (BitVec 512)
  fetch : List (BitVec 512)
  pageWrites : List (Nat × BitVec 512)
  prompts : List (Nat × BitVec 512)
  deriving DecidableEq, Repr

/-- The raw round-trip measurements of a calibration, in 1/64 ns (R358). -/
structure CalRaw where
  hold : Nat
  data : Nat
  sym : Nat
  deriving DecidableEq, Repr

/-- Why an ACTIVE port goes down (R363). -/
inductive DownCause where
  | lockLost | uncorrectable | nakLimit | pattern
  deriving DecidableEq, Repr

/-- What a neighbour sends in IDENT (R361). -/
structure LinkIdent where
  addr : BitVec 24
  port : BitVec 4
  verMin : BitVec 8
  verMax : BitVec 8
  deriving DecidableEq, Repr

/-- One fabric packet (R318): header, payload and trailer. -/
structure Packet where
  /-- R318 (12). CLASS: 0 P, 1 S, 2 M, 3 H. -/
  cls : BitVec 2
  /-- R318 (12). FLAT. -/
  flat : Bool
  /-- R318 (12). RELAYED. -/
  relayed : Bool
  /-- R318, R320 (12). TYPE. -/
  type : BitVec 4
  /-- R318 (12). JOB. -/
  job : BitVec 8
  /-- R318 (12). LSEQ. -/
  lseq : BitVec 16
  /-- R318 (12). DEST. -/
  dest : BitVec 24
  /-- R318 (12). LTILE. -/
  ltile : BitVec 8
  /-- R318 (12). SRC. -/
  src : BitVec 24
  /-- R318 (12). TAG. -/
  tag : BitVec 12
  /-- R318, R319 (12). The reserved header bits of bytes 11-15. -/
  resv : BitVec 21
  /-- R318 (12). N units of 64 bytes. -/
  payload : List (BitVec 512)
  /-- R318, R319 (12). CRC-32C trailer as received or written. -/
  trailer : BitVec 32
  deriving DecidableEq, Repr

/-- `Packet` as reset leaves it. -/
def Packet.reset : Packet where
  cls := 0
  flat := false
  relayed := false
  type := 0
  job := 0
  lseq := 0
  dest := 0
  ltile := 0
  src := 0
  tag := 0
  resv := 0
  payload := []
  trailer := 0


/-- One 64-byte job health record (R218). -/
structure HealthRec where
  /-- R218 (08). Chip address. -/
  addr : BitVec 24
  /-- R218 (08). 0 GOOD, 1 FORWARD_ONLY, 2 FAILED. -/
  state : BitVec 2
  /-- R218 (08). Usable ports. -/
  ports : BitVec 12
  /-- R218 (08). Usable tiles. -/
  tiles : BitVec 160
  /-- R218 (08). Usable pseudo-channels per stack. -/
  channels : Vector (BitVec 32) 8
  deriving DecidableEq, Repr

/-- `HealthRec` as reset leaves it. -/
def HealthRec.reset : HealthRec where
  addr := 0
  state := 0
  ports := 0
  tiles := 0
  channels := Vector.replicate 8 0


/-- What bind compares across the chips of a job (R235 phase 3). -/
structure PeerCfg where
  /-- R235 (08). Partition rows. -/
  rows : BitVec 16
  /-- R235 (08). Partition slice. -/
  slice : BitVec 32
  /-- R235 (08). Job box. -/
  jobBox : BitVec 16
  /-- R235 (08). PLAN_ABI of the running manifest. -/
  planAbi : BitVec 32
  /-- R347 (13), R358 (13). Per port, the calibrated hold, data and symbol latency in 1/64 ns. -/
  cal : List (Nat × Nat × Nat)
  deriving DecidableEq, Repr

/-- `PeerCfg` as reset leaves it. -/
def PeerCfg.reset : PeerCfg where
  rows := 0
  slice := 0
  jobBox := 0
  planAbi := 0
  cal := []


/-- The budget parameters of a set (R280). -/
structure BudCfg where
  /-- R288 (10). BUD.CFG.CHARGE_PROMPT. -/
  chargePrompt : Bool
  /-- R288 (10). BUD.CFG.SPEC_EN. -/
  specEn : Bool
  /-- R288 (10). BUD.ADMIT_RESERVE. -/
  admitReserve : BitVec 32
  /-- R288 (10). BUD.PAGE_QUOTA. -/
  pageQuota : BitVec 24
  deriving DecidableEq, Repr

/-- `BudCfg` as reset leaves it. -/
def BudCfg.reset : BudCfg where
  chargePrompt := false
  specEn := true
  admitReserve := 0
  pageQuota := 0


/-- One dimension descriptor of the rank grid (R214). -/
structure RankDim where
  /-- R214 (08). Ring length L; 1 is unused. -/
  l : Nat
  /-- R214 (08). CLASS: FOLD or DIRECT. -/
  fold : Bool
  /-- R214 (08). KIND of a DIRECT dimension. -/
  kindLong : Bool
  /-- R214 (08). P_KIND of a FOLD dimension. -/
  pLong : Bool
  /-- R214 (08). Q_KIND of a FOLD dimension. -/
  qLong : Bool
  /-- R214 (08). Extent along P. -/
  a : Nat
  /-- R214 (08). Extent along Q. -/
  b : Nat
  deriving DecidableEq, Repr

/-- `RankDim` as reset leaves it. -/
def RankDim.reset : RankDim where
  l := 1
  fold := false
  kindLong := false
  pLong := false
  qLong := false
  a := 2
  b := 2


/-- The code of one stream in a plan image (R58, R65, R514). -/
structure StreamCode where
  /-- R65 (03). Logical tile. -/
  ltile : Nat
  /-- R64 (03). 0 MX, 1 VX, 2 MV. -/
  engine : Nat
  /-- R65 (03). First word of the code region. -/
  base : Nat
  /-- R65 (03). Words of the code region. -/
  words : Nat
  /-- R382 (14). Program counter at which every unit begins. -/
  entry : Nat
  /-- R64, R149 (05). Instructions by program counter, from 0. -/
  code : List (BitVec 128)
  /-- R514 (03). Code words that bind loads into the queue before launch, in the order of fetch from the entry. -/
  load : Nat
  /-- R65 (03). Planned fetch slots of every frame, as pc from its tick. -/
  slots : List Nat
  deriving DecidableEq, Repr

/-- `StreamCode` as reset leaves it. -/
def StreamCode.reset : StreamCode where
  ltile := 0
  engine := 0
  base := 0
  words := 1
  entry := 0
  code := []
  load := 0
  slots := []


/-- One tile word that a plan image preloads (R58). -/
structure Preload where
  /-- R58 (03). Logical tile. -/
  ltile : Nat
  /-- R58 (03). Word index. -/
  word : Nat
  /-- R58 (03). Initial data. -/
  data : BitVec 512
  /-- R58 (03). Initial full/empty bit. -/
  full : Bool
  deriving DecidableEq, Repr

/-- `Preload` as reset leaves it. -/
def Preload.reset : Preload where
  ltile := 0
  word := 0
  data := 0
  full := false


/-- One plan-space region of a plan image (R120, R145, R197, R203, R207, R382). -/
structure Region where
  /-- R116 (04). First plan-space word. -/
  base : Nat
  /-- R116 (04). Length in words. -/
  words : Nat
  /-- R197 (07). The decoded range of an Ember region. -/
  ember : Bool
  /-- R197 (07). Chunk frame of its first chunk. -/
  chunk0 : Nat
  /-- R207 (07). It lies in the staging region. -/
  staging : Bool
  /-- R203 (07). Encrypted at rest. -/
  encrypted : Bool
  /-- R203 (07). Key slot. -/
  keySlot : Nat
  /-- R145, R197 (07). Stored words of a chunk that the slots of an Ember region reserve. -/
  coded : Nat
  /-- R382 (14). 0 READ_ONLY, 1 STATE, 2 SCRATCH. -/
  kind : Nat
  deriving DecidableEq, Repr

/-- `Region` as reset leaves it. -/
def Region.reset : Region where
  base := 0
  words := 0
  ember := false
  chunk0 := 0
  staging := false
  encrypted := false
  keySlot := 0
  coded := 1025
  kind := 1


/-- What a slot table declares for one logical channel (R188, R193). -/
structure LchDecl where
  /-- R188 (07). OPEN. -/
  openShare : Nat
  /-- R193 (07). Phase of the refresh window. -/
  phase : Nat
  /-- R193 (07). L_ref. -/
  len : Nat
  /-- R193 (07). P_ref. -/
  period : Nat
  /-- R249 (09). Arrivals of the step sequencer, as pc from the boundary tick. -/
  seq : List Nat
  deriving DecidableEq, Repr

/-- `LchDecl` as reset leaves it. -/
def LchDecl.reset : LchDecl where
  openShare := 0
  phase := 0
  len := 736
  period := 8192
  seq := []


/-- One barrier table entry of a plan image (R298). -/
structure BarDecl where
  /-- R298 (11). 0 unused, 1 CHIP, 2 JOB. -/
  scope : Nat
  /-- R298 (11). Completion word. -/
  compWord : Nat
  /-- R298 (11). TIMEOUT in frames. -/
  timeout : Nat
  /-- R298 (11). Member logical tiles, ascending. -/
  tiles : List Nat
  /-- R298 (11). Member ranks of a JOB barrier, ascending. -/
  ranks : List Nat
  /-- R298 (11). RANK_MAP: byte offset of the members' bitmap in the image. -/
  rankMap : Nat
  /-- R298 (11). Reserved bytes 1, 6, 7 and 32 to 63 as one number. -/
  resv : Nat
  deriving DecidableEq, Repr

/-- `BarDecl` as reset leaves it. -/
def BarDecl.reset : BarDecl where
  scope := 0
  compWord := 0
  timeout := 1
  tiles := []
  ranks := []
  rankMap := 0
  resv := 0


/-- One planned receive of a plan image (R33, R353). -/
structure RecvKey where
  /-- R353 (13). Logical tile. -/
  ltile : Nat
  /-- R353 (13). TAG. -/
  tag : Nat
  /-- R353 (13). Logical link on which its packet arrives. -/
  link : Nat
  /-- R33 (02). Planned landing, as pc from the tick of the frame in which its MV.FRECV issues. -/
  landing : Int
  deriving DecidableEq, Repr

/-- `RecvKey` as reset leaves it. -/
def RecvKey.reset : RecvKey where
  ltile := 0
  tag := 0
  link := 0
  landing := 0


/-- One descriptor of the staging table (R207). -/
structure StageDesc where
  /-- R207 (07). HOST_OFFSET. -/
  hostOffset : Nat
  /-- R207 (07). Words minus 1. -/
  length : Nat
  /-- R207 (07). FLAGS.SEALED. -/
  sealed : Bool
  /-- R207 (07). First word within a half. -/
  target : Nat
  deriving DecidableEq, Repr

/-- `StageDesc` as reset leaves it. -/
def StageDesc.reset : StageDesc where
  hostOffset := 0
  length := 0
  sealed := false
  target := 0


/-- The serving declarations of a plan image (R239, R282). -/
structure Serving where
  /-- R239 (09). W. -/
  w : Nat
  /-- R239 (09). T. -/
  t : Nat
  /-- R239 (09). CHUNK_MAX. -/
  chunkMax : Nat
  /-- R239 (09). D_MAX. -/
  dMax : Nat
  /-- R239 (09). PROMPT_MAX. -/
  promptMax : Nat
  /-- R239 (09). P, positions per page. -/
  p : Nat
  /-- R239 (09). V, tile words per position. -/
  v : Nat
  /-- R239 (09). CODE of the KV layout. -/
  code : Nat
  /-- R239 (09). E_MAX. -/
  eMax : Nat
  /-- R239 (09). C, String cache slots. -/
  c : Nat
  /-- R239 (09). F_MAX. -/
  fMax : Nat
  /-- R239 (09). CACHE_BASE. -/
  cacheBase : Nat
  /-- R239 (09). CACHE_WORDS. -/
  cacheWords : Nat
  /-- R239 (09). SLOT_WORDS. -/
  slotWords : Nat
  /-- R239 (09). MBOX. -/
  mbox : Nat
  /-- R239 (09). MBOX_PC. -/
  mboxPc : Nat
  /-- R239 (09). Step header word. -/
  header : Nat
  /-- R251 (09). BATCH_BASE. -/
  batchBase : Nat
  /-- R239 (09). Fetch list. -/
  fetchBase : Nat
  /-- R248 (09). PT_BASE. -/
  ptBase : Nat
  /-- R248 (09). PROMPT_BASE. -/
  promptBase : Nat
  /-- R252 (09). RETURN_BASE. -/
  returnBase : Nat
  /-- R282 (10). GUESS_BASE. -/
  guessBase : Nat
  /-- R240 (09). Entries that the prompt store, page-table and guess regions hold. -/
  entries : Nat
  /-- R403 (15). Profile region. -/
  profileBase : Nat
  /-- R265 (09). Ranks of the model's group, lead first. -/
  group : List Nat
  deriving DecidableEq, Repr

/-- `Serving` as reset leaves it. -/
def Serving.reset : Serving where
  w := 1
  t := 1
  chunkMax := 1
  dMax := 0
  promptMax := 1
  p := 1
  v := 1
  code := 0
  eMax := 1
  c := 1
  fMax := 0
  cacheBase := 0
  cacheWords := 0
  slotWords := 0
  mbox := 0
  mboxPc := 0
  header := 0
  batchBase := 0
  fetchBase := 0
  ptBase := 0
  promptBase := 0
  returnBase := 0
  guessBase := 0
  entries := 0
  profileBase := 0
  group := []


/-- A plan image as the chip holds it (R149, R213, R403). -/
structure Image where
  /-- R8 (00). Built for the K2. -/
  k2 : Bool
  /-- R407, R414 (15). SHA-512 of the image. -/
  digest : BitVec 512
  /-- R213 (08). Logical tile count. -/
  n : Nat
  /-- R213 (08). K_p. -/
  kp : Nat
  /-- R27 (02). Frame exponent. -/
  k : Nat
  /-- R47 (02). Highest step code. -/
  fMax : BitVec 3
  /-- R28 (02). F_s. -/
  fs : Nat
  /-- R408 (15). CURTAIN_PAUSE. -/
  pauseUs : Nat
  /-- R213 (08). SPLICEABLE. -/
  spliceable : Bool
  /-- R213 (08). FWD_SHARE. -/
  fwdShare : Nat
  /-- R214 (08). Rank grid. -/
  dims : List RankDim
  /-- R379 (14). MIRROR. -/
  mirror : Bool
  /-- R382 (14). RESTARTABLE. -/
  restartable : Bool
  /-- R382 (14). U, replay unit of a plan without serving. -/
  unitFrames : Nat
  /-- R207 (07). Frames of a staging epoch of a plan without serving. -/
  stageFrames : Nat
  /-- R64, R65 (03). Streams. -/
  streams : List StreamCode
  /-- R58 (03). Tile preloads. -/
  preloads : List Preload
  /-- R382 (14). CONST ranges: (logical tile, first word, last word). -/
  constRanges : List (Nat × Nat × Nat)
  /-- R120 (04). Plan-space regions. -/
  regions : List Region
  /-- R187 (07). Words of plan space. -/
  planWords : Nat
  /-- R197 (07). Ember chunk frames. -/
  chunks : Nat
  /-- R188, R193 (07). Per logical channel declarations. -/
  lch : List LchDecl
  /-- R298 (11). Barrier table. -/
  barriers : List BarDecl
  /-- R207 (07). First word of the staging region. -/
  stageBase : Nat
  /-- R207 (07). Words of a half. -/
  halfWords : Nat
  /-- R207 (07). Staging table. -/
  stageTable : List StageDesc
  /-- R239 (09). Serving declarations. -/
  serving : Option Serving
  /-- R322 (12). Slot table of each logical link. -/
  slotTables : List (Nat × List (BitVec 4))
  /-- R322 (12). Relay table of a SPLICEABLE plan. -/
  relayTable : List (BitVec 4)
  /-- R356 (13). Declared peak pool bytes of each logical link. -/
  pPeak : List (Nat × Nat)
  /-- R41 (02). Declared receive reservation of each logical link. -/
  reserve : List (Nat × Nat)
  /-- R33 (02), R353 (13). Planned receive keys. -/
  recvKeys : List RecvKey
  /-- R376 (14). ER flag word. -/
  erFlagWord : Option Nat
  /-- R298 (11). Bytes of the image. -/
  size : Nat
  deriving DecidableEq, Repr

/-- `Image` as reset leaves it. -/
def Image.reset : Image where
  k2 := true
  digest := 0
  n := 1
  kp := 1
  k := 12
  fMax := 0
  fs := 0
  pauseUs := 1
  spliceable := false
  fwdShare := 0
  dims := []
  mirror := false
  restartable := false
  unitFrames := 1
  stageFrames := 1
  streams := []
  preloads := []
  constRanges := []
  regions := []
  planWords := 0
  chunks := 0
  lch := []
  barriers := []
  stageBase := 0
  halfWords := 0
  stageTable := []
  serving := none
  slotTables := []
  relayTable := []
  pPeak := []
  reserve := []
  recvKeys := []
  erFlagWord := none
  size := 0


/-- A parameter block (R403). -/
structure Params where
  /-- R403 (15). STRING_BASE. -/
  stringBase : Nat
  /-- R403 (15). STRING_STRIDE. -/
  stringStride : Nat
  /-- R403 (15). STRING_COUNT. -/
  stringCount : Nat
  /-- R403 (15). BUD_CFG, ADMIT_RESERVE, PAGE_QUOTA. -/
  bud : BudCfg
  /-- R403 (15). PROFILE[0-15]. -/
  profiles : List (BitVec 512)
  /-- R415 (15). The block's bytes as loaded. -/
  raw : List (BitVec 8)
  deriving DecidableEq, Repr

/-- `Params` as reset leaves it. -/
def Params.reset : Params where
  stringBase := 0
  stringStride := 0
  stringCount := 0
  bud := BudCfg.reset
  profiles := []
  raw := []


/-- One firmware slot of the board flash as its manifest describes it (R451, R452). -/
structure Slot48 where
  /-- R451 (17). It holds an image. -/
  present : Bool
  /-- R453 (17). MAGIC, FORMAT, COUNT and the component set are as R451 and R452 give. -/
  magicOk : Bool
  /-- R453 (17). Both signatures verify. -/
  sigOk : Bool
  /-- R453 (17). The SHA-512 of every component matches. -/
  hashOk : Bool
  /-- R451 (17). SVN. -/
  svn : BitVec 6
  /-- R451 (17). FW_VERSION. -/
  version : BitVec 64
  /-- R451 (17). LINK_MIN. -/
  linkMin : BitVec 8
  /-- R451 (17). LINK_MAX. -/
  linkMax : BitVec 8
  /-- R451 (17). PLAN_ABI. -/
  planAbi : BitVec 16
  /-- R451 (17). FLAGS.HOST_CONFIRM. -/
  hostConfirm : Bool
  /-- R415 (15). SHA-512 of the manifest. -/
  digest : BitVec 512
  deriving DecidableEq, Repr

/-- `Slot48` as reset leaves it. Fields with a value the spec does not give (DESIGN CHOICE, notes/assumptions/4.md). -/
def Slot48.reset : Slot48 where
  present := false
  magicOk := false
  sigOk := false
  hashOk := false
  svn := 0
  version := 0
  linkMin := 0
  linkMax := 0
  planAbi := 0
  hostConfirm := false
  digest := 0


/-- What the job gathers for a bind (R218, R219, R235): health records, digests and configurations of the other chips. -/
structure BindEnv where
  records : List HealthRec
  digests : List (BitVec 24 × BitVec 512)
  peers : List (BitVec 24 × PeerCfg)
  deriving DecidableEq, Repr

/-- The end of a Wings or Stage load (R404): an error, a plan image, or a parameter block. -/
inductive LoadResult where
  | error
  | image (img : Image)
  | params (p : Params)
  deriving DecidableEq, Repr

end Sys2Proof.Machine
end

