-- ==== Sys2Proof/Syntax.lean ====
section
/-! DEFINITION. The commands of the chip: one constructor per row of the opcode table. -/

namespace Sys2Proof
open Sys2Proof.Machine

/-- The commands of the chip, in the order of the opcode table. -/
inductive Instr where
  /-- `CT_NOP` (R99). Control instruction that does nothing; it serves as a stream's frame-end instruction. -/
  | ctNop (t : TileId) (e : Eng) (w : IWord)
  /-- `CT_LWAIT` (R99). Delays the next instruction of the stream by COUNT plus its WAIT. -/
  | ctLwait (t : TileId) (e : Eng) (w : IWord)
  /-- `CT_HALT` (R103). Stops the stream from issuing; the stream still meets the frame-end test at every later tick. -/
  | ctHalt (t : TileId) (e : Eng) (w : IWord)
  /-- `CT_AMOV` (R99). Loads an immediate into an address register, written at p + 1. -/
  | ctAmov (t : TileId) (e : Eng) (w : IWord)
  /-- `CT_AADD` (R99). Adds an immediate to an address register, modulo 2^32. -/
  | ctAadd (t : TileId) (e : Eng) (w : IWord)
  /-- `CT_AALU` (R100). Integer ALU operation on two address registers, selected by MOD. -/
  | ctAalu (t : TileId) (e : Eng) (w : IWord)
  /-- `CT_SMOV` (R99). Loads an immediate into a scalar register. -/
  | ctSmov (t : TileId) (e : Eng) (w : IWord)
  /-- `CT_SALU` (R100). Integer or FP32 ALU operation on two scalar registers, selected by MOD. -/
  | ctSalu (t : TileId) (e : Eng) (w : IWord)
  /-- `CT_XMOV` (R99). Moves a value between an address register and a scalar register. -/
  | ctXmov (t : TileId) (e : Eng) (w : IWord)
  /-- `CT_SLD` (R99). Loads one 4-byte lane of a word into a scalar register. -/
  | ctSld (t : TileId) (e : Eng) (w : IWord)
  /-- `CT_SST` (R99). Stores a scalar register into one 4-byte lane of a word and keeps the other bytes. -/
  | ctSst (t : TileId) (e : Eng) (w : IWord)
  /-- `CT_POLL` (R99). Writes 1 or 0 into a scalar register according to a word's full/empty bit. -/
  | ctPoll (t : TileId) (e : Eng) (w : IWord)
  /-- `CT_LOOP` (R101). Pushes a loop that repeats the following BODY instructions ITER times. -/
  | ctLoop (t : TileId) (e : Eng) (w : IWord)
  /-- `CT_JMP` (R99). Continues the stream at program counter TARGET. -/
  | ctJmp (t : TileId) (e : Eng) (w : IWord)
  /-- `CT_FBR` (R102). Frame-end branch that selects the next frame's code from a scalar register. -/
  | ctFbr (t : TileId) (e : Eng) (w : IWord)
  /-- `CT_BBR` (R137). Balanced branch on a scalar register; the arm not taken is dropped from the queue. -/
  | ctBbr (t : TileId) (e : Eng) (w : IWord)
  /-- `CT_FESET` (R99). Sets N words empty or full without changing their data. -/
  | ctFeset (t : TileId) (e : Eng) (w : IWord)
  /-- `CT_BAR` (R299). Records the tile's arrival at a barrier of the partition. -/
  | ctBar (t : TileId) (e : Eng) (w : IWord)
  /-- `CT_WATCH` (R294). Registers a watch that sets a wake word full once the watched word reaches the required state. -/
  | ctWatch (t : TileId) (e : Eng) (w : IWord)
  /-- `MX_LDW` (R107). Loads a weight tile and its scales into a weight slot of the matrix engine. -/
  | mxLdw (t : TileId) (w : IWord)
  /-- `MX_MMA` (R133). Multiplies activation rows by the stationary weight tile, using the K2 block accumulation order. -/
  | mxMma (t : TileId) (w : IWord)
  /-- `VX_ALU` (R111). Lane-wise vector arithmetic, comparison or logic operation selected by OP. -/
  | vxAlu (t : TileId) (w : IWord)
  /-- `VX_CVT` (R112). Converts vectors between formats, MX block formats included. -/
  | vxCvt (t : TileId) (w : IWord)
  /-- `VX_TR` (R166). Applies a correctly rounded transcendental function to each lane. -/
  | vxTr (t : TileId) (w : IWord)
  /-- `VX_RED` (R114). Reduces the lanes of each vector to one value written into a word. -/
  | vxRed (t : TileId) (w : IWord)
  /-- `VX_RNG` (R115). Computes Philox-4x32-10 outputs from counter vectors. -/
  | vxRng (t : TileId) (w : IWord)
  /-- `VX_REDS` (R135). Reduces N vectors to one value in a scalar register. -/
  | vxReds (t : TileId) (w : IWord)
  /-- `VX_ERACC` (R140). Adds FP32 values, converted to ER, into ER accumulators. -/
  | vxEracc (t : TileId) (w : IWord)
  /-- `VX_ERADD` (R140). Adds ER values exactly into ER accumulators. -/
  | vxEradd (t : TileId) (w : IWord)
  /-- `VX_ERCVT` (R140). Converts ER values to FP32 with one rounding. -/
  | vxErcvt (t : TileId) (w : IWord)
  /-- `VX_DCLOSE` (R143). Closes the tile's open layer digest into the digest log and reinitialises it. -/
  | vxDclose (t : TileId) (w : IWord)
  /-- `MV_CPY` (R117). Copies N words within tile SRAM. -/
  | mvCpy (t : TileId) (w : IWord)
  /-- `MV_FILL` (R117). Fills N words with the value of a scalar register. -/
  | mvFill (t : TileId) (w : IWord)
  /-- `MV_SEND` (R117). Sends N words across the mesh to another logical tile, each beat landing 96 pc after injection. -/
  | mvSend (t : TileId) (w : IWord)
  /-- `MV_SLD` (R188). Reads N words from plan space in the stacks at fixed latency. -/
  | mvSld (t : TileId) (w : IWord)
  /-- `MV_SST` (R188). Writes N words to plan space in the stacks at fixed latency. -/
  | mvSst (t : TileId) (w : IWord)
  /-- `MV_FSEND` (R326). Sends N words as one P-class packet to a neighbouring rank in its planned slot. -/
  | mvFsend (t : TileId) (w : IWord)
  /-- `MV_FRECV` (R118). Claims a landed packet by logical tile and TAG and moves it into tile SRAM, optionally reducing on receive. -/
  | mvFrecv (t : TileId) (w : IWord)
  /-- `MV_ELD` (R145). Reads whole Ember-coded chunks through the logic-die decoder into tile SRAM. -/
  | mvEld (t : TileId) (w : IWord)
  /-- `MV_PGATH` (R146). Gathers KV words by token position through a page table, decoding Cinder where selected. -/
  | mvPgath (t : TileId) (w : IWord)
  /-- `MV_PST` (R146). Stores KV words by token position through a page table, encoding Cinder where selected. -/
  | mvPst (t : TileId) (w : IWord)
  /-- `MV_STRF` (R147). Fetches one layer of a String set into a String cache slot according to a fetch-list entry. -/
  | mvStrf (t : TileId) (w : IWord)
  /-- `INSTRUCTION_FETCH` (R65). The fetch unit reads one code word of four instructions into a stream queue in a planned fetch slot. -/
  | instructionFetch (t : TileId) (e : Eng)
  /-- `PARITY_REPLAY` (R73). While the counter is stopped, an engine re-executes an instruction whose write failed parity, from its retained operands. -/
  | parityReplay (t : TileId) (ev : ParityEv)
  /-- `TILE_ECC_WRITEBACK` (R61). A corrected SRAM word is written back in the bank's next open window. -/
  | tileEccWriteback (t : TileId) (word : WordIx)
  /-- `TILE_SCRUB_READ` (R62). The scrubber reads one word of a bank in a free open window. -/
  | tileScrubRead (t : TileId) (bank : BankIx)
  /-- `TILE_WIN_READ` (R82). A host read of the tile data window, served at a bank access as R83 states. -/
  | tileWinRead (t : TileId) (off : BitVec 12) (dbl : Bool)
  /-- `TILE_WIN_WRITE` (R82). A host write of the tile data window that leaves the full/empty bit unchanged. -/
  | tileWinWrite (t : TileId) (off : BitVec 12) (val : BitVec 64) (dbl : Bool)
  /-- `TILE_FE_SET` (R84). A host write that sets window words full, each set being one window access. -/
  | tileFeSet (t : TileId) (mask : BitVec 32)
  /-- `TILE_FE_CLR` (R84). A host write that sets window words empty, each clear being one window access. -/
  | tileFeClr (t : TileId) (mask : BitVec 32)
  /-- `TILE_WIN_ACCESS` (R83). A waiting window access reaches its bank, possibly raising a HOST_ACCESS episode. -/
  | tileWinAccess (t : TileId)
  /-- `FRAME_TICK` (R29). At each frame tick the K2 checks frame-end retirement and move completion, and sends the tick's frame-bound messages. -/
  | frameTick (p : PartId)
  /-- `BOUNDARY_WORK` (R249). At a boundary tick SEQ reads intake, forms outcomes, charges, admits, chooses the batch and writes the sequencer region. -/
  | boundaryWork (p : PartId) (posted : List (Nat × BitVec 8))
  /-- `ASH_CONFIRM` (R383). The buddy acknowledges an Ash log entry, which confirms it and releases any wait for it. -/
  | ashConfirm (p : PartId) (stepNo : BitVec 64)
  /-- `GROUP_MESSAGE` (R266). A group chip receives the lead's boundary message and writes its sequencer region and mailboxes. -/
  | groupMessage (p : PartId) (msg : GroupMsg)
  /-- `BUD_OP_GRANT` (R288). An operator GRANT armed through BUD.OP_CTRL and applied at step 2 of the next boundary. -/
  | budOpGrant
  /-- `BUD_OP_SET_BALANCE` (R288). An operator SET_BALANCE armed through BUD.OP_CTRL. -/
  | budOpSetBalance
  /-- `BUD_OP_SET_SPRING` (R288). An operator SET_SPRING armed through BUD.OP_CTRL. -/
  | budOpSetSpring
  /-- `BUD_OP_SET_CAP` (R288). An operator SET_CAP armed through BUD.OP_CTRL. -/
  | budOpSetCap
  /-- `BUD_OP_SET_PAGE_QUOTA` (R288). An operator SET_PAGE_QUOTA armed through BUD.OP_CTRL. -/
  | budOpSetPageQuota
  /-- `BUD_OP_SET_RESERVE` (R288). An operator SET_RESERVE armed through BUD.OP_CTRL. -/
  | budOpSetReserve
  /-- `SEQ_ENTRY_SEL` (R268). A write that copies a request table entry into SEQ.ENTRY0-15. -/
  | seqEntrySel (val : BitVec 32)
  /-- `BUD_BKT_SEL` (R288). A write that copies a bucket into BUD.BKT0-7. -/
  | budBktSel (val : BitVec 32)
  /-- `HOLD_SYMBOL` (R347). A HOLD symbol arrives; the first copy is forwarded and scheduled for application at d(o). -/
  | holdSymbol (n : PortId) (unit : BitVec 64) (cause : BitVec 4)
  /-- `RELEASE_SYMBOL` (R347). A RELEASE symbol arrives; the first copy is forwarded and scheduled for application at d(o). -/
  | releaseSymbol (n : PortId) (unit : BitVec 64)
  /-- `HOLD_APPLY` (R347). The elapsed time of a HOLD reaches d(o), so the chip raises its hold depth and stops its counter. -/
  | holdApply (origin : BitVec 24) (num : BitVec 8)
  /-- `RELEASE_APPLY` (R347). The elapsed time of a RELEASE reaches d(o), so the chip lowers its hold depth. -/
  | releaseApply (origin : BitVec 24) (num : BitVec 8)
  /-- `EPISODE_RELEASE` (R35). The last local cause of an episode clears, and the origin releases the episode. -/
  | episodeRelease
  /-- `COUNTER_RESUME` (R513). Depth and debt reach zero and nothing else pauses the counter, so the Geyser counter resumes unless an unplanned use is still in progress. -/
  | counterResume
  /-- `HOLD_LIMIT` (R42). An episode reaches PLAN.HOLD_LIMIT and the chip raises F-0303 once. -/
  | holdLimit (origin : BitVec 24) (num : BitVec 8)
  /-- `HOLD_LIMIT_WRITE` (R42). A write of PLAN.HOLD_LIMIT takes effect at once and may raise F-0303 or stop the comparison. -/
  | holdLimitWrite (val : BitVec 32)
  /-- `THROTTLE_EVAL` (R49). At every multiple of 2^16 the chip compares Tj, adjusts its throttle level and may raise a THERMAL episode. -/
  | throttleEval (tj : BitVec 8)
  /-- `THERMAL_HOLD_END` (R49). An injected THERMAL episode reaches n x 4,096 clk and is released. -/
  | thermalHoldEnd
  /-- `THROTTLE_WRITE` (R49). A write of PLAN.THROTTLE whose MAX_LEVEL below n lowers n at once. -/
  | throttleWrite (val : BitVec 32)
  /-- `LAUNCH_ARM` (R45). A write of PLAN.CTRL.ARM that arms the launch at LAUNCH_AT, accepted only in state ALIGNED. -/
  | launchArm
  /-- `LAUNCH` (R45). The Geyser counter reaches LAUNCH_AT and every tile of the partition starts its plan. -/
  | launch
  /-- `ALIGN_START` (R44). The root begins alignment by sending an ALIGN symbol with its count. -/
  | alignStart
  /-- `ALIGN_SYMBOL` (R44). A chip receives an ALIGN symbol, sets its counter from it and forwards it. -/
  | alignSymbol (n : PortId) (unit : BitVec 64) (lo : BitVec 64) (hi : BitVec 64)
  /-- `BARRIER_SYMBOL` (R46). A BARRIER symbol of a mirror pair arrives and sets the release pc of the pair's hardware barrier. -/
  | barrierSymbol (n : PortId) (unit : BitVec 64) (lo : BitVec 64) (hi : BitVec 64)
  /-- `LAUNCH_BARRIER_RELEASE` (R46). A hardware barrier releases a sequencer half or a mirror pair at the named pc. -/
  | launchBarrierRelease
  /-- `STEP_ARM` (R48). A write of CLK.STEP_CTRL.ARM that arms a clock-step change for a frame tick. -/
  | stepArm
  /-- `STEP_SWITCH` (R48). At the armed tick the step change is tested and, if accepted, the counter stops while the PLL relocks. -/
  | stepSwitch
  /-- `STEP_SWITCH_END` (R48). After 40.96 µs the counter resumes at the new step. -/
  | stepSwitchEnd
  /-- `WATCH_FIRE` (R294). The watched word reaches the required state, and wake delivery begins. -/
  | watchFire (t : TileId) (wake : WordIx)
  /-- `WAKE_WRITE` (R294). After 56 delivery steps the sync unit sets the wake word full through the side port. -/
  | wakeWrite (t : TileId) (wake : WordIx)
  /-- `WATCH_TIMEOUT` (R297). A watch expires unfired at its timeout tick, and the job enters a fault hold. -/
  | watchTimeout (t : TileId) (wake : WordIx)
  /-- `BARRIER_COMPLETION_WRITE` (R300). Delivery ends and the barrier completion words of member tiles are set full. -/
  | barrierCompletionWrite (p : PartId) (b : BarIx)
  /-- `BARRIER_ARRIVE` (R301). An S ARRIVE packet from a child is counted towards its round. -/
  | barrierArrive
  /-- `BARRIER_RELEASE` (R301). An S RELEASE packet from the parent is forwarded to the children and begins completion delivery. -/
  | barrierRelease
  /-- `BARRIER_TIMEOUT` (R304). A barrier round expires on a chip, and the job enters a fault hold. -/
  | barrierTimeout (p : PartId) (b : BarIx)
  /-- `ER_FLAG_WORD_SET` (R376). 64 delivery steps after an ER overflow event, the ER flag word is set full. -/
  | erFlagWordSet (t : TileId)
  /-- `STACK_ECC_WRITEBACK` (R183). A corrected stack word is written back in an open access. -/
  | stackEccWriteback (k : StackId) (c : ChId) (word : BitVec 26)
  /-- `PATROL_SCRUB` (R191). The patrol scrubber reads and corrects the next channel word in an open access. -/
  | patrolScrub (k : StackId) (c : ChId)
  /-- `REFRESH_DEBT_TICK` (R192). Each tREFI of wall time raises a pseudo-channel's refresh debt and may mark it REFRESH_PENDING. -/
  | refreshDebtTick (k : StackId) (c : ChId)
  /-- `REFRESH_IDLE` (R192). A pseudo-channel that no launched plan uses refreshes itself when its debt reaches +1. -/
  | refreshIdle (k : StackId) (c : ChId)
  /-- `REFRESH_WINDOW` (R194). A planned refresh window begins, and the logic die makes its n refreshes. -/
  | refreshWindow (k : StackId) (c : ChId)
  /-- `FORCED_REFRESH` (R195). A REFRESH_PENDING pseudo-channel is refreshed after the drain, together with the others at +4 or more. -/
  | forcedRefresh (k : StackId)
  /-- `HOLD_REFRESH` (R196). During a hold or step switch the logic die refreshes pseudo-channels with high debt. -/
  | holdRefresh (k : StackId)
  /-- `STACK_HOT` (R192). A stack crosses 85 °C or 82 °C, which sets or clears HOT and changes tREFI. -/
  | stackHot (k : StackId) (temp : BitVec 8)
  /-- `STK_WIN_READ` (R210). STKn.WIN_CTRL.GO with WRITE 0 starts a window read of one stored word. -/
  | stkWinRead (k : StackId)
  /-- `STK_WIN_WRITE` (R210). STKn.WIN_CTRL.GO with WRITE 1 starts a window write of one stored word. -/
  | stkWinWrite (k : StackId)
  /-- `STK_WIN_ACCESS` (R210). A waiting window access is admitted as an open access and completes after 222 or 150 cycles. -/
  | stkWinAccess (k : StackId)
  /-- `SEALED_LOAD` (R205). A sealed record is verified, re-encrypted at rest and written as open accesses. -/
  | sealedLoad (p : PartId) (rec : List (BitVec 8))
  /-- `STAGING_EPOCH` (R207). At an epoch tick the staging unit clears a half's ready flags and fetches the table into it. -/
  | stagingEpoch (p : PartId)
  /-- `STAGING_COMPLETION` (R207). A PCIe completion of a staging read is written into its half and may make its descriptor ready. -/
  | stagingCompletion (p : PartId) (half : HalfIx) (desc : DescIx) (data : List (BitVec 512)) (err : Bool)
  /-- `STACK_TRAIN` (R211). After reset the management core trains a stack. -/
  | stackTrain (k : StackId) (result : BitVec 8)
  /-- `BIND` (R235). MAP.CTRL.BIND starts a fresh bind of a partition's Wings set through the five phases. -/
  | bindRun (p : PartId) (env : BindEnv)
  /-- `REBIND` (R235). MAP.CTRL.REBIND starts a re-bind of a partition's Stage set from its Stage mapping. -/
  | rebind (p : PartId) (env : BindEnv)
  /-- `HEALTH_RECORD_TIMEOUT` (R218). A chip sends no health record within 2 s and is recorded as FAILED. -/
  | healthRecordTimeout (chip : BitVec 24)
  /-- `HEALTH_DISAGREE` (R219). Health map digests differ or are missing after 5 s, and bind fails with 0x24. -/
  | healthDisagree
  /-- `CHIP_DECLARED_FAILED` (R391). Management declares a chip failed; the declaration spreads over the Vent channel and may start rollback. -/
  | chipDeclaredFailed (chip : BitVec 24)
  /-- `P_SLOT_START` (R324). A P_START cell begins and the port transmits its queued P packet or counts the slot idle. -/
  | pSlotStart (n : PortId)
  /-- `OPEN_PACKET_TRANSMIT` (R324). An open-class packet starts in an open cell when it fits before the next P or FWD cell. -/
  | openPacketTransmit (n : PortId)
  /-- `RELAY_TRANSMIT` (R327). A relayed or rerouted P packet starts in the first suitable FWD run. -/
  | relayTransmit (n : PortId)
  /-- `P_PACKET_RECEIVE` (R118). A P packet is accepted into the port pool and recorded in the receive directory, or relayed. -/
  | pPacketReceive (n : PortId)
  /-- `OPEN_PACKET_RECEIVE` (R331). An S, M or H packet is accepted and routed or delivered under the open routing rule. -/
  | openPacketReceive (n : PortId)
  /-- `FLAT_DATA_WRITE` (R339). A write of LNK0.FLAT_DATA updates an exception entry in every port at once. -/
  | flatDataWrite (val : BitVec 32)
  /-- `FLOW` (R333). A FLOW symbol arrives and sets XON or XOFF per open class. -/
  | flow (n : PortId) (val : BitVec 16)
  /-- `FLOW_REFRESH` (R344). Every 256 codewords the sender repeats its current FLOW state. -/
  | flowRefresh (n : PortId)
  /-- `VENT_MESSAGE` (R337). A Vent message is verified, acknowledged and acted on once. -/
  | ventMessage
  /-- `VENT_ACK` (R337). An acknowledgement of a Vent message ends its retries. -/
  | ventAck (msgId : BitVec 32)
  /-- `VENT_RETRY_TIMEOUT` (R337). An unacknowledged message is resent after 50 ms, and after 8 tries the destination is reported unreachable. -/
  | ventRetryTimeout (msgId : BitVec 32)
  /-- `MIRROR_DIGEST` (R380). A partner's S DIGEST packet is compared with the chip's own frame digest. -/
  | mirrorDigest
  /-- `MIRROR_ENTRIES` (R381). A KIND 1 DIGEST packet delivers log entries used to locate the first mismatch. -/
  | mirrorEntries
  /-- `MIRROR_DIGEST_LATE` (R380). The partner's digest for frame n is missing at the tick ending frame n + 2, which raises DATA_LATE. -/
  | mirrorDigestLate (frame : BitVec 32)
  /-- `CKPT_WRITE` (R390). An H CKPT_WRITE packet writes buddy checkpoint data into the device area. -/
  | ckptWrite
  /-- `CKPT_READ` (R320). An H CKPT_READ packet requests buddy checkpoint data. -/
  | ckptRead
  /-- `CKPT_DATA` (R320). An H CKPT_DATA packet returns checkpoint data for a restore. -/
  | ckptData
  /-- `BULK` (R320). An H BULK packet carries a firmware bulk copy between chips. -/
  | bulk
  /-- `ACK` (R351). An ACK symbol frees replay entries up to its value. -/
  | ack (n : PortId) (val : BitVec 16)
  /-- `NAK` (R351). A NAK symbol frees earlier entries and starts a replay from the missing number. -/
  | nak (n : PortId) (val : BitVec 16)
  /-- `REPLAY` (R351). A REPLAY symbol announces the sender's replay end, and the receiver is REPLAYING. -/
  | replay (n : PortId) (val : BitVec 16)
  /-- `LINK_PACKET_CHECK` (R349). The receiver checks a packet's trailer and sequence number and accepts, discards, NAKs or ACKs it. -/
  | linkPacketCheck (n : PortId) (pkt : Packet)
  /-- `ACK_TIMER_EXPIRY` (R351). T_ack expires with packets unacknowledged; the sender sends REPLAY and resends. -/
  | ackTimerExpiry (n : PortId)
  /-- `NAK_REPEAT` (R349). While a NAK is pending, the receiver repeats it every T_nak. -/
  | nakRepeat (n : PortId)
  /-- `ACK_INTERVAL` (R350). After 32 packets or 64 ns the receiver sends an ACK. -/
  | ackInterval (n : PortId)
  /-- `CAL` (R358). A CAL symbol exchanges a calibration stamp. -/
  | cal (n : PortId) (stamp : BitVec 16) (raw : CalRaw)
  /-- `LINK_DOWN` (R363). An ACTIVE port goes down; both ends enter RETRAIN and a job port raises a LINK_DOWN episode. -/
  | linkDown (n : PortId) (cause : DownCause)
  /-- `RETRAIN_DONE` (R364). Retraining reaches ACTIVE, with the pad reset and replay resumed. -/
  | retrainDone (n : PortId) (id : LinkIdent) (locked : BitVec 9)
  /-- `RETRAIN_TIMEOUT` (R364). A retrain attempt not ACTIVE by 2 ms starts again after 10 ms. -/
  | retrainTimeout (n : PortId)
  /-- `LINK_CATCH_UP` (R364). After retraining, the receiver accepts the REPLAY value and its PLL relocks, so the end releases its episode. -/
  | linkCatchUp (n : PortId) (pll : Bool)
  /-- `LINK_ENABLE` (R361). A write of LNKn.CTRL.ENABLE starts or stops full training of a port. -/
  | linkEnable (n : PortId) (on : Bool)
  /-- `FULL_TRAIN` (R361). LNKn.CTRL.FULL_TRAIN starts full training of a port. -/
  | fullTrain (n : PortId)
  /-- `FORCE_RETRAIN` (R369). LNKn.CTRL.RETRAIN forces a retrain of the port. -/
  | forceRetrain (n : PortId)
  /-- `DECLARE_FAILED` (R364). LNKn.CTRL.DECLARE_FAILED makes the port FAILED and discards its packets. -/
  | declareFailed (n : PortId)
  /-- `TRAINING_DONE` (R361). Full training passes SYNC, IDENT and CALIBRATE and the port becomes ACTIVE. -/
  | trainingDone (n : PortId) (id : LinkIdent) (locked : BitVec 9)
  /-- `LANE_LOCK_TIMEOUT` (R361). Lanes not locked by 20 ms are excluded; with fewer than eight, training retries every 100 ms. -/
  | laneLockTimeout (n : PortId) (locked : BitVec 9)
  /-- `LANE_ERROR_WINDOW` (R365). A window of 2^20 codewords ends, and a lane over THRESH is degrading. -/
  | laneErrorWindow (n : PortId) (counts : List (BitVec 32)) (corrected : BitVec 32)
  /-- `LANE_SWAP_REQ` (R369). LNKn.LANE_CFG.REQ starts a swap of the selected lane regardless of THRESH. -/
  | laneSwapReq (n : PortId)
  /-- `LANE_REQ` (R365). A LANE REQ symbol makes the sender copy the lane onto lane 8 and reply LANE ACK. -/
  | laneReq (n : PortId) (lane : LaneIx)
  /-- `LANE_ACK` (R365). A LANE ACK symbol makes the receiver deskew lane 8 and arm the swap for the next tick. -/
  | laneAck (n : PortId) (lane : LaneIx)
  /-- `LANE_DONE` (R366). A LANE DONE symbol ends a swap; the sender sends idle on the replaced lane. -/
  | laneDone (n : PortId) (lane : LaneIx)
  /-- `LANE_REVERT` (R367). A LANE REVERT symbol moves the link back to the original lane. -/
  | laneRevert (n : PortId) (lane : LaneIx)
  /-- `LANE_SYMBOL_RETRY` (R365). A LANE symbol unanswered within 10 µs is sent again. -/
  | laneSymbolRetry (n : PortId)
  /-- `LANE_SWAP` (R366). At the armed tick the receive multiplexer moves to lane 8 under a LINK_DOWN episode. -/
  | laneSwap (n : PortId)
  /-- `LANE_SWAP_VERIFY` (R366). 256 codewords arrive on the new lane set and the swap completes or reverts. -/
  | laneSwapVerify (n : PortId) (good : Bool)
  /-- `CKPT_ARM` (R389). DIG.CKPT_CTRL.ARM arms a buddy checkpoint at a unit tick. -/
  | ckptArm
  /-- `CHECKPOINT_PAUSE` (R389). At the tick every chip stops its counter and writes a checkpoint generation to itself and its buddy. -/
  | checkpointPause
  /-- `CHECKPOINT_PAUSE_END` (R390). The pause ends, and the generation is recorded complete or incomplete. -/
  | checkpointPauseEnd
  /-- `STEP_REPLAY` (R387). After an uncorrectable error, streams, tile words and SEQ are restored for the current unit within the hold. -/
  | stepReplay (p : PartId)
  /-- `RELAUNCH` (R387). The replayed or rolled-back unit restarts at LAUNCH_AT'. -/
  | relaunch (p : PartId)
  /-- `RO_DONE` (R386). The host writes DIG.RESTORE_CTRL.RO_DONE after reloading READ_ONLY data. -/
  | roDone
  /-- `ROLLBACK` (R391). The job is re-bound, reset and restored from the newest checkpoint generation, then relaunched in log replay. -/
  | rollback (p : PartId) (env : BindEnv)
  /-- `RESTORE_GEN_WRITE` (R397). A write of DIG.RESTORE_GEN chooses the generation to restore and restarts phase 4 if it is running. -/
  | restoreGenWrite (val : BitVec 32)
  /-- `PART_ENABLE` (R400). PART.CTRL.ENABLE := 1 checks the configuration and activates the partition. -/
  | partEnable (p : PartId)
  /-- `TEARDOWN` (R410). PART.CTRL.ENABLE := 0 stops the streams, runs the sync check and starts the scrub. -/
  | teardown (p : PartId)
  /-- `SCRUB_DONE` (R410). The teardown scrub ends; the partition becomes OFF, or ACTIVE after a chained restart. -/
  | scrubDone (p : PartId) (fails : List (StackId × ChId))
  /-- `WINGS_LOAD` (R404). PART.WL_CTRL.GO starts a DMA load of a plan image or parameter block into Wings. -/
  | wingsLoad (p : PartId)
  /-- `WINGS_LOAD_DONE` (R404). A Wings load ends, LOADED or in error. -/
  | wingsLoadDone (p : PartId) (res : LoadResult)
  /-- `CURTAIN_ARM` (R406). PART.CTRL.CURTAIN_ARM arms a Curtain at a frame or boundary tick. -/
  | curtainArm (p : PartId)
  /-- `CURTAIN` (R407). At the tick Stage and Wings swap, as a parameter Curtain or the start of an image Curtain. -/
  | curtain (p : PartId)
  /-- `CURTAIN_PAUSE_END` (R408). The image Curtain pause ends and the counter resumes with LAUNCH_AT at the tick. -/
  | curtainPauseEnd (p : PartId) (ready : Bool)
  /-- `ATTESTATION_REQUEST` (R415). SEC.REQ.GO generates fresh key pairs and writes a signed attestation report. -/
  | attestationRequest
  /-- `KEY_DELIVERY` (R416). SEC.DELIVER.GO unwraps a delivery record and installs the key. -/
  | keyDelivery
  /-- `MGMT_PROMOTE` (R420). SEC.MGMT_CTRL.PROMOTE makes the next management key current. -/
  | mgmtPromote
  /-- `FLR` (R438). A VF function-level reset clears its configuration, queue and intake host fields within 100 ms. -/
  | flr (p : PartId)
  /-- `HOT_RESET` (R439). A hot reset or DL_Down resets configuration space but keeps queues, windows and jobs. -/
  | hotReset
  /-- `BUS_MASTER_ENABLE` (R435). Bus Master Enable of a function is set, and its queued writes and staging reads resume. -/
  | busMasterEnable (f : FnId)
  /-- `MSIX_UNMASK` (R436). A pending MSI-X vector is unmasked and its message sent behind earlier writes. -/
  | msixUnmask (f : FnId) (v : VecIx)
  /-- `D3HOT_REQUEST` (R426). A PowerState write requests D3hot for the PF. -/
  | d3hotRequest
  /-- `D3HOT_ENTRY` (R426). The PF enters D3hot once the last partition becomes OFF. -/
  | d3hotEntry
  /-- `INVALID_ACCESS` (R429). A BAR access of a wrong size or alignment is discarded or answered with Unsupported Request. -/
  | invalidAccess (write : Bool)
  /-- `TFTP_WRITE_REQUEST` (R445). A TFTP write request starts a transfer into the staging slot, or is refused. -/
  | tftpWriteRequest (mac : BitVec 48) (octet : Bool) (blksize : Option Nat)
  /-- `TFTP_TRANSFER_END` (R453). A transfer ends and the management core verifies the staged image. -/
  | tftpTransferEnd (img : Slot48)
  /-- `ARP_REQUEST` (R445). The service port answers an ARP request. -/
  | arpRequest (mac : BitVec 48) (ip : BitVec 32) (target : BitVec 32)
  /-- `ICMP_ECHO` (R445). The service port answers an ICMP echo request. -/
  | icmpEcho (mac : BitVec 48) (ip : BitVec 32) (target : BitVec 32) (body : List (BitVec 8))
  /-- `PTP_EVENT_TIMESTAMP` (R446). An IEEE 1588 event message is timestamped into the FIFO. -/
  | ptpEventTimestamp (tx : Bool) (type : BitVec 4) (seqId : BitVec 16)
  /-- `PTP_TS_POP` (R469). A read of SVC.PTP_TS3 pops the oldest timestamp. -/
  | ptpTsPop
  /-- `I3C_COMMIT_ADDRESS` (R447). An I3C write of 0xA5 commits the chip address into PCIE.SELF. -/
  | i3cCommitAddress (addr : BitVec 24)
  /-- `ENTDAA` (R444). The I3C controller assigns the dynamic address. -/
  | entdaa (addr : BitVec 7)
  /-- `BYPASS` (R448). JTAG BYPASS instruction. -/
  | bypass
  /-- `IDCODE` (R448). JTAG IDCODE instruction returns 0x1B2C_6A4F. -/
  | idcode
  /-- `SAMPLE_PRELOAD` (R448). JTAG SAMPLE/PRELOAD instruction. -/
  | samplePreload (cells : List Bool)
  /-- `EXTEST` (R448). JTAG EXTEST instruction. -/
  | extest
  /-- `ROM_BOOT` (R455). At boot the ROM selects and verifies a slot and loads its components. -/
  | romBoot
  /-- `FW_LOAD_DONE` (R480). Firmware has loaded every component and FW_READY reads 1. -/
  | fwLoadDone
  /-- `SELFTEST_PASS` (R456). Self-test passes, and without HOST_CONFIRM firmware confirms the trial boot. -/
  | selftestPass
  /-- `HEALTH_CONFIRM` (R456). FWU.HEALTH_CONFIRM confirms a trial boot and rewrites the boot record. -/
  | healthConfirm (host : Bool)
  /-- `FW_CONFIRM_EXPIRED` (R456). CONFIRM_LEFT reaches 0 without a confirmation, so the next reset falls back. -/
  | fwConfirmExpired
  /-- `CANCEL_STAGE` (R454). FWU.CTRL.CANCEL_STAGE clears PENDING and returns STAGE to IDLE. -/
  | cancelStage
  /-- `SVN_COMMIT` (R457). FWU.CTRL.SVN_COMMIT raises the fused SVN floor to the running SVN. -/
  | svnCommit
  /-- `TIME_INC_COMMIT` (R459). A write of TIME.x_INC_FRAC commits a domain's increment or rejects it. -/
  | timeIncCommit (dom : Bool) (val : BitVec 32)
  /-- `TIME_ADJUST` (R460). TIME.ADJ_CTRL.GO starts a temporary increment on a domain. -/
  | timeAdjust (dom : Bool)
  /-- `TIME_ADJUST_END` (R460). ADJ_TICKS run out, and the domain's own increment resumes. -/
  | timeAdjustEnd (dom : Bool)
  /-- `TIME_SET_A` (R460). TIME.SET_CTRL.GO_A steps domain A at the next tick. -/
  | timeSetA
  /-- `TIME_SET_B` (R460). TIME.SET_CTRL.GO_B steps domain B at the next tick. -/
  | timeSetB
  /-- `TIME_ACTIVE_WRITE` (R461). A change of TIME.CTRL.ACTIVE switches the domain of PPS_OUT at the next tick. -/
  | timeActiveWrite (dom : Bool)
  /-- `PPS_OUT` (R462). The active domain reaches a whole second and PPS_OUT rises. -/
  | ppsOut
  /-- `PPS_OUT_END` (R462). The pulse width expires and PPS_OUT falls. -/
  | ppsOutEnd
  /-- `PPS_IN` (R462). A rising edge of PPS_IN is captured in both domains and logged. -/
  | ppsIn
  /-- `TRIGGER_ARM` (R464). TIME.TRIG_CTRL.ARM arms a trigger at a domain time. -/
  | triggerArm (val : BitVec 32)
  /-- `TRIGGER_CAPTURE` (R464). A trigger with ACTION CAPTURE fires and writes a log entry. -/
  | triggerCapture (j : TrigIx)
  /-- `TRIGGER_ARM_LAUNCH` (R464). A trigger fires and performs the PLAN.CTRL.ARM write. -/
  | triggerArmLaunch (j : TrigIx)
  /-- `TRIGGER_START_ALIGN` (R464). A trigger fires and starts alignment on the root. -/
  | triggerStartAlign (j : TrigIx)
  /-- `TRIGGER_ARM_STEP` (R464). A trigger fires and performs the CLK.STEP_CTRL.ARM write. -/
  | triggerArmStep (j : TrigIx)
  /-- `TIME_LOG_POP` (R471). A read of TIME.LOG_DATA7 pops the oldest event log entry. -/
  | timeLogPop
  /-- `TIME_REF_LOST` (R465). TIME_REFCLK is missing for 64 ns; domains continue on the internal tick. -/
  | timeRefLost
  /-- `TIME_REF_RESTORED` (R465). TIME_REFCLK present for 1 ms is taken back. -/
  | timeRefRestored
  /-- `CRC_COMPUTE` (R467). CRCu.CTRL.GO in COMPUTE mode computes a CRC over host memory. -/
  | crcCompute (u : CrcIx)
  /-- `CRC_CHECK` (R468). CRCu.CTRL.GO in CHECK mode classifies blocks by CRC and alive counter. -/
  | crcCheck (u : CrcIx)
  /-- `CRC_RUN_DONE` (R467). A check-value run ends, and a queued run starts. -/
  | crcRunDone (u : CrcIx) (data : List (BitVec 8)) (err : Bool)
  /-- `SNAP_CAPTURE` (R484). SNAP.CMD.CAPTURE copies every captured register in one clk. -/
  | snapCapture
  /-- `SNAP_ARM_AT` (R487). SNAP.CMD.ARM_AT arms a capture at a frame tick. -/
  | snapArmAt
  /-- `SNAP_TICK_CAPTURE` (R487). An armed tick capture is made at its tick before the other changes of that tick. -/
  | snapTickCapture
  /-- `FAULT_LOG_CLEAR` (R482). TOP.FAULT_CTRL.CLEAR empties the fault log. -/
  | faultLogClear
  /-- `FAULT_LOG_POP` (R482). A read of TOP.FAULT_DATA7 removes the oldest fault record. -/
  | faultLogPop
  /-- `RC_COUNTER_READ` (R475). A read of an RC field returns and clears it. -/
  | rcCounterRead (f : FnId) (off : BitVec 26)
  /-- `BIT_ALIAS_ACCESS` (R490). An access to the bit-alias region acts on one bit with its access code. -/
  | bitAliasAccess (off : BitVec 26) (write : Bool) (val : BitVec 32)
  /-- `REGISTER_WRITE` (R478). A write to a register with no row of its own takes effect or is chained. -/
  | registerWrite (f : FnId) (off : BitVec 26) (val : BitVec 32)
  /-- `SYS_RESET` (R500). SYS_RESET_N asserted puts the whole part into reset. -/
  | sysReset
  /-- `PERST` (R500). PERST# asserted puts the whole part into reset. -/
  | perst
  /-- `RESET_RELEASE` (R501). Release of the later reset input starts the ROM, PCIe training and the confirm count. -/
  | resetRelease
  /-- `TILE_RESET_SCRUB_DONE` (R59). A tile's reset scrub completes and SCRUBBED reads 1. -/
  | tileResetScrubDone (t : TileId)
  /-- `STACK_RESET_SCRUB_DONE` (R501). The post-reset stack scrub ends and waiting partitions are enabled. -/
  | stackResetScrubDone (k : StackId)
  /-- `RAIL_UNDERVOLTAGE` (R499). A rail below 90 % for 2 µs resets the part internally. -/
  | railUndervoltage (rail : RailIx)
  /-- `RAIL_FAULT` (R499). A rail outside tolerance but at or above 90 % raises F-0805 and ALERT_N. -/
  | railFault (rail : RailIx)
  /-- `REFCLK_LOST` (R505). SYS_REFCLK or LINK_REFCLK is missing for 1 µs; PLLs hold, or ports go down. -/
  | refclkLost (link : Bool)
  /-- `THERMAL_LIMIT` (R507). Tj reaches 105 °C or a stack 95 °C; ALERT_N is driven and F-0804 raised. -/
  | thermalLimit (sensor : SensorIx) (temp : BitVec 8)
  /-- `THERMAL_TRIP` (R508). A sensor reaches its trip temperature; THERMTRIP_N falls and every clock stops. -/
  | thermalTrip (sensor : SensorIx)
  /-- `UNCORRECTABLE_CODEWORD` (R343). A received codeword is uncorrectable: its control field is lost, FEC_UNCORR counts it, the receiver loses its place in the packet stream until the next replayed packet start, and an eighth such codeword in 1,024 takes the port down. -/
  | uncorrectableCodeword (n : PortId)
  /-- `STACK_OPEN_ACCESS` (R191). The logic die admits a queued open access (Ash log append, host staging write, buddy checkpoint traffic or sealed-load write) in a pc without a planned arrival and within the OPEN share. -/
  | stackOpenAccess (k : StackId) (c : ChId)
  /-- `OUTBOUND_QUEUE_SEND` (R432). The outbound queue sends a queued result record, step sequence word or MSI-X message of a function over PCIe as the link allows, emptying the function's QUEUED state. -/
  | outboundQueueSend (f : FnId)
  /-- `ALERT_N_RELEASE` (R507). ALERT_N is released once Tj is below 102 °C, every stack is below 92 °C, and every rail and reference clock is good again. -/
  | alertNRelease (tj : BitVec 8) (temps : List (BitVec 8))
  /-- `RAIL_RESTORED` (R499). After an undervoltage reset, every rail is back above 90 % of nominal and the part leaves its internal reset. -/
  | railRestored
  /-- `SERVICE_FRAME_DROP` (R445). A service-port Ethernet frame that is not ARP, ICMP echo, a TFTP write transfer or a PTP event is dropped and counted in SVC.RX_DROP. -/
  | serviceFrameDrop
  /-- `SGMII_LINK_CHANGE` (R469). The SGMII link of the service port comes up or goes down, changing SVC.ETH_STATUS.LINK. -/
  | sgmiiLinkChange (up : Bool)
  /-- `PCIE_LINK_UP` (R501). PCIe link training started by the ROM, or retraining after DL_Down, completes and the link reaches L0, setting PCIE.LINK.UP, SPEED and WIDTH. -/
  | pcieLinkUp (speed : BitVec 3) (width : BitVec 5) (flit : Bool)
  deriving DecidableEq, Repr

end Sys2Proof
end

