-- ==== Sys2Proof/Machine/Bits.lean ====
section
/-! DEFINITION. Bit fields, byte order, list and vector helpers shared by every family. -/

namespace Sys2Proof.Machine
open Sys2Proof

/-- The element at `i`, or `d` where there is none. -/
def vget {α : Type} {n : Nat} (v : Vector α n) (i : Nat) (d : α) : α := v[i]?.getD d

/-- The vector with element `i` replaced; unchanged where there is none. -/
def vset {α : Type} {n : Nat} (v : Vector α n) (i : Nat) (x : α) : Vector α n := v.setIfInBounds i x

/-- A BitVec from a Bool. -/
def b1 (b : Bool) : BitVec 1 := if b then 1#1 else 0#1

/-- A 32-bit image from `(value, low bit)` fields; fields do not overlap. -/
def pack32 (fs : List (Nat × Nat)) : BitVec 32 :=
  BitVec.ofNat 32 (fs.foldl (fun a f => a ||| (f.1 <<< f.2)) 0)

/-- A Bool as a field value. -/
def bn (b : Bool) : Nat := if b then 1 else 0

/-- Bits `[hi:lo]` of a word as a number. -/
def field {w : Nat} (x : BitVec w) (hi lo : Nat) : Nat := (x.toNat >>> lo) % 2 ^ (hi + 1 - lo)

/-- Bit `i` of a word. -/
def bit {w : Nat} (x : BitVec w) (i : Nat) : Bool := x.getLsbD i

/-- `n` as a signed number of `w` bits. -/
def sext (w : Nat) (n : Nat) : Int := (BitVec.ofNat w n).toInt

/-- Ceiling division. -/
def ceilDiv (a b : Nat) : Nat := (a + b - 1) / b

/-- The low half of a 64-bit register pair (R474). -/
def lo32 (x : BitVec 64) : BitVec 32 := x.setWidth 32

/-- The high half of a 64-bit register pair (R474). -/
def hi32 (x : BitVec 64) : BitVec 32 := (x >>> 32).setWidth 32

/-- A register pair with its low half written. -/
def setLo (x : BitVec 64) (v : BitVec 32) : BitVec 64 := hi32 x ++ v

/-- A register pair with its high half written. -/
def setHi (x : BitVec 64) (v : BitVec 32) : BitVec 64 := v ++ lo32 x

/-- A saturating counter one higher. -/
def satInc {w : Nat} (x : BitVec w) : BitVec w := if x = BitVec.allOnes w then x else x + 1

/-- A saturating counter `n` higher. -/
def satAdd {w : Nat} (x : BitVec w) (n : Nat) : BitVec w :=
  if x.toNat + n ≥ 2 ^ w then BitVec.allOnes w else BitVec.ofNat w (x.toNat + n)

/-- A number saturated into `w` bits. -/
def satNat (w n : Nat) : BitVec w := if n ≥ 2 ^ w then BitVec.allOnes w else BitVec.ofNat w n

/-- The bytes of a number, least significant first. -/
def bytesOf : Nat → Nat → List (BitVec 8)
  | 0, _ => []
  | k + 1, x => BitVec.ofNat 8 x :: bytesOf k (x / 256)

/-- The number that bytes spell, least significant first. -/
def natOfBytes : List (BitVec 8) → Nat
  | [] => 0
  | b :: bs => b.toNat + 256 * natOfBytes bs

/-- Byte `i` of a word, little-endian. -/
def byteAt {w : Nat} (x : BitVec w) (i : Nat) : BitVec 8 := BitVec.ofNat 8 (x.toNat >>> (8 * i))

/-- A 64-byte word from its bytes, byte 0 first; missing bytes are 0. -/
def lineOfBytes (bs : List (BitVec 8)) : Line := BitVec.ofNat 512 (natOfBytes bs)

/-- The 64 bytes of a word. -/
def bytesOfLine (x : Line) : List (BitVec 8) := bytesOf 64 x.toNat

/-- Lane `i` of `w` bits of a word (R90). -/
def lane (w : Nat) (x : Line) (i : Nat) : BitVec w := BitVec.ofNat w (x.toNat >>> (w * i))

/-- A word from lanes of `w` bits, lane 0 first. -/
def lineOfLanes (w : Nat) (ls : List (BitVec w)) : Line :=
  BitVec.ofNat 512 (ls.foldr (fun l a => l.toNat + a * 2 ^ w) 0)

/-- The lanes of `w` bits of a word. -/
def lanesOf (w : Nat) (x : Line) : List (BitVec w) := (List.range (512 / w)).map (lane w x)

/-- Cuts a list into pieces of `n` elements; `k` bounds the number of pieces. -/
def chunksOf {α : Type} (n : Nat) : Nat → List α → List (List α)
  | 0, _ => []
  | k + 1, xs => if xs.isEmpty then [] else xs.take n :: chunksOf n k (xs.drop n)

/-- Bytes cut into 64-byte words. -/
def linesOfBytes (bs : List (BitVec 8)) : List Line :=
  (chunksOf 64 (bs.length / 64 + 1) bs).map lineOfBytes

/-- Insertion of a number into an ascending list without repeats. -/
def nsIns (x : Nat) : List Nat → List Nat
  | [] => [x]
  | y :: ys => if x < y then x :: y :: ys else if x = y then y :: ys else y :: nsIns x ys

/-- Removal of a number from a list. -/
def nsDel (x : Nat) (l : List Nat) : List Nat := l.filter (· != x)

/-- Membership. -/
def nsHas (x : Nat) (l : List Nat) : Bool := l.contains x

/-- Insertion or removal by a flag. -/
def nsSet (x : Nat) (b : Bool) (l : List Nat) : List Nat := if b then nsIns x l else nsDel x l

/-- The value at key `k` of an association list. -/
def alGet {α : Type} (k : Nat) : List (Nat × α) → Option α
  | [] => none
  | (i, x) :: r => if i = k then some x else alGet k r

/-- An association list, ascending by key, with key `k` set. -/
def alSet {α : Type} (k : Nat) (v : α) : List (Nat × α) → List (Nat × α)
  | [] => [(k, v)]
  | (i, x) :: r => if k < i then (k, v) :: (i, x) :: r else if k = i then (k, v) :: r else (i, x) :: alSet k v r

/-- An association list with key `k` removed. -/
def alDel {α : Type} (k : Nat) (l : List (Nat × α)) : List (Nat × α) := l.filter (fun e => e.1 != k)

/-- The numbers of the bits set in a word, ascending. -/
def bitsOf {w : Nat} (x : BitVec w) : List Nat := (List.range w).filter (fun i => x.getLsbD i)

/-- A word with the bits of a list set. -/
def ofBits (w : Nat) (l : List Nat) : BitVec w := BitVec.ofNat w (l.foldl (fun a i => a ||| (1 <<< i)) 0)

/-- Stable insertion sort by a strict order. -/
def insertBy {α : Type} (lt : α → α → Bool) (x : α) : List α → List α
  | [] => [x]
  | y :: ys => if lt x y then x :: y :: ys else y :: insertBy lt x ys

/-- Stable sort by a strict order. -/
def sortBy {α : Type} (lt : α → α → Bool) (l : List α) : List α := l.foldl (fun a x => insertBy lt x a) []

/-- The least element by a measure, the earliest among equals. -/
def minBy {α : Type} (f : α → Nat) : List α → Option α
  | [] => none
  | x :: xs =>
    match minBy f xs with
    | none => some x
    | some y => if f y < f x then some y else some x

/-- CRC of a byte list, most significant bit first, over a register of `w` bits. -/
def crcMsb (w : Nat) (poly : BitVec w) (init : BitVec w) (bits : List Bool) : BitVec w :=
  bits.foldl (fun r b => if (r.getMsbD 0) != b then (r <<< 1) ^^^ poly else r <<< 1) init

/-- The bits of a byte, most significant first. -/
def bitsMsb (b : BitVec 8) : List Bool := (List.range 8).map (fun i => b.getLsbD (7 - i))

/-- The bits of a byte, least significant first. -/
def bitsLsb (b : BitVec 8) : List Bool := (List.range 8).map (fun i => b.getLsbD i)

/-- The bits of a word in reverse order. -/
def bitRev {w : Nat} (x : BitVec w) : BitVec w := x.reverse

end Sys2Proof.Machine
end

