-- ==== Sys2Proof/Machine/Float.lean ====
section
/-! DEFINITION. Number formats and exact arithmetic with one rounding (R152 to R167). A finite value is a sign, a
natural mantissa and a power of two, so every intermediate result is exact. -/

namespace Sys2Proof.Machine
open Sys2Proof

/-- A value read from a floating-point code; a finite value is `(-1)^neg * m * 2^e`. -/
inductive FVal where
  | nan
  | inf (neg : Bool)
  | fin (neg : Bool) (m : Nat) (e : Int)
  deriving DecidableEq, Repr

/-- A floating-point format (R152). `special` is 0 with infinities and NaNs, 1 for E4M3, 2 without either. -/
structure FFmt where
  ebits : Nat
  mbits : Nat
  bias : Nat
  special : Nat
  deriving DecidableEq, Repr

/-- FP32 (R152). -/
def fp32 : FFmt := ⟨8, 23, 127, 0⟩
/-- BF16 (R152). -/
def bf16 : FFmt := ⟨8, 7, 127, 0⟩
/-- FP16 (R152). -/
def fp16 : FFmt := ⟨5, 10, 15, 0⟩
/-- FP8 E5M2 (R152). -/
def e5m2 : FFmt := ⟨5, 2, 15, 0⟩
/-- FP8 E4M3 (R152). -/
def e4m3 : FFmt := ⟨4, 3, 7, 1⟩
/-- FP6 E3M2 (R152). -/
def e3m2 : FFmt := ⟨3, 2, 3, 2⟩
/-- FP6 E2M3 (R152). -/
def e2m3 : FFmt := ⟨2, 3, 1, 2⟩
/-- FP4 E2M1 (R152). -/
def e2m1 : FFmt := ⟨2, 1, 1, 2⟩

/-- Bits of a format. -/
def FFmt.width (f : FFmt) : Nat := 1 + f.ebits + f.mbits

/-- The value of a code (R152). -/
def decodeF (f : FFmt) (code : Nat) : FVal :=
  let neg := (code / 2 ^ (f.ebits + f.mbits)) % 2 = 1
  let ex := (code / 2 ^ f.mbits) % 2 ^ f.ebits
  let m := code % 2 ^ f.mbits
  if f.special = 0 && ex = 2 ^ f.ebits - 1 then (if m = 0 then .inf neg else .nan)
  else if f.special = 1 && ex = 15 && m = 7 then .nan
  else if ex = 0 then .fin neg m (1 - (f.bias : Int) - f.mbits)
  else .fin neg (m + 2 ^ f.mbits) ((ex : Int) - f.bias - f.mbits)

/-- The canonical NaN of a format (R153). -/
def nanCode (f : FFmt) : Nat :=
  if f.special = 1 then 0x7F else (2 ^ f.ebits - 1) * 2 ^ f.mbits + 2 ^ (f.mbits - 1)

/-- The largest finite magnitude of a format as a code (R152). -/
def maxCode (f : FFmt) : Nat :=
  match f.special with
  | 0 => (2 ^ f.ebits - 1) * 2 ^ f.mbits - 1
  | 1 => 0x7E
  | _ => 2 ^ (f.ebits + f.mbits) - 1

/-- `m * 2^e`, plus less than one unit where `sticky`, rounded to a whole number: nearest, ties to even.
With `sticky`, `e` must be negative. -/
def rneNat (m : Nat) (e : Int) (sticky : Bool := false) : Nat :=
  match e with
  | .ofNat k => m * 2 ^ k
  | .negSucc k =>
    let sh := k + 1
    let n := m / 2 ^ sh
    let r := m % 2 ^ sh
    let half := 2 ^ (sh - 1)
    if r > half || (r = half && (sticky || n % 2 = 1)) then n + 1 else n

/-- The magnitude `m * 2^e`, plus a sticky part, rounded once to a format; overflow by R155. -/
def encodeMag (f : FFmt) (sat neg : Bool) (m : Nat) (e : Int) (sticky : Bool := false) : Nat :=
  let sgn := if neg then 2 ^ (f.ebits + f.mbits) else 0
  if m = 0 then sgn
  else
    let emin : Int := 1 - f.bias
    let top : Int := (Nat.log2 m : Int) + e
    let q : Int := max top emin - f.mbits
    let n := rneNat m (e - q) sticky
    let mag := (q - (emin - f.mbits)).toNat * 2 ^ f.mbits + n
    if mag > maxCode f then
      if sat || f.special = 2 then sgn + maxCode f
      else if f.special = 1 then 0x7F
      else sgn + (maxCode f + 1)
    else sgn + mag

/-- A value rounded once to a format (R155). -/
def encodeF (f : FFmt) (sat : Bool) : FVal → Nat
  | .nan => nanCode f
  | .inf neg =>
    let sgn := if neg then 2 ^ (f.ebits + f.mbits) else 0
    if f.special = 0 then sgn + (maxCode f + 1)
    else if f.special = 1 && !sat then 0x7F
    else sgn + maxCode f
  | .fin neg m e => encodeMag f sat neg m e

/-- The signed mantissa at exponent `e0`, for `e0` at most the value's exponent. -/
def FVal.scaled (neg : Bool) (m : Nat) (e e0 : Int) : Int :=
  let n : Int := (m * 2 ^ (e - e0).toNat : Nat)
  if neg then -n else n

/-- Exact sum; a zero sum of unlike signs is +0 (R155, IEEE 754-2019). -/
def FVal.add : FVal → FVal → FVal
  | .nan, _ => .nan
  | _, .nan => .nan
  | .inf a, .inf b => if a = b then .inf a else .nan
  | .inf a, .fin .. => .inf a
  | .fin .., .inf b => .inf b
  | .fin a m e, .fin b n g =>
    let e0 := min e g
    let x := FVal.scaled a m e e0 + FVal.scaled b n g e0
    if x = 0 then .fin (a && b) 0 e0 else .fin (decide (x < 0)) x.natAbs e0

/-- Exact product. -/
def FVal.mul : FVal → FVal → FVal
  | .nan, _ => .nan
  | _, .nan => .nan
  | .inf a, .inf b => .inf (a != b)
  | .inf a, .fin b m _ => if m = 0 then .nan else .inf (a != b)
  | .fin a m _, .inf b => if m = 0 then .nan else .inf (a != b)
  | .fin a m e, .fin b n g => .fin (a != b) (m * n) (e + g)

/-- Negation. -/
def FVal.neg : FVal → FVal
  | .nan => .nan
  | .inf a => .inf (!a)
  | .fin a m e => .fin (!a) m e

/-- Product with a power of two. -/
def FVal.shift (k : Int) : FVal → FVal
  | .fin a m e => .fin a m (e + k)
  | v => v

/-- A value is NaN. -/
def FVal.isNan : FVal → Bool
  | .nan => true
  | _ => false

/-- A value is not finite. -/
def FVal.special : FVal → Bool
  | .fin .. => false
  | _ => true

/-- Numeric order of values that are not NaN, with -0 equal to +0. -/
def FVal.lt : FVal → FVal → Bool
  | .nan, _ => false
  | _, .nan => false
  | .inf a, .inf b => a && !b
  | .inf a, .fin .. => a
  | .fin .., .inf b => !b
  | .fin a m e, .fin b n g =>
    let e0 := min e g
    decide (FVal.scaled a m e e0 < FVal.scaled b n g e0)

/-- A zero with its sign. -/
def FVal.negZero : FVal → Bool
  | .fin a m _ => a && m = 0
  | _ => false

/-- Numeric equality: -0 equals +0, and a NaN equals nothing. -/
def FVal.eq (a b : FVal) : Bool := !a.isNan && !b.isNan && !a.lt b && !b.lt a

/-- IEEE 754-2019 minimum: NaN propagates, and -0 is less than +0 (R111). -/
def FVal.min2 (a b : FVal) : FVal :=
  if a.isNan || b.isNan then .nan
  else if a.lt b then a else if b.lt a then b else if a.negZero then a else b

/-- IEEE 754-2019 maximum (R111). -/
def FVal.max2 (a b : FVal) : FVal :=
  if a.isNan || b.isNan then .nan
  else if a.lt b then b else if b.lt a then a else if a.negZero then b else a

/-- A value rounded to a whole number, nearest with ties to even. -/
def FVal.rint : FVal → Int
  | .fin neg m e => let n : Int := (rneNat m e : Nat); if neg then -n else n
  | _ => 0

/-- A whole number clamped into a range. -/
def clampI (lo hi x : Int) : Int := if x < lo then lo else if hi < x then hi else x

/-- A conversion to a two's-complement integer of `w` bits: saturates, NaN gives 0 (R112, R155). -/
def toIntSat (w : Nat) (v : FVal) : BitVec w :=
  let hi : Int := 2 ^ (w - 1) - 1
  let lo : Int := -(2 ^ (w - 1))
  match v with
  | .nan => 0
  | .inf neg => BitVec.ofInt w (if neg then lo else hi)
  | .fin .. => BitVec.ofInt w (clampI lo hi v.rint)

/-- A whole number as a value. -/
def FVal.ofInt (x : Int) : FVal := .fin (decide (x < 0)) x.natAbs 0

/-- The value of an FP32 code. -/
def f32 (c : BitVec 32) : FVal := decodeF fp32 c.toNat

/-- A value rounded once to FP32 (R155). -/
def rne32 (v : FVal) : BitVec 32 := BitVec.ofNat 32 (encodeF fp32 false v)

/-- FP32 addition with one rounding (R100, R109). -/
def add32 (a b : BitVec 32) : BitVec 32 := rne32 ((f32 a).add (f32 b))

/-- FP32 multiplication with one rounding. -/
def mul32 (a b : BitVec 32) : BitVec 32 := rne32 ((f32 a).mul (f32 b))

/-- The canonical FP32 NaN (R153). -/
def nan32 : BitVec 32 := 0x7FC00000

/-- One level of a pairwise tree: elements 2l and 2l + 1 combined (R114). -/
def pairUp {α : Type} (f : α → α → α) : List α → List α
  | a :: b :: r => f a b :: pairUp f r
  | l => l

/-- A pairwise tree of `depth` levels (R114). -/
def treeFold {α : Type} (f : α → α → α) : Nat → List α → List α
  | 0, l => l
  | d + 1, l => treeFold f d (pairUp f l)

/-- floor(log2) of a positive finite magnitude. -/
def FVal.log2 : FVal → Option Int
  | .fin _ m e => if m = 0 then none else some ((Nat.log2 m : Int) + e)
  | _ => none

/-! ### Transcendental functions, correctly rounded (R166)

Values are fixed-point numbers with `tp` fraction bits; a computed value stands for itself plus less than one unit. -/

/-- Fraction bits of the fixed-point computations. -/
def tp : Nat := 320

/-- `Σ z^(2k+1) / (2k+1)` from term `k` on, for fixed-point `z` with power `zp` of it (atanh). -/
def atanhSum (z2 : Nat) : Nat → Nat → Nat → Nat
  | 0, _, _ => 0
  | n + 1, zp, k => zp / (2 * k + 1) + atanhSum z2 n (zp * z2 / 2 ^ tp) (k + 1)

/-- atanh of a fixed-point number below 1/2. -/
def atanhFx (z : Nat) : Nat := atanhSum (z * z / 2 ^ tp) 110 z 0

/-- ln 2. -/
def ln2Fx : Nat := 2 * atanhFx (2 ^ tp / 3)

/-- `Σ y^k / k!` from term `k` on with the current term. -/
def expSum (y : Nat) : Nat → Nat → Nat → Nat
  | 0, _, _ => 0
  | n + 1, t, k => t + expSum y n (t * y / (2 ^ tp * (k + 1))) (k + 1)

/-- `2^f` for a fixed-point fraction `f` below 1. -/
def exp2Fx (f : Nat) : Nat := expSum (f * ln2Fx / 2 ^ tp) 120 (2 ^ tp) 0

/-- `e^y` for a fixed-point `y`. -/
def expFx (y : Nat) : Nat :=
  let t := y * 2 ^ tp / ln2Fx
  exp2Fx (t % 2 ^ tp) * 2 ^ (t / 2 ^ tp)

/-- A magnitude `m * 2^e` as a fixed-point number. -/
def toFx (m : Nat) (e : Int) : Nat :=
  match e + tp with
  | .ofNat k => m * 2 ^ k
  | .negSucc k => m / 2 ^ (k + 1)

/-- The integer square root, bit by bit from bit `k - 1`. -/
def isqrtFrom (n : Nat) : Nat → Nat → Nat
  | 0, r => r
  | k + 1, r => let r' := r + 2 ^ k; if r' * r' ≤ n then isqrtFrom n k r' else isqrtFrom n k r

/-- A fixed-point magnitude that is not exact, rounded once to FP32. -/
def fxToF32 (neg : Bool) (x : Nat) : BitVec 32 := BitVec.ofNat 32 (encodeMag fp32 false neg x (-(tp : Int)) true)

/-- EXP2 (R166). -/
def trExp2 : FVal → BitVec 32
  | .nan => nan32
  | .inf neg => if neg then 0 else 0x7F800000
  | .fin neg m e =>
    let x := toFx m e
    if m = 0 then 0x3F800000
    else if !neg && x ≥ 128 * 2 ^ tp then 0x7F800000
    else if neg && x ≥ 150 * 2 ^ tp then 0
    else
      let n : Int := if neg then -((ceilDiv x (2 ^ tp) : Nat) : Int) else ((x / 2 ^ tp : Nat) : Int)
      let f : Nat := if neg then ceilDiv x (2 ^ tp) * 2 ^ tp - x else x % 2 ^ tp
      if f = 0 then BitVec.ofNat 32 (encodeMag fp32 false false 1 n)
      else BitVec.ofNat 32 (encodeMag fp32 false false (exp2Fx f) (n - tp) true)

/-- LOG2 (R166). -/
def trLog2 : FVal → BitVec 32
  | .nan => nan32
  | .inf neg => if neg then nan32 else 0x7F800000
  | .fin neg m e =>
    if m = 0 then 0xFF800000
    else if neg then nan32
    else
      let k := Nat.log2 m
      if m = 2 ^ k then rne32 (FVal.ofInt ((k : Int) + e))
      else
        let z := (m - 2 ^ k) * 2 ^ tp / (m + 2 ^ k)
        let fr := 2 * atanhFx z * 2 ^ tp / ln2Fx
        let whole : Int := (k : Int) + e
        if whole ≥ 0 then fxToF32 false (whole.toNat * 2 ^ tp + fr)
        else fxToF32 true (whole.natAbs * 2 ^ tp - fr - 1)

/-- RECIP (R166). -/
def trRecip : FVal → BitVec 32
  | .nan => nan32
  | .inf neg => if neg then 0x80000000 else 0
  | .fin neg m e =>
    if m = 0 then (if neg then 0xFF800000 else 0x7F800000)
    else BitVec.ofNat 32 (encodeMag fp32 false neg (2 ^ 100 / m) (-e - 100) (decide (2 ^ 100 % m ≠ 0)))

/-- RSQRT (R166). -/
def trRsqrt : FVal → BitVec 32
  | .nan => nan32
  | .inf neg => if neg then nan32 else 0
  | .fin neg m e =>
    if m = 0 then (if neg then 0xFF800000 else 0x7F800000)
    else if neg then nan32
    else
      let m' := if e % 2 = 0 then m else 2 * m
      let e' := if e % 2 = 0 then e else e - 1
      let y := isqrtFrom (2 ^ 200 / m') 101 0
      BitVec.ofNat 32 (encodeMag fp32 false false y (-(e' / 2) - 100) (decide (y * y * m' ≠ 2 ^ 200)))

/-- TANH (R166). -/
def trTanh (v : FVal) : BitVec 32 :=
  match v with
  | .nan => nan32
  | .inf neg => if neg then 0xBF800000 else 0x3F800000
  | .fin neg m e =>
    let x := toFx m e
    if x ≤ 2 ^ (tp - 12) then rne32 v
    else if 2 * x ≥ 19 * 2 ^ tp then (if neg then 0xBF800000 else 0x3F800000)
    else
      let g := expFx (2 * x)
      fxToF32 neg ((g - 2 ^ tp) * 2 ^ tp / (g + 2 ^ tp))

/-- SIGMOID (R166). -/
def trSigmoid (v : FVal) : BitVec 32 :=
  match v with
  | .nan => nan32
  | .inf neg => if neg then 0 else 0x3F800000
  | .fin neg m e =>
    let x := toFx m e
    if x ≤ 2 ^ (tp - 24) then 0x3F000000
    else if !neg && x ≥ 18 * 2 ^ tp then 0x3F800000
    else if neg && x ≥ 104 * 2 ^ tp then 0
    else
      let g := expFx x
      if neg then fxToF32 false (2 ^ tp * 2 ^ tp / (g + 2 ^ tp))
      else fxToF32 false (g * 2 ^ tp / (g + 2 ^ tp))

/-- VX.TR's function by its code, on FP32 (R113, R166). -/
def trFunc (func : Nat) (v : FVal) : BitVec 32 :=
  match func with
  | 0 => trExp2 v
  | 1 => trLog2 v
  | 2 => trRecip v
  | 3 => trRsqrt v
  | 4 => trTanh v
  | _ => trSigmoid v

/-! ### The ER exact format (R162 to R165) -/

/-- The largest ER magnitude. -/
def erMax : Int := 2 ^ 127 - 1

/-- ER-NaN (R162). -/
def erNan : BitVec 128 := BitVec.ofNat 128 (2 ^ 127)

/-- An ER code from an exact integer, and whether it saturated (R163, R164). -/
def erSat (x : Int) : BitVec 128 × Bool :=
  if x > erMax then (BitVec.ofInt 128 erMax, true)
  else if x < -erMax then (BitVec.ofInt 128 (-erMax), true)
  else (BitVec.ofInt 128 x, false)

/-- toER: truncation toward zero, saturation, NaN to ER-NaN, and whether the flag is set (R163). -/
def toER (v : FVal) (ebase : Int) : BitVec 128 × Bool :=
  match v with
  | .nan => (erNan, true)
  | .inf neg => (BitVec.ofInt 128 (if neg then -erMax else erMax), true)
  | .fin neg m e =>
    let k := e - (ebase - 100)
    let n : Nat := match k with
      | .ofNat j => m * 2 ^ j
      | .negSucc j => m / 2 ^ (j + 1)
    erSat (if neg then -(n : Int) else n)

/-- ER addition, and whether the flag is set (R164). -/
def erAdd (a b : BitVec 128) : BitVec 128 × Bool :=
  if a = erNan || b = erNan then (erNan, true) else erSat (a.toInt + b.toInt)

/-- fromER: one rounding to FP32 (R165). -/
def fromER (n : BitVec 128) (ebase : Int) : BitVec 32 :=
  if n = erNan then nan32
  else if n = 0 then 0
  else BitVec.ofNat 32 (encodeMag fp32 false (decide (n.toInt < 0)) n.toInt.natAbs (ebase - 100))

/-- E_base lies in its range (R162). -/
def ebaseOk (e : Int) : Bool := decide (-128 ≤ e) && decide (e ≤ 100)

end Sys2Proof.Machine
end

