-- ==== Sys2Proof/Config.lean ====
section
/-! DEFINITION. What an implementation fixes and the spec does not: free values and cryptographic functions.
An opaque constant has no body, so no proof can see a value of it. -/

namespace Sys2Proof.Config
open Sys2Proof

/-- A value that the spec leaves open (DESIGN CHOICE, notes/assumptions/9.md): the `k`-th one drawn, `w` bits wide. -/
opaque freeValue (w : Nat) (k : Nat) : BitVec w

/-- AES-256-XTS under a key pair and a tweak: a permutation of the 64-byte units (R203; DESIGN CHOICE,
notes/assumptions/10.md). -/
opaque xts (key : BitVec 512) (tweak : BitVec 128) : Equiv.Perm Line

/-- AES-256-XTS encryption of one unit (R203). -/
def xtsEncrypt (key : BitVec 512) (tweak : BitVec 128) (data : Line) : Line := xts key tweak data

/-- AES-256-XTS decryption of one unit (R203). -/
def xtsDecrypt (key : BitVec 512) (tweak : BitVec 128) (data : Line) : Line := (xts key tweak).symm data

/-- Byte `i` of the AES-256-GCM key stream of a key and a nonce (R205, R337, R416; DESIGN CHOICE, notes/assumptions/10.md). -/
opaque gcmStream (key : BitVec 256) (nonce : BitVec 96) (i : Nat) : BitVec 8

/-- The AES-256-GCM tag of additional data and a ciphertext (R205, R337, R416; DESIGN CHOICE, notes/assumptions/10.md). -/
opaque gcmTag (key : BitVec 256) (nonce : BitVec 96) (aad ct : List (BitVec 8)) : BitVec 128

/-- Bytes combined with the key stream: encryption and decryption alike. -/
def gcmApply (key : BitVec 256) (nonce : BitVec 96) (b : List (BitVec 8)) : List (BitVec 8) :=
  b.mapIdx fun i x => x ^^^ gcmStream key nonce i

/-- AES-256-GCM opening: the plaintext where the tag verifies (R205, R337, R416). -/
def gcmOpen (key : BitVec 256) (nonce : BitVec 96) (aad ct : List (BitVec 8)) (tag : BitVec 128) : Option (List (BitVec 8)) :=
  if gcmTag key nonce aad ct = tag then some (gcmApply key nonce ct) else none

/-- AES-256-GCM sealing: ciphertext and tag (R337). -/
def gcmSeal (key : BitVec 256) (nonce : BitVec 96) (aad pt : List (BitVec 8)) : List (BitVec 8) × BitVec 128 :=
  let ct := gcmApply key nonce pt
  (ct, gcmTag key nonce aad ct)

/-- SHA-512 of a byte string (R219, R407, R415). -/
opaque sha512 (m : List (BitVec 8)) : BitVec 512

/-- The first 32 bytes of HKDF-SHA-512 from a salt, input keying material and an info string (R416). -/
opaque hkdf (salt ikm info : List (BitVec 8)) : BitVec 256

/-- Public key of an X25519 private key (R415). -/
opaque x25519Public (sk : BitVec 256) : BitVec 256

/-- X25519 shared secret (R416). -/
opaque x25519 (sk pk : BitVec 256) : BitVec 256

/-- ML-KEM-768 encapsulation key, 1,184 bytes, of a private seed (R415). -/
opaque mlkemPublic (seed : BitVec 512) : List (BitVec 8)

/-- ML-KEM-768 decapsulation of a 1,088-byte ciphertext (R416). -/
opaque mlkemDecap (seed : BitVec 512) (ct : List (BitVec 8)) : BitVec 256

/-- Ed25519 signature, 64 bytes, under the key pair formed from a seed (R413 to R415). -/
opaque signEd25519 (seed : BitVec 256) (m : List (BitVec 8)) : List (BitVec 8)

/-- ML-DSA-65 signature, 3,309 bytes, under the key pair formed from a seed (R413 to R415). -/
opaque signMlDsa (seed : BitVec 256) (m : List (BitVec 8)) : List (BitVec 8)

/-- Units that the Ash log of a partition holds, from its device area in words per pseudo-channel and the width of its slice
(R383, R385; DESIGN CHOICE, notes/assumptions/38.md). -/
opaque ashUnits (devArea width : Nat) : Nat

/-- Output of the device's random bit generator: draw `k`, `w` bits (R415). -/
opaque random (w : Nat) (k : Nat) : BitVec w

end Sys2Proof.Config
end

