-- ==== Sys2Proof/Machine/Memory.lean ====
section
/-! DEFINITION. Byte memories in one canonical form: addresses strictly rising and no entry equal to 0, which is what an
unlisted address reads as (DESIGN CHOICE, notes/assumptions/5.md). -/

namespace Sys2Proof.Machine
open Sys2Proof

/-- Addresses rise strictly from `a` on, and no entry is 0. -/
def Memory.wfFrom : Nat → List Host.Cell → Bool
  | _, [] => true
  | a, (k, b) :: r => decide (a ≤ k) && decide (b ≠ 0#8) && Memory.wfFrom (k + 1) r

/-- The canonical form. -/
def Memory.wf (m : List Host.Cell) : Bool := Memory.wfFrom 0 m

/-- One byte. -/
def Memory.read (m : List Host.Cell) (a : Nat) : BitVec 8 :=
  match m with
  | [] => 0#8
  | (k, b) :: r => if k = a then b else Memory.read r a

/-- One byte written. -/
def Memory.write (m : List Host.Cell) (a : Nat) (v : BitVec 8) : List Host.Cell :=
  match m with
  | [] => if v = 0#8 then [] else [(a, v)]
  | (k, b) :: r =>
    if a < k then (if v = 0#8 then (k, b) :: r else (a, v) :: (k, b) :: r)
    else if a = k then (if v = 0#8 then r else (a, v) :: r)
    else (k, b) :: Memory.write r a v

/-- `n` bytes from address `a`. -/
def Memory.readBytes (m : List Host.Cell) (a : Nat) : Nat → List (BitVec 8)
  | 0 => []
  | n + 1 => Memory.read m a :: Memory.readBytes m (a + 1) n

/-- Bytes written from address `a` on. -/
def Memory.writeBytes (m : List Host.Cell) (a : Nat) : List (BitVec 8) → List Host.Cell
  | [] => m
  | b :: bs => Memory.writeBytes (Memory.write m a b) (a + 1) bs

/-- The 64-byte word `w` of a memory of words (R54, R181). -/
def Memory.readLine (m : List Host.Cell) (w : Nat) : Line := lineOfBytes (Memory.readBytes m (64 * w) 64)

/-- The 64-byte word `w` written. -/
def Memory.writeLine (m : List Host.Cell) (w : Nat) (d : Line) : List Host.Cell :=
  Memory.writeBytes m (64 * w) (bytesOfLine d)

/-- Little-endian number of `n` bytes. -/
def Memory.readNat (m : List Host.Cell) (a n : Nat) : Nat := natOfBytes (Memory.readBytes m a n)

/-- Little-endian number of `n` bytes written. -/
def Memory.writeNat (m : List Host.Cell) (a n v : Nat) : List Host.Cell := Memory.writeBytes m a (bytesOf n v)

/-- Bytes in `[lo, hi)` zeroed. -/
def Memory.clear (m : List Host.Cell) (lo hi : Nat) : List Host.Cell := m.filter (fun c => c.1 < lo || hi ≤ c.1)

end Sys2Proof.Machine
end

