-- ==== Sys2Proof/Machine/State.lean ====
section
/-! DEFINITION. The state of the chip as plain data, its value after reset, and the reasons a step can stop. -/

namespace Sys2Proof.Machine

/-- What raised a local cause, and so what clears it (R34, R35). -/
inductive CauseSrc where
  | none
  /-- A failed check point: tile, stream and program counter (R32). -/
  | lateUse (tile : Nat) (eng : Nat) (pc : Nat)
  | refresh (stack : Nat)
  | staging (tile : Nat) (eng : Nat)
  | parity (tile : Nat)
  | hostAccess (tile : Nat)
  | linkDown (port : Nat)
  | thermal
  | ashWait (part : Nat)
  | mirrorLate (frame : Nat)
  | preload (part : Nat)
  /-- A word that a planned read met: the pseudo-channel, 32 k + c, or 256 + t for tile t, and the word (R386). -/
  | memErr (part chan word : Nat)
  | fault (code : Nat)
  deriving DecidableEq, Repr

/-- A digest fold that waits for a replayed one, or a closed digest of the log whose value waits for it (R142, R143). -/
inductive FoldItem where
  | word (ix : Nat) (data : BitVec 512)
  | close (slot : Nat)
  deriving DecidableEq, Repr

/-- Kinds of a host window access to a tile (R82, R84). -/
inductive WinKind where
  | read | write | setFull | setEmpty
  deriving DecidableEq, Repr

/-- The unplanned users of a pseudo-channel in the order of their priority (R191). -/
inductive OpenKind where
  | writeBack | ashAppend | staging | buddy | sealedLoad | window | scrub
  deriving DecidableEq, Repr

/-- One queued open access (R191). -/
structure OpenReq where
  kind : OpenKind
  word : Nat
  data : Option (BitVec 512)
  tag : Option (Nat × Nat × Nat)
  deriving DecidableEq, Repr

/-- A stack window access with the values it was started with (R209, R210). -/
structure WinAcc where
  word : Nat
  ch : Nat
  write : Bool
  data : BitVec 512
  deriving DecidableEq, Repr

/-- One link symbol of the control field (R344). -/
inductive LinkSym where
  | idle
  | ack (v : BitVec 16)
  | nak (v : BitVec 16)
  | flow (v : BitVec 16)
  | flowRefresh (v : BitVec 16)
  | replay (v : BitVec 16)
  | lane (op : BitVec 4) (lane : BitVec 4)
  | cal (v : BitVec 16)
  deriving DecidableEq, Repr

/-- One inline symbol waiting for codeword bodies (R345, R346): its units with PATH and COPY zero, the wall time at
which PATH counts from 0 (none: PATH stays 0, an ALIGN or BARRIER), and whether its first copy has gone. -/
structure InlineSym where
  units : List (BitVec 64)
  born : Option Nat
  copied : Bool
  deriving DecidableEq, Repr

/-- The Ethernet reply that the service port sends (R445). -/
inductive EthFrame where
  | arp (mac : BitVec 48) (ip : BitVec 32) (selfIp : BitVec 32)
  | echo (mac : BitVec 48) (ip : BitVec 32) (body : List (BitVec 8))
  | tftpError (mac : BitVec 48) (code : Nat)
  | tftpOack (mac : BitVec 48) (blksize : Nat)
  | tftpAck (mac : BitVec 48)
  deriving DecidableEq, Repr

/-- The JTAG instruction in force (R448). -/
inductive JtagIr where
  | bypass | idcode | samplePreload | extest
  deriving DecidableEq, Repr

/-- What manufacture and the ROM burn into one-time fuses; no reset and no power loss changes it (R3, R24, R477). -/
structure Fuses where
  /-- R2, R482 (18). TOP.ID.GRADE: 0x1 SK2-1600, 0x2 SK2-1440. -/
  grade : BitVec 4
  /-- R482 (18). TOP.ID.STEPPING. -/
  stepping : BitVec 4
  /-- R482, R483 (18). TOP.ID.TILES: active tiles. -/
  tiles : BitVec 8
  /-- R482 (18). TOP.SERIAL_LO/HI, as in the identity record. -/
  serial : BitVec 64
  /-- R3 (00). Physical tiles disabled at manufacture, one per row and die on an SK2-1440, ascending. -/
  disabled : List Nat
  deriving DecidableEq, Repr

/-- `Fuses` as reset leaves it. Fields with a value the spec does not give (DESIGN CHOICE, notes/assumptions/4.md). -/
def Fuses.reset : Fuses where
  grade := 0x1
  stepping := 0x0
  tiles := 0xA0
  serial := 0
  disabled := []


/-- One 32-byte fault record, field by field (R491, R492). -/
structure FaultRec where
  /-- R491 (18). Bytes 0-1 CODE. -/
  code : BitVec 16
  /-- R491 (18). FLAGS[1:0]: 0 MX, 1 VX, 2 MV, 3 none. -/
  engine : BitVec 2
  /-- R491 (18). FLAGS[5:2] PART. -/
  part : BitVec 4
  /-- R491 (18). FLAGS[6] PART_VALID. -/
  partValid : Bool
  /-- R491 (18). FLAGS[7]: the next record continues this one. -/
  cont : Bool
  /-- R491 (18). Byte 3: physical tile of the waiter, 0xFF none. -/
  tile : BitVec 8
  /-- R491 (18). Bytes 4-6: chip that raised the fault. -/
  chip : BitVec 24
  /-- R491, R492 (18). Byte 7 [4:0] object kind. -/
  kind : BitVec 5
  /-- R491, R492 (18). Byte 7 [7:5] EXT. -/
  ext : BitVec 3
  /-- R491, R492 (18). Bytes 8-11 OBJECT. -/
  object : BitVec 32
  /-- R491 (18). Bytes 12-15: program counter, all ones when none. -/
  waiter : BitVec 32
  /-- R491 (18). Bytes 16-23: Geyser count at the fault. -/
  geyser : BitVec 64
  /-- R491 (18). Bytes 24-27: frame number since launch. -/
  frame : BitVec 32
  /-- R491 (18). Bytes 28-31: step number. -/
  stepNo : BitVec 32
  deriving DecidableEq, Repr

/-- `FaultRec` as reset leaves it. -/
def FaultRec.reset : FaultRec where
  code := 0
  engine := 3
  part := 0
  partValid := false
  cont := false
  tile := 0xFF
  chip := 0
  kind := 0
  ext := 0
  object := 0
  waiter := 0xFFFFFFFF
  geyser := 0
  frame := 0xFFFFFFFF
  stepNo := 0xFFFFFFFF


/-- The TOP block (R482) and the fault log behind it (R494). -/
structure TopRegs where
  /-- R482 (18). TOP.MODE.DETERMINE. -/
  determine : Bool
  /-- R482 (18). TOP.MODE.FAULT_KEEP. -/
  faultKeep : Bool
  /-- R59, R482 (03, 18). TOP.STATUS.SCRUBBED. -/
  scrubbed : Bool
  /-- R480, R482 (18). TOP.STATUS.FW_READY. -/
  fwReady : Bool
  /-- R482 (18). TOP.TEMP.TJ_C, highest junction temperature. -/
  tempC : BitVec 8
  /-- R494 (18). The fault log, oldest first, at most 256 records. -/
  log : List FaultRec
  /-- R494 (18). Faults raised and not yet written, each with its continuation. -/
  raised : List (FaultRec × Option FaultRec)
  /-- R482 (18). TOP.FAULT_LOST (RC, saturates). -/
  faultLost : BitVec 32
  /-- R482 (18). TOP.FAULT_SUPPRESSED (RC, saturates). -/
  faultSuppressed : BitVec 32
  /-- R482 (18). TOP.FAULT_TOTAL (saturates). -/
  faultTotal : BitVec 32
  /-- R482, R494 (18). TOP.FAULT_NEWEST0-7: newest record raised; none reads as zeros. -/
  newest : Option FaultRec
  deriving DecidableEq, Repr

/-- `TopRegs` as reset leaves it. -/
def TopRegs.reset : TopRegs where
  determine := false
  faultKeep := false
  scrubbed := false
  fwReady := false
  tempC := 0
  log := []
  raised := []
  faultLost := 0
  faultSuppressed := 0
  faultTotal := 0
  newest := none


/-- One hold episode as this chip knows it (R35, R36, R40, R347). -/
structure Episode where
  /-- R35 (02). Chip address of the origin. -/
  origin : BitVec 24
  /-- R35 (02). Episode number. -/
  num : BitVec 8
  /-- R34 (02). Cause code recorded when it was raised or carried by the symbol. -/
  cause : BitVec 4
  /-- R347 (13). Wall time at which its HOLD reaches d(o) here. -/
  applyAt : Nat
  /-- R40 (02). The hold depth counts it. -/
  counted : Bool
  /-- R42 (02). Wall time at which the depth first counted it. -/
  countedAt : Nat
  /-- R347 (13). Its RELEASE has been received, or raised here. -/
  released : Bool
  /-- R347 (13). Wall time at which its RELEASE reaches d(o) here. -/
  releaseAt : Nat
  /-- R42 (02). F-0303 already raised for it on this chip. -/
  limitRaised : Bool
  deriving DecidableEq, Repr

/-- `Episode` as reset leaves it. -/
def Episode.reset : Episode where
  origin := 0
  num := 0
  cause := 0
  applyAt := 0
  counted := false
  countedAt := 0
  released := false
  releaseAt := 0
  limitRaised := false


/-- One local cause that this chip merges into its own episode (R34, R35). -/
structure LocalCause where
  /-- R34 (02). Cause code 0x1-0x8 or 0xF. -/
  code : BitVec 4
  /-- R34 (02). What raised it, and so what clears it. -/
  src : CauseSrc
  /-- R514 (03). It was raised while the counter stood still. -/
  atStop : Bool
  deriving DecidableEq, Repr

/-- `LocalCause` as reset leaves it. -/
def LocalCause.reset : LocalCause where
  code := 0
  src := .none
  atStop := false


/-- The PLAN block (R51) with the counter, the episodes and the launch behind it. -/
structure PlanRegs where
  /-- R25 (02). The 64-bit Geyser counter, one value for all its copies (R17). -/
  geyser : Nat
  /-- R51 (02). PLAN.LAUNCH_AT_LO/HI. -/
  launchAt : BitVec 64
  /-- R45, R51 (02). PLAN.CTRL.ARM: the armed launch count. -/
  armed : Option Nat
  /-- R51 (02). PLAN.STATUS.STATE: 0 IDLE, 1 ALIGNING, 2 ALIGNED, 3 ARMED, 4 RUNNING, 5 FAULT_STOP. -/
  state : BitVec 3
  /-- R51 (02). PLAN.STATUS.ALIGN_OK. -/
  alignOk : Bool
  /-- R44 (02). Fraction of the count set by alignment, in 1/16 pc. -/
  alignFrac : BitVec 4
  /-- R35, R40 (02). Episodes received or raised and not yet release-applied, oldest first. -/
  episodes : List Episode
  /-- R35 (02). Number that the next own episode carries. -/
  nextEpisode : BitVec 8
  /-- R35 (02). Local causes of the own episode in progress. -/
  localCauses : List LocalCause
  /-- R40 (02). Hold debt in clk (64 bits; PLAN.HOLD_DEBT saturates). -/
  debt : Nat
  /-- R51 (02). PLAN.HOLD_EPISODES_LO/HI. -/
  holdEpisodes : BitVec 64
  /-- R51 (02). PLAN.HOLD_CLK_LO/HI. -/
  holdClk : BitVec 64
  /-- R51 (02). PLAN.HOLD_LIMIT.LIMIT_US. -/
  holdLimit : BitVec 20
  /-- R51 (02). PLAN.THROTTLE.TEMP_C. -/
  throttleTemp : BitVec 8
  /-- R51 (02). PLAN.THROTTLE.LEVEL. -/
  throttleLevel : BitVec 4
  /-- R51 (02). PLAN.THROTTLE.MAX_LEVEL. -/
  throttleMax : BitVec 4
  /-- R49 (02). Geyser count of the next throttle comparison not yet made. -/
  throttleEvalAt : Nat
  /-- R51 (02). PLAN.ARM_LEAD. -/
  armLead : BitVec 32
  /-- R51 (02). PLAN.PSEL.PART. -/
  psel : BitVec 4
  /-- R36 (02), R347 (13). (origin, episode number, release?) of symbols already seen, so that later copies are ignored. -/
  holdSeen : List (BitVec 24 × BitVec 8 × Bool)
  /-- R513 (02). The counter stood stopped and has not yet resumed. -/
  counterWasStopped : Bool
  /-- R48 (02), R463 (17). An episode took part in the stop in progress, so that its end is a HOLD_END. -/
  wasHeld : Bool
  /-- R49 (02). Wall time at which the THERMAL cause in progress ends. -/
  thermalEnd : Option Nat
  /-- R346 (13). (BARRIER?, origin, sequence number) of ALIGN and BARRIER symbols already acted on. -/
  symSeen : List (Bool × BitVec 24 × BitVec 8)
  /-- R345 (13). Sequence number of the next ALIGN or BARRIER symbol sent. -/
  nextSym : BitVec 8
  /-- R46 (02). Release pc of a pending hardware barrier (sequencer halves or mirror pair). -/
  launchBarrier : Option Nat
  deriving DecidableEq, Repr

/-- `PlanRegs` as reset leaves it. Fields with a value the spec does not give (DESIGN CHOICE, notes/assumptions/3.md). -/
def PlanRegs.reset : PlanRegs where
  geyser := 0
  launchAt := 0
  armed := none
  state := 0
  alignOk := false
  alignFrac := 0
  episodes := []
  nextEpisode := 0
  localCauses := []
  debt := 0
  holdEpisodes := 0
  holdClk := 0
  holdLimit := 0xF4240
  throttleTemp := 0x64
  throttleLevel := 0
  throttleMax := 0xC
  throttleEvalAt := 0
  armLead := 0x100000
  psel := 0
  holdSeen := []
  counterWasStopped := false
  wasHeld := false
  thermalEnd := none
  symSeen := []
  nextSym := 0
  launchBarrier := none


/-- The CLK block (R52) and the step switch behind it. -/
structure ClkRegs where
  /-- R52 (02). CLK.STEP_CUR.CODE. -/
  stepCur : BitVec 3
  /-- R52 (02). CLK.STEP_TARGET.CODE. -/
  stepTarget : BitVec 3
  /-- R52 (02). CLK.STEP_AT_LO/HI. -/
  stepAt : BitVec 64
  /-- R48 (02), R478 (18). CLK.STEP_CTRL.ARM: tick and target of the armed change. -/
  armed : Option (Nat × BitVec 3)
  /-- R52 (02). CLK.STEP_CTRL.REJECTED (W1C). -/
  rejected : Bool
  /-- R48 (02). Step switch in progress: wall time of its end and the new code. -/
  switching : Option (Nat × BitVec 3)
  deriving DecidableEq, Repr

/-- `ClkRegs` as reset leaves it. -/
def ClkRegs.reset : ClkRegs where
  stepCur := 0
  stepTarget := 0
  stepAt := 0
  armed := none
  rejected := false
  switching := none


/-- Holding registers of one tile aperture (R485). -/
structure SnapTile where
  /-- R485 (18). TILE.PC_MX. -/
  pcMx : BitVec 32
  /-- R485 (18). TILE.PC_VX. -/
  pcVx : BitVec 32
  /-- R485 (18). TILE.PC_MV. -/
  pcMv : BitVec 32
  /-- R485 (18). TILE.QUEUE_LEVEL. -/
  level : BitVec 32
  deriving DecidableEq, Repr

/-- `SnapTile` as reset leaves it. -/
def SnapTile.reset : SnapTile where
  pcMx := 0
  pcVx := 0
  pcMv := 0
  level := 0


/-- The holding registers that a capture fills (R484, R485). -/
structure SnapHold where
  /-- R484 (18). PLAN.GEYSER_LO/HI as captured. -/
  geyser : BitVec 64
  /-- R484 (18). PLAN.HOLD_EPISODES_LO/HI as captured. -/
  episodes : BitVec 64
  /-- R484 (18). PLAN.HOLD_CLK_LO/HI as captured. -/
  clk : BitVec 64
  /-- R485 (18). Tile apertures as captured. -/
  tiles : Vector SnapTile 160
  /-- R485 (18). SEQ.STEP_LO/HI of every partition bank. -/
  steps : Vector (BitVec 64) 16
  /-- R485 (18). SYNC.STATUS of every partition bank. -/
  syncStatus : Vector (BitVec 32) 16
  /-- R485 (18). SYNC.BAR_ACTIVE of every partition bank. -/
  barActive : Vector (BitVec 32) 16
  /-- R485 (18). TIME.A_NS_LO/HI. -/
  aNs : BitVec 64
  /-- R485 (18). TIME.A_FRAC. -/
  aFrac : BitVec 32
  /-- R485 (18). TIME.B_NS_LO/HI. -/
  bNs : BitVec 64
  /-- R485 (18). TIME.B_FRAC. -/
  bFrac : BitVec 32
  /-- R485 (18). TIME.PPS_IN_A_LO/HI. -/
  ppsInA : BitVec 64
  /-- R485 (18). TIME.PPS_IN_B_LO/HI. -/
  ppsInB : BitVec 64
  /-- R485 (18). PCIE.STG_BYTES_LO/HI of every function. -/
  stgBytes : Vector (BitVec 64) 17
  deriving DecidableEq, Repr

/-- `SnapHold` as reset leaves it. -/
def SnapHold.reset : SnapHold where
  geyser := 0
  episodes := 0
  clk := 0
  tiles := Vector.replicate 160 SnapTile.reset
  steps := Vector.replicate 16 0
  syncStatus := Vector.replicate 16 0
  barActive := Vector.replicate 16 0
  aNs := 0
  aFrac := 0
  bNs := 0
  bFrac := 0
  ppsInA := 0
  ppsInB := 0
  stgBytes := Vector.replicate 17 0


/-- The SNAP block (R488). -/
structure SnapRegs where
  /-- R488 (18). SNAP.STATUS.HELD. -/
  held : Bool
  /-- R488 (18). SNAP.STATUS.AT_TICK. -/
  atTick : Bool
  /-- R488 (18). SNAP.STATUS.AT_REJECTED (W1C). -/
  atRejected : Bool
  /-- R488 (18). SNAP.COUNT (wraps). -/
  count : BitVec 32
  /-- R488 (18). SNAP.AT_LO/HI. -/
  armAt : BitVec 64
  /-- R487 (18). SNAP.CMD.ARM_AT: count of the armed tick capture. -/
  armed : Option Nat
  /-- R484 (18). Holding registers. -/
  hold : SnapHold
  /-- R487 (18). Wall time of the last capture, and whether it was a tick capture. -/
  lastAt : Option (Nat × Bool)
  deriving DecidableEq, Repr

/-- `SnapRegs` as reset leaves it. -/
def SnapRegs.reset : SnapRegs where
  held := false
  atTick := false
  atRejected := false
  count := 0
  armAt := 0
  armed := none
  hold := SnapHold.reset
  lastAt := none


/-- One word write or full/empty change that an issued instruction makes at a later pc (R69, R97). -/
structure PendWrite where
  /-- R69 (03). Pc of the write or of the full/empty change. -/
  due : Nat
  /-- R91 (04). Word index 0-65535. -/
  word : Nat
  /-- R69 (03). Data written; none changes the full/empty bit only. -/
  data : Option (BitVec 512)
  /-- R92 (04). New full/empty bit; none leaves it. -/
  full : Option Bool
  /-- R142 (05). Folded into the tile's open digest when it is made. -/
  digest : Bool
  /-- R63 (03). A planned write, which clears the word's poison. -/
  clearPoison : Bool
  /-- R15 (01). Requesting unit: 0 MX, 1 VX, 2 MV, 4 mesh ejection. -/
  unit : Nat
  /-- R98 (04). Program counter of the instruction. -/
  pc : BitVec 32
  /-- R69, R73 (03). Latency of the instruction's write from its issue. -/
  lat : Nat
  deriving DecidableEq, Repr

/-- `PendWrite` as reset leaves it. -/
def PendWrite.reset : PendWrite where
  due := 0
  word := 0
  data := none
  full := none
  digest := false
  clearPoison := false
  unit := 0
  pc := 0
  lat := 0


/-- One entry of an instruction queue (R64, R67). -/
structure QEntry where
  /-- R64 (03). Program counter of the instruction. -/
  pc : Nat
  /-- R87 (04). The instruction's 128 bits. -/
  word : BitVec 128
  /-- R69, R102 (03, 04). Pc at which its code word has landed in the queue. -/
  ready : Nat
  /-- R65 (03). Place of the instruction in the order of fetch. -/
  seq : Nat
  deriving DecidableEq, Repr

/-- `QEntry` as reset leaves it. -/
def QEntry.reset : QEntry where
  pc := 0
  word := 0
  ready := 0
  seq := 0


/-- One entry of a stream's loop stack (R101). -/
structure LoopFrame where
  /-- R101 (04). Place in fetch order of the first body instruction. -/
  start : Nat
  /-- R101 (04). Its program counter. -/
  startPc : Nat
  /-- R101 (04). Place in fetch order of the last body instruction. -/
  last : Nat
  /-- R101 (04). Repetitions left. -/
  left : Nat
  deriving DecidableEq, Repr

/-- `LoopFrame` as reset leaves it. -/
def LoopFrame.reset : LoopFrame where
  start := 0
  startPc := 0
  last := 0
  left := 0


/-- The next check point of a stream, on one path through the branches that have not issued yet (R67, R514). -/
structure Front where
  /-- R64 (03). Program counter of the instruction to decode. -/
  pc : Nat
  /-- R65 (03). Its place in fetch order. -/
  seq : Nat
  /-- R66 (03). Issue pc of the instruction before it, LAUNCH_AT before the first. -/
  last : Nat
  /-- R99 (04). COUNT of a CT.LWAIT that delays it. -/
  extra : Nat
  /-- R101 (04). Loop stack, innermost first, at most 4. -/
  loops : List LoopFrame
  /-- R137 (05). Arm T of a CT.BBR in progress: places of its last instruction and of the join, and the join's program counter. -/
  join : Option (Nat × Nat × Nat)
  /-- R514 (03). Issue pc of each CT.BBR on the path that has not issued, and whether the path takes arm T. -/
  path : List (Nat × Bool)
  /-- R99, R102 (04). A CT.HALT ends the path, or a CT.FBR on it has not issued. -/
  stop : Bool
  deriving DecidableEq, Repr

/-- `Front` as reset leaves it. -/
def Front.reset : Front where
  pc := 0
  seq := 0
  last := 0
  extra := 0
  loops := []
  join := none
  path := []
  stop := false


/-- One word that an instruction in flight has read (R70). -/
structure Got where
  /-- R69 (03). Pc at which the plan puts the read. -/
  pc : Nat
  /-- R91 (04). Word index; 65536 + i stands for stored word i of a stack access. -/
  word : Nat
  /-- R63 (03). What the read delivered; none where it delivered nothing. -/
  data : Option (BitVec 512)
  /-- R93 (04). The word's bit in the pc of the read. -/
  full : Bool
  deriving DecidableEq, Repr

/-- `Got` as reset leaves it. -/
def Got.reset : Got where
  pc := 0
  word := 0
  data := none
  full := false


/-- One weight slot of the matrix engine (R107, R130). -/
structure WSlot where
  /-- R107 (04). A weight tile has been loaded. -/
  valid : Bool
  /-- R130 (05). Format of the MX.LDW that loaded it. -/
  fmt : BitVec 4
  /-- R107 (04). Pc at which the slot is ready. -/
  readyAt : Nat
  /-- R106 (04). Weight words. -/
  elems : List (BitVec 512)
  /-- R106 (04). Scale words. -/
  scales : List (BitVec 512)
  deriving DecidableEq, Repr

/-- `WSlot` as reset leaves it. -/
def WSlot.reset : WSlot where
  valid := false
  fmt := 0
  readyAt := 0
  elems := []
  scales := []


/-- One instruction between its check point and its last effect (R69, R70, R97). -/
structure Flight where
  /-- R87 (04). Opcode. -/
  op : Nat
  /-- R87 (04). The other fields of its word. -/
  w : IWord
  /-- R66 (03). Issue pc. -/
  p : Nat
  /-- R64 (03). Program counter. -/
  pc : Nat
  /-- R65 (03). Place in fetch order. -/
  seq : Nat
  /-- R67 (03). Geyser count at which its check point passed. -/
  chk : Nat
  /-- R514 (03). Branches that have not issued and the arm on which this instruction lies. -/
  path : List (Nat × Bool)
  /-- R64, R101 (03, 04). Places in fetch order that leave the queue when it issues. -/
  drop : List (Nat × Nat)
  /-- R66 (03). It has issued. -/
  issued : Bool
  /-- R96 (04). The A registers at its check point. -/
  areg : Vector (BitVec 32) 16
  /-- R96 (04). The A registers at its issue. -/
  aIss : Vector (BitVec 32) 16
  /-- R96 (04). The S registers at its issue. -/
  sIss : Vector (BitVec 32) 8
  /-- R108 (04). The weight slot that an MX.MMA holds, as it stands at issue. -/
  slot : WSlot
  /-- R118 (04). The packet that an MV.FRECV claimed, with its port. -/
  pkt : Option (Nat × Packet)
  /-- R70 (03). Words read so far. -/
  got : List Got
  /-- R15, R98 (01, 04). Accesses and results that the plan puts at or after the first pc come later by the second. -/
  shifts : List (Nat × Nat)
  /-- R15 (01). Accesses that were not served in their pc and are due again: kind (0 read, 1 write, 2 landing, 3 beat, 4 stack access), pc in the plan, word, target or stored word. -/
  retry : List (Nat × Nat × Nat)
  /-- R72 (03). Writes that a failed parity check holds back: pc in the plan and word. -/
  withheld : List (Nat × Nat)
  deriving DecidableEq, Repr

/-- `Flight` as reset leaves it. -/
def Flight.reset : Flight where
  op := 0
  w := IWord.reset
  p := 0
  pc := 0
  seq := 0
  chk := 0
  path := []
  drop := []
  issued := false
  areg := Vector.replicate 16 0
  aIss := Vector.replicate 16 0
  sIss := Vector.replicate 8 0
  slot := WSlot.reset
  pkt := none
  got := []
  shifts := []
  retry := []
  withheld := []


/-- One instruction stream of a tile with its registers (R64 to R66, R95). -/
structure Stream where
  /-- R84 (03). The stream has a launched plan (TILE.STATUS.ENG_RUN). -/
  running : Bool
  /-- R103 (04). CT.HALT has issued. -/
  halted : Bool
  /-- R64 (03). Fetched instructions not yet issued, at most 512, loop bodies included. -/
  queue : List QEntry
  /-- R64, R514 (03). Next check point on every path; one path unless a CT.BBR has been checked and has not issued. -/
  fronts : List Front
  /-- R69 (03). Instructions past their check points, in that order. -/
  flights : List Flight
  /-- R65 (03). Program counter that the fetch unit reads next. -/
  fetchPc : Nat
  /-- R65 (03). Its place in fetch order. -/
  fetchSeq : Nat
  /-- R102 (04). Fetch waits for a CT.FBR to choose. -/
  fetchStop : Bool
  /-- R65 (03). Fetch slots that have come and whose code word has not been read. -/
  fetchSlots : Nat
  /-- R137 (05). Places in fetch order of an arm that a CT.BBR dropped before it was fetched. -/
  skips : List (Nat × Nat)
  /-- R95 (04). Address registers A0-A15; A0 reads 0. -/
  a : Vector (BitVec 32) 16
  /-- R95 (04). Scalar registers S0-S7. -/
  s : Vector (BitVec 32) 8
  /-- R29 (02). Pc at which the frame-end instruction of the current frame issued. -/
  fendAt : Option Nat
  /-- R65 (03). Words of the stream's code region. -/
  codeWords : Nat
  /-- R65 (03). First word of the stream's code region. -/
  codeBase : Nat
  deriving DecidableEq, Repr

/-- `Stream` as reset leaves it. -/
def Stream.reset : Stream where
  running := false
  halted := false
  queue := []
  fronts := [Front.reset]
  flights := []
  fetchPc := 0
  fetchSeq := 0
  fetchStop := false
  fetchSlots := 0
  skips := []
  a := Vector.replicate 16 0
  s := Vector.replicate 8 0
  fendAt := none
  codeWords := 0
  codeBase := 0


/-- An open window of a bank that an unplanned user has taken (R57). -/
structure WinTaken where
  /-- R57 (03). Bank 0-63. -/
  bank : Nat
  /-- R56 (03). First pc of the window. -/
  start : Nat
  deriving DecidableEq, Repr

/-- `WinTaken` as reset leaves it. -/
def WinTaken.reset : WinTaken where
  bank := 0
  start := 0


/-- An instruction, queue entry or mesh beat whose parity check failed and waits for its replay (R72 to R74). -/
structure ParityFail where
  /-- R84 (03). 0 MX, 1 VX, 2 MV, 3 mesh ejection. -/
  source : BitVec 2
  /-- R84 (03). The failure was in a queue entry. -/
  queue : Bool
  /-- R84 (03). Program counter of the instruction. -/
  pc : BitVec 32
  /-- R74 (03). Failed attempts so far. -/
  attempt : Nat
  /-- R70, R72 (03). The suppressed writes, as the retained operands give them. -/
  writes : List PendWrite
  /-- R141 (05). A suppressed write carries an ER setting event, which comes with the write of the replay. -/
  er : Bool
  /-- R73 (03). L of the replay. -/
  latency : Nat
  /-- R73 (03). Wall time at which the replay in progress ends. -/
  endAt : Nat
  deriving DecidableEq, Repr

/-- `ParityFail` as reset leaves it. -/
def ParityFail.reset : ParityFail where
  source := 0
  queue := false
  pc := 0
  attempt := 0
  writes := []
  er := false
  latency := 0
  endAt := 0


/-- A host window access that waits for its bank (R82 to R84). -/
structure WinReq where
  /-- R82 (03). Word index. -/
  word : Nat
  /-- R82, R84 (03). Read, write of bytes, set full, set empty. -/
  kind : WinKind
  /-- R82 (03). First byte of the access within the word. -/
  byteOff : Nat
  /-- R82 (03). Bytes to write. -/
  bytes : List (BitVec 8)
  /-- R83 (03). WIN_CTRL.OPEN_ONLY when the access arrived. -/
  openOnly : Bool
  /-- R83 (03). Pc at which it reached the tile. -/
  arrived : Nat
  deriving DecidableEq, Repr

/-- `WinReq` as reset leaves it. -/
def WinReq.reset : WinReq where
  word := 0
  kind := .read
  byteOff := 0
  bytes := []
  openOnly := false
  arrived := 0


/-- One physical tile (R54 to R86). -/
structure Tile where
  /-- R54, R58 (03). 4 MiB of SRAM as byte cells; an unlisted byte reads 0 (R58: zero after reset). -/
  mem : List Host.Cell
  /-- R58 (03). Words whose full/empty bit is full, ascending. -/
  full : List Nat
  /-- R249, R250 (09). Mesh beats of the step sequencer that are still to come: pc, word and data. -/
  seqBeats : List (Nat × Nat × BitVec 512)
  /-- R291, R292 (11). Words whose bits the sync unit sets at the end of this pc, ascending. -/
  sideSets : List Nat
  /-- R63 (03). Poisoned words, ascending. -/
  poison : List Nat
  /-- R61, R63 (03). Words that hold an uncorrectable error not yet found by a read, ascending (particle strikes are inputs of the machine). -/
  bad : List Nat
  /-- R61 (03). Words that hold an error that a read corrects, ascending. -/
  correctable : List Nat
  /-- R61, R62 (03). Words that a read has corrected and that wait to be written back, ascending. -/
  writeBacks : List Nat
  /-- R84 (03). TILE.STATUS.STATE. -/
  state : BitVec 3
  /-- R84 (03). TILE.STATUS.SCRUBBED. -/
  scrubbed : Bool
  /-- R84 (03). TILE.ID.LOGICAL under the Stage mapping. -/
  logical : BitVec 8
  /-- R84 (03). TILE.ID.PART. -/
  part : BitVec 4
  /-- R84 (03). TILE.ID.BOUND. -/
  bound : Bool
  /-- R64 (03). Matrix stream. -/
  mx : Stream
  /-- R64 (03). Vector stream. -/
  vx : Stream
  /-- R64 (03). Move stream. -/
  mv : Stream
  /-- R105 (04). Weight slot 0. -/
  slot0 : WSlot
  /-- R105 (04). Weight slot 1. -/
  slot1 : WSlot
  /-- R57 (03). Open windows in progress that an unplanned user has taken. -/
  windows : List WinTaken
  /-- R142, R377 (05, 14). The open layer digest. -/
  digest : BitVec 64
  /-- R142, R143 (05). Folds that wait for a replayed one, the failed ones among them, and digests closed behind them, in order. -/
  foldWait : List FoldItem
  /-- R141 (05), R376 (14). Sticky ER overflow flag. -/
  erFlag : Bool
  /-- R84 (03). TILE.ECC_CE (RC, saturates). -/
  eccCe : BitVec 32
  /-- R84 (03). TILE.ECC_UE.WORD. -/
  eccUeWord : BitVec 16
  /-- R84 (03). TILE.ECC_UE.VALID (W1C). -/
  eccUeValid : Bool
  /-- R84 (03). TILE.PARITY_COUNT (RC, saturates). -/
  parityCount : BitVec 32
  /-- R84 (03). TILE.PARITY_LAST: SOURCE, QUEUE, ATTEMPT. -/
  parityLast : BitVec 5
  /-- R84 (03). TILE.PARITY_PC. -/
  parityPc : BitVec 32
  /-- R74 (03). Parity failures whose replays are in progress. -/
  parityFails : List ParityFail
  /-- R84 (03). TILE.SCRUB.ROW. -/
  scrubRow : BitVec 10
  /-- R62, R84 (03). Banks that the scrubber has read at this row, ascending. -/
  scrubDone : List Nat
  /-- R84 (03). TILE.WIN_BASE.WORD. -/
  winBase : BitVec 16
  /-- R84 (03). TILE.WIN_CTRL.OPEN_ONLY. -/
  openOnly : Bool
  /-- R84 (03). TILE.WIN_CTRL.POISON. -/
  winPoison : Bool
  /-- R83 (03). Window accesses that wait or are in progress, first in first out. -/
  winQueue : List WinReq
  /-- R83 (03). Pc q for which the oldest window access is committed. -/
  winAt : Option Nat
  /-- R82, R83 (03). The bank access in progress of a window access: wall time of its end, and whether the counter waits for it at a resume. -/
  winActive : Option (Nat × Bool)
  /-- R82 (03). The one-word read buffer: word and data. -/
  winBuf : Option (Nat × BitVec 512)
  /-- R82 (03). Data that the last completed window read returned to the host. -/
  winData : BitVec 64
  deriving DecidableEq, Repr

/-- `Tile` as reset leaves it. -/
def Tile.reset : Tile where
  mem := []
  full := []
  seqBeats := []
  sideSets := []
  poison := []
  bad := []
  correctable := []
  writeBacks := []
  state := 1
  scrubbed := false
  logical := 0xFF
  part := 0
  bound := false
  mx := Stream.reset
  vx := Stream.reset
  mv := Stream.reset
  slot0 := WSlot.reset
  slot1 := WSlot.reset
  windows := []
  digest := 0x6A09E667F3BCC908
  foldWait := []
  erFlag := false
  eccCe := 0
  eccUeWord := 0
  eccUeValid := false
  parityCount := 0
  parityLast := 0
  parityPc := 0
  parityFails := []
  scrubRow := 0
  scrubDone := []
  winBase := 0
  openOnly := false
  winPoison := false
  winQueue := []
  winAt := none
  winActive := none
  winBuf := none
  winData := 0


/-- One pseudo-channel of a stack (R181, R184, R189 to R196). -/
structure Channel where
  /-- R181 (07). 2.25 GiB as byte cells by byte address, stored words as they stand in the array (after ECC, before decryption); an unlisted byte reads 0. -/
  mem : List Host.Cell
  /-- R184 (07). Poisoned channel words, ascending, at most 64. -/
  poison : List Nat
  /-- R184 (07). Channel words that hold an uncorrectable error not yet found by a read, ascending. -/
  bad : List Nat
  /-- R183 (07). Words that hold a correctable error not yet written back, ascending, with the die of the failing symbol. -/
  correctable : List (Nat × BitVec 4)
  /-- R216 (08), R209 (07). STKn.CH_USABLE bit. -/
  usable : Bool
  /-- R183 (07), R236 (08). MAP.CH_DEGRADED bit. -/
  degraded : Bool
  /-- R183 (07). Corrected symbols per die. -/
  dieCorrections : Vector Nat 12
  /-- R192 (07). Refresh debt, -8 to +8. -/
  debt : Int
  /-- R192 (07). Wall time at which the debt next rises. -/
  debtAt : Nat
  /-- R195 (07). REFRESH_PENDING. -/
  pending : Bool
  /-- R195 (07). Pc at which the channel was marked. -/
  pendingPc : Nat
  /-- R192, R195 (07). Refreshes in progress: wall time of the end, and how many they are. -/
  refreshEnd : Option (Nat × Nat)
  /-- R195 (07). The refresh in progress is a forced one. -/
  forced : Bool
  /-- R196 (07), R513 (02). The refresh in progress was begun because the counter stood held. -/
  inHold : Bool
  /-- R194 (07). Refreshes fixed for the window in progress. -/
  winN : Nat
  /-- R191 (07). Admission pcs of the open accesses of the previous 256 pc. -/
  openPcs : List Nat
  /-- R188 (07). Planned writes admitted that are not yet complete in the array, by pc. -/
  pend : List PendWrite
  /-- R191 (07). Queued open accesses, in arrival order. -/
  openQueue : List OpenReq
  deriving DecidableEq, Repr

/-- `Channel` as reset leaves it. Fields with a value the spec does not give (DESIGN CHOICE, notes/assumptions/5.md). -/
def Channel.reset : Channel where
  mem := []
  poison := []
  bad := []
  correctable := []
  usable := false
  degraded := false
  dieCorrections := Vector.replicate 12 0
  debt := 0
  debtAt := 0
  pending := false
  pendingPc := 0
  refreshEnd := none
  forced := false
  inHold := false
  winN := 0
  openPcs := []
  pend := []
  openQueue := []


/-- One BQ72 stack with its logic die (R181 to R212). -/
structure Stack where
  /-- R181 (07). Pseudo-channels 0-31. -/
  ch : Vector Channel 32
  /-- R209 (07). STKn.STATUS.STATE: 0 UNTRAINED, 1 TRAINING, 2 READY, 3 FAILED. -/
  state : BitVec 2
  /-- R192, R209 (07). STKn.STATUS.HOT. -/
  hot : Bool
  /-- R209 (07). STKn.STATUS.TRAIN_RESULT. -/
  trainResult : BitVec 8
  /-- R209 (07). STKn.TEMP.TEMP_C. -/
  tempC : BitVec 8
  /-- R209 (07). STKn.REFRESH_FORCED (RC, saturates). -/
  refreshForced : BitVec 32
  /-- R209 (07). STKn.DEBT_SEL.CH. -/
  debtSel : BitVec 5
  /-- R209 (07). STKn.ECC_CE (RC, saturates). -/
  eccCe : BitVec 32
  /-- R209 (07). STKn.ECC_UE.WORD and CH. -/
  eccUe : BitVec 31
  /-- R209 (07). STKn.ECC_UE.VALID (W1C). -/
  eccUeValid : Bool
  /-- R209 (07). STKn.ECC_DIE.LAST_DIE. -/
  eccDie : BitVec 4
  /-- R209 (07). STKn.SCRUB.WORD. -/
  scrubWord : BitVec 26
  /-- R209 (07). STKn.SCRUB_PASSES. -/
  scrubPasses : BitVec 32
  /-- R191 (07). Pseudo-channels already scrubbed at this word. -/
  scrubCh : Nat
  /-- R209 (07). STKn.EMBER_CHUNKS (RC, saturates). -/
  emberChunks : BitVec 32
  /-- R209 (07). STKn.STAGE_LATE (RC). -/
  stageLate : BitVec 32
  /-- R209 (07). STKn.SEAL_FAIL (RC). -/
  sealFail : BitVec 32
  /-- R209 (07). STKn.WIN_ADDR.WORD and CH. -/
  winAddr : BitVec 31
  /-- R210 (07). The window access has been admitted: admission cycles left until it completes. -/
  winLeft : Option Nat
  /-- R210 (07). What the admitted read will put into WIN_DATA; none where it found an uncorrectable error or poison. -/
  winGot : Option (BitVec 512)
  /-- R209, R210 (07). STKn.WIN_CTRL.GO: the window access in progress with the values it was started with. -/
  winGo : Option WinAcc
  /-- R209 (07). STKn.WIN_CTRL.WRITE. -/
  winWrite : Bool
  /-- R209 (07). STKn.WIN_CTRL.ERROR. -/
  winError : Bool
  /-- R209 (07). STKn.WIN_DATA0-15. -/
  winData : BitVec 512
  /-- R205 (07). Key and nonce of the records taken, newest first, the last 4,096 of each key. -/
  nonces : List (BitVec 256 × BitVec 96)
  /-- R501 (19). The post-reset stack scrub has ended. -/
  scrubbed : Bool
  deriving DecidableEq, Repr

/-- `Stack` as reset leaves it. -/
def Stack.reset : Stack where
  ch := Vector.replicate 32 Channel.reset
  state := 0
  hot := false
  trainResult := 0
  tempC := 0
  refreshForced := 0
  debtSel := 0
  eccCe := 0
  eccUe := 0
  eccUeValid := false
  eccDie := 0
  scrubWord := 0
  scrubPasses := 0
  scrubCh := 0
  emberChunks := 0
  stageLate := 0
  sealFail := 0
  winAddr := 0
  winLeft := none
  winGot := none
  winGo := none
  winWrite := false
  winError := false
  winData := 0
  nonces := []
  scrubbed := false


/-- One staging read in flight over PCIe (R207). -/
structure StageRead where
  /-- R207 (07). Partition. -/
  part : BitVec 4
  /-- R207 (07). Half being filled. -/
  half : Nat
  /-- R207 (07). Descriptor index. -/
  desc : Nat
  /-- R207 (07). Words received so far. -/
  done : Nat
  /-- R207 (07). Words of a sealed record received so far. -/
  buf : List (BitVec 512)
  deriving DecidableEq, Repr

/-- `StageRead` as reset leaves it. -/
def StageRead.reset : StageRead where
  part := 0
  half := 0
  desc := 0
  done := 0
  buf := []


/-- A bind or re-bind in progress: what it binds, and the snapshot it took at its start (R220, R235, R236). -/
structure MapRun where
  /-- R236 (08). Partition whose set the run binds. -/
  part : BitVec 4
  /-- R236 (08). It is a re-bind of the Stage set. -/
  rebind : Bool
  /-- R218, R220 (08). This chip's health record at the start. -/
  own : HealthRec
  /-- R221 (08). Degraded pseudo-channels at the start. -/
  degraded : Vector (BitVec 32) 8
  /-- R236 (08). MAP.JOB_BOX at the start. -/
  jobBox : BitVec 16
  /-- R236 (08). MAP.MACHINE.EX at the start. -/
  ex : Nat
  /-- R236 (08). MAP.MACHINE.EY at the start. -/
  ey : Nat
  /-- R236 (08). MAP.MACHINE.EZ at the start. -/
  ez : Nat
  /-- R218, R235 (08). Wall time at which the run began; none while it waits. -/
  since : Option Nat
  /-- R219, R235 (08). Wall time at which the job health map was complete. -/
  gatheredAt : Option Nat
  deriving DecidableEq, Repr

/-- `MapRun` as reset leaves it. -/
def MapRun.reset : MapRun where
  part := 0
  rebind := false
  own := HealthRec.reset
  degraded := Vector.replicate 8 0
  jobBox := 0
  ex := 8
  ey := 8
  ez := 4
  since := none
  gatheredAt := none


/-- The MAP block (R236) and this chip's health map (R216). -/
structure MapRegs where
  /-- R236 (08). MAP.CTRL.PART. -/
  part : BitVec 4
  /-- R236 (08). MAP.STATUS.STATE. -/
  state : BitVec 3
  /-- R236 (08). MAP.STATUS.RESTART. -/
  restart : Bool
  /-- R236 (08). MAP.STATUS.CODE. -/
  code : BitVec 8
  /-- R236 (08). MAP.FAIL_LOC.LTILE. -/
  failLtile : BitVec 8
  /-- R236 (08). MAP.FAIL_LOC.STREAM. -/
  failStream : BitVec 2
  /-- R236 (08). MAP.FAIL_OBJ. -/
  failObj : BitVec 32
  /-- R236 (08). MAP.MACHINE.EX. -/
  ex : BitVec 4
  /-- R236 (08). MAP.MACHINE.EY. -/
  ey : BitVec 4
  /-- R236 (08). MAP.MACHINE.EZ. -/
  ez : BitVec 3
  /-- R236 (08). MAP.JOB_BOX OX, OY, OZ, EXM1, EYM1, EZM1. -/
  jobBox : BitVec 16
  /-- R236 (08). MAP.RANK.RANK. -/
  rank : BitVec 16
  /-- R236 (08). MAP.RANK.VALID. -/
  rankValid : Bool
  /-- R236 (08). MAP.RANK.MOVED. -/
  rankMoved : Bool
  /-- R236 (08). MAP.UPSTREAM.PORT. -/
  upPort : BitVec 4
  /-- R236 (08). MAP.UPSTREAM.ROOT. -/
  upRoot : Bool
  /-- R217, R236 (08). MAP.CHIP_HEALTH.STATE. -/
  chipState : BitVec 2
  /-- R236 (08). MAP.CHIP_HEALTH.RETIRE. -/
  retire : Bool
  /-- R236 (08). MAP.SPLICE.CHAIN. -/
  chain : BitVec 8
  /-- R236 (08). MAP.SPLICE.STRETCHED. -/
  stretched : BitVec 8
  /-- R236 (08). MAP.SPLICE.SPLICES. -/
  splices : BitVec 16
  /-- R236 (08). MAP.LT_SEL LTILE and PART. -/
  ltSel : BitVec 12
  /-- R236 (08). MAP.LCH_SEL LCH and PART. -/
  lchSel : BitVec 12
  /-- R219, R236 (08). MAP.JHM_DIGEST0-15. -/
  jhmDigest : BitVec 512
  /-- R236 (08). MAP.TILE_RETIRE0-4. -/
  tileRetire : BitVec 160
  /-- R216 (08). Tiles that have failed since SYS_RESET_N. -/
  tileFailed : BitVec 160
  /-- R216 (08). Tiles on which F-0201 was raised once already. -/
  tileUe : BitVec 160
  /-- R218 (08). Health records received from the chips of the job's pods, by ascending address. -/
  records : List HealthRec
  /-- R217 (08). Chips declared FAILED, ascending. -/
  declared : List (BitVec 24)
  /-- R219 (08). Job health map digests received from neighbours. -/
  digests : List (BitVec 24 × BitVec 512)
  /-- R235 (08). Configuration records received from the chips of the job for the comparison of phase 3. -/
  peerConfigs : List (BitVec 24 × PeerCfg)
  /-- R220, R235, R236 (08). The bind or re-bind in progress with the snapshot from which it runs (MAP.CTRL.BIND and REBIND read 1). -/
  run : Option MapRun
  deriving DecidableEq, Repr

/-- `MapRegs` as reset leaves it. -/
def MapRegs.reset : MapRegs where
  part := 0
  state := 0
  restart := false
  code := 0
  failLtile := 0
  failStream := 0
  failObj := 0
  ex := 8
  ey := 8
  ez := 4
  jobBox := 0
  rank := 0
  rankValid := false
  rankMoved := false
  upPort := 0
  upRoot := false
  chipState := 0
  retire := false
  chain := 0
  stretched := 0
  splices := 0
  ltSel := 0
  lchSel := 0
  jhmDigest := 0
  tileRetire := 0
  tileFailed := 0
  tileUe := 0
  records := []
  declared := []
  digests := []
  peerConfigs := []
  run := none


/-- One request table entry (R247), 64 bytes. -/
structure Entry where
  /-- R247 (09). Bytes 0-7 REQ_ID. -/
  reqId : BitVec 64
  /-- R247 (09). Bytes 8-15 SEED. -/
  seed : BitVec 64
  /-- R247 (09). Bytes 16-23 DEADLINE. -/
  deadline : BitVec 64
  /-- R247 (09). Bytes 24-27 STRING_SET. -/
  stringSet : BitVec 32
  /-- R247 (09). Bytes 28-31 PROMPT_LEN. -/
  promptLen : BitVec 32
  /-- R247 (09). Bytes 32-35 PREFILL_DONE. -/
  prefillDone : BitVec 32
  /-- R247 (09). Bytes 36-39 GEN. -/
  gen : BitVec 32
  /-- R247 (09). Bytes 40-43 MAX_NEW. -/
  maxNew : BitVec 32
  /-- R247 (09). Bytes 44-47 LAST_TOKEN. -/
  lastToken : BitVec 32
  /-- R247 (09). Bytes 48-51 AGE. -/
  age : BitVec 32
  /-- R247 (09). Bytes 52-55 PAGES. -/
  pages : BitVec 24
  /-- R247 (09). Bytes 56-57 CUSTOMER. -/
  customer : BitVec 16
  /-- R247 (09). Bytes 58-59 WAIT. -/
  wait : BitVec 16
  /-- R247 (09). Byte 60 [2:0] STATE: 0 FREE, 1 PREFILL, 2 DECODE, 3 RETIRING. -/
  st : BitVec 3
  /-- R247 (09). Byte 60 [3] OVERDUE. -/
  overdue : Bool
  /-- R247 (09). Byte 60 [4] CANCEL. -/
  cancel : Bool
  /-- R247 (09). Byte 60 [5] SPEC. -/
  spec : Bool
  /-- R247 (09). Byte 60 [6] PARKED. -/
  parked : Bool
  /-- R247 (09). Byte 61 [3:0] profile. -/
  sampler : BitVec 4
  /-- R247 (09). Byte 61 [6:4] SPEC_DEPTH. -/
  specDepth : BitVec 3
  /-- R286 (10). SPEC_STATE [3:0] ZERO_RUN. -/
  zeroRun : BitVec 4
  /-- R286 (10). SPEC_STATE [10:4] PROBE_WAIT. -/
  probeWait : BitVec 7
  /-- R286 (10). SPEC_STATE [11] OFF. -/
  off : Bool
  /-- R286 (10). SPEC_STATE [12] PROBING. -/
  probing : Bool
  deriving DecidableEq, Repr

/-- `Entry` as reset leaves it. -/
def Entry.reset : Entry where
  reqId := 0
  seed := 0
  deadline := 0
  stringSet := 0
  promptLen := 0
  prefillDone := 0
  gen := 0
  maxNew := 0
  lastToken := 0
  age := 0
  pages := 0
  customer := 0
  wait := 0
  st := 0
  overdue := false
  cancel := false
  spec := false
  parked := false
  sampler := 0
  specDepth := 0
  zeroRun := 0
  probeWait := 0
  off := false
  probing := false


/-- One batch slot as SEQ chose it (R251). -/
structure Slot where
  /-- R251 (09). Local entry index. -/
  table : Nat
  /-- R251 (09). 0 EMPTY, 1 DECODE, 2 PREFILL, 3 PREFILL_LAST. -/
  kind : BitVec 8
  /-- R251 (09). Speculation depth d. -/
  depth : Nat
  /-- R251 (09). First position computed. -/
  pos0 : Nat
  /-- R251 (09). Positions computed. -/
  npos : Nat
  /-- R251 (09). LAST_TOKEN or prompt-store word. -/
  input : BitVec 32
  /-- R251 (09). String cache slot. -/
  strSlot : Nat
  /-- R251 (09). Profile. -/
  sampler : BitVec 4
  /-- R251 (09). GEN of the entry. -/
  gen : BitVec 32
  /-- R251 (09). Philox key. -/
  seed : BitVec 64
  /-- R251 (09). Plan-space word of the page table. -/
  ptable : Nat
  deriving DecidableEq, Repr

/-- `Slot` as reset leaves it. -/
def Slot.reset : Slot where
  table := 0
  kind := 0
  depth := 0
  pos0 := 0
  npos := 0
  input := 0
  strSlot := 0
  sampler := 0
  gen := 0
  seed := 0
  ptable := 0


/-- One 64-byte result record (R260). -/
structure ResultRec where
  /-- R260 (09). REQ_ID. -/
  reqId : BitVec 64
  /-- R260 (09). Table index, 0xFFFF for replies. -/
  table : BitVec 16
  /-- R261 (09). STATUS. -/
  status : BitVec 8
  /-- R260 (09). FLAGS.LATE. -/
  late : Bool
  /-- R260 (09). FLAGS.FINAL. -/
  final : Bool
  /-- R260 (09). FLAGS.PHASE. -/
  phase : Bool
  /-- R260 (09). ACCEPTED. -/
  accepted : BitVec 8
  /-- R260 (09). Tokens, at most 5; NTOK is their number. -/
  tokens : List (BitVec 32)
  /-- R260 (09). GEN. -/
  gen : BitVec 32
  /-- R260 (09). STEP. -/
  stepNo : BitVec 64
  /-- R260 (09). TIME. -/
  time : BitVec 64
  /-- R260 (09). COMPUTED. -/
  computed : BitVec 32
  deriving DecidableEq, Repr

/-- `ResultRec` as reset leaves it. -/
def ResultRec.reset : ResultRec where
  reqId := 0
  table := 0xFFFF
  status := 0
  late := false
  final := false
  phase := false
  accepted := 0
  tokens := []
  gen := 0
  stepNo := 0
  time := 0
  computed := 0


/-- The intake window header of one partition (R242) with the configuration in force (R264). -/
structure IntakeHdr where
  /-- R242 (09). CTL_CONSUMED. -/
  ctlConsumed : BitVec 32
  /-- R242 (09). SUB_CONSUMED. -/
  subConsumed : BitVec 32
  /-- R242 (09). PROMPT_CONSUMED. -/
  promptConsumed : BitVec 32
  /-- R242 (09). RESULT_PRODUCED. -/
  resultProduced : BitVec 32
  /-- R242 (09). STEP. -/
  stepNo : BitVec 64
  /-- R242, R264 (09). STATUS.CFG_ERR. -/
  cfgErr : Bool
  /-- R242 (09). CFG_DONE. -/
  cfgDone : BitVec 32
  /-- R264 (09). RESULT_BASE in force. -/
  base : BitVec 64
  /-- R264 (09). RESULT_LOG2 in force; 0: no ring is configured. -/
  log2 : BitVec 5
  /-- R264 (09). SEQWORD_ADDR in force. -/
  seqword : BitVec 64
  /-- R264 (09). IRQ.STEP_IRQ in force. -/
  irq : Bool
  deriving DecidableEq, Repr

/-- `IntakeHdr` as reset leaves it. Fields with a value the spec does not give (DESIGN CHOICE, notes/assumptions/3.md). -/
def IntakeHdr.reset : IntakeHdr where
  ctlConsumed := 0
  subConsumed := 0
  promptConsumed := 0
  resultProduced := 0
  stepNo := 0
  cfgErr := false
  cfgDone := 0
  base := 0
  log2 := 0
  seqword := 0
  irq := false


/-- The SEQ bank of one partition (R268) and its serving state. -/
structure SeqBank where
  /-- R268 (09). SEQ.CTRL.PAUSE_ADMIT. -/
  pauseAdmit : Bool
  /-- R268 (09). SEQ.CTRL.TDOM. -/
  tdom : Bool
  /-- R268 (09). SEQ.STATUS.RESULT_FULL. -/
  resultFull : Bool
  /-- R268 (09). SEQ.STATUS.INTAKE_ERR (W1C). -/
  intakeErr : Bool
  /-- R249, R268 (09). Pc at which the boundary work ends; SEQ.STATUS.BUSY reads 1 before it. -/
  busyUntil : Nat
  /-- R268 (09). SEQ.STEP_LO/HI, number of the last boundary. -/
  stepNo : BitVec 64
  /-- R268 (09). SEQ.OVERDUE_STEPS. -/
  overdueSteps : BitVec 16
  /-- R268 (09). SEQ.QUANTUM. -/
  quantum : BitVec 16
  /-- R268 (09), R478 (18). PAUSE_ADMIT, TDOM, OVERDUE_STEPS and QUANTUM written during boundary work, for the next boundary. -/
  chained : Option (Bool × Bool × BitVec 16 × BitVec 16)
  /-- R268 (09). SEQ.LAST_SLOTS.DECODE. -/
  lastDecode : BitVec 15
  /-- R268 (09). SEQ.LAST_SLOTS.PREFILL. -/
  lastPrefill : BitVec 15
  /-- R268 (09). SEQ.LAST_TOKENS. -/
  lastTokens : BitVec 24
  /-- R268 (09). SEQ.ADMITTED (RC, saturates). -/
  admitted : BitVec 32
  /-- R268 (09). SEQ.REJECTED (RC, saturates). -/
  rejected : BitVec 32
  /-- R268 (09). SEQ.RECORDS (RC, saturates). -/
  records : BitVec 32
  /-- R268 (09). SEQ.REPLIES_LOST (RC, saturates). -/
  repliesLost : BitVec 32
  /-- R268 (09). SEQ.BOUNDARY_PC. -/
  boundaryPc : BitVec 32
  /-- R268 (09). SEQ.STR_SEL. -/
  strSel : BitVec 16
  /-- R247 (09). Admission number of the next admitted request, counted from 0 at launch. -/
  nextAge : BitVec 32
  /-- R251 (09). Batch slots of the step in progress. -/
  slots : List Slot
  /-- R200, R257 (07, 09). Pages allocated, ascending (a page not listed is free). -/
  usedPages : List Nat
  /-- R248, R257 (09). Per table index, the pages that its page table maps, in entry order. -/
  pageOf : List (Nat × List Nat)
  /-- R257 (09). Per table index, the pages committed at its admission. -/
  commits : List (Nat × Nat)
  /-- R259 (09). String map: (slot, set, last-use step), ascending slot. -/
  strMap : List (Nat × BitVec 32 × BitVec 64)
  /-- R241 (09). The 1 MiB intake window as the host wrote it (the header's host words and the three rings), by window offset; an unlisted byte reads 0. -/
  intake : List Host.Cell
  /-- R242 (09). The header. -/
  hdr : IntakeHdr
  /-- R244 (09). Unconsumed submits that a CANCEL has marked: REQ_ID and record count; no count where the CANCEL came from the Ash log. -/
  marked : List (BitVec 64 × Option (BitVec 32))
  /-- R267 (09). A Curtain calls for every live entry to be retired with RESET at the boundary. -/
  resetAll : Bool
  /-- R240 (09). The declarations were checked since the last Curtain. -/
  declChecked : Bool
  /-- R252 (09). A step whose batch SEQ wrote is in progress. -/
  inStep : Bool
  /-- R249 (09). Boundary tick whose work SEQ has done. -/
  doneTick : Option Nat
  /-- R267 (09), R408 (15). Return records of a step that an image Curtain ended, as the old plan left them, for the next boundary. -/
  oldReturns : List (BitVec 512)
  /-- R262 (09). Records formed and not yet written, by table index. -/
  retiring : List (Nat × ResultRec)
  deriving DecidableEq, Repr

/-- `SeqBank` as reset leaves it. Fields with a value the spec does not give (DESIGN CHOICE, notes/assumptions/5.md). -/
def SeqBank.reset : SeqBank where
  pauseAdmit := false
  tdom := false
  resultFull := false
  intakeErr := false
  busyUntil := 0
  stepNo := 0
  overdueSteps := 0x10
  quantum := 0x40
  chained := none
  lastDecode := 0
  lastPrefill := 0
  lastTokens := 0
  admitted := 0
  rejected := 0
  records := 0
  repliesLost := 0
  boundaryPc := 0
  strSel := 0
  nextAge := 0
  slots := []
  usedPages := []
  pageOf := []
  commits := []
  strMap := []
  intake := []
  hdr := IntakeHdr.reset
  marked := []
  resetAll := false
  declChecked := false
  inStep := false
  doneTick := none
  oldReturns := []
  retiring := []


/-- The SEQ block's chip-wide registers and the request table (R247, R255, R268). -/
structure SeqShared where
  /-- R268 (09). SEQ.PSEL. -/
  psel : BitVec 4
  /-- R268 (09). SEQ.ENTRY_SEL. -/
  entrySel : BitVec 14
  /-- R268 (09). SEQ.ENTRY0-15. -/
  entryCopy : Vector (BitVec 32) 16
  /-- R268 (09). SEQ.DEF_SEL. -/
  defSel : BitVec 16
  /-- R247 (09). The 16,384-entry request table: entries that are not all zero, ascending. -/
  table : List (Nat × Entry)
  /-- R255 (09). DEF of each customer, entries that are not 0, ascending. -/
  deficit : List (Nat × Int)
  deriving DecidableEq, Repr

/-- `SeqShared` as reset leaves it. -/
def SeqShared.reset : SeqShared where
  psel := 0
  entrySel := 0
  entryCopy := Vector.replicate 16 0
  defSel := 0
  table := []
  deficit := []


/-- One budget bucket (R271). -/
structure Bucket where
  /-- R271 (10). GRANTED, signed 64 bits. -/
  granted : Int
  /-- R271 (10). CHARGED, unsigned 64 bits. -/
  charged : Nat
  /-- R271 (10). BALANCE, signed 64 bits. -/
  balance : Int
  /-- R271 (10). SPRING. -/
  spring : BitVec 32
  /-- R271 (10). CAP. -/
  cap : BitVec 32
  deriving DecidableEq, Repr

/-- `Bucket` as reset leaves it. -/
def Bucket.reset : Bucket where
  granted := 0
  charged := 0
  balance := 0
  spring := 0
  cap := 0


/-- An operator operation armed through BUD.OP_CTRL (R288). -/
structure BudOp where
  /-- R288 (10). OP. -/
  op : BitVec 3
  /-- R288 (10). OP_CUST. -/
  cust : BitVec 16
  /-- R288 (10). OP_VAL. -/
  val : BitVec 64
  deriving DecidableEq, Repr

/-- `BudOp` as reset leaves it. -/
def BudOp.reset : BudOp where
  op := 0
  cust := 0
  val := 0


/-- The BUD bank of one partition (R288). -/
structure BudBank where
  /-- R288 (10). BUD.BASE. -/
  base : BitVec 16
  /-- R288 (10). BUD.COUNT. -/
  count : BitVec 17
  /-- R280, R288 (10). Parameters in force (Stage values). -/
  cfg : BudCfg
  /-- R288 (10), R478 (18). CHARGE_PROMPT and SPEC_EN written to BUD.CFG, for step 2 of the next boundary (BUD.STATUS.CFG_PENDING). -/
  cfgNext : Option (Bool × Bool)
  /-- R288 (10), R478 (18). BUD.ADMIT_RESERVE written, likewise. -/
  reserveNext : Option (BitVec 32)
  /-- R288 (10), R478 (18). BUD.PAGE_QUOTA written, likewise. -/
  quotaNext : Option (BitVec 24)
  /-- R288 (10). BUD.PAGES_COMMITTED. -/
  committed : BitVec 24
  /-- R288 (10). BUD.PAGES_ALLOCATED. -/
  allocated : BitVec 24
  /-- R288 (10). BUD.BKT_SEL. -/
  bktSel : BitVec 16
  /-- R288 (10). BUD.BKT0-7. -/
  bktCopy : Vector (BitVec 32) 8
  /-- R288 (10). BUD.OP_CUST. -/
  opCust : BitVec 16
  /-- R288 (10). BUD.OP_VAL_LO/HI. -/
  opVal : BitVec 64
  /-- R288 (10). BUD.OP_CTRL.OP. -/
  opCode : BitVec 3
  /-- R288 (10). BUD.OP_CTRL.GO: the armed operation with the values it was armed with. -/
  opArmed : Option BudOp
  /-- R288 (10). BUD.OP_CTRL.REJECTED (W1C). -/
  opRejected : Bool
  /-- R288 (10). BUD.LAST_CHARGE. -/
  lastCharge : BitVec 32
  /-- R288 (10). BUD.SPEC_GUESSED (RC, saturates). -/
  specGuessed : BitVec 32
  /-- R288 (10). BUD.SPEC_ACCEPTED (RC, saturates). -/
  specAccepted : BitVec 32
  deriving DecidableEq, Repr

/-- `BudBank` as reset leaves it. -/
def BudBank.reset : BudBank where
  base := 0
  count := 0
  cfg := BudCfg.reset
  cfgNext := none
  reserveNext := none
  quotaNext := none
  committed := 0
  allocated := 0
  bktSel := 0
  bktCopy := Vector.replicate 8 0
  opCust := 0
  opVal := 0
  opCode := 0
  opArmed := none
  opRejected := false
  lastCharge := 0
  specGuessed := 0
  specAccepted := 0


/-- The BUD block's chip-wide registers and the buckets (R270, R288). -/
structure BudShared where
  /-- R288 (10). BUD.PSEL. -/
  psel : BitVec 4
  /-- R270 (10). The 65,536 buckets: those that are not all zero, ascending. -/
  buckets : List (Nat × Bucket)
  deriving DecidableEq, Repr

/-- `BudShared` as reset leaves it. -/
def BudShared.reset : BudShared where
  psel := 0
  buckets := []


/-- One outstanding watch of a tile (R294 to R297). -/
structure Watch where
  /-- R294 (11). Watched word. -/
  watched : Nat
  /-- R294 (11). Wake word. -/
  wake : Nat
  /-- R294 (11). Required state: full (MOD 0x0) or empty (MOD 0x1). -/
  wantFull : Bool
  /-- R294 (11). Registration pc p + 8. -/
  regAt : Nat
  /-- R297 (11). Tick pc at which it expires unfired. -/
  expireAt : Nat
  /-- R293, R294 (11). Delivery steps left once it has fired. -/
  fired : Option Nat
  /-- R293, R310 (11). Its delivery has advanced during a hold. -/
  early : Bool
  /-- R297 (11). Engine of the CT.WATCH. -/
  engine : BitVec 2
  /-- R297 (11). Program counter of the CT.WATCH. -/
  pc : BitVec 32
  deriving DecidableEq, Repr

/-- `Watch` as reset leaves it. -/
def Watch.reset : Watch where
  watched := 0
  wake := 0
  wantFull := true
  regAt := 0
  expireAt := 0
  fired := none
  early := false
  engine := 0
  pc := 0


/-- The sync unit's state for one tile (R294, R307, R376). -/
structure TileSync where
  /-- R295 (11). Outstanding watches, at most 16. -/
  watches : List Watch
  /-- R307 (11). Object table: word and the bit recorded at its first use, ascending, at most 256. -/
  objects : List (Nat × Bool)
  /-- R376 (14). ER overflow events: pc of the write, delivery steps left until the ER flag word is set full, and whether the delivery has advanced during a hold; oldest first. -/
  erDelivery : List (Nat × Nat × Bool)
  deriving DecidableEq, Repr

/-- `TileSync` as reset leaves it. -/
def TileSync.reset : TileSync where
  watches := []
  objects := []
  erDelivery := []


/-- One barrier of a partition (R298 to R304). -/
structure Barrier where
  /-- R302, R310 (11). Round in progress, modulo 256. -/
  round : BitVec 8
  /-- R299 (11). A round is in progress. -/
  isOpen : Bool
  /-- R299 (11). Logical member tiles that have arrived, ascending. -/
  arrived : List Nat
  /-- R301 (11). Tree indexes of the children whose ARRIVE has come, ascending. -/
  children : List Nat
  /-- R302 (11). Children whose ARRIVE for the following round has come. -/
  nextChildren : List Nat
  /-- R310 (11). ARRIVE has gone to the parent. -/
  sentUp : Bool
  /-- R293, R300, R301 (11). Delivery steps left to the completion writes. -/
  delivering : Option Nat
  /-- R293, R310 (11). Its delivery has advanced during a hold. -/
  early : Bool
  /-- R304 (11). Tick pc at which the round expires on this chip. -/
  expireAt : Nat
  /-- R304 (11). Physical tile of the first arrival. -/
  firstTile : BitVec 8
  /-- R304 (11). Its engine. -/
  firstEngine : BitVec 2
  /-- R304 (11). Its program counter. -/
  firstPc : BitVec 32
  deriving DecidableEq, Repr

/-- `Barrier` as reset leaves it. -/
def Barrier.reset : Barrier where
  round := 0
  isOpen := false
  arrived := []
  children := []
  nextChildren := []
  sentUp := false
  delivering := none
  early := false
  expireAt := 0
  firstTile := 0xFF
  firstEngine := 3
  firstPc := 0


/-- The SYNC block's chip-wide registers (R310). -/
structure SyncRegs where
  /-- R310 (11). SYNC.PSEL. -/
  psel : BitVec 4
  /-- R310 (11). SYNC.BAR_SEL. -/
  barSel : BitVec 5
  /-- R310 (11). SYNC.TILE_SEL. -/
  tileSel : BitVec 8
  /-- R310 (11). SYNC.WAKES (RC, saturates). -/
  wakes : BitVec 32
  /-- R310 (11). SYNC.COMPLETIONS (RC, saturates). -/
  completions : BitVec 32
  /-- R310 (11). SYNC.EARLY (RC, saturates). -/
  early : BitVec 32
  deriving DecidableEq, Repr

/-- `SyncRegs` as reset leaves it. -/
def SyncRegs.reset : SyncRegs where
  psel := 0
  barSel := 0
  tileSel := 0
  wakes := 0
  completions := 0
  early := 0


/-- The SYNC bank of one partition (R310) and its barriers. -/
structure SyncBank where
  /-- R299 (11). Barriers 0-31. -/
  barriers : Vector Barrier 32
  /-- R310 (11). SYNC.STALL_OBJ WORD, LTILE, BARRIER, KIND. -/
  stallObj : BitVec 30
  /-- R310 (11). SYNC.STALL_OBJ.VALID (W1C). -/
  stallValid : Bool
  /-- R305 (11). Physical tile of the recorded waiter. -/
  stallTile : BitVec 8
  /-- R310 (11). SYNC.STALL_WAITER. -/
  stallPc : BitVec 32
  /-- R310 (11). SYNC.STALL_ENGINE. -/
  stallEngine : BitVec 2
  /-- R305 (11). Own episode in which the stall was recorded. -/
  stallEpisode : Option (BitVec 8)
  /-- R310 (11). SYNC.CHECK.FAILURES. -/
  checkFailures : BitVec 16
  /-- R310 (11). SYNC.CHECK.DONE. -/
  checkDone : Bool
  /-- R310 (11). SYNC.CHECK_FIRST WORD, LTILE, BARRIER. -/
  checkFirst : BitVec 29
  deriving DecidableEq, Repr

/-- `SyncBank` as reset leaves it. -/
def SyncBank.reset : SyncBank where
  barriers := Vector.replicate 32 Barrier.reset
  stallObj := 0
  stallValid := false
  stallTile := 0xFF
  stallPc := 0
  stallEngine := 0
  stallEpisode := none
  checkFailures := 0
  checkDone := false
  checkFirst := 0


/-- A P packet queued at a port for a slot or a FWD run (R324, R327). -/
structure PQueued where
  /-- R324 (12). The packet. -/
  pkt : Packet
  /-- R326 (12). Pc at which its first beat, or its header, reached the port. -/
  readyAt : Nat
  /-- R327 (12). It travels in FWD cells. -/
  relay : Bool
  /-- R327 (12). Port it arrived by; 12 when this chip sent it. -/
  via : Nat
  /-- R324, R402 (12, 15). Partition in whose cells it goes. -/
  part : Nat
  deriving DecidableEq, Repr

/-- `PQueued` as reset leaves it. -/
def PQueued.reset : PQueued where
  pkt := Packet.reset
  readyAt := 0
  relay := false
  via := 12
  part := 0


/-- An open-class packet queued at a port (R332). -/
structure OQueued where
  /-- R332 (12). The packet. -/
  pkt : Packet
  /-- R324 (12). Wall time from which it may start. -/
  readyAt : Nat
  /-- R332 (12). Already counted as waiting for the entry rule. -/
  counted : Bool
  /-- R332 (12). It enters a ring here, by injection or by a change of dimension or direction. -/
  newRing : Bool
  /-- R331 (12). Port it arrived by; 12 when it was injected here. -/
  via : Nat
  /-- R332 (12). It holds one of the port's four transmit buffers of its class. -/
  inBuf : Bool
  deriving DecidableEq, Repr

/-- `OQueued` as reset leaves it. -/
def OQueued.reset : OQueued where
  pkt := Packet.reset
  readyAt := 0
  counted := false
  newRing := true
  via := 12
  inBuf := false


/-- A packet in a receive pool (R118, R356). -/
structure PoolPkt where
  /-- R356 (13). The packet. -/
  pkt : Packet
  /-- R326 (12). Pc at which it was complete in the pool. -/
  landedAt : Nat
  /-- R118 (04). Pc at which its pool space is freed, once claimed. -/
  freeAt : Option Nat
  /-- R327 (12). Relay port, for a packet that waits for a FWD run. -/
  relayPort : Option Nat
  deriving DecidableEq, Repr

/-- `PoolPkt` as reset leaves it. -/
def PoolPkt.reset : PoolPkt where
  pkt := Packet.reset
  landedAt := 0
  freeAt := none
  relayPort := none


/-- The chip-wide fabric registers and tables (R317, R325, R330, R338, R339). -/
structure FabricRegs where
  /-- R339 (12). LNK0.FAB_JOB.TAG. -/
  job : BitVec 8
  /-- R339 (12). LNK0.FAB_JOB.VALID. -/
  jobValid : Bool
  /-- R339 (12). LNK0.FAB_CELL.BYTES. -/
  cellBytes : BitVec 16
  /-- R325, R339 (12). LNK0.LINK_MAP0-5: per logical link VALID, SPLICED, PORT. -/
  linkMap : Vector (BitVec 6) 12
  /-- R339 (12). LNK0.RANK_SEL. -/
  rankSel : BitVec 14
  /-- R339 (12). LNK0.FLAT_SEL. -/
  flatSel : BitVec 12
  /-- R330 (12). Exception table: entries that are not 0xF000_0000, ascending index. -/
  exceptions : List (Nat × BitVec 32)
  /-- R320 (12). H BULK packets received for the firmware, oldest first. -/
  bulk : List Packet
  /-- R331 (12). Open packets delivered to this chip's endpoints and not yet acted on by their own command, oldest first. -/
  delivered : List Packet
  deriving DecidableEq, Repr

/-- `FabricRegs` as reset leaves it. -/
def FabricRegs.reset : FabricRegs where
  job := 0
  jobValid := false
  cellBytes := 0
  linkMap := Vector.replicate 12 0
  rankSel := 0
  flatSel := 0
  exceptions := []
  bulk := []
  delivered := []


/-- A Vent message that this chip sent and that is not yet acknowledged (R337). -/
structure VentOut where
  /-- R337 (12). MSG_ID. -/
  msgId : BitVec 32
  /-- R337 (12). Destination flat identifier. -/
  dest : BitVec 24
  /-- R337 (12). The message bytes. -/
  body : List (BitVec 8)
  /-- R337 (12). Times sent. -/
  tries : Nat
  /-- R337 (12). Wall time at which it is sent again. -/
  retryAt : Nat
  /-- R337 (12), R420 (15). Key epoch under which it is sealed. -/
  epoch : BitVec 32
  deriving DecidableEq, Repr

/-- `VentOut` as reset leaves it. -/
def VentOut.reset : VentOut where
  msgId := 0
  dest := 0
  body := []
  tries := 0
  retryAt := 0
  epoch := 0


/-- The Vent channel endpoint (R337). -/
structure VentState where
  /-- R337 (12). Unacknowledged messages. -/
  out : List VentOut
  /-- R337 (12), R419, R420 (15). (key epoch, sender, MSG_ID) of messages verified already, the last 1,024 of each sender in an epoch. -/
  seen : List (BitVec 32 × BitVec 24 × BitVec 32)
  /-- R337 (12). Destinations reported unreachable to firmware. -/
  unreachable : List (BitVec 24)
  /-- R337 (12). Next MSG_ID. -/
  nextId : BitVec 32
  /-- R337 (12). Fragments received of messages not yet complete: sender, MSG_ID, fragment number and bytes. -/
  parts : List (BitVec 24 × BitVec 32 × Nat × List (BitVec 8))
  /-- R337 (12). Verified messages for the firmware, oldest first. -/
  inbox : List (BitVec 24 × List (BitVec 8))
  deriving DecidableEq, Repr

/-- `VentState` as reset leaves it. Fields with a value the spec does not give (DESIGN CHOICE, notes/assumptions/3.md). -/
def VentState.reset : VentState where
  out := []
  seen := []
  unreachable := []
  nextId := 0
  parts := []
  inbox := []


/-- One entry of a replay buffer (R351, R355). -/
structure ReplayEnt where
  /-- R351 (13). Link sequence number. -/
  seq : BitVec 16
  /-- R351 (13). The packet as sent. -/
  pkt : Packet
  deriving DecidableEq, Repr

/-- `ReplayEnt` as reset leaves it. -/
def ReplayEnt.reset : ReplayEnt where
  seq := 0
  pkt := Packet.reset


/-- RC counters of one port (R369). -/
structure LinkCounters where
  /-- R369 (13). LNKn.REPLAYS. -/
  replays : BitVec 32
  /-- R369 (13). LNKn.ACK_TIMEOUTS. -/
  ackTimeouts : BitVec 32
  /-- R369 (13). LNKn.CRC_ERR. -/
  crcErr : BitVec 32
  /-- R369 (13). LNKn.FEC_CORR. -/
  fecCorr : BitVec 32
  /-- R369 (13). LNKn.FEC_UNCORR. -/
  fecUncorr : BitVec 32
  /-- R369 (13). LNKn.STALLS. -/
  stalls : BitVec 32
  /-- R369 (13). LNKn.POOL_NAK. -/
  poolNak : BitVec 32
  /-- R369 (13). LNKn.RETRAINS. -/
  retrains : BitVec 32
  /-- R369 (13). LNKn.LANE_ERR of each lane. -/
  laneErr : Vector (BitVec 32) 9
  /-- R338 (12). LNKn.P_IDLE. -/
  pIdle : BitVec 32
  /-- R338 (12). LNKn.BUBBLE_WAIT. -/
  bubbleWait : BitVec 32
  /-- R338 (12). LNKn.DROP. -/
  drop : BitVec 32
  /-- R338 (12). LNKn.CNT by direction and class. -/
  cnt : Vector (BitVec 32) 8
  deriving DecidableEq, Repr

/-- `LinkCounters` as reset leaves it. -/
def LinkCounters.reset : LinkCounters where
  replays := 0
  ackTimeouts := 0
  crcErr := 0
  fecCorr := 0
  fecUncorr := 0
  stalls := 0
  poolNak := 0
  retrains := 0
  laneErr := Vector.replicate 9 0
  pIdle := 0
  bubbleWait := 0
  drop := 0
  cnt := Vector.replicate 8 0


/-- Lanes of one port (R365 to R369). -/
structure LinkLanes where
  /-- R369 (13). LNKn.LANE.LOCKED. -/
  locked : BitVec 9
  /-- R369 (13). LNKn.LANE.REPLACED. -/
  replaced : BitVec 4
  /-- R369 (13). LNKn.LANE.ARMED: lane whose swap is armed for the next tick. -/
  armed : Option (BitVec 4)
  /-- R369 (13). LNKn.LANE_CFG.THRESH. -/
  thresh : BitVec 16
  /-- R369 (13). LNKn.LANE_CFG.AUTO. -/
  auto : Bool
  /-- R369 (13). LNKn.LANE_SEL.LANE. -/
  sel : BitVec 4
  /-- R365 (13). Lane whose swap this receiver has requested. -/
  request : Option (BitVec 4)
  /-- R365 (13). Wall time at which an unanswered LANE symbol is sent again. -/
  retryAt : Nat
  /-- R365 (13). Lane whose signal the sender copies onto lane 8. -/
  sendCopy : Option (BitVec 4)
  /-- R366 (13). Lane on which the sender sends idle after LANE DONE. -/
  sendIdle : Option (BitVec 4)
  /-- R366 (13). Swap in verification: replaced lane, and codeword number at which it began. -/
  verifying : Option (BitVec 4 × Nat)
  /-- R367 (13). A codeword of the 256 was uncorrectable. -/
  verifyBad : Bool
  deriving DecidableEq, Repr

/-- `LinkLanes` as reset leaves it. -/
def LinkLanes.reset : LinkLanes where
  locked := 0
  replaced := 0xF
  armed := none
  thresh := 0x400
  auto := true
  sel := 0
  request := none
  retryAt := 0
  sendCopy := none
  sendIdle := none
  verifying := none
  verifyBad := false


/-- Fabric side of one port (R322 to R333, R338). -/
structure LinkFab where
  /-- R338 (12). LNKn.FAB_ROLE.ROLE: 0 UNUSED, 1 JOB, 2 FOREIGN, 3 FAILED. -/
  role : BitVec 2
  /-- R338 (12). LNKn.FAB_ROLE.FWD. -/
  fwd : Bool
  /-- R338 (12). LNKn.FAB_XOFF.SENT. -/
  xoffSent : BitVec 3
  /-- R338 (12). LNKn.FAB_XOFF.RCVD. -/
  xoffRcvd : BitVec 3
  /-- R338 (12). LNKn.CNT_SEL CLASS and DIR. -/
  cntSel : BitVec 3
  /-- R338 (12). LNKn.SLOT_SEL.CELL. -/
  slotSel : BitVec 14
  /-- R369 (13). LNKn.POOL_SEL.CLASS. -/
  poolSel : BitVec 2
  /-- R322 (12). Stage slot table, one code per cell; a cell past its end is OPEN. -/
  cells : List (BitVec 4)
  /-- R317 (12). Stage copy of the rank table: entries that are not zero, ascending rank. -/
  rankTable : List (Nat × BitVec 32)
  /-- R356, R369 (13). LNKn.POOL_AREA, in bytes. -/
  pArea : Nat
  /-- R356 (13). Packets in the receive pool, in order of arrival. -/
  pool : List PoolPkt
  /-- R349, R354 (13). Packets accepted in order by the packet checks and not yet acted on by their receive command, oldest first. -/
  accepted : List Packet
  /-- R324 (12). P packets queued for transmission, oldest first. -/
  pQueue : List PQueued
  /-- R332 (12). Open packets queued for transmission, oldest first. -/
  openQ : List OQueued
  /-- R324 (12). Open class that is served next. -/
  rotation : BitVec 2
  /-- R324 (12). Wall time at which the packet in transmission ends. -/
  busyUntil : Nat
  /-- R324 (12). Geyser count of the last cell begin acted on. -/
  lastCell : Nat
  /-- R324 (12). Packet last put on the wire. -/
  wireOut : Option Packet
  deriving DecidableEq, Repr

/-- `LinkFab` as reset leaves it. Fields with a value the spec does not give (DESIGN CHOICE, notes/assumptions/3.md). -/
def LinkFab.reset : LinkFab where
  role := 0
  fwd := false
  xoffSent := 0
  xoffRcvd := 0
  cntSel := 0
  slotSel := 0
  poolSel := 0
  cells := []
  rankTable := []
  pArea := 0
  pool := []
  accepted := []
  pQueue := []
  openQ := []
  rotation := 1
  busyUntil := 0
  lastCell := 0
  wireOut := none


/-- One port CKn with its link layer (R341 to R370). -/
structure Link where
  /-- R360, R369 (13). LNKn.STATUS.STATE. -/
  state : BitVec 3
  /-- R361, R369 (13). LNKn.CTRL.ENABLE (token boot). -/
  enable : Bool
  /-- R369 (13). LNKn.CTRL.FULL_TRAIN: full training in progress by that request. -/
  fullTrain : Bool
  /-- R369 (13). LNKn.STATUS.DOWN_HELD. -/
  downHeld : Bool
  /-- R369 (13). LNKn.NEIGHBOUR.ADDR. -/
  neighbour : BitVec 24
  /-- R369 (13). LNKn.NEIGHBOUR.PORT. -/
  neighbourPort : BitVec 4
  /-- R369 (13). LNKn.NEIGHBOUR.VALID. -/
  neighbourValid : Bool
  /-- R369 (13). LNKn.VERSION.MIN (token firmware). -/
  verMin : BitVec 8
  /-- R369 (13). LNKn.VERSION.MAX (token firmware). -/
  verMax : BitVec 8
  /-- R369 (13). LNKn.VERSION.USED. -/
  verUsed : BitVec 8
  /-- R369 (13). LNKn.CAL_HOLD, 1/64 ns. -/
  calHold : BitVec 20
  /-- R369 (13). LNKn.CAL_DATA, 1/64 ns. -/
  calData : BitVec 20
  /-- R369 (13). LNKn.CAL_SYM, 1/64 ns. -/
  calSym : BitVec 20
  /-- R358 (13). Raw hold latency of the last calibration, 1/64 ns. -/
  rawHold : Nat
  /-- R358 (13). Raw data latency of the last calibration, 1/64 ns. -/
  rawData : Nat
  /-- R358 (13). Raw symbol latency of the last calibration, 1/64 ns. -/
  rawSym : Nat
  /-- R358 (13). Round trips of the calibration in progress. -/
  calCount : Nat
  /-- R369 (13). LNKn.PAD, 1/64 ns. -/
  pad : BitVec 12
  /-- R369 (13). LNKn.TX_SEQ.NEXT. -/
  txNext : BitVec 16
  /-- R369 (13). LNKn.TX_SEQ.OLDEST. -/
  txOldest : BitVec 16
  /-- R369 (13). LNKn.RX_SEQ.EXPECTED. -/
  rxExpected : BitVec 16
  /-- R369 (13). LNKn.RX_SEQ.ACKED. -/
  rxAcked : BitVec 16
  /-- R349 (13). A NAK has been sent and its number not yet accepted. -/
  nakPending : Bool
  /-- R353 (13). REPLAY value announced and not yet accepted. -/
  replayUntil : Option (BitVec 16)
  /-- R343 (13). The receiver has lost its place in the packet stream. -/
  lost : Bool
  /-- R350 (13). Packets accepted since the last ACK. -/
  sinceAck : Nat
  /-- R350 (13). Wall time at which the ACK interval ends. -/
  ackAt : Option Nat
  /-- R349 (13). Wall time of the next NAK repetition. -/
  nakAt : Nat
  /-- R351 (13). Wall time at which the ACK timer expires. -/
  tAckAt : Option Nat
  /-- R355 (13). Replay buffer, oldest first, at most 4,096 entries and 524,288 wire bytes. -/
  replay : List ReplayEnt
  /-- R351 (13). Replay in progress: next number to resend. -/
  resendFrom : Option (BitVec 16)
  /-- R344 (13). Link symbols waiting for a control field. -/
  ctlOut : List LinkSym
  /-- R345, R346 (13). Inline units waiting for a codeword body, copies counted apart. -/
  inlineOut : List InlineSym
  /-- R342 (13). Wall time of the next codeword sent. -/
  codewordAt : Nat
  /-- R344 (13). Control field of the codeword last sent. -/
  lastCtl : LinkSym
  /-- R346 (13). Inline units of the codeword last sent. -/
  lastInline : List InlineSym
  /-- R344 (13). Codewords since the FLOW state was last repeated. -/
  sinceFlow : Nat
  /-- R363 (13). Codeword numbers of the uncorrectable codewords of the last 1,024. -/
  uncorrWin : List Nat
  /-- R363, R365 (13). Codewords received since training. -/
  rxCodewords : Nat
  /-- R369 (13). The port's RC counters. -/
  counters : LinkCounters
  /-- R365 (13). Lanes and spare. -/
  lanes : LinkLanes
  /-- R338 (12). The port's fabric side. -/
  fab : LinkFab
  /-- R361, R364 (13). Wall time at which the training or retraining attempt began, or is to begin. -/
  trainAt : Nat
  /-- R364 (13). The port has retrained and waits for catch-up. -/
  catchUp : Bool
  /-- R364 (13). A REPLAY symbol has arrived since the port retrained. -/
  replaySeen : Bool
  /-- R364 (13). The attempt in progress is a retraining. -/
  retraining : Bool
  deriving DecidableEq, Repr

/-- `Link` as reset leaves it. -/
def Link.reset : Link where
  state := 0
  enable := false
  fullTrain := false
  downHeld := false
  neighbour := 0
  neighbourPort := 0
  neighbourValid := false
  verMin := 0
  verMax := 0
  verUsed := 0
  calHold := 0
  calData := 0
  calSym := 0
  rawHold := 0
  rawData := 0
  rawSym := 0
  calCount := 0
  pad := 0x200
  txNext := 0
  txOldest := 0
  rxExpected := 0
  rxAcked := 0
  nakPending := false
  replayUntil := none
  lost := false
  sinceAck := 0
  ackAt := none
  nakAt := 0
  tAckAt := none
  replay := []
  resendFrom := none
  ctlOut := []
  inlineOut := []
  codewordAt := 0
  lastCtl := .idle
  lastInline := []
  sinceFlow := 0
  uncorrWin := []
  rxCodewords := 0
  counters := LinkCounters.reset
  lanes := LinkLanes.reset
  fab := LinkFab.reset
  trainAt := 0
  catchUp := false
  replaySeen := false
  retraining := false


/-- A receive directory entry of the chip (R118, R353). -/
structure DirEnt where
  /-- R118 (04). Logical tile of the key. -/
  ltile : BitVec 8
  /-- R118 (04). TAG of the key. -/
  tag : BitVec 12
  /-- R353 (13). Port of the pool that holds the packet. -/
  port : Nat
  deriving DecidableEq, Repr

/-- `DirEnt` as reset leaves it. -/
def DirEnt.reset : DirEnt where
  ltile := 0
  tag := 0
  port := 0


/-- One digest log entry (R378). -/
structure DigEntry where
  /-- R378 (14). DIGEST. -/
  digest : BitVec 64
  /-- R378 (14). LAYER. -/
  layer : BitVec 16
  /-- R378 (14). LTILE. -/
  ltile : BitVec 8
  /-- R378 (14). FLAGS.COMPARED. -/
  compared : Bool
  /-- R378 (14). FLAGS partition. -/
  part : BitVec 4
  /-- R378 (14). FRAME. -/
  frame : BitVec 32
  deriving DecidableEq, Repr

/-- `DigEntry` as reset leaves it. -/
def DigEntry.reset : DigEntry where
  digest := 0
  layer := 0
  ltile := 0
  compared := false
  part := 0
  frame := 0


/-- One Ash log entry (R384): its header and its record units. -/
structure AshEntry where
  /-- R384 (14). STEP. -/
  stepNo : BitVec 64
  /-- R383 (14). Partition whose boundary it records. -/
  part : BitVec 4
  /-- R384 (14). T. -/
  t : BitVec 64
  /-- R384 (14). Geyser count of the tick. -/
  geyser : BitVec 64
  /-- R384 (14). CTL_CONSUMED after the boundary. -/
  ctl : BitVec 32
  /-- R384 (14). SUB_CONSUMED. -/
  sub : BitVec 32
  /-- R384 (14). PROMPT_CONSUMED. -/
  prompt : BitVec 32
  /-- R384 (14). RESULT_PRODUCED after the boundary's records. -/
  result : BitVec 32
  /-- R384 (14). RESULT_BASE. -/
  base : BitVec 64
  /-- R384 (14). SEQWORD_ADDR. -/
  seqword : BitVec 64
  /-- R384 (14). RESULT_LOG2. -/
  log2 : BitVec 5
  /-- R384 (14). IRQ. -/
  irq : Bool
  /-- R384 (14). Record units in order. -/
  units : List (BitVec 512)
  /-- R383 (14). The buddy has acknowledged it. -/
  confirmed : Bool
  deriving DecidableEq, Repr

/-- `AshEntry` as reset leaves it. -/
def AshEntry.reset : AshEntry where
  stepNo := 0
  part := 0
  t := 0
  geyser := 0
  ctl := 0
  sub := 0
  prompt := 0
  result := 0
  base := 0
  seqword := 0
  log2 := 0
  irq := false
  units := []
  confirmed := false


/-- SEQ's and the budget unit's state in a checkpoint generation (R390). -/
structure CkptSeq where
  /-- R390 (14). Partition. -/
  part : BitVec 4
  /-- R390 (14). Request table range. -/
  entries : List (Nat × Entry)
  /-- R390 (14). Buckets. -/
  buckets : List (Nat × Bucket)
  /-- R390 (14). DEF. -/
  deficit : List (Nat × Int)
  /-- R390 (14). String map. -/
  strMap : List (Nat × BitVec 32 × BitVec 64)
  /-- R390 (14). Page allocation. -/
  pageOf : List (Nat × List Nat)
  /-- R390 (14). Commitments by table index. -/
  commits : List (Nat × Nat)
  /-- R244 (09), R390 (14). Marks of unconsumed submits. -/
  marked : List (BitVec 64 × Option (BitVec 32))
  /-- R390 (14). The budget unit's parameters. -/
  cfg : BudCfg
  /-- R390 (14). Next admission number. -/
  nextAge : BitVec 32
  /-- R390 (14). Batch slots of the step that the tick ends. -/
  slots : List Slot
  /-- R390 (14). Records formed and not yet written. -/
  retiring : List (Nat × ResultRec)
  deriving DecidableEq, Repr

/-- `CkptSeq` as reset leaves it. -/
def CkptSeq.reset : CkptSeq where
  part := 0
  entries := []
  buckets := []
  deficit := []
  strMap := []
  pageOf := []
  commits := []
  marked := []
  cfg := BudCfg.reset
  nextAge := 0
  slots := []
  retiring := []


/-- One checkpoint generation in a slot of the device area (R390). -/
structure CkptGen where
  /-- R390 (14). G. -/
  gen : BitVec 32
  /-- R390 (14). STEP. -/
  stepNo : BitVec 64
  /-- R390 (14). STEP of every partition. -/
  steps : List (Nat × BitVec 64)
  /-- R390 (14). Rank. -/
  rank : BitVec 16
  /-- R390 (14). STATE and allocated page words: (logical channel, channel word, data) with the partition in the channel's high part. -/
  words : List (Nat × Nat × BitVec 512)
  /-- R390 (14). SEQ and budget state on a lead chip. -/
  seqs : List CkptSeq
  /-- R390 (14). SHA-512 digest of the plan image. -/
  digest : BitVec 512
  /-- R390 (14). CRC-32C of every 64 KiB written. -/
  crcs : List (BitVec 32)
  /-- R390 (14). Both copies written and acknowledged. -/
  complete : Bool
  deriving DecidableEq, Repr

/-- `CkptGen` as reset leaves it. -/
def CkptGen.reset : CkptGen where
  gen := 0
  stepNo := 0
  steps := []
  rank := 0
  words := []
  seqs := []
  digest := 0
  crcs := []
  complete := false


/-- Checkpoint data in transfer between buddies (R383, R390). -/
structure BuddyItem where
  /-- R383, R390 (14). 0 Ash log entry, 1 generation. -/
  kind : Nat
  /-- R383, R390 (14). Partition of an entry, slot of a generation. -/
  part : Nat
  /-- R383, R390 (14). STEP of an entry, number of a generation. -/
  tag : Nat
  /-- R390 (14). Units of it. -/
  total : Nat
  /-- R390 (14). Units received, in order. -/
  units : List (BitVec 512)
  deriving DecidableEq, Repr

/-- `BuddyItem` as reset leaves it. -/
def BuddyItem.reset : BuddyItem where
  kind := 0
  part := 0
  tag := 0
  total := 0
  units := []


/-- The DIG block (R397) with the digest log, the Ash log and the checkpoints. -/
structure DigRegs where
  /-- R397 (14). DIG.STATUS.DET. -/
  det : Bool
  /-- R397 (14). DIG.STATUS.MIRROR. -/
  mirror : Bool
  /-- R397 (14). DIG.STATUS.ROLE. -/
  role : Bool
  /-- R397 (14). DIG.STATUS.RESTARTABLE. -/
  restartable : Bool
  /-- R378 (14). Digest log ring of 8,192 entries: entries written and not zeroed, ascending index. -/
  log : List (Nat × DigEntry)
  /-- R397 (14). DIG.LOG_HEAD.NEXT. -/
  logHead : BitVec 13
  /-- R397 (14). DIG.LOG_HEAD.WRAPPED. -/
  logWrapped : Bool
  /-- R397 (14). DIG.LOG_SEL. -/
  logSel : BitVec 13
  /-- R397 (14). DIG.MIRROR_OK. -/
  mirrorOk : BitVec 32
  /-- R380 (14). Frames whose own digest was sent and whose partner digest is awaited, with the tick pc that ends frame n + 2. -/
  mirrorEnds : List (BitVec 32 × Nat)
  /-- R397 (14). DIG.MISMATCH LAYER, LTILE, PART. -/
  mismatch : BitVec 28
  /-- R397 (14). DIG.MISMATCH.VALID (W1C). -/
  mismatchValid : Bool
  /-- R397 (14). DIG.MISMATCH_FRAME. -/
  mismatchFrame : BitVec 32
  /-- R397 (14). DIG.RECOVERY.STATE. -/
  recState : BitVec 3
  /-- R397 (14). DIG.RECOVERY.ATTEMPT. -/
  recAttempt : BitVec 3
  /-- R397 (14). DIG.RECOVERY.REASON. -/
  recReason : BitVec 8
  /-- R391 (14). Rollback phase in progress, 0 when none. -/
  recPhase : Nat
  /-- R387 (14). Partition of the recovery in progress. -/
  recPart : BitVec 4
  /-- R388 (14). Unit whose step replays ATTEMPT counts. -/
  recUnit : Nat
  /-- R391 (14). Chip of each rank before the rollback's re-bind. -/
  recRanks : List (BitVec 24)
  /-- R397 (14). DIG.RECOVERY_CFG.AUTO. -/
  cfgAuto : Bool
  /-- R397 (14). DIG.RECOVERY_CFG.ROLLBACK_ON_FAULT. -/
  cfgRollback : Bool
  /-- R397 (14). DIG.RESTORE_CTRL.RO_DONE. -/
  roDone : Bool
  /-- R397 (14). DIG.RESTORE_CTRL.RO_NEEDED. -/
  roNeeded : Bool
  /-- R389, R478 (14, 18). DIG.CKPT_CTRL.ARM: tick, pause in us and slot of the armed checkpoint. -/
  ckptArmed : Option (Nat × Nat × Bool)
  /-- R397 (14). DIG.CKPT_CTRL.SLOT. -/
  ckptSlot : Bool
  /-- R397 (14). DIG.CKPT_CTRL.REJECTED (W1C). -/
  ckptRejected : Bool
  /-- R397 (14). DIG.CKPT_CTRL.INCOMPLETE (W1C). -/
  ckptIncomplete : Bool
  /-- R397 (14). DIG.CKPT_AT_LO/HI. -/
  ckptAt : BitVec 64
  /-- R397 (14). DIG.CKPT_PAUSE. -/
  ckptPause : BitVec 21
  /-- R397 (14). DIG.CKPT_GEN. -/
  ckptGen : BitVec 32
  /-- R397 (14). DIG.CKPT_STEP_LO/HI. -/
  ckptStep : BitVec 64
  /-- R389 (14). Checkpoint pause in progress: wall time of its end, and slot. -/
  ckptPausing : Option (Nat × Bool)
  /-- R390 (14). Last generation number given. -/
  ckptNext : BitVec 32
  /-- R390 (14). The buddy has acknowledged the generation being written. -/
  buddyAcked : Bool
  /-- R390 (14). Own generations. -/
  slots : Vector (Option CkptGen) 2
  /-- R390 (14). Checkpoint data that this chip keeps for its buddy. -/
  buddy : List BuddyItem
  /-- R391 (14). Checkpoint data of the rank that CKPT_DATA has returned. -/
  fetched : List BuddyItem
  /-- R390 (14). Generation being written in the pause. -/
  ckptWriting : Option CkptGen
  /-- R394 (14). A fault or a declared chip fell in the pause. -/
  ckptAbort : Bool
  /-- R397 (14). DIG.RESTORE_GEN. -/
  restoreGen : BitVec 32
  /-- R383 (14). Ash log, oldest first. -/
  ash : List AshEntry
  /-- R397 (14). DIG.ASH_CONFIRMED_LO/HI. -/
  ashConfirmed : BitVec 64
  /-- R397 (14). DIG.ASH_FLOOR_LO/HI in force. -/
  ashFloor : BitVec 64
  /-- R486 (18). DIG.ASH_FLOOR_LO written and held for the write of HI. -/
  ashFloorLo : Option (BitVec 32)
  /-- R397 (14). DIG.ASH_FREE. -/
  ashFree : BitVec 32
  /-- R383 (14). Partitions whose boundary waits for the confirmation of the entry before it. -/
  ashWait : List Nat
  /-- R391 (14). Log replay in progress: partition and last logged step. -/
  logReplayTo : List (Nat × BitVec 64)
  /-- R397 (14). DIG.STEP_REPLAYS (RC, saturates). -/
  stepReplays : BitVec 32
  /-- R397 (14). DIG.ROLLBACKS (RC, saturates). -/
  rollbacks : BitVec 32
  deriving DecidableEq, Repr

/-- `DigRegs` as reset leaves it. -/
def DigRegs.reset : DigRegs where
  det := false
  mirror := false
  role := false
  restartable := false
  log := []
  logHead := 0
  logWrapped := false
  logSel := 0
  mirrorOk := 0
  mirrorEnds := []
  mismatch := 0
  mismatchValid := false
  mismatchFrame := 0
  recState := 0
  recAttempt := 0
  recReason := 0
  recPhase := 0
  recPart := 0
  recUnit := 0
  recRanks := []
  cfgAuto := true
  cfgRollback := true
  roDone := false
  roNeeded := false
  ckptArmed := none
  ckptSlot := false
  ckptRejected := false
  ckptIncomplete := false
  ckptAt := 0
  ckptPause := 0x1E8480
  ckptGen := 0
  ckptStep := 0
  ckptPausing := none
  ckptNext := 0
  buddyAcked := false
  slots := Vector.replicate 2 none
  buddy := []
  fetched := []
  ckptWriting := none
  ckptAbort := false
  restoreGen := 0
  ash := []
  ashConfirmed := 0
  ashFloor := 0
  ashFloorLo := none
  ashFree := 0
  ashWait := []
  logReplayTo := []
  stepReplays := 0
  rollbacks := 0


/-- One configuration set, Stage or Wings (R403). -/
structure CfgSet where
  /-- R403 (15). Plan image. -/
  image : Option Image
  /-- R403 (15). Parameter block. -/
  params : Option Params
  /-- R405 (15). Bind has written the mapping and tables. -/
  mapped : Bool
  /-- R221 (08). Physical tile of each logical tile. -/
  tiles : List Nat
  /-- R221 (08). Physical pseudo-channel of each logical channel. -/
  chans : List Nat
  /-- R224 (08). Chip of each rank, by rank. -/
  ranks : List (BitVec 24)
  /-- R224, R232 (08). Offsets of the combination that the mapping started from, for x, y, z, X, Y, Z. -/
  offs : List Nat
  /-- R379 (14). This chip holds copy B of its rank. -/
  copyB : Bool
  /-- R317 (12). Rank table. -/
  rankTable : List (Nat × BitVec 32)
  /-- R325 (12). Link map. -/
  linkMap : Vector (BitVec 6) 12
  /-- R322 (12). Slot table of each port. -/
  cells : Vector (List (BitVec 4)) 12
  /-- R356 (13). P area of each port. -/
  pAreas : Vector Nat 12
  /-- R335 (12). ROLE of each port. -/
  roles : Vector (BitVec 2) 12
  /-- R236 (08). This chip's rank. -/
  rank : BitVec 16
  /-- R236 (08). This chip holds a rank. -/
  rankValid : Bool
  /-- R236 (08). A splice placed it here. -/
  rankMoved : Bool
  /-- R234 (08). Upstream port. -/
  upPort : BitVec 4
  /-- R234 (08). Root. -/
  upRoot : Bool
  /-- R236 (08). Splices in the mapping. -/
  splices : Nat
  /-- R236 (08). Length of the last chain. -/
  chain : Nat
  /-- R236 (08). This chip's links at two hops. -/
  stretched : Nat
  /-- R374 (14). DETERMINE as the fresh bind latched it. -/
  det : Bool
  /-- R347 (13). D(o) without the 24 clk, in wall units, for every chip of the job. -/
  dist : List (BitVec 14 × Nat)
  deriving DecidableEq, Repr

/-- `CfgSet` as reset leaves it. -/
def CfgSet.reset : CfgSet where
  image := none
  params := none
  mapped := false
  tiles := []
  chans := []
  ranks := []
  offs := []
  copyB := false
  rankTable := []
  linkMap := Vector.replicate 12 0
  cells := Vector.replicate 12 []
  pAreas := Vector.replicate 12 0
  roles := Vector.replicate 12 0
  rank := 0
  rankValid := false
  rankMoved := false
  upPort := 0
  upRoot := false
  splices := 0
  chain := 0
  stretched := 0
  det := false
  dist := []


/-- The resource fields of a partition (R399). -/
structure PartRes where
  /-- R421 (15). PART.ROWS. -/
  rows : BitVec 16
  /-- R421 (15). PART.SLICE. -/
  slice : BitVec 32
  /-- R421 (15). PART.TABLE.BASE. -/
  tableBase : BitVec 14
  /-- R421 (15). PART.TABLE.COUNT. -/
  tableCount : BitVec 15
  /-- R421 (15). PART.BUCKETS.BASE. -/
  bktBase : BitVec 16
  /-- R421 (15). PART.BUCKET_COUNT. -/
  bktCount : BitVec 17
  /-- R421 (15). PART.POOL.PAGES. -/
  poolPages : BitVec 24
  /-- R421 (15). PART.POOL.ENCRYPT. -/
  encrypt : Bool
  /-- R421 (15). PART.DEVAREA.WORDS. -/
  devArea : BitVec 26
  /-- R421 (15). PART.JOB.TAG. -/
  job : BitVec 8
  deriving DecidableEq, Repr

/-- `PartRes` as reset leaves it. -/
def PartRes.reset : PartRes where
  rows := 0
  slice := 0
  tableBase := 0
  tableCount := 0
  bktBase := 0
  bktCount := 0
  poolPages := 0
  encrypt := false
  devArea := 0
  job := 0


/-- The key pairs that a report request generated (R415, R416). -/
structure ReportPair where
  /-- R415 (15). Report counter. -/
  counter : BitVec 64
  /-- R415 (15). X25519 private key. -/
  x25519 : BitVec 256
  /-- R415 (15). ML-KEM-768 private seed. -/
  mlkem : BitVec 512
  /-- R416 (15). Nonce of the report. -/
  nonce : BitVec 256
  /-- R416 (15). SHA-512 of report bytes 0-1,535. -/
  digest : BitVec 512
  deriving DecidableEq, Repr

/-- `ReportPair` as reset leaves it. -/
def ReportPair.reset : ReportPair where
  counter := 0
  x25519 := 0
  mlkem := 0
  nonce := 0
  digest := 0


/-- Keys of a partition (R203, R415 to R418). -/
structure PartKeys where
  /-- R418 (15). At-rest AES-256-XTS key pair of slots 0-3. -/
  xts : Vector (Option (BitVec 512)) 4
  /-- R418 (15). Transport AES-256-GCM key of slots 0-3. -/
  gcm : Vector (Option (BitVec 256)) 4
  /-- R422 (15). SEC.KEYS.DELIVERIES (saturates). -/
  deliveries : BitVec 16
  /-- R415 (15). Key pairs of the newest report. -/
  pair : Option ReportPair
  deriving DecidableEq, Repr

/-- `PartKeys` as reset leaves it. -/
def PartKeys.reset : PartKeys where
  xts := Vector.replicate 4 none
  gcm := Vector.replicate 4 none
  deliveries := 0
  pair := none


/-- One partition: the PART bank (R421), its sets, and its run state. -/
structure PartBank where
  /-- R421 (15). PART.STATE.STATE. -/
  state : BitVec 3
  /-- R399, R421 (15). Resource fields in force. -/
  res : PartRes
  /-- R401 (15). Pending copy (PART.STATE.CFG_PENDING). -/
  pendRes : Option PartRes
  /-- R421 (15). PART.STATE.WINGS. -/
  wingsState : BitVec 3
  /-- R410 (15). Wall time at which the scrub in progress ends. -/
  scrubEnd : Nat
  /-- R421 (15). Wall time at which it started, for SCRUB_PCT. -/
  scrubStart : Nat
  /-- R403 (15). Stage. -/
  stage : CfgSet
  /-- R403 (15). Wings. -/
  wings : CfgSet
  /-- R20 (01), R235 (08), R391 (14). Stage set that a re-bind has mapped anew and that is not yet in force. -/
  rebound : Option CfgSet
  /-- R421 (15). PART.WL_ADDR_LO/HI. -/
  wlAddr : BitVec 64
  /-- R421 (15). PART.WL_LEN. -/
  wlLen : BitVec 32
  /-- R421 (15). PART.WL_CTRL.TARGET. -/
  wlTarget : Bool
  /-- R421 (15), R478 (18). PART.WL_CTRL.GO: address, length and target of the load started. -/
  wlRunning : Option (BitVec 64 × BitVec 32 × Bool)
  /-- R421 (15). PART.WL_CTRL.ERROR (W1C). -/
  wlError : Bool
  /-- R421 (15). PART.CURTAIN_AT_LO/HI. -/
  curtainAt : BitVec 64
  /-- R421 (15). PART.CTRL.CURTAIN_ARM: tick of the armed Curtain. -/
  curtainArm : Option Nat
  /-- R421 (15). PART.CTRL.CURTAIN_REJECTED (W1C). -/
  curtainRejected : Bool
  /-- R421 (15). PART.CURTAINS (RC, saturates). -/
  curtains : BitVec 32
  /-- R27, R45 (02). LAUNCH_AT of the launched plan. -/
  launched : Option Nat
  /-- R391 (14). Unit at which a rolled-back plan is launched again. -/
  resumeUnit : Option Nat
  /-- R387 (14). LAUNCH_AT' of a replayed or rolled-back unit. -/
  relaunchAt : Option Nat
  /-- R29 (02). Geyser count of the last frame tick acted on. -/
  tickAt : Nat
  /-- R387 (14). Frame number of the frame that begins at launched. -/
  frameBase : Nat
  /-- R387 (14). Step number of the step that begins at launched. -/
  stepBase : Nat
  /-- R437 (16). The job is in a fault hold. -/
  faultStop : Bool
  /-- R207 (07). Ready staging descriptors: (half, descriptor). -/
  stageReady : List (Nat × Nat)
  /-- R207 (07). Staging epochs started since launch. -/
  epoch : Nat
  /-- R203, R418 (07, 15). Keys. -/
  keys : PartKeys
  /-- R408 (15). Image Curtain pause in progress: wall time of its end, tick C. -/
  curtainPause : Option (Nat × Nat)
  deriving DecidableEq, Repr

/-- `PartBank` as reset leaves it. -/
def PartBank.reset : PartBank where
  state := 0
  res := PartRes.reset
  pendRes := none
  wingsState := 0
  scrubEnd := 0
  scrubStart := 0
  stage := CfgSet.reset
  wings := CfgSet.reset
  rebound := none
  wlAddr := 0
  wlLen := 0
  wlTarget := false
  wlRunning := none
  wlError := false
  curtainAt := 0
  curtainArm := none
  curtainRejected := false
  curtains := 0
  launched := none
  resumeUnit := none
  relaunchAt := none
  tickAt := 0
  frameBase := 0
  stepBase := 0
  faultStop := false
  stageReady := []
  epoch := 0
  keys := PartKeys.reset
  curtainPause := none


/-- PART.PSEL (R421). -/
structure PartShared where
  /-- R421 (15). PART.PSEL. -/
  psel : BitVec 4
  deriving DecidableEq, Repr

/-- `PartShared` as reset leaves it. -/
def PartShared.reset : PartShared where
  psel := 0


/-- The SEC block (R422). -/
structure SecRegs where
  /-- R422 (15). SEC.STATUS.IDENTITY. -/
  identity : Bool
  /-- R419, R422 (15). Current management key: epoch and key. -/
  mgmtCur : Option (BitVec 32 × BitVec 256)
  /-- R419, R422 (15). Next management key. -/
  mgmtNext : Option (BitVec 32 × BitVec 256)
  /-- R422 (15). SEC.REQ.PART. -/
  reqPart : BitVec 4
  /-- R422 (15). SEC.REQ.CHIP. -/
  reqChip : Bool
  /-- R422 (15). SEC.REQ.DONE. -/
  reqDone : Bool
  /-- R422 (15). SEC.NONCE0-7. -/
  nonce : BitVec 256
  /-- R422 (15). SEC.COUNTER_LO/HI. -/
  counter : BitVec 64
  /-- R422 (15). SEC.DELIVER.FAILED (W1C). -/
  deliverFailed : Bool
  /-- R422 (15). SEC.KEY_SEL. -/
  keySel : BitVec 4
  /-- R422 (15). SEC.MGMT.TX. -/
  mgmtTx : BitVec 32
  /-- R422 (15). SEC.VENT_FAIL (RC, saturates). -/
  ventFail : BitVec 32
  /-- R422 (15). SEC.BUF_SEL. -/
  bufSel : BitVec 2
  /-- R415 (15). SEC.BUF content 1: the last report. -/
  report : List (BitVec 8)
  /-- R416 (15). SEC.BUF content 2: the delivery input by byte. -/
  input : List Host.Cell
  /-- R415 (15). Key pairs of the newest chip-level report. -/
  chipPair : Option ReportPair
  /-- R413 (15). Device secret in fuses. -/
  secret : BitVec 256
  /-- R413 (15). Identity record in one-time memory (SEC.BUF content 0). -/
  identityRec : List (BitVec 8)
  deriving DecidableEq, Repr

/-- `SecRegs` as reset leaves it. Fields with a value the spec does not give (DESIGN CHOICE, notes/assumptions/4.md). -/
def SecRegs.reset : SecRegs where
  identity := false
  mgmtCur := none
  mgmtNext := none
  reqPart := 0
  reqChip := false
  reqDone := false
  nonce := 0
  counter := 0
  deliverFailed := false
  keySel := 0
  mgmtTx := 0
  ventFail := 0
  bufSel := 0
  report := []
  input := []
  chipPair := none
  secret := 0
  identityRec := []


/-- One queued outbound write of a function (R432). -/
structure OutWrite where
  /-- R432 (16). Function: 0 PF, p + 1 VF. -/
  fn : Nat
  /-- R432 (16). 0 result record, 1 step sequence word, 2 MSI-X message. -/
  kind : Nat
  /-- R260 (09). Host address. -/
  addr : BitVec 64
  /-- R260 (09). Bytes. -/
  data : List (BitVec 8)
  /-- R434 (16). Relaxed Ordering attribute. -/
  relaxed : Bool
  /-- R433 (16). Boundary that wrote it. -/
  boundary : BitVec 64
  /-- R436 (16). MSI-X vector. -/
  vector : Nat
  deriving DecidableEq, Repr

/-- `OutWrite` as reset leaves it. -/
def OutWrite.reset : OutWrite where
  fn := 0
  kind := 0
  addr := 0
  data := []
  relaxed := false
  boundary := 0
  vector := 0


/-- One PCIe function (R428, R435 to R443). -/
structure PcieFn where
  /-- R443 (16). Bus Master Enable (PCIE.FN_STATUS.BME). -/
  bme : Bool
  /-- R443 (16). MSI-X Enable. -/
  msixEn : Bool
  /-- R428 (16). MSI-X table entries as address and data. -/
  msixTable : Vector (BitVec 96) 8
  /-- R436 (16). MSI-X vector masks, one bit per vector (PCI Express: set after reset). -/
  mask : BitVec 8
  /-- R436 (16). MSI-X pending bits. -/
  pba : BitVec 8
  /-- R438 (16). FLR in progress: wall time of its end (FLR_BUSY). -/
  flrEnd : Option Nat
  /-- R443 (16). PCIE.STG_BASE in force. -/
  stgBase : BitVec 64
  /-- R443 (16). PCIE.STG_SIZE in force. -/
  stgSize : BitVec 28
  /-- R486 (18). PCIE.STG_BASE_LO as written, held for the write of HI. -/
  stgBaseLo : BitVec 32
  /-- R440 (16). Staging window written, for the next epoch tick (STG_PENDING). -/
  stgNext : Option (BitVec 64 × BitVec 28)
  /-- R443 (16). PCIE.STG_BYTES_LO/HI. -/
  stgBytes : BitVec 64
  /-- R426 (16). D3_PENDING (PF). -/
  d3Pending : Bool
  /-- R426 (16). The function is in D3hot. -/
  d3 : Bool
  /-- R437 (16). FN.LAST_FAULT.CODE. -/
  lastFault : BitVec 16
  /-- R437 (16). FN.LAST_FAULT.VALID (W1C). -/
  lastFaultValid : Bool
  /-- R437 (16). FN.EVENTS.STATE_CHANGED (W1C). -/
  evState : Bool
  /-- R437 (16). FN.EVENTS.FAULT (W1C). -/
  evFault : Bool
  deriving DecidableEq, Repr

/-- `PcieFn` as reset leaves it. Fields with a value the spec does not give (DESIGN CHOICE, notes/assumptions/3.md, PRESUMED, notes/assumptions/6.md). -/
def PcieFn.reset : PcieFn where
  bme := false
  msixEn := false
  msixTable := Vector.replicate 8 0
  mask := 0xFF
  pba := 0
  flrEnd := none
  stgBase := 0
  stgSize := 0
  stgBaseLo := 0
  stgNext := none
  stgBytes := 0
  d3Pending := false
  d3 := false
  lastFault := 0
  lastFaultValid := false
  evState := false
  evFault := false


/-- The PCIE block (R443). -/
structure PcieRegs where
  /-- R443 (16). PCIE.LINK.SPEED. -/
  speed : BitVec 3
  /-- R443 (16). PCIE.LINK.WIDTH. -/
  width : BitVec 5
  /-- R443 (16). PCIE.LINK.FLIT. -/
  flit : Bool
  /-- R443 (16). PCIE.LINK.UP. -/
  up : Bool
  /-- R501 (19). Link training started and not ended. -/
  training : Bool
  /-- R443 (16). PCIE.CTRL.RELAXED. -/
  relaxed : Bool
  /-- R443 (16). PCIE.FSEL. -/
  fsel : BitVec 5
  /-- R428 (16). Functions 0-16. -/
  fns : Vector PcieFn 17
  /-- R432 (16). Outbound queue, oldest first. -/
  outq : List OutWrite
  /-- R432 (16). What the last send put on the link. -/
  sent : List OutWrite
  /-- R441 (16). Staging reads outstanding, at most 1,024. -/
  stgReads : List StageRead
  /-- R207 (07). Staging reads not yet issued, in table order. -/
  stgQueue : List StageRead
  /-- R443 (16). PCIE.CPL_ERR (RC, saturates). -/
  cplErr : BitVec 32
  /-- R443 (16). PCIE.FLR_COUNT (RC, saturates). -/
  flrCount : BitVec 32
  /-- R443 (16). PCIE.DISCARDED (RC, saturates). -/
  discarded : BitVec 32
  /-- R443 (16). PCIE.SELF.ADDR. -/
  self : BitVec 24
  /-- R443 (16). PCIE.SELF.VALID. -/
  selfValid : Bool
  /-- R443 (16). PCIE.ACCESS_ERR (RC, saturates). -/
  accessErr : BitVec 32
  /-- R429 (16). Data that the last completed host read returned. -/
  readback : BitVec 64
  /-- R429 (16). The last host read completed with Unsupported Request. -/
  unsupported : Bool
  deriving DecidableEq, Repr

/-- `PcieRegs` as reset leaves it. Fields with a value the spec does not give (DESIGN CHOICE, notes/assumptions/7.md). -/
def PcieRegs.reset : PcieRegs where
  speed := 0
  width := 0
  flit := false
  up := false
  training := true
  relaxed := false
  fsel := 0
  fns := Vector.replicate 17 PcieFn.reset
  outq := []
  sent := []
  stgReads := []
  stgQueue := []
  cplErr := 0
  flrCount := 0
  discarded := 0
  self := 0
  selfValid := false
  accessErr := 0
  readback := 0
  unsupported := false


/-- One PTP timestamp FIFO entry (R446, R469). -/
structure PtpStamp where
  /-- R469 (17). TS0-1 ns. -/
  ns : BitVec 64
  /-- R469 (17). TS3 fraction. -/
  frac : BitVec 32
  /-- R469 (17). TS2 sequenceId. -/
  seqId : BitVec 16
  /-- R469 (17). TS2 messageType. -/
  msgType : BitVec 4
  /-- R469 (17). TS2 1: transmitted. -/
  tx : Bool
  deriving DecidableEq, Repr

/-- `PtpStamp` as reset leaves it. -/
def PtpStamp.reset : PtpStamp where
  ns := 0
  frac := 0
  seqId := 0
  msgType := 0
  tx := false


/-- The SVC block and the service port's other interfaces (R444 to R448, R469). -/
structure SvcRegs where
  /-- R469 (17). SVC.ETH_STATUS.LINK. -/
  ethLink : Bool
  /-- R469 (17). SVC.IPV4. -/
  ipv4 : BitVec 32
  /-- R469 (17). SVC.PTP_CFG.EN. -/
  ptpEn : Bool
  /-- R469 (17). SVC.PTP_CFG.DOM. -/
  ptpDom : Bool
  /-- R446 (17). Timestamp FIFO, oldest first, at most 64. -/
  ptpFifo : List PtpStamp
  /-- R469 (17). SVC.PTP_LOST (RC, saturates). -/
  ptpLost : BitVec 32
  /-- R469 (17). SVC.RX_DROP (RC, saturates). -/
  rxDrop : BitVec 32
  /-- R469 (17). SVC.I3C.DYN_ADDR. -/
  i3cAddr : BitVec 7
  /-- R469 (17). SVC.I3C.ASSIGNED. -/
  i3cAssigned : Bool
  /-- R447 (17). I3C bytes 0x10-0x12: chip address. -/
  i3cChip : BitVec 24
  /-- R445 (17). Ethernet reply last sent. -/
  frameOut : Option EthFrame
  /-- R448 (17). JTAG instruction in force (IEEE 1149.1: IDCODE in Test-Logic-Reset). -/
  jtagIr : JtagIr
  /-- R448 (17). JTAG data register selected. -/
  jtagDr : BitVec 32
  /-- R448 (17). Boundary-scan cells captured or preloaded. -/
  jtagPins : List Bool
  /-- R448 (17). EXTEST drives the pins from the boundary-scan cells. -/
  extest : Bool
  deriving DecidableEq, Repr

/-- `SvcRegs` as reset leaves it. Fields with a value the spec does not give (DESIGN CHOICE, notes/assumptions/3.md, DESIGN CHOICE, notes/assumptions/7.md, PRESUMED, notes/assumptions/6.md). -/
def SvcRegs.reset : SvcRegs where
  ethLink := false
  ipv4 := 0
  ptpEn := false
  ptpDom := false
  ptpFifo := []
  ptpLost := 0
  rxDrop := 0
  i3cAddr := 0
  i3cAssigned := false
  i3cChip := 0
  frameOut := none
  jtagIr := .idcode
  jtagDr := 0
  jtagPins := []
  extest := false


/-- One boot record (R450). -/
structure BootRec where
  /-- R450 (17). Its CRC-32C verifies. -/
  valid : Bool
  /-- R450 (17). SEQ. -/
  seq : BitVec 32
  /-- R450 (17). ACTIVE. -/
  active : BitVec 8
  /-- R450 (17). PENDING. -/
  pending : BitVec 8
  /-- R450 (17). TRIAL. -/
  trial : BitVec 8
  /-- R450 (17). STACK_OK. -/
  stackOk : BitVec 8
  deriving DecidableEq, Repr

/-- `BootRec` as reset leaves it. Fields with a value the spec does not give (DESIGN CHOICE, notes/assumptions/4.md). -/
def BootRec.reset : BootRec where
  valid := false
  seq := 0
  active := 0
  pending := 0xFF
  trial := 0xFF
  stackOk := 0


/-- The board flash (R449), which no reset changes. -/
structure Flash where
  /-- R449 (17). Boot record copy 0. -/
  rec0 : BootRec
  /-- R449 (17). Boot record copy 1. -/
  rec1 : BootRec
  /-- R449 (17). Slot A. -/
  slotA : Slot48
  /-- R449 (17). Slot B. -/
  slotB : Slot48
  deriving DecidableEq, Repr

/-- `Flash` as reset leaves it. Fields with a value the spec does not give (DESIGN CHOICE, notes/assumptions/4.md). -/
def Flash.reset : Flash where
  rec0 := BootRec.reset
  rec1 := BootRec.reset
  slotA := Slot48.reset
  slotB := Slot48.reset


/-- The FWU block (R470) and the boot in progress. -/
structure FwuRegs where
  /-- R470 (17). FWU.STATUS.RUNNING (token boot). -/
  running : Bool
  /-- R470 (17). FWU.STATUS.TRIAL (token boot). -/
  trial : Bool
  /-- R470 (17). FWU.STATUS.CONFIRMED. -/
  confirmed : Bool
  /-- R470 (17). FWU.STATUS.EXPIRED. -/
  expired : Bool
  /-- R470 (17). FWU.STATUS.FELL_BACK (token boot). -/
  fellBack : Bool
  /-- R470 (17). FWU.STATUS.SELFTEST. -/
  selftest : Bool
  /-- R470 (17). FWU.STATUS.STAGE. -/
  stage : BitVec 3
  /-- R470 (17). FWU.STATUS.FAIL_CODE. -/
  failCode : BitVec 3
  /-- R456 (17). Wall time at which the 300 s count of CONFIRM_LEFT started. -/
  confirmStart : Option Nat
  /-- R470 (17). FWU.VERSION_LO/HI (token boot). -/
  version : BitVec 64
  /-- R470 (17). FWU.STAGED_LO/HI. -/
  staged : BitVec 64
  /-- R470 (17). FWU.SVN.SVN (token boot). -/
  svn : BitVec 6
  /-- R457, R470 (17). FWU.SVN.FLOOR, held in 63 fuses. -/
  floor : BitVec 6
  /-- R470 (17). FWU.PLAN_ABI (token boot). -/
  planAbi : BitVec 16
  /-- R456 (17). HOST_CONFIRM of the running manifest. -/
  hostConfirm : Bool
  /-- R415 (15). SHA-512 of the active manifest. -/
  digest : BitVec 512
  /-- R455 (17). The ROM has loaded every component of the boot slot. -/
  booted : Bool
  /-- R455 (17). No slot verified and the ROM halted. -/
  halted : Bool
  /-- R445 (17). TFTP transfer in progress: Ethernet address of the client. -/
  tftp : Option (BitVec 48)
  /-- R447 (17). I3C byte 0x00 [3]: F-0607 at this boot. -/
  fwFallback : Bool
  deriving DecidableEq, Repr

/-- `FwuRegs` as reset leaves it. Fields with a value the spec does not give (DESIGN CHOICE, notes/assumptions/4.md). -/
def FwuRegs.reset : FwuRegs where
  running := false
  trial := false
  confirmed := false
  expired := false
  fellBack := false
  selftest := false
  stage := 0
  failCode := 0
  confirmStart := some 0
  version := 0
  staged := 0
  svn := 0
  floor := 0
  planAbi := 0
  hostConfirm := false
  digest := 0
  booted := false
  halted := false
  tftp := none
  fwFallback := false


/-- One time domain (R459, R460). -/
structure Domain where
  /-- R459 (17). Nanosecond count. -/
  ns : BitVec 64
  /-- R459 (17). Fraction. -/
  frac : BitVec 32
  /-- R471 (17). Committed increment, whole ns. -/
  incNs : BitVec 4
  /-- R471 (17). Committed increment, fraction. -/
  incFrac : BitVec 32
  /-- R471 (17). TIME.x_INC_NS as written. -/
  wrNs : BitVec 4
  /-- R471 (17). TIME.x_INC_FRAC as written. -/
  wrFrac : BitVec 32
  /-- R460 (17). Temporary increment in progress, whole ns. -/
  adjNs : BitVec 4
  /-- R460 (17). Its fraction. -/
  adjFrac : BitVec 32
  /-- R460 (17). Reference ticks it still runs. -/
  adjLeft : BitVec 32
  /-- R460, R478 (17, 18). Step of the whole value at the next tick. -/
  setPending : Option (BitVec 64)
  /-- R471 (17). TIME.PPS_IN_x capture. -/
  ppsIn : BitVec 64
  deriving DecidableEq, Repr

/-- `Domain` as reset leaves it. -/
def Domain.reset : Domain where
  ns := 0
  frac := 0
  incNs := 8
  incFrac := 0
  wrNs := 8
  wrFrac := 0
  adjNs := 8
  adjFrac := 0
  adjLeft := 0
  setPending := none
  ppsIn := 0


/-- What an armed trigger was armed with (R471, R478). -/
structure TrigArm where
  /-- R464 (17). Firing time. -/
  time : BitVec 64
  /-- R464 (17). Action. -/
  action : BitVec 2
  /-- R464 (17). Domain. -/
  dom : Bool
  /-- R464 (17). Armed for a time already passed, or overtaken by a SET. -/
  late : Bool
  /-- R464 (17). Wall time of the first reference tick at which it may fire. -/
  notBefore : Nat
  deriving DecidableEq, Repr

/-- `TrigArm` as reset leaves it. -/
def TrigArm.reset : TrigArm where
  time := 0
  action := 0
  dom := false
  late := false
  notBefore := 0


/-- One time trigger (R464, R471). -/
structure Trigger where
  /-- R471 (17). TIME.TRIG_AT_LO/HI. -/
  fireAt : BitVec 64
  /-- R471 (17). TIME.TRIG_CTRL.ACTION. -/
  action : BitVec 2
  /-- R471 (17). TIME.TRIG_CTRL.DOM. -/
  dom : Bool
  /-- R471 (17). TIME.TRIG_CTRL.ARM: the values it was armed with. -/
  armed : Option TrigArm
  /-- R471 (17). TIME.TRIG_CTRL.FIRED (W1C). -/
  fired : Bool
  /-- R471 (17). TIME.TRIG_CTRL.LATE (W1C). -/
  late : Bool
  /-- R471 (17). TIME.TRIG_CTRL.REFUSED (W1C). -/
  refused : Bool
  deriving DecidableEq, Repr

/-- `Trigger` as reset leaves it. -/
def Trigger.reset : Trigger where
  fireAt := 0
  action := 0
  dom := false
  armed := none
  fired := false
  late := false
  refused := false


/-- One entry of the time unit's event log (R463). -/
structure TimeEvent where
  /-- R463 (17). Domain A. -/
  a : BitVec 64
  /-- R463 (17). Domain B. -/
  b : BitVec 64
  /-- R463 (17). Geyser count. -/
  geyser : BitVec 64
  /-- R463 (17). TYPE. -/
  type : BitVec 8
  /-- R463 (17). DETAIL. -/
  detail : BitVec 56
  /-- R463 (17). Wall time of the event, whose clk orders it among the others. -/
  moment : Nat
  deriving DecidableEq, Repr

/-- `TimeEvent` as reset leaves it. -/
def TimeEvent.reset : TimeEvent where
  a := 0
  b := 0
  geyser := 0
  type := 0
  detail := 0
  moment := 0


/-- The TIME block (R471). -/
structure TimeRegs where
  /-- R459 (17). Domain A. -/
  a : Domain
  /-- R459 (17). Domain B. -/
  b : Domain
  /-- R471 (17). TIME.CTRL.ACTIVE as written. -/
  active : Bool
  /-- R461 (17). Domain that drives PPS_OUT. -/
  driving : Bool
  /-- R471 (17). TIME.CTRL.PPS_OUT_EN. -/
  ppsOutEn : Bool
  /-- R471 (17). TIME.STATUS.REF_OK. -/
  refOk : Bool
  /-- R465 (17). The domains advance on the internal tick. -/
  refLost : Bool
  /-- R471 (17). TIME.STATUS.INC_REJECT (W1C). -/
  incReject : Bool
  /-- R471 (17). TIME.STATUS.LOG_FULL (W1C). -/
  logFull : Bool
  /-- R471 (17). TIME.ADJ_NS. -/
  adjNs : BitVec 4
  /-- R471 (17). TIME.ADJ_FRAC. -/
  adjFrac : BitVec 32
  /-- R471 (17). TIME.ADJ_TICKS as written. -/
  adjTicks : BitVec 32
  /-- R471 (17). TIME.ADJ_CTRL.DOM. -/
  adjDom : Bool
  /-- R471 (17). TIME.SET_NS_LO/HI. -/
  setNs : BitVec 64
  /-- R471 (17). TIME.PPS_WIDTH. -/
  ppsWidth : BitVec 20
  /-- R462 (17). The driving domain has reached a whole second and PPS_OUT has not risen for it. -/
  ppsDue : Bool
  /-- R462 (17). Wall time at which the pulse in progress ends. -/
  ppsEnd : Option Nat
  /-- R471 (17). TIME.TRIG_SEL. -/
  trigSel : BitVec 2
  /-- R464 (17). Triggers 0-3. -/
  trigs : Vector Trigger 4
  /-- R471 (17). TIME.LOG_CFG.TYPES. -/
  logTypes : BitVec 9
  /-- R471 (17). TIME.LOG_CFG.TICK_LOG2. -/
  tickLog2 : BitVec 5
  /-- R463 (17). Event log, oldest first, at most 1,024. -/
  log : List TimeEvent
  /-- R471 (17). TIME.LOG_LOST (RC, saturates). -/
  logLost : BitVec 32
  /-- R459 (17). Wall time of the next reference tick. -/
  nextTick : Nat
  deriving DecidableEq, Repr

/-- `TimeRegs` as reset leaves it. -/
def TimeRegs.reset : TimeRegs where
  a := Domain.reset
  b := Domain.reset
  active := false
  driving := false
  ppsOutEn := false
  refOk := false
  refLost := false
  incReject := false
  logFull := false
  adjNs := 8
  adjFrac := 0
  adjTicks := 0
  adjDom := false
  setNs := 0
  ppsWidth := 0x186A0
  ppsDue := false
  ppsEnd := none
  trigSel := 0
  trigs := Vector.replicate 4 Trigger.reset
  logTypes := 0x1FF
  tickLog2 := 0xA
  log := []
  logLost := 0
  nextTick := 0


/-- The configuration with which a check-value run started (R467). -/
structure CrcRun where
  /-- R467 (17). SRC. -/
  src : BitVec 64
  /-- R467 (17). LEN. -/
  len : BitVec 32
  /-- R467 (17). CFG. -/
  cfg : BitVec 8
  /-- R468 (17). BLOCK.BYTES. -/
  block : BitVec 16
  /-- R468 (17). BLOCK.CNT_OFF. -/
  cntOff : BitVec 16
  /-- R468 (17). SEED. -/
  seed : BitVec 32
  deriving DecidableEq, Repr

/-- `CrcRun` as reset leaves it. -/
def CrcRun.reset : CrcRun where
  src := 0
  len := 0
  cfg := 0
  block := 0
  cntOff := 0
  seed := 0


/-- One check-value unit (R472). -/
structure CrcRegs where
  /-- R472 (17). CRCu.SRC, LEN, CFG, BLOCK, SEED as written. -/
  cur : CrcRun
  /-- R472 (17). CRCu.STATUS.BUSY: the run in progress. -/
  run : Option CrcRun
  /-- R472 (17). CRCu.STATUS.QUEUED. -/
  queued : Bool
  /-- R472 (17). CRCu.STATUS.DONE (W1C). -/
  done : Bool
  /-- R472 (17). CRCu.STATUS.ERROR (W1C). -/
  error : Bool
  /-- R472 (17). CRCu.STATUS.DMA_ERR (W1C). -/
  dmaErr : Bool
  /-- R472 (17). CRCu.STATUS.CFG_ERR (W1C). -/
  cfgErr : Bool
  /-- R467 (17). Register state that CHAIN continues. -/
  reg : BitVec 64
  /-- R472 (17). CRCu.RESULT_LO/HI. -/
  result : BitVec 64
  /-- R472 (17). CRCu.OK (RC, saturates). -/
  ok : BitVec 32
  /-- R472 (17). CRCu.CRC_BAD (RC, saturates). -/
  crcBad : BitVec 32
  /-- R472 (17). CRCu.REPEAT (RC, saturates). -/
  repeats : BitVec 32
  /-- R472 (17). CRCu.STALE (RC, saturates). -/
  stale : BitVec 32
  /-- R472 (17). CRCu.JUMP (RC, saturates). -/
  jump : BitVec 32
  /-- R472 (17). CRCu.ERR_BLOCK. -/
  errBlock : BitVec 32
  /-- R472 (17). CRCu.LAST_CNT. -/
  lastCnt : BitVec 32
  deriving DecidableEq, Repr

/-- `CrcRegs` as reset leaves it. Fields with a value the spec does not give (DESIGN CHOICE, notes/assumptions/3.md). -/
def CrcRegs.reset : CrcRegs where
  cur := CrcRun.reset
  run := none
  queued := false
  done := false
  error := false
  dmaErr := false
  cfgErr := false
  reg := 0
  result := 0
  ok := 0
  crcBad := 0
  repeats := 0
  stale := 0
  jump := 0
  errBlock := 0
  lastCnt := 0


/-- Pins, rails, clocks and sensors as the part drives and sees them (R495 to R508). -/
structure Pins where
  /-- R500 (19). SYS_RESET_N as driven by the board (true is high). -/
  sysResetN : Bool
  /-- R500 (19). PERST# as driven by the board (true is high). -/
  perstN : Bool
  /-- R500 (19). The part is in reset. -/
  inReset : Bool
  /-- R499 (19). Internal undervoltage reset in force. -/
  uvReset : Bool
  /-- R499 (19). Rails outside tolerance, in the row order of R495. -/
  railBad : List Nat
  /-- R507 (19). ALERT_N (true is released). -/
  alertN : Bool
  /-- R508 (19). THERMTRIP_N (true is released). -/
  thermTripN : Bool
  /-- R508 (19). Every clock of the part is stopped by the trip. -/
  tripped : Bool
  /-- R496, R500 (19). CORE_VID[2:0]. -/
  coreVid : BitVec 3
  /-- R462 (17). PPS_OUT. -/
  ppsOut : Bool
  /-- R505 (19). SYS_REFCLK is missing. -/
  sysRefLost : Bool
  /-- R505 (19). LINK_REFCLK is missing. -/
  linkRefLost : Bool
  /-- R500, R502 (19). Outputs are high-impedance. -/
  hiZ : Bool
  /-- R506 (19). Highest compute or I/O die sensor, in degrees C. -/
  tj : BitVec 8
  deriving DecidableEq, Repr

/-- `Pins` as reset leaves it. Fields with a value the spec does not give (DESIGN CHOICE, notes/assumptions/3.md, DESIGN CHOICE, notes/assumptions/8.md). -/
def Pins.reset : Pins where
  sysResetN := true
  perstN := true
  inReset := false
  uvReset := false
  railBad := []
  alertN := true
  thermTripN := true
  tripped := false
  coreVid := 0
  ppsOut := false
  sysRefLost := false
  linkRefLost := false
  hiZ := false
  tj := 0


/-- Reasons for a fault.
No command of this model stops with a fault: the spec gives every one of them an effect. -/
inductive Fault where
  /-- Raised by nothing; it stands so that the type has a value. Safe. -/
  | unused
  deriving DecidableEq, Repr

/-- Reasons for a refusal. -/
inductive Refusal where
  /-- Raised by a dispatch arm whose command has no meaning yet. Safe: no claim can be made about that command. -/
  | notModelled (mnemonic : String)
  deriving DecidableEq, Repr

/-- The whole machine: every register, buffer, counter, mode and pin that the spec gives the chip, and the queue of
commands that wait. -/
structure State where
  /-- R4, R25 (01, 02). Wall time since reset in units of 1/2,040,885 ns, the common unit of every clock period of the spec. -/
  wall : Nat
  /-- Fuses. -/
  fuses : Fuses
  /-- TOP block and fault log. -/
  top : TopRegs
  /-- PLAN block, counter and episodes. -/
  plan : PlanRegs
  /-- CLK block. -/
  clk : ClkRegs
  /-- SNAP block. -/
  snap : SnapRegs
  /-- SEQ block, chip-wide part. -/
  seq : SeqShared
  /-- SEQ banks. -/
  seqB : Vector SeqBank 16
  /-- BUD block, chip-wide part. -/
  bud : BudShared
  /-- BUD banks. -/
  budB : Vector BudBank 16
  /-- SYNC block, chip-wide part. -/
  sync : SyncRegs
  /-- SYNC banks. -/
  syncB : Vector SyncBank 16
  /-- Sync unit state per tile. -/
  tileSync : Vector TileSync 160
  /-- DIG block, digest log, Ash log, checkpoints. -/
  dig : DigRegs
  /-- Partitions. -/
  parts : Vector PartBank 16
  /-- PART block, chip-wide part. -/
  part : PartShared
  /-- MAP block. -/
  map : MapRegs
  /-- Fabric, chip-wide part. -/
  fab : FabricRegs
  /-- Ports CK0 to CK11. -/
  links : Vector Link 12
  /-- R118 (04), R353 (13). Receive directory of the chip, in order of arrival. -/
  recvDir : List DirEnt
  /-- Vent endpoint. -/
  vent : VentState
  /-- Stacks. -/
  stackBanks : Vector Stack 8
  /-- PCIE block. -/
  pcie : PcieRegs
  /-- SVC block. -/
  svc : SvcRegs
  /-- Board flash. -/
  flash : Flash
  /-- FWU block. -/
  fwu : FwuRegs
  /-- TIME block. -/
  time : TimeRegs
  /-- Check-value units. -/
  crcs : Vector CrcRegs 4
  /-- SEC block. -/
  sec : SecRegs
  /-- Pins, rails, sensors. -/
  pins : Pins
  /-- Tiles. -/
  tiles : Vector Tile 160
  /-- the MODEL's own field. Number of free values drawn so far; the next is freeValue of it. -/
  freeCount : Nat
  /-- the MODEL's own field. Commands that wait, first in first out. -/
  pending : List Instr
  deriving DecidableEq, Repr

/-- The machine right after reset (R500, R501, and the reset column of every register table). -/
def State.reset : State where
  wall := 0
  fuses := Fuses.reset
  top := TopRegs.reset
  plan := PlanRegs.reset
  clk := ClkRegs.reset
  snap := SnapRegs.reset
  seq := SeqShared.reset
  seqB := Vector.replicate 16 SeqBank.reset
  bud := BudShared.reset
  budB := Vector.replicate 16 BudBank.reset
  sync := SyncRegs.reset
  syncB := Vector.replicate 16 SyncBank.reset
  tileSync := Vector.replicate 160 TileSync.reset
  dig := DigRegs.reset
  parts := Vector.replicate 16 PartBank.reset
  part := PartShared.reset
  map := MapRegs.reset
  fab := FabricRegs.reset
  links := Vector.replicate 12 Link.reset
  recvDir := []
  vent := VentState.reset
  stackBanks := Vector.replicate 8 Stack.reset
  pcie := PcieRegs.reset
  svc := SvcRegs.reset
  flash := Flash.reset
  fwu := FwuRegs.reset
  time := TimeRegs.reset
  crcs := Vector.replicate 4 CrcRegs.reset
  sec := SecRegs.reset
  pins := Pins.reset
  tiles := Vector.replicate 160 Tile.reset
  freeCount := 0
  pending := []

end Sys2Proof.Machine
end

