-- ==== Sys2Proof/Machine/Access.lean ====
section
/-! DEFINITION. Reading and replacing one bank, tile, port or stack of the state. -/

namespace Sys2Proof.Machine
open Sys2Proof

/-- Physical tile `i` (R6). -/
def State.tile (s : State) (i : Nat) : Tile := vget s.tiles i Tile.reset
/-- Physical tile `i` changed. -/
def State.modTile (s : State) (i : Nat) (f : Tile → Tile) : State := { s with tiles := vset s.tiles i (f (s.tile i)) }

/-- Partition `p`. -/
def State.pt (s : State) (p : Nat) : PartBank := vget s.parts p PartBank.reset
/-- Partition `p` changed. -/
def State.modPt (s : State) (p : Nat) (f : PartBank → PartBank) : State := { s with parts := vset s.parts p (f (s.pt p)) }

/-- SEQ bank of partition `p`. -/
def State.sq (s : State) (p : Nat) : SeqBank := vget s.seqB p SeqBank.reset
/-- SEQ bank changed. -/
def State.modSq (s : State) (p : Nat) (f : SeqBank → SeqBank) : State := { s with seqB := vset s.seqB p (f (s.sq p)) }

/-- BUD bank of partition `p`. -/
def State.bd (s : State) (p : Nat) : BudBank := vget s.budB p BudBank.reset
/-- BUD bank changed. -/
def State.modBd (s : State) (p : Nat) (f : BudBank → BudBank) : State := { s with budB := vset s.budB p (f (s.bd p)) }

/-- SYNC bank of partition `p`. -/
def State.sy (s : State) (p : Nat) : SyncBank := vget s.syncB p SyncBank.reset
/-- SYNC bank changed. -/
def State.modSy (s : State) (p : Nat) (f : SyncBank → SyncBank) : State := { s with syncB := vset s.syncB p (f (s.sy p)) }

/-- Barrier `b` of partition `p`. -/
def State.bar (s : State) (p b : Nat) : Barrier := vget (s.sy p).barriers b Barrier.reset
/-- Barrier changed. -/
def State.modBar (s : State) (p b : Nat) (f : Barrier → Barrier) : State :=
  s.modSy p fun k => { k with barriers := vset k.barriers b (f (vget k.barriers b Barrier.reset)) }

/-- Sync unit state of tile `i`. -/
def State.ts (s : State) (i : Nat) : TileSync := vget s.tileSync i TileSync.reset
/-- Sync unit state changed. -/
def State.modTs (s : State) (i : Nat) (f : TileSync → TileSync) : State :=
  { s with tileSync := vset s.tileSync i (f (s.ts i)) }

/-- Port `n`. -/
def State.link (s : State) (n : Nat) : Link := vget s.links n Link.reset
/-- Port changed. -/
def State.modLink (s : State) (n : Nat) (f : Link → Link) : State := { s with links := vset s.links n (f (s.link n)) }

/-- Stack `k`. -/
def State.stk (s : State) (k : Nat) : Stack := vget s.stackBanks k Stack.reset
/-- Stack changed. -/
def State.modStk (s : State) (k : Nat) (f : Stack → Stack) : State := { s with stackBanks := vset s.stackBanks k (f (s.stk k)) }

/-- Pseudo-channel `c` of stack `k`. -/
def State.chan (s : State) (k c : Nat) : Channel := vget (s.stk k).ch c Channel.reset
/-- Pseudo-channel changed. -/
def State.modChan (s : State) (k c : Nat) (f : Channel → Channel) : State :=
  s.modStk k fun x => { x with ch := vset x.ch c (f (vget x.ch c Channel.reset)) }

/-- PCIe function `i`. -/
def State.fn (s : State) (i : Nat) : PcieFn := vget s.pcie.fns i PcieFn.reset
/-- PCIe function changed. -/
def State.modFn (s : State) (i : Nat) (f : PcieFn → PcieFn) : State :=
  { s with pcie := { s.pcie with fns := vset s.pcie.fns i (f (s.fn i)) } }

/-- Check-value unit `u`. -/
def State.crc (s : State) (u : Nat) : CrcRegs := vget s.crcs u CrcRegs.reset
/-- Check-value unit changed. -/
def State.modCrc (s : State) (u : Nat) (f : CrcRegs → CrcRegs) : State := { s with crcs := vset s.crcs u (f (s.crc u)) }

/-- A stream of a tile. -/
def Tile.stream (t : Tile) : Eng → Stream
  | .mx => t.mx
  | .vx => t.vx
  | .mv => t.mv
/-- A stream of a tile replaced. -/
def Tile.setStream (t : Tile) (e : Eng) (x : Stream) : Tile :=
  match e with
  | .mx => { t with mx := x }
  | .vx => { t with vx := x }
  | .mv => { t with mv := x }

/-- Engine number as records name it: 0 MX, 1 VX, 2 MV (R491). -/
def Eng.num : Eng → Nat
  | .mx => 0
  | .vx => 1
  | .mv => 2

end Sys2Proof.Machine
end

