-- ==== Sys2Proof/Machine/Ops.lean ====
section
/-! DEFINITION. The operations that every family shares: wall time, plan time, faults, interrupts, hold episodes and
inline symbols. -/

namespace Sys2Proof.Machine
open Sys2Proof

/-! ### Wall time -/

/-- One nanosecond in wall units (DESIGN CHOICE, notes/assumptions/1.md). -/
def tuNs : Nat := 2040885
/-- One microsecond in wall units. -/
def tuUs : Nat := 2040885000
/-- One millisecond in wall units. -/
def tuMs : Nat := 2040885000000
/-- One codeword of a link, 3.2 ns (R342). -/
def tuCodeword : Nat := 6530832
/-- One cycle of the 156.25 MHz link reference, 6.4 ns (R48). -/
def tuLinkRef : Nat := 13061664
/-- One tick of the 125 MHz time reference, 8 ns (R459). -/
def tuTick : Nat := 16327080

/-- The period of clk at a step code, in wall units (R47). -/
def clkPeriod (code : BitVec 3) : Nat :=
  match code.toNat with
  | 0 => 2148300 | 1 => 1855350 | 2 => 1632708 | 3 => 1457775
  | 4 => 1316700 | 5 => 1236900 | 6 => 1133825 | _ => 1074150

/-- The period of clk at the step in force. -/
def State.clkTu (s : State) : Nat := clkPeriod s.clk.stepCur

/-- 1/64 ns in wall units, as calibrated latencies count (R358), rounded down. -/
def tu64 (n : Nat) : Nat := n * tuNs / 64

/-! ### Values that the spec leaves open (DESIGN CHOICE, notes/assumptions/9.md) -/

/-- The next free value, `w` bits wide, and the state that has drawn it. -/
def State.draw (s : State) (w : Nat) : BitVec w × State :=
  (Config.freeValue w s.freeCount, { s with freeCount := s.freeCount + 1 })

/-! ### Holds seen by this chip -/

/-- This chip's address with its low ten bits 0, as symbols carry an origin (R345). -/
def State.selfOrigin (s : State) : BitVec 24 := s.pcie.self &&& 0xFFFC00#24

/-- The hold depth: episodes applied and not yet release-applied (R40). -/
def State.depth (s : State) : Nat := s.plan.episodes.countP (·.counted)

/-- The counter is stopped by a hold or by hold debt (R40, R51). -/
def State.held (s : State) : Bool := decide (0 < s.depth) || decide (0 < s.plan.debt)

/-- A step switch, checkpoint pause or image-Curtain pause is in progress (R25). -/
def State.paused (s : State) : Bool :=
  s.clk.switching.isSome || s.dig.ckptPausing.isSome || s.parts.toList.any (·.curtainPause.isSome)

/-- The part has a clock: it is out of reset and no trip has stopped it (R500, R508). -/
def State.alive (s : State) : Bool := !s.pins.inReset && !s.pins.uvReset && !s.pins.tripped

/-- Every block takes accesses: the part has a clock and firmware has loaded its components (R480). -/
def State.ready (s : State) : Bool := s.alive && s.top.fwReady

/-- The counter advances in this clk (R25); a counter that stood stopped first resumes (R513). -/
def State.running (s : State) : Bool := s.alive && !s.held && !s.paused && !s.plan.counterWasStopped

/-- The own episode not yet released, if any (R35). -/
def State.ownEpisode (s : State) : Option Episode :=
  s.plan.episodes.find? (fun e => e.origin = s.selfOrigin && !e.released)

/-- The oldest unreleased episode, which PLAN.HOLD_CAUSE shows (R34). -/
def State.oldestEpisode (s : State) : Option Episode := s.plan.episodes.find? (fun e => !e.released)

/-- A fault hold of the job is known to this chip (R43). -/
def State.faultHeld (s : State) : Bool := s.plan.episodes.any (fun e => e.cause = 0xF#4)

/-! ### Plan time of a partition -/

/-- The Stage plan image of a partition. -/
def State.img (s : State) (p : Nat) : Option Image := (s.pt p).stage.image

/-- The frame length of a partition's Stage plan in pc (R27); 0 without a plan. -/
def State.frameLen (s : State) (p : Nat) : Nat := ((s.img p).map (fun i => 2 ^ i.k)).getD 0

/-- F_s of a partition's Stage plan, 0 where it does not serve (R28). -/
def State.stepFrames (s : State) (p : Nat) : Nat := ((s.img p).map (·.fs)).getD 0

/-- Count `g` is a frame tick of partition `p` (R27). -/
def State.isTick (s : State) (p g : Nat) : Bool :=
  match (s.pt p).launched with
  | none => false
  | some l => decide (l ≤ g) && decide (0 < s.frameLen p) && decide ((g - l) % s.frameLen p = 0)

/-- Count `g` is a step boundary tick of partition `p` (R28). -/
def State.isBoundary (s : State) (p g : Nat) : Bool :=
  match (s.pt p).launched with
  | none => false
  | some l => decide (0 < s.stepFrames p) && s.isTick p g && decide ((g - l) % (s.frameLen p * s.stepFrames p) = 0)

/-- Frames from the launch to count `g`. -/
def State.framesSince (s : State) (p g : Nat) : Nat := (g - ((s.pt p).launched.getD 0)) / s.frameLen p

/-- Frame number since launch, continued over a replay (R371, R491). -/
def State.frameNo (s : State) (p : Nat) : Nat := (s.pt p).frameBase + s.framesSince p s.plan.geyser

/-- Step number at the present count (R28). -/
def State.stepNo (s : State) (p : Nat) : Nat :=
  (s.pt p).stepBase + s.framesSince p s.plan.geyser / s.stepFrames p

/-- The partitions with a launched plan. -/
def State.launchedParts (s : State) : List Nat := (List.range 16).filter (fun p => (s.pt p).launched.isSome)

/-- The active partitions, which all belong to the job (R26). -/
def State.activeParts (s : State) : List Nat := (List.range 16).filter (fun p => (s.pt p).state = 1#3)

/-- A common frame tick of every launched partition (R48, R487). -/
def State.commonTick (s : State) (g : Nat) : Bool := s.launchedParts.all (fun p => s.isTick p g)

/-- The physical tile of logical tile `l` of partition `p` (R78). -/
def State.physTile (s : State) (p l : Nat) : Option Nat := (s.pt p).stage.tiles[l]?

/-- The physical tiles bound to partition `p`. -/
def State.tilesOf (s : State) (p : Nat) : List Nat := (s.pt p).stage.tiles

/-- Tiles of the rows that a partition's resources name, in ascending order (R399: row r of both dies as bit 8 d + r). -/
def rowTiles (rows : BitVec 16) : List Nat :=
  (List.range 160).filter (fun t => rows.getLsbD (8 * (t / 80) + t % 80 / 10))

/-! ### Changes armed for one tick (R30) -/

/-- A snapshot or a checkpoint is armed for count `g` and has not been taken. -/
def State.recordLeft (s : State) (g : Nat) : Bool :=
  s.snap.armed = some g || (s.dig.ckptArmed.map fun x => decide (x.1 = g)).getD false

/-- A Curtain is armed for count `g` and has not been applied. -/
def State.curtainLeft (s : State) (g : Nat) : Bool := s.parts.toList.any fun b => b.curtainArm = some g

/-- A frequency step is armed for count `g` and has not been made. -/
def State.stepLeft (s : State) (g : Nat) : Bool := (s.clk.armed.map fun x => decide (x.1 = g)).getD false

/-! ### Interrupts (R436) -/

/-- Signals vector `v` of function `f`: queues its message, or sets its pending bit. -/
def State.signal (s : State) (f v : Nat) : State :=
  let x := s.fn f
  if x.msixEn && !x.mask.getLsbD v then
    let e := vget x.msixTable v 0
    { s with pcie := { s.pcie with outq := s.pcie.outq ++
        [{ OutWrite.reset with fn := f, kind := 2, addr := e.setWidth 64, data := bytesOf 4 (e.toNat / 2 ^ 64), vector := v }] } }
  else s.modFn f fun x => { x with pba := x.pba ||| BitVec.ofNat 8 (2 ^ v) }

/-- FN.EVENTS.STATE_CHANGED of partition `p`, with vector 1 (R437). -/
def State.partEvent (s : State) (p : Nat) : State :=
  (s.modFn (p + 1) fun x => { x with evState := true }).signal (p + 1) 1

/-- A partition's state written, with its events where it changes (R436, R437). -/
def State.setPartState (s : State) (p : Nat) (st : BitVec 3) : State :=
  if (s.pt p).state = st then s
  else ((s.modPt p fun b => { b with state := st }).partEvent p).signal 0 1

/-- A partition's Wings state written, with vector 1 of the physical function where it changes (R436). -/
def State.setWings (s : State) (p : Nat) (w : BitVec 3) : State :=
  if (s.pt p).wingsState = w then s else (s.modPt p fun b => { b with wingsState := w }).signal 0 1

/-! ### The event log (R463) -/

/-- An event in its place in the log: those of one clk stand in the order of their TYPEs. -/
def TimeEvent.into (e : TimeEvent) (log : List TimeEvent) : List TimeEvent :=
  log.filter (fun x => x.moment ≠ e.moment) ++ insertBy (fun x y => x.type.toNat < y.type.toNat) e (log.filter fun x => x.moment = e.moment)

/-- One event of TYPE `ty` into the event log. -/
def State.logEvent (s : State) (ty : Nat) (detail : Nat) : State :=
  if !s.time.logTypes.getLsbD (ty - 1) then s
  else if s.time.log.length ≥ 1024 then
    { s with time := { s.time with logLost := satInc s.time.logLost, logFull := true } }
  else
    let e : TimeEvent :=
      { a := s.time.a.ns
        b := s.time.b.ns
        geyser := BitVec.ofNat 64 s.plan.geyser
        type := BitVec.ofNat 8 ty
        detail := BitVec.ofNat 56 detail
        moment := s.wall }
    { s with time := { s.time with log := e.into s.time.log } }

/-! ### Fault records (R491 to R494) -/

/-- A record of fault `code` naming an object, raised now, for partition `p` where one is named. -/
def State.fault (s : State) (code kind obj : Nat) (p : Option Nat := none) (ext : Nat := 0) : FaultRec :=
  { FaultRec.reset with
    code := BitVec.ofNat 16 code
    part := BitVec.ofNat 4 (p.getD 0)
    partValid := p.isSome
    chip := s.pcie.self
    kind := BitVec.ofNat 5 kind
    ext := BitVec.ofNat 3 ext
    object := BitVec.ofNat 32 obj
    geyser := BitVec.ofNat 64 s.plan.geyser
    frame := match p with
      | none => 0xFFFFFFFF
      | some q => BitVec.ofNat 32 (s.frameNo q)
    stepNo := match p with
      | none => 0xFFFFFFFF
      | some q => if s.stepFrames q = 0 then 0xFFFFFFFF else BitVec.ofNat 32 (s.stepNo q) }

/-- A record that names the waiter: physical tile, engine and program counter. -/
def FaultRec.waits (r : FaultRec) (tile : Nat) (engine : Nat) (pc : BitVec 32) : FaultRec :=
  { r with tile := BitVec.ofNat 8 tile, engine := BitVec.ofNat 2 engine, waiter := pc }

/-- The continuation of a record, naming a second object (R493). -/
def FaultRec.contWith (r : FaultRec) (obj : Nat) : FaultRec :=
  { r with cont := false, kind := 0x1F, ext := 0, object := BitVec.ofNat 32 obj, engine := 3, tile := 0xFF,
           waiter := 0xFFFFFFFF }

/-- Two records agree in every field but GEYSER (R494). -/
def FaultRec.same (a b : FaultRec) : Bool := decide ({ a with geyser := 0 } = { b with geyser := 0 })

/-- The oldest record removed with its continuation, and how many records went. -/
def dropOldest : List FaultRec → List FaultRec × Nat
  | [] => ([], 0)
  | r :: rest => if r.cont then (rest.drop 1, 1 + min 1 rest.length) else (rest, 1)

/-- The records stored into a log of at most 256: the new log and the number of records lost (R494). -/
def storeRecords (keep : Bool) (log new : List FaultRec) : List FaultRec × Nat :=
  if log.length + new.length ≤ 256 then (log ++ new, 0)
  else if keep then (log, new.length)
  else
    let d := dropOldest log
    if d.1.length + new.length ≤ 256 then (d.1 ++ new, d.2)
    else
      let d' := dropOldest d.1
      (d'.1 ++ new, d.2 + d'.2)

/-- Shows a record as the last fault of its partition's function (R437, R494). -/
def State.showLastFault (s : State) (r : FaultRec) : State :=
  if !r.partValid then s
  else
    let f := r.part.toNat + 1
    if (s.fn f).lastFaultValid then s
    else (s.modFn f fun x => { x with lastFault := r.code, lastFaultValid := true, evFault := true }).signal f 1

/-- A fault raised, with its continuation where it has one; its record is written in the next clk (R493, R494). -/
def State.logFault (s : State) (r : FaultRec) (c : Option FaultRec := none) : State :=
  { s with top := { s.top with raised := s.top.raised ++ [({ r with cont := c.isSome }, c)] } }

/-- Writes one fault, with its continuation where it has one (R493, R494). -/
def State.writeFault (s : State) (r : FaultRec) (c : Option FaultRec) : State :=
  let recs := r :: c.toList
  let top := { s.top with faultTotal := satInc s.top.faultTotal }
  if (s.top.newest.map (fun x => x.same r)).getD false then
    { s with top := { top with faultSuppressed := satAdd top.faultSuppressed recs.length } }
  else
    let st := storeRecords s.top.faultKeep s.top.log recs
    ((({ s with top := { top with log := st.1, faultLost := satAdd top.faultLost st.2, newest := some r } } : State).showLastFault r).signal 0 0)

/-- The order in which the faults of one clk are written (R494). -/
def FaultRec.before (a b : FaultRec) : Bool :=
  decide (a.code.toNat < b.code.toNat) || (decide (a.code = b.code) && decide (a.object.toNat < b.object.toNat))

/-- The faults raised in the last clk are written (R494). -/
def State.writeFaults (s : State) : State :=
  let l := sortBy (fun (x y : FaultRec × Option FaultRec) => x.1.before y.1) s.top.raised
  l.foldl (fun s x => s.writeFault x.1 x.2) { s with top := { s.top with raised := [] } }

/-! ### Inline symbols (R345, R346) -/

/-- The CRC-8 of an inline unit over bits [63:8], polynomial 0x07 (R345). -/
def inlineCheck (u : BitVec 64) : BitVec 8 :=
  crcMsb 8 0x07#8 0#8 ((List.range 56).map (fun i => u.getLsbD (63 - i)))

/-- The unit with its CHECK field written. -/
def sealUnit (u : BitVec 64) : BitVec 64 :=
  let v := (u >>> 8) <<< 8
  v ||| (inlineCheck v).setWidth 64

/-- The header unit of an inline symbol: TYPE, MORE, COPY, JOB, ORIGIN, EPISODE, PATH (R345). -/
def inlineUnit (type : Nat) (more copy : Bool) (job : BitVec 8) (origin : BitVec 14) (num : BitVec 8) (path : Nat) : BitVec 64 :=
  sealUnit (BitVec.ofNat 64 (type <<< 60 + bn more <<< 59 + bn copy <<< 57 + job.toNat <<< 49 + origin.toNat <<< 35
    + num.toNat <<< 27 + (path % 2 ^ 15) <<< 12))

/-- A job port that carries traffic (R36, R335, R360). -/
def State.jobPort (s : State) (n : Nat) : Bool := (s.link n).fab.role = 1#2 && (s.link n).state = 5#3

/-- Queues an inline symbol on every active job port but `except` (R36). -/
def State.flood (s : State) (except : Nat) (sym : InlineSym) : State :=
  (List.range 12).foldl (fun s n =>
    if n ≠ except && s.jobPort n then s.modLink n fun l => { l with inlineOut := l.inlineOut ++ [sym] } else s) s

/-- The chip coordinates of an address, address bits [23:10] (R345). -/
def coordOf (addr : BitVec 24) : BitVec 14 := (addr >>> 10).setWidth 14

/-- The address of a chip from its coordinates. -/
def addrOf (c : BitVec 14) : BitVec 24 := c ++ 0#10

/-- The HOLD or RELEASE symbol of an episode (R345). -/
def holdSym (s : State) (release : Bool) (origin : BitVec 24) (num : BitVec 8) (born : Nat) : InlineSym :=
  { units := [inlineUnit (if release then 2 else 1) false false s.fab.job (coordOf origin) num 0]
    born := some born, copied := false }

/-! ### Raising and releasing causes (R32 to R36) -/

/-- d(o) of the chip itself: 24 clk (R32, R347). -/
def State.ownDelay (s : State) : Nat := 24 * s.clkTu

/-- A symbol remembered as seen. An origin's numbers run modulo 256, so what lies half that range back is forgotten
(DEDUCED, notes/assumptions/33.md). -/
def seenIns (l : List (BitVec 24 × BitVec 8 × Bool)) (e : BitVec 24 × BitVec 8 × Bool) : List (BitVec 24 × BitVec 8 × Bool) :=
  l.filter (fun x => !(x = e || (x.1 = e.1 && x.2.1 = e.2.1 + 128))) ++ [e]

/-- A local cause raised; the first one raises an episode, which reaches every clock region in 24 clk and travels on
every job port (R32, R35, R36). A fault cause makes the episode one that is never released (R43). -/
def State.raiseCause (s : State) (code : BitVec 4) (src : CauseSrc) : State :=
  let plan := s.plan
  let lcs := if plan.localCauses.any (fun c => c.src = src) then plan.localCauses
    else plan.localCauses ++ [{ code := code, src := src, atStop := !s.running }]
  match s.ownEpisode with
  | some e =>
    { s with plan := { plan with
        localCauses := lcs
        episodes := plan.episodes.map (fun x => if x = e && code = 0xF#4 then { x with cause := 0xF } else x) } }
  | none =>
    let e : Episode := { Episode.reset with
      origin := s.selfOrigin
      num := plan.nextEpisode
      cause := code
      applyAt := s.wall + s.ownDelay
      countedAt := s.wall }
    let s' : State := { s with plan := { plan with
      localCauses := lcs
      episodes := plan.episodes ++ [e]
      nextEpisode := plan.nextEpisode + 1
      holdEpisodes := plan.holdEpisodes + 1
      holdSeen := seenIns plan.holdSeen (e.origin, e.num, false) } }
    s'.flood 12 (holdSym s false e.origin e.num s.wall)

/-- A local cause cleared; the episode itself is released by EPISODE_RELEASE (R35). A fault cause never clears (R43). -/
def State.clearCause (s : State) (src : CauseSrc) : State :=
  { s with plan := { s.plan with localCauses := s.plan.localCauses.filter (fun c => c.src ≠ src || c.code = 0xF#4) } }

/-- A local cause of this kind stands. -/
def State.hasCause (s : State) (src : CauseSrc) : Bool := s.plan.localCauses.any (fun c => c.src = src)

/-- Fault status of the job on this chip: PLAN.STATUS.STATE 5 and the partitions' FAULT_STOP (R51, R437). -/
def State.enterFaultStop (s : State) : State :=
  let s := s.activeParts.foldl (fun s p =>
    if (s.pt p).faultStop then s else (s.modPt p fun b => { b with faultStop := true }).partEvent p) s
  { s with plan := { s.plan with state := 5 } }

/-- A fault whose job stops in a fault hold (R29, R43). -/
def State.faultHold (s : State) (r : FaultRec) (c : Option FaultRec := none) : State :=
  ((s.logFault r c).raiseCause 0xF (.fault r.code.toNat)).enterFaultStop

/-! ### Applying holds and releases (R40, R347) -/

/-- The first episode that satisfies a test, changed; the others as they are. -/
def modFirst (test : Episode → Bool) (f : Episode → Episode) : List Episode → List Episode
  | [] => []
  | e :: r => if test e then f e :: r else e :: modFirst test f r

/-- The hold depth counts an episode, and the counter stops (R40). -/
def State.applyHold (s : State) (origin : BitVec 24) (num : BitVec 8) : State :=
  match s.plan.episodes.find? (fun e => e.origin = origin && e.num = num && !e.counted) with
  | none => s
  | some e =>
    let was := s.running
    let s' : State := { s with plan := { s.plan with
      counterWasStopped := true
      wasHeld := true
      episodes := modFirst (fun x => x.origin = origin && x.num = num && !x.counted)
        (fun x => { x with counted := true, countedAt := if x.origin = s.selfOrigin then x.countedAt else s.wall })
        s.plan.episodes } }
    let s' := if was then s'.logEvent 4 (e.cause.toNat + e.origin.toNat * 256) else s'
    if e.cause = 0xF#4 then s'.enterFaultStop else s'

/-- The hold depth counts an episode no longer (R40). -/
def State.applyRelease (s : State) (origin : BitVec 24) (num : BitVec 8) : State :=
  { s with plan := { s.plan with
    episodes := s.plan.episodes.filter (fun e => !(e.origin = origin && e.num = num && e.counted && e.released)) } }

/-- The own episode released: RELEASE symbols leave, and it is applied here 24 clk later (R35, R347). -/
def State.releaseOwn (s : State) : State :=
  match s.ownEpisode with
  | none => s
  | some e =>
    let s' : State := { s with plan := { s.plan with
      episodes := s.plan.episodes.map (fun x => if x = e then { x with released := true, releaseAt := s.wall + s.ownDelay } else x)
      holdSeen := seenIns s.plan.holdSeen (e.origin, e.num, true) } }
    s'.flood 12 (holdSym s true e.origin e.num s.wall)

/-- A tile whose host window access in progress is one that holds the job (R83, R513). -/
def State.windowBusy (s : State) : Option Nat :=
  (List.range 160).find? (fun i => match (s.tile i).winActive with
    | some (e, holds) => holds && decide (s.wall < e)
    | none => false)

/-- A stack with a refresh still in progress that it began because the counter stood held (R196, R513). -/
def State.refreshBusy (s : State) : Option Nat :=
  (List.range 8).find? (fun k => (s.stk k).ch.toList.any (fun c => match c.refreshEnd with
    | some (e, _) => c.inHold && decide (s.wall < e)
    | none => false))

/-- A check point made while the counter stood still has failed, and its test has not passed since (R514). -/
def State.lateAtStop (s : State) : Bool :=
  s.plan.localCauses.any fun c => c.atStop && match c.src with
    | .lateUse _ _ _ => true
    | _ => false

/-- The counter is due to resume (R513). -/
def State.dueToResume (s : State) : Bool := s.alive && s.plan.counterWasStopped && !s.held && !s.paused

/-- The chip's own episode stops the counter at once, where it stands still already (R513, R514). -/
def State.applyOwn (s : State) : State :=
  s.plan.episodes.foldl (fun s e => if e.origin = s.selfOrigin && !e.counted then s.applyHold e.origin e.num else s) s

/-- The counter resumes, or stays stopped under an episode of the use still in progress (R513) or of a check point that
failed meanwhile (R514). Only a stop in which an episode took part ends in a HOLD_END event (R48, R463). The release of such
an episode acts on the chip itself 24 clk after the use has ended, as every release does (R347; DEDUCED,
notes/assumptions/56.md). -/
def State.resume (s : State) : State :=
  if !s.dueToResume then s
  else if s.lateAtStop then s.applyOwn
  else
    match s.windowBusy, s.refreshBusy with
    | none, none =>
      let s' : State := { s with plan := { s.plan with counterWasStopped := false, wasHeld := false } }
      if s.plan.wasHeld then s'.logEvent 5 s.plan.holdEpisodes.toNat else s'
    | w, r =>
      let s := match w with | some t => s.raiseCause 0x7 (.hostAccess t) | none => s
      let s := match r with | some k => s.raiseCause 0x2 (.refresh k) | none => s
      s.applyOwn

end Sys2Proof.Machine
end

