-- ==== Sys2Proof/Machine/Operands.lean ====
section
/-! DEFINITION. Instruction fields, operand specifiers, and the reads of words and registers that take account of
writes already planned for a pc (R87 to R96). -/

namespace Sys2Proof.Machine
open Sys2Proof

/-! ### Fields of the instruction word (R87, R90) -/

/-- Format T and M: D. -/
def IWord.d (w : IWord) : Nat := field w.ops 95 72
/-- Format T and M: S1. -/
def IWord.s1 (w : IWord) : Nat := field w.ops 71 48
/-- Format T: S2; format M: REMOTE. -/
def IWord.s2 (w : IWord) : Nat := field w.ops 47 24
/-- Format T and M: CFG. -/
def IWord.cfg (w : IWord) : Nat := field w.ops 23 0
/-- Format J: X. -/
def IWord.x (w : IWord) : Nat := field w.ops 95 64
/-- Format J: Y. -/
def IWord.y (w : IWord) : Nat := field w.ops 63 32
/-- Format J: Z; format G: IMM. -/
def IWord.z (w : IWord) : Nat := field w.ops 31 0
/-- MOD. -/
def IWord.md (w : IWord) : Nat := w.modf.toNat
/-- DIGEST (R124). -/
def IWord.digest (w : IWord) : Bool := w.resv.getLsbD 0
/-- Format G: RD. -/
def IWord.rd (w : IWord) : Nat := field w.ops 95 92
/-- Format G: RA. -/
def IWord.ra (w : IWord) : Nat := field w.ops 91 88
/-- Format G: RB. -/
def IWord.rb (w : IWord) : Nat := field w.ops 87 84
/-- Format T: N - 1 of the vector instructions, CFG[23:16], as N (R110). -/
def IWord.nVec (w : IWord) : Nat := field w.ops 23 16 + 1
/-- Format M and CT.FESET: N - 1 in CFG[23:12], as N (R116). -/
def IWord.nWord (w : IWord) : Nat := field w.ops 23 12 + 1
/-- CFG A (R110). -/
def IWord.cfgA (w : IWord) : Nat := field w.ops 15 12
/-- CFG B (R110). -/
def IWord.cfgB (w : IWord) : Nat := field w.ops 11 8
/-- CFG SREG (R110). -/
def IWord.sreg (w : IWord) : Nat := field w.ops 7 5
/-- CFG USE_S (R110). -/
def IWord.useS (w : IWord) : Bool := bit w.ops 4
/-- CFG SAT (R110). -/
def IWord.sat (w : IWord) : Bool := bit w.ops 3
/-- REMOTE AREG (R116). -/
def IWord.rAreg (w : IWord) : Nat := field w.ops 47 44
/-- REMOTE OFFSET (R116). -/
def IWord.rOff (w : IWord) : Nat := field w.ops 43 24

/-- The 128 bits of an instruction with its opcode (R87). -/
def IWord.bits (w : IWord) (op : Nat) : BitVec 128 :=
  BitVec.ofNat 8 op ++ w.engine ++ w.wait ++ w.modf ++ w.resv ++ b1 w.fend ++ w.ops

/-- The fields of 128 bits. -/
def iwordOf (b : BitVec 128) : IWord :=
  { engine := BitVec.ofNat 4 (field b 119 116), wait := BitVec.ofNat 12 (field b 115 104),
    modf := BitVec.ofNat 4 (field b 103 100), resv := BitVec.ofNat 3 (field b 99 97),
    fend := bit b 96, ops := BitVec.ofNat 96 (field b 95 0) }

/-- The opcode of 128 bits. -/
def opcodeOf (b : BitVec 128) : Nat := field b 127 120

/-! ### Operand specifiers (R91, R92) -/

/-- FE mode of a specifier. -/
def spFe (sp : Nat) : Nat := sp / 2 ^ 22
/-- AREG of a specifier. -/
def spAreg (sp : Nat) : Nat := sp / 2 ^ 18 % 16
/-- Reserved bits of a specifier. -/
def spResv (sp : Nat) : Nat := sp / 2 ^ 16 % 4
/-- OFFSET of a specifier. -/
def spOff (sp : Nat) : Nat := sp % 65536

/-- A source specifier is valid: FE 0b11 is reserved, and so are bits [17:16] (R91, R92). -/
def srcOk (sp : Nat) : Bool := spFe sp != 3 && spResv sp = 0
/-- A destination specifier is valid. -/
def dstOk (sp : Nat) : Bool := spResv sp = 0
/-- A specifier whose FE field must be 0b00 (R99). -/
def plainOk (sp : Nat) : Bool := spFe sp = 0 && spResv sp = 0

/-- The first word of an operand, from its address register (R91). -/
def spWord (areg : BitVec 32) (sp : Nat) : Nat := (areg.toNat % 65536 + spOff sp) % 65536

/-- `n` consecutive word indices, wrapping (R91). -/
def wordsFrom (w0 n : Nat) : List Nat := (List.range n).map fun i => (w0 + i) % 65536

/-- Word `i` of an operand. -/
def wordAt (w0 i : Nat) : Nat := (w0 + i) % 65536

/-! ### What an instruction in flight has read and when it acts (R15, R70, R93, R96) -/

/-- A write put in order of its pc and word. -/
def pendIns (x : PendWrite) (l : List PendWrite) : List PendWrite :=
  insertBy (fun a b => a.due < b.due || (a.due = b.due && a.word < b.word)) x l

/-- Register `i` of a register file; A0 reads 0 (R95). -/
def Stream.reg (x : Stream) (scalar : Bool) (i : Nat) : BitVec 32 :=
  if scalar then vget x.s i 0 else if i = 0 then 0 else vget x.a i 0

/-- The pc in which the machine does what the plan puts at pc `q`: each access that was not served in its pc moved what
follows it (R15), and so did a resource that was not free (R98). -/
def Flight.at_ (f : Flight) (q : Nat) : Nat := f.shifts.foldl (fun a x => if x.1 ≤ q then a + x.2 else a) q

/-- The word read for the plan's pc `q`, once it has been read. -/
def Flight.gotAt (f : Flight) (q w : Nat) : Option Got := f.got.find? fun g => g.pc = q && g.word = w

/-- The plan's pc at which what was read for pc `q` is there: `q`, or the next where a read of pc `q` was not served (R15). -/
def Flight.after (f : Flight) (q : Nat) : Nat := if f.at_ (q + 1) = f.at_ q + 1 then q else q + 1

/-- One instruction from its check point on: the machine as it stands, tile, stream and the instruction in flight. -/
structure Ctx where
  s : State
  t : Nat
  e : Eng
  f : Flight
  deriving DecidableEq, Repr

/-- Issue pc. -/
def Ctx.p (c : Ctx) : Nat := c.f.p
/-- Program counter. -/
def Ctx.pc (c : Ctx) : Nat := c.f.pc
/-- The tile. -/
def Ctx.tile (c : Ctx) : Tile := c.s.tile c.t
/-- The partition that owns the tile. -/
def Ctx.part (c : Ctx) : Nat := c.tile.part.toNat
/-- The logical tile. -/
def Ctx.lt (c : Ctx) : Nat := c.tile.logical.toNat
/-- The Stage image of the partition. -/
def Ctx.img (c : Ctx) : Image := (c.s.img c.part).getD Image.reset
/-- An address register named in a specifier, read at the check point (R96). -/
def Ctx.areg (c : Ctx) (i : Nat) : BitVec 32 := if i = 0 then 0 else vget c.f.areg i 0
/-- An A register operand of format G, read at issue (R96). -/
def Ctx.aAt (c : Ctx) (i : Nat) : BitVec 32 := if i = 0 then 0 else vget c.f.aIss i 0
/-- An S register, read at issue (R96). -/
def Ctx.sAt (c : Ctx) (i : Nat) : BitVec 32 := vget c.f.sIss i 0
/-- The first word of an operand. -/
def Ctx.first (c : Ctx) (sp : Nat) : Nat := spWord (c.areg (spAreg sp)) sp
/-- The data of word `w` as the instruction read it for the plan's pc `q` (R70, R93). -/
def Ctx.word (c : Ctx) (w q : Nat) : Line := ((c.f.gotAt q w).bind (·.data)).getD 0
/-- The instruction has read the word, and the read delivered nothing (R63, R184). -/
def Ctx.lost (c : Ctx) (x : Nat × Nat) : Bool := ((c.f.gotAt x.1 x.2).map fun g => g.data.isNone).getD false
/-- REMOTE address: A[AREG] + OFFSET in 64-byte units; the sum wraps at 2^32 (R116; DESIGN CHOICE,
notes/assumptions/57.md). -/
def Ctx.remote (c : Ctx) (w : IWord) : Nat := ((c.areg w.rAreg).toNat + w.rOff) % 2 ^ 32

end Sys2Proof.Machine
end

