-- ==== Sys2Proof/Machine/Flags.lean ====
section
/-! DEFINITION. Full/empty modes: the tests of a check point and the changes of reads and writes (R92, R93). -/

namespace Sys2Proof.Machine
open Sys2Proof

/-- The test that a source mode asks of its words: `some true` is full (R92). -/
def srcTest (fe : Nat) : Option Bool := if fe = 1 || fe = 2 then some true else none

/-- The test that a destination mode asks of its words (R92). -/
def dstTest (fe : Nat) : Option Bool :=
  match fe with
  | 1 => some false
  | 3 => some true
  | _ => none

/-- The change that a destination mode makes at the write (R92). -/
def dstFull (fe : Nat) : Option Bool := if fe = 0 || fe = 1 then some true else none

/-- Tests of an operand's words. -/
def testsOf (t : Option Bool) (ws : List Nat) : List (Nat × Bool) :=
  match t with
  | none => []
  | some b => ws.map fun w => (w, b)

/-- A source mode empties its words, each in the pc of its bank read: RFE (R92, R93). -/
def srcEmpties (fe : Nat) : Bool := fe = 2

/-- A test of a check point fails on the tile's present state (R93, R94). -/
def Tile.testFails (t : Tile) (x : Nat × Bool) : Bool := nsHas x.1 t.full != x.2

end Sys2Proof.Machine
end

