-- ==== Sys2Proof/Machine/Codec.lean ====
section
/-! DEFINITION. The Cinder KV formats and the Ember weight code (R168 to R178). -/

namespace Sys2Proof.Machine
open Sys2Proof

/-! ### Cinder (R168 to R172) -/

/-- Q of a Cinder form: 7 for CODE 0x1, 127 for CODE 0x2 (R171). -/
def cinderQ (code : Nat) : Nat := if code = 1 then 7 else 127

/-- Stored words of a unit of a KV code (R168, R202). -/
def kvUnit (code : Nat) : Nat :=
  match code with
  | 0 => 1
  | 1 => 3
  | _ => 5

/-- Nearest whole number to `a / b`, ties to even. -/
def rneDiv (a b : Nat) : Nat :=
  let q := a / b
  let r := a % b
  if b < 2 * r || (2 * r = b && q % 2 = 1) then q + 1 else q

/-- Exact comparison `a * 2^x ≤ b * 2^y`. -/
def leScaled (a : Nat) (x : Int) (b : Nat) (y : Int) : Bool :=
  let e0 := min x y
  decide (a * 2 ^ (x - e0).toNat ≤ b * 2 ^ (y - e0).toNat)

/-- The magnitude of a finite value; others count as 0. -/
def FVal.mag : FVal → Nat × Int
  | .fin _ m e => (m, e)
  | _ => (0, 0)

/-- Magnitude of `a` at least that of `b`. -/
def magGe (a b : FVal) : Bool := leScaled b.mag.1 b.mag.2 a.mag.1 a.mag.2

/-- Indexes of finite elements ordered by magnitude, descending, ties by lower index (R170). -/
def byMagnitude (xs : List (Nat × FVal)) : List (Nat × FVal) :=
  sortBy (fun a b => !magGe b.2 a.2) xs

/-- How many leading elements are outliers: the largest j from 1 to r with a_j > 2 a_(j+1), else 0 (R170). -/
def outlierCount (r : Nat) (l : List (Nat × FVal)) : Nat :=
  let ok (j : Nat) : Bool := match l[j - 1]? with
    | none => false
    | some a =>
      let b := ((l[j]?).map fun x => x.2).getD (.fin false 0 0)
      !leScaled a.2.mag.1 a.2.mag.2 b.mag.1 (b.mag.2 + 1)
  (((List.range r).map (· + 1)).filter ok).foldl max 0

/-- The outliers of a group, or none where it has more non-finite elements than slots (R170). -/
def groupOutliers (slots : Nat) (g : List FVal) : Option (List Nat) :=
  let ix := g.zipIdx.map fun x => (x.2, x.1)
  let bad := (ix.filter fun x => x.2.special).map (·.1)
  if slots < bad.length then none
  else
    let fin := byMagnitude (ix.filter fun x => !x.2.special)
    some (bad ++ (fin.take (outlierCount (slots - bad.length) fin)).map (·.1))

/-- The largest magnitude of a group's finite elements outside a list (R170). -/
def groupMax (g : List FVal) (out : List Nat) : FVal :=
  (g.zipIdx.filter fun x => !out.contains x.2 && !x.1.special).foldl
    (fun (a : FVal) x => if magGe a x.1 then a else x.1) (.fin false 0 0)

/-- floor(log2 (m / Q)) of a positive magnitude (R171). -/
def log2Div (m : Nat) (e : Int) (q : Nat) : Int :=
  let k : Int := (Nat.log2 m : Int) + e - Nat.log2 q
  if leScaled q k m e then k else k - 1

/-- The E4M3 scale code of `m * 2^e / Q`: nearest even, or the least code not below it (R171). -/
def cinderScale (code m : Nat) (e : Int) : Nat :=
  let q := cinderQ code
  if code = 1 then encodeMag e4m3 true false (m * 2 ^ 40 / q) (e - 40) (decide (m * 2 ^ 40 % q ≠ 0))
  else ((List.range 127).find? fun c =>
    let v := (decodeF e4m3 c).mag
    leScaled m e (v.1 * q) v.2).getD 126

/-- clamp(rne(x / S), -Q, Q) from the exact quotient, as a signed number (R171). -/
def cinderQuot (q : Nat) (x : FVal) (s : Nat × Int) : Int :=
  match x with
  | .fin neg m e =>
    if s.1 = 0 then 0
    else
      let e0 := min e s.2
      let n := min q (rneDiv (m * 2 ^ (e - e0).toNat) (s.1 * 2 ^ (s.2 - e0).toNat))
      if neg then -(n : Int) else n
  | _ => 0

/-- A unit of 256 BF16 codes as its stored words (R168 to R171). -/
def cinderEncode (code : Nat) (el : List Nat) : List Line :=
  let q := cinderQ code
  let slots := if code = 1 then 2 else 1
  let groups := chunksOf 32 8 (el.map (decodeF bf16))
  let outs := groups.map (groupOutliers slots)
  let maxs := (groups.zip outs).map fun x => groupMax x.1 (x.2.getD [])
  let top := maxs.foldl (fun (a : FVal) x => if magGe a x then a else x) (.fin false 0 0)
  let x : Int := if top.mag.1 = 0 then -127 else clampI (-127) 127 (log2Div top.mag.1 top.mag.2 q - 7)
  let scales := (maxs.zip outs).map fun m => match m.2 with
    | none => 0x7F
    | some _ => cinderScale code m.1.mag.1 (m.1.mag.2 - x)
  let codes := ((groups.zip outs).zip scales).flatMap fun g =>
    let v := (decodeF e4m3 g.2).mag
    g.1.1.zipIdx.map fun y => match g.1.2 with
      | none => (0 : Int)
      | some o => if o.contains y.2 then 0 else cinderQuot q y.1 (v.1, v.2 + x)
  let b := if code = 1 then 4 else 8
  let packed := codes.foldr (fun c a => (BitVec.ofInt b c).toNat + a * 2 ^ b) 0
  let oidx := outs.flatMap fun o => (List.range 2).map fun k => match (o.getD [])[k]? with
    | some i => BitVec.ofNat 8 (i + 128)
    | none => 0#8
  let oval := (outs.zip (chunksOf 32 8 el)).flatMap fun o => (List.range 2).flatMap fun k => match (o.1.getD [])[k]? with
    | some i => bytesOf 2 (o.2.getD i 0)
    | none => [0#8, 0#8]
  let side := scales.map (BitVec.ofNat 8) ++ [BitVec.ofInt 8 (x + 127)] ++ List.replicate 7 0#8 ++ oidx ++ oval
  (List.range (kvUnit code - 1)).map (fun i => BitVec.ofNat 512 (packed >>> (512 * i))) ++ [lineOfBytes side]

/-- The 256 BF16 codes of a stored unit. A SHIFT of 0xFF is the exponent 128 (DESIGN CHOICE, notes/assumptions/69.md), and of two
outliers that name one element the first slot's value is taken (DESIGN CHOICE, notes/assumptions/70.md) (R169, R172). -/
def cinderDecode (code : Nat) (ws : List Line) : List Nat :=
  let b := if code = 1 then 4 else 8
  let side := ws.getLastD 0
  let bits := (ws.take (kvUnit code - 1)).foldr (fun w a => w.toNat + a * 2 ^ 512) 0
  let x : Int := ((byteAt side 8).toNat : Int) - 127
  (List.range 256).map fun e =>
    let g := e / 32
    let sc := (byteAt side g).toNat
    let hit := (List.range 2).find? fun k =>
      let o := byteAt side (16 + 2 * g + k)
      o.getLsbD 7 && field o 4 0 = e % 32
    match hit with
    | some k => field side (8 * (32 + 2 * (2 * g + k)) + 15) (8 * (32 + 2 * (2 * g + k)))
    | none =>
      if sc = 0x7F then 0x7FC0
      else encodeF bf16 false ((FVal.ofInt (sext b ((bits >>> (b * e)) % 2 ^ b))).mul ((decodeF e4m3 sc).shift x))

/-! ### Ember (R175 to R178, R198) -/

/-- CRC-32C of bytes, for the chunk check (R175). -/
def emberCrc (bs : List (BitVec 8)) : BitVec 32 :=
  (bs.foldl (fun (r : BitVec 32) b => (bitsLsb b).foldl (fun (r : BitVec 32) x =>
    if r.getLsbD 0 != x then (r >>> 1) ^^^ 0x82F63B78#32 else r >>> 1) r) (0xFFFFFFFF#32)) ^^^ 0xFFFFFFFF#32

/-- Code length of symbol `s` in the header (R175). -/
def emberLen (hdr s : Nat) : Nat := (hdr >>> (128 + 4 * s)) % 16

/-- The canonical codes: (symbol, length, code) in order of (length, symbol) (R176). -/
def emberCodes (w hdr : Nat) : List (Nat × Nat × Nat) :=
  let syms := (List.range 15).flatMap fun l => (List.range (2 ^ w)).filter fun s => emberLen hdr s = l + 1
  (syms.foldl (fun (a : List (Nat × Nat × Nat) × Nat × Nat) s =>
    let l := emberLen hdr s
    let c := if a.1.isEmpty then 0 else a.2.1 <<< (l - a.2.2)
    (a.1 ++ [(s, l, c)], c + 1, l)) ([], 0, 0)).1

/-- The lengths satisfy R176. -/
def emberTableOk (t : List (Nat × Nat × Nat)) : Bool :=
  match t with
  | [] => false
  | [x] => x.2.1 = 1
  | _ => t.foldl (fun a x => a + 2 ^ (15 - x.2.1)) 0 = 2 ^ 15

/-- One symbol read from the payload: the symbol, its length and the rest. -/
def emberSym (t : List (Nat × Nat × Nat)) : Nat → Nat → Nat → List Bool → Option (Nat × Nat × List Bool)
  | 0, _, _, _ => none
  | _ + 1, _, _, [] => none
  | k + 1, l, c, b :: r =>
    let c := 2 * c + bn b
    match t.find? fun x => x.2.1 = l + 1 && x.2.2 = c with
    | some x => some (x.1, l + 1, r)
    | none => emberSym t k (l + 1) c r

/-- `n` symbols read: symbols with the payload position after each, and the rest. -/
def emberSyms (t : List (Nat × Nat × Nat)) : Nat → Nat → List Bool → Option (List (Nat × Nat) × List Bool)
  | 0, _, bs => some ([], bs)
  | n + 1, pos, bs =>
    match emberSym t 15 0 0 bs with
    | none => none
    | some (s, l, r) => (emberSyms t n (pos + l) r).map fun x => ((s, pos + l) :: x.1, x.2)

/-- What the decoder makes of a chunk. -/
inductive EmberResult where
  /-- The 1,024 decoded words and the number of stored words. -/
  | ok (words : List Line) (stored : Nat)
  /-- A check of R178 fails: 0 MODE or a reserved field, 1 the code table, 2 a bit sequence that is no code, 3 PAYLOAD_BITS,
  4 CHECK. -/
  | corrupt (check : Nat)
  /-- The feed condition of R198 fails. -/
  | feed
  deriving DecidableEq, Repr

/-- The stored words of a chunk that its first word gives, header words included, at most 1,025 (R175, R197). -/
def emberStored (w0 : Line) : Nat :=
  let h := w0.toNat
  let md := h % 4
  if md = 0 then 1025 else min 1025 ((if md = 3 then 3 else 1) + ceilDiv ((h >>> 32) % 2 ^ 32) 512)

/-- A chunk decoded from its stored words. A nonzero unused header byte (R175) counts as a reserved field, and a nonzero
PAYLOAD_BITS of a raw chunk as a wrong count (DESIGN CHOICE, notes/assumptions/59.md) (R175 to R178, R198). -/
def emberDecode (ws : List Line) : EmberResult :=
  let h := (ws.headD 0).toNat
  let md := h % 4
  let check := BitVec.ofNat 32 (h >>> 64)
  let reserved := h % 256 / 4 ≠ 0 || (h >>> 8) % 2 ^ 24 ≠ 0 || (h >>> 96) % 2 ^ 32 ≠ 0
  let bytes (x : List Line) : List (BitVec 8) := x.flatMap bytesOfLine
  if reserved then .corrupt 0
  else if md = 0 then
    let d := (ws.drop 1).take 1024
    if h >>> 128 ≠ 0 then .corrupt 0
    else if (h >>> 32) % 2 ^ 32 ≠ 0 then .corrupt 3
    else if emberCrc (bytes d) ≠ check then .corrupt 4 else .ok d 1025
  else
    let w := 2 + 2 * md
    let hw := if w = 8 then 3 else 1
    let hdr := (ws.take hw).foldr (fun x a => x.toNat + a * 2 ^ 512) 0
    let t := emberCodes w hdr
    let nsym := 524288 / w
    let nbits := (h >>> 32) % 2 ^ 32
    let bits := ((bytes ((ws.drop hw).take (1025 - hw))).flatMap bitsLsb).take nbits
    if hdr >>> (128 + 4 * 2 ^ w) ≠ 0 then .corrupt 0
    else if !emberTableOk t then .corrupt 1
    else if 512 * (1025 - hw) < nbits then .corrupt 3
    else match emberSyms t nsym 0 bits with
      | none => .corrupt 2
      | some (ss, rest) =>
        let tail := if w = 6 then rest.take 2 else []
        let used := ((ss.getLast?).map (·.2)).getD 0 + (if w = 6 then 2 else 0)
        let data := (ss.flatMap fun x => (List.range w).map fun i => x.1.testBit i) ++ tail
        let lines := (chunksOf 512 1024 data).map fun l =>
          BitVec.ofNat 512 (l.foldr (fun b a => bn b + 2 * a) 0)
        if data.length ≠ 524288 || used ≠ nbits then .corrupt 3
        else if emberCrc (bytes lines) ≠ check then .corrupt 4
        else
          let pos (b : Nat) : Nat :=
            let last := ceilDiv (2048 * (b + 1)) w - 1
            if last < nsym then ((ss[last]?).map (·.2)).getD 0 else used
          let fed := (List.range 256).all fun b => decide (hw + (pos b - 1) / 512 ≤ 4 * b + 259)
          if fed then .ok lines (hw + ceilDiv nbits 512) else .feed

end Sys2Proof.Machine
end

