-- ==== Sys2Proof/Machine/StackOps.lean ====
section
/-! DEFINITION. The stacks as the plan sees them: logical channels, address spaces, encryption at rest, memory errors
and open accesses (R181 to R191, R200 to R203, R207). -/

namespace Sys2Proof.Machine
open Sys2Proof

/-! ### Where words lie (R185 to R187) -/

/-- Number of logical channels of a plan (R185). -/
def Image.nch (i : Image) : Nat := 8 * i.kp

/-- First channel word of the Ember frames (R186, R187). -/
def Image.bEmb (i : Image) : Nat := ceilDiv i.planWords (max 1 i.nch)

/-- First channel word of the page pool (R186, R187). -/
def Image.bPool (i : Image) : Nat := i.bEmb + ceilDiv i.chunks 8 * ceilDiv 1025 (max 1 i.kp)

/-- First channel word of the device area (R187). -/
def Image.bDev (i : Image) (pages : Nat) : Nat := i.bPool + ceilDiv pages 8 * ceilDiv 1024 (max 1 i.kp)

/-- The physical pseudo-channel, 32 k + c, of a partition's logical channel (R185). -/
def State.physChan (s : State) (p l : Nat) : Nat := ((s.pt p).stage.chans[l]?).getD 0

/-- Plan-space word: (physical channel, channel word) (R186). -/
def State.planLoc (s : State) (p : Nat) (i : Image) (w : Nat) : Nat × Nat :=
  (s.physChan p (w % max 1 i.nch), w / max 1 i.nch)

/-- Stored word `j` of chunk frame `c` (R186). -/
def State.chunkLoc (s : State) (p : Nat) (i : Image) (c j : Nat) : Nat × Nat :=
  let k := max 1 i.kp
  (s.physChan p (8 * (j % k) + c % 8), i.bEmb + c / 8 * ceilDiv 1025 k + j / k)

/-- Word `j` of page `n` (R186). -/
def State.pageLoc (s : State) (p : Nat) (i : Image) (n j : Nat) : Nat × Nat :=
  let k := max 1 i.kp
  (s.physChan p (8 * (j % k) + n % 8), i.bPool + n / 8 * ceilDiv 1024 k + j / k)

/-- The pseudo-channel at a physical number. -/
def State.pch (s : State) (x : Nat) : Channel := s.chan (x / 32) (x % 32)

/-- The pseudo-channel at a physical number, changed. -/
def State.modPch (s : State) (x : Nat) (f : Channel → Channel) : State := s.modChan (x / 32) (x % 32) f

/-! ### Encryption at rest (R203) -/

/-- The tweak of a word: its data unit number and its place in the unit. -/
def tweakOf (unit ix : Nat) : BitVec 128 := BitVec.ofNat 128 (unit * 64 + ix)

/-- Tweak of a plan-space word. -/
def planTweak (w : Nat) : BitVec 128 := tweakOf (w / 64) (w % 64)
/-- Tweak of a chunk frame's stored word. -/
def chunkTweak (c j : Nat) : BitVec 128 := tweakOf (2 ^ 40 + c * 17 + j / 64) (j % 64)
/-- Tweak of a page's word. -/
def pageTweak (n j : Nat) : BitVec 128 := tweakOf (2 ^ 41 + n * 16 + j / 64) (j % 64)

/-- The at-rest key pair of a key slot. -/
def State.xtsKey (s : State) (p slot : Nat) : BitVec 512 := (vget (s.pt p).keys.xts slot none).getD 0

/-- A stored word from plaintext, encrypted where a key slot is named. -/
def State.atRest (s : State) (p : Nat) (slot : Option Nat) (tw : BitVec 128) (d : Line) : Line :=
  match slot with
  | some k => Config.xtsEncrypt (s.xtsKey p k) tw d
  | none => d

/-- Plaintext from a stored word. -/
def State.fromRest (s : State) (p : Nat) (slot : Option Nat) (tw : BitVec 128) (d : Line) : Line :=
  match slot with
  | some k => Config.xtsDecrypt (s.xtsKey p k) tw d
  | none => d

/-- The region of a plan-space word: a decoded Ember range or not (R120, R197). -/
def Image.regionOf (i : Image) (ember : Bool) (w : Nat) : Option Region :=
  i.regions.find? fun r => r.ember = ember && r.base ≤ w && w < r.base + r.words

/-- The key slot of a region, where it is encrypted. -/
def Region.slot (r : Region) : Option Nat := if r.encrypted then some r.keySlot else none

/-- The key slot of the page pool: data, where the partition marks the pool encrypted (R203). -/
def State.poolSlot (s : State) (p : Nat) : Option Nat := if (s.pt p).res.encrypt then some 0 else none

/-! ### Reads, writes and errors (R183, R184, R188, R189) -/

/-- A channel word as an access arriving at pc `a` reads it: every write that arrived earlier is seen (R189). -/
def Channel.wordAtPc (c : Channel) (w a : Nat) : Line :=
  c.pend.foldl (fun d x => if x.word = w && x.due < a + 150 then x.data.getD d else d) (Memory.readLine c.mem w)

/-- A read of a channel word cannot deliver: an uncorrectable error or poison, unless an earlier write replaces it. -/
def Channel.unreadable (c : Channel) (w a : Nat) : Bool :=
  (nsHas w c.bad || nsHas w c.poison) && !c.pend.any fun x => x.word = w && x.due < a + 150

/-- The die of a correctable error of a channel word. -/
def Channel.ceDie (c : Channel) (w : Nat) : Option (BitVec 4) := alGet w c.correctable

/-- OBJECT of a stack record (R492 kind 5). -/
def stackObj (ch word : Nat) : Nat := word + ch * 2 ^ 26

/-- A channel word marked poisoned; a 65th makes the pseudo-channel unusable (R184). -/
def State.poisonWord (s : State) (x w : Nat) : State :=
  s.modPch x fun c =>
    let l := nsIns w c.poison
    { c with
      bad := if 64 < l.length then c.bad else nsDel w c.bad
      poison := if 64 < l.length then c.poison else l
      usable := c.usable && decide (l.length ≤ 64) }

/-- An uncorrectable error found at a stack read: poison, ECC_UE, F-0205 (R184). -/
def State.stackUE (s : State) (x w : Nat) (p : Option Nat) : State :=
  let k := x / 32
  let s := s.poisonWord x w
  let s := s.modStk k fun y => if y.eccUeValid then y else { y with
    eccUe := BitVec.ofNat 31 (stackObj (x % 32) w)
    eccUeValid := true }
  s.logFault (s.fault 0x205 5 (stackObj (x % 32) w) p k)

/-- A corrected error at a stack read: counts, the die, the degraded mark, and a write-back queued (R183). -/
def State.stackCE (s : State) (x w : Nat) (die : BitVec 4) : State :=
  let s := s.modStk (x / 32) fun y => { y with eccCe := satInc y.eccCe, eccDie := die }
  s.modPch x fun c =>
    let n := vget c.dieCorrections die.toNat 0 + 1
    { c with
      dieCorrections := vset c.dieCorrections die.toNat n
      degraded := c.degraded || decide (64 ≤ n)
      openQueue := if c.openQueue.any (fun o => o.kind = .writeBack && o.word = w) then c.openQueue
        else c.openQueue ++ [{ kind := .writeBack, word := w, data := none, tag := none }] }

/-- A whole word stored in the array: its errors and poison are gone (R184). -/
def Channel.store (c : Channel) (w : Nat) (d : Line) : Channel :=
  { c with
    mem := Memory.writeLine c.mem w d
    poison := nsDel w c.poison
    bad := nsDel w c.bad
    correctable := alDel w c.correctable }

/-- A planned write admitted: it waits for its completion pc, and a write-back of the word is cancelled (R183, R188). -/
def State.admitWrite (s : State) (x : Nat) (pw : PendWrite) : State :=
  s.modPch x fun c => { c with
    pend := pendIns pw c.pend
    correctable := alDel pw.word c.correctable
    openQueue := c.openQueue.filter fun o => !(o.kind = .writeBack && o.word = pw.word) }

/-! ### Conditions of a check point (R195, R207) -/

/-- A pseudo-channel of the partition's slice is REFRESH_PENDING (R195). -/
def State.slicePending (s : State) (p : Nat) : Option Nat :=
  (List.range 8).find? fun k => (List.range 32).any fun c => (s.pt p).res.slice.getLsbD c && (s.chan k c).pending

/-- The staging descriptor that a plan-space word belongs to: (half, descriptor) (R207). -/
def Image.stagingOf (i : Image) (w : Nat) : Option (Nat × Nat) :=
  if i.halfWords = 0 || w < i.stageBase || i.stageBase + 2 * i.halfWords ≤ w then none
  else
    let o := w - i.stageBase
    ((List.range i.stageTable.length).find? fun d =>
      let x := i.stageTable.getD d StageDesc.reset
      x.target ≤ o % i.halfWords && o % i.halfWords ≤ x.target + x.length).map fun d => (o / i.halfWords, d)

/-- A staged word of a list is not ready (R207). -/
def State.stagingLate (s : State) (p : Nat) (i : Image) (ws : List Nat) : Bool :=
  ws.any fun w => match i.stagingOf w with
    | some x => !(s.pt p).stageReady.contains x
    | none => false

/-- The cause that a stack instruction finds at its check point, lowest code first (R34, R195, R207). -/
def State.stackLate (s : State) (p : Nat) (i : Image) (reads : List Nat) : Option (BitVec 4) :=
  if (s.slicePending p).isSome then some 2 else if s.stagingLate p i reads then some 4 else none

end Sys2Proof.Machine
end

