-- ==== Sys2Proof/Machine/Issue.lean ====
section
/-! DEFINITION. What an instruction plans, and its check point: the instruction decoded, its operands tested, and put in
flight, or the hold that a late use raises (R15, R32, R56, R63 to R67, R89, R93 to R98, R101, R102, R137, R514). What it
does from its issue on is done pc by pc (Pipe.lean). -/

namespace Sys2Proof.Machine
open Sys2Proof

/-! ### What an instruction plans (R97) -/

/-- Where the stream goes after an instruction (R99, R101, R102, R137). What a branch reads at its issue is right from its
issue on. -/
inductive Flow where
  | seq
  | jump (target : Nat)
  /-- CT.FBR: the program counter of the next frame's first instruction. -/
  | frame (target : Nat)
  /-- CT.BBR: instructions of arm T and of arm F, and whether arm T runs. -/
  | branch (lt lf : Nat) (takesT : Bool)
  | loop (iter body : Nat)
  | halt
  deriving DecidableEq, Repr

/-- One bank read: the plan's pc and the word, and whether it empties the word (R92, R93). -/
structure Read where
  pc : Nat
  word : Nat
  empties : Bool
  deriving DecidableEq, Repr

/-- One word that an instruction writes at a pc of its plan. `needs` are the reads (pc and word) that its data depends on:
where one of them delivered nothing, the word is not written (R63, R184). -/
structure Out where
  due : Nat
  word : Nat
  /-- Latency from the instruction's issue (R69). -/
  lat : Nat
  /-- The data, computed from what has been read by then; none changes the full/empty bit alone. -/
  data : Option (Unit → Line)
  full : Option Bool
  digest : Bool := false
  /-- The write carries an ER setting event (R141). -/
  er : Unit → Bool := fun _ => false
  needs : List (Nat × Nat) := []
  /-- What was read decodes to data that may be written (R178). -/
  ok : Unit → Bool := fun _ => true

/-- One register result (R96). -/
structure RegOut where
  due : Nat
  scalar : Bool
  idx : Nat
  val : Unit → BitVec 32
  needs : List (Nat × Nat) := []

/-- One access that arrives at a pseudo-channel: a read, kept as stored word `ix` of the instruction, or a write (R188). -/
structure StackAcc where
  pc : Nat
  chan : Nat
  word : Nat
  ix : Nat
  data : Option (Unit → Line) := none
  needs : List (Nat × Nat) := []

/-- The packet that an instruction queues at a port with its first beat (R118, R326). -/
structure SendOut where
  pc : Nat
  pkt : Unit → Packet
  needs : List (Nat × Nat)

/-- A weight slot loaded (R107). -/
structure LoadOut where
  due : Nat
  slot : Bool
  val : Unit → WSlot
  needs : List (Nat × Nat)

/-- What an instruction does, as its meaning computes it from the state and from what it has read so far. Every pc is the
plan's; `Flight.at_` says when it comes. -/
structure Plan where
  /-- Words tested at the check point, with the bit each must have (R93). -/
  tests : List (Nat × Bool) := []
  /-- A further condition that is not met, with its cause (R94, R34). -/
  late : Option (BitVec 4) := none
  /-- A fault of the check point: nothing issues and the job stops in a fault hold. -/
  fault : Option (FaultRec × Option FaultRec) := none
  /-- A fault of the issue pc (R139). -/
  issueFault : Option (FaultRec × Option FaultRec) := none
  /-- A word read at the check point itself (R147). -/
  pre : Option Nat := none
  reads : List Read := []
  /-- Writes of the tile's own words. -/
  writes : List Out := []
  regs : List RegOut := []
  /-- Mesh beats that arrive at a port, as (pc, port): physical tile 0-159, or 256 + n for fabric port n (R75, R79). -/
  beats : List (Nat × Nat) := []
  /-- Words that a beat lands in a tile in the pc of the beat, as (physical tile, word). -/
  lands : List (Nat × Out) := []
  stack : List StackAcc := []
  send : Option SendOut := none
  load : Option LoadOut := none
  /-- What else happens at a pc. -/
  acts : List (Nat × (State → State)) := []
  /-- Resources that must be free for the instruction to start: 0 row, vector or beat, 1 weight loading, 2 + i weight
  slot i (R97, R98, R108). -/
  wants : List Nat := []
  /-- Resources held, with the pcs from issue for which they are. -/
  holds : List (Nat × Nat) := []
  /-- Completion pc: the last write (R29, R69). -/
  done : Nat
  /-- The instruction is a move of the MV stream (R29). -/
  move : Bool := false
  /-- pcs added to the next instruction's WAIT (R99). -/
  lwait : Nat := 0
  flow : Flow := .seq

/-- A plan that does nothing but issue. -/
def Plan.nop (p : Nat) : Plan := { done := p }

/-- A result register written at pc `due` (R96); writes to A0 are ignored (R95). -/
def setReg (due : Nat) (scalar : Bool) (idx : Nat) (val : Unit → BitVec 32) (needs : List (Nat × Nat) := []) : List RegOut :=
  if !scalar && idx = 0 then [] else [{ due := due, scalar := scalar, idx := idx, val := val, needs := needs }]

/-- The bank reads of (pc, word) pairs under a source mode (R92, R93). -/
def srcReads (fe : Nat) (l : List (Nat × Nat)) : List Read := l.map fun x => { pc := x.1, word := x.2, empties := srcEmpties fe }

/-- Bank reads without a test or a bit change (R93). -/
def plainReads (l : List (Nat × Nat)) : List Read := l.map fun x => { pc := x.1, word := x.2, empties := false }

/-- The write of a destination word with its mode's change (R92). -/
def dstWrite (fe : Nat) (digest : Bool) (due word lat : Nat) (data : Unit → Line) (needs : List (Nat × Nat)) : Out :=
  { due := due, word := word, lat := lat, data := some data, full := dstFull fe, digest := digest, needs := needs }

/-! ### Plan conflicts (R15) -/

/-- A PLAN_CONFLICT record with its continuation: `res` the kind of resource (R492), two requesters named. -/
def State.conflict (s : State) (part res num : Nat) (a b : Nat × Nat × BitVec 32) : State :=
  let r := s.fault 0x302 2 (num % 256 + res * 256) (some part)
  s.logFault (r.waits a.1 (min a.2.1 3) a.2.2) (some ((r.contWith 0).waits b.1 (min b.2.1 3) b.2.2))

/-- A conflict of a planned access with an open window: one requester (R56). -/
def State.windowConflict (s : State) (part bank tile unit : Nat) (pc : BitVec 32) : State :=
  s.logFault ((s.fault 0x302 2 (bank + 256) (some part)).waits tile (min unit 3) pc)

/-- The launch count that frame-relative pcs count from: the launched or the armed one. -/
def State.frameZero (s : State) (p : Nat) : Nat := ((s.pt p).launched.orElse fun _ => s.plan.armed).getD 0

/-- Bank `b` has its open window at pc `q` of partition `p` (R56). -/
def State.inWindow (s : State) (p b q : Nat) : Bool := ((q + 256 - s.frameZero p % 256) % 256) / 4 = b

/-! ### Reads that meet a memory error (R61, R63) -/

/-- An uncorrectable error at a planned read: the word is poisoned and recorded, F-0201 is raised, and the job is held
under DATA_LATE until a recovery (R63, R386). -/
def State.tileUE (s : State) (t w : Nat) (unit : Nat) (pc : BitVec 32) : State :=
  let x := s.tile t
  let s := s.modTile t fun x => { x with
    poison := nsIns w x.poison
    bad := nsDel w x.bad
    eccUeWord := if x.eccUeValid then x.eccUeWord else BitVec.ofNat 16 w
    eccUeValid := true }
  let s := s.logFault ((s.fault 0x201 3 (w + x.logical.toNat * 65536) (some x.part.toNat)).waits t (min unit 3) pc)
  let b := BitVec.ofNat 160 (2 ^ t)
  let s : State := { s with map := { s.map with
    tileFailed := if s.map.tileUe &&& b = 0 then s.map.tileFailed else s.map.tileFailed ||| b
    tileUe := s.map.tileUe ||| b } }
  s.raiseCause 0x1 (.memErr x.part.toNat (256 + t) w)

/-- The words of a list that a read cannot deliver (R63). -/
def Tile.unreadable (t : Tile) (ws : List Nat) : List Nat := ws.filter fun w => nsHas w t.bad || nsHas w t.poison

/-! ### Sync words (R296, R305, R309) -/

/-- A watch is outstanding for wake word `w` of tile `t` (R295). -/
def State.wakeOwner (s : State) (t w : Nat) : Option Watch := (s.ts t).watches.find? fun x => x.wake = w

/-- The barrier declarations of a partition's Stage plan (R298). -/
def State.barDecl (s : State) (p b : Nat) : Option BarDecl := (s.img p).bind fun i => i.barriers[b]?

/-- The barrier in a round whose completion word is `w` of tile `t` (R299). -/
def State.compOwner (s : State) (t w : Nat) : Option Nat :=
  let x := s.tile t
  (List.range 32).find? fun b => match s.barDecl x.part.toNat b with
    | some d => d.scope ≠ 0 && d.compWord = w && d.tiles.contains x.logical.toNat && (s.bar x.part.toNat b).isOpen
    | none => false

/-- A DATA_LATE use of a sync word is recorded for F-0403 (R305). -/
def State.noteStall (s : State) (t w unit : Nat) (pc : BitVec 32) : State :=
  let x := s.tile t
  let p := x.part.toNat
  let kind : Option Nat := match s.wakeOwner t w with
    | some _ => some 0
    | none => (s.compOwner t w).map fun b => b * 2 + 1
  match kind with
  | none => s
  | some k =>
    if (s.sy p).stallValid then s
    else s.modSy p fun y => { y with
      stallObj := BitVec.ofNat 30 (w + x.logical.toNat * 2 ^ 16 + k / 2 * 2 ^ 24 + k % 2 * 2 ^ 29)
      stallValid := true
      stallTile := BitVec.ofNat 8 t
      stallPc := pc
      stallEngine := BitVec.ofNat 2 unit
      stallEpisode := (s.ownEpisode).map (·.num) }

/-- Planned data writes of one pc that meet a watch's wake word or a completion word in delivery raise F-0302 and are made
(R296, R309). -/
def State.syncConflict (s : State) (t unit : Nat) (pc : BitVec 32) (word : Nat) : State :=
  let part := (s.tile t).part.toNat
  match s.wakeOwner t word with
  | some y => s.conflict part 6 0 (t, y.engine.toNat, y.pc) (t, unit, pc)
  | none => match s.compOwner t word with
    | some b => if (s.bar part b).delivering.isSome then
        s.conflict part 6 b ((s.bar part b).firstTile.toNat, (s.bar part b).firstEngine.toNat, (s.bar part b).firstPc) (t, unit, pc)
      else s
    | none => s

/-! ### The order of a stream (R64, R66, R101, R102, R137) -/

/-- The loop rule of R101 after the instruction at `fr`: program counter, place in fetch order and loop stack of the next. -/
def loopNext (pc seq : Nat) : List LoopFrame → Nat × Nat × List LoopFrame
  | [] => (pc + 1, seq + 1, [])
  | f :: rest =>
    if f.last = seq then
      if 0 < f.left then (f.startPc, f.start, { f with left := f.left - 1 } :: rest) else loopNext pc seq rest
    else (pc + 1, seq + 1, f :: rest)

/-- The check points that follow that of the instruction at `fr`, which issues at `p` (R66, R99, R101, R102, R137). After a
CT.BBR there is one in each arm until it has issued (R514). -/
def Front.next (fr : Front) (p lwait : Nat) (flow : Flow) : List Front :=
  let ln := loopNext fr.pc fr.seq fr.loops
  let goto (pc seq : Nat) (loops : List LoopFrame) : Front :=
    { fr with pc := pc, seq := seq, last := p, extra := lwait, loops := loops }
  match flow with
  | .jump target => [goto target (fr.seq + 1) fr.loops]
  | .loop iter body =>
    [goto (fr.pc + 1) (fr.seq + 1) ({ start := fr.seq + 1, startPc := fr.pc + 1, last := fr.seq + body, left := iter } :: fr.loops)]
  | .halt => [{ goto ln.1 ln.2.1 ln.2.2 with stop := true }]
  | .frame _ => [{ goto ln.1 ln.2.1 ln.2.2 with stop := true }]
  | .branch lt lf _ =>
    [{ goto (fr.pc + 1) (fr.seq + 1) fr.loops with
        path := fr.path ++ [(p, true)]
        join := some (fr.seq + lt, fr.seq + lt + lf + 1, fr.pc + lt + lf + 1) },
     { goto (fr.pc + lt + 1) (fr.seq + lt + 1) fr.loops with path := fr.path ++ [(p, false)], join := none }]
  | .seq =>
    match fr.join with
    | some (last, seq, pc) =>
      if fr.seq = last then [{ goto pc seq ln.2.2 with join := none }] else [goto ln.1 ln.2.1 ln.2.2]
    | none => [goto ln.1 ln.2.1 ln.2.2]

/-- The places in fetch order that leave the queue when the instruction at `fr` issues: its own, and those of the loops that
end with it; the body of a loop in progress stays (R64, R101). -/
def Front.drops (fr : Front) : List (Nat × Nat) :=
  let rest := (loopNext fr.pc fr.seq fr.loops).2.2
  if rest.any fun l => l.start ≤ fr.seq && fr.seq ≤ l.last then []
  else (fr.seq, fr.seq) :: (fr.loops.take (fr.loops.length - rest.length)).map fun l => (l.start, l.last)

/-- The program counter of the next instruction to issue (R84). -/
def Stream.nextPc (x : Stream) : Nat :=
  match x.flights.find? fun f => !f.issued with
  | some f => f.pc
  | none => (x.fronts.headD Front.reset).pc

/-! ### The check point (R32, R67, R89, R94, R514) -/

/-- Fields that make any instruction invalid: WAIT 0, an engine code that does not fit its group or stream, a reserved
bit, or DIGEST where it may not stand (R87 to R89, R124). -/
def commonOk (group : Option Eng) (digestOk : Bool) (e : Eng) (w : IWord) : Bool :=
  w.wait ≠ 0 && field w.resv 2 1 = 0 && (digestOk || !w.digest) &&
  (match group with
   | none => w.engine = 0#4
   | some g => decide (g = e) && w.engine = BitVec.ofNat 4 (e.num + 1))

/-- A late use at a check point: the cause and what waits are recorded, and the chip raises a hold at once (R32, R125). -/
def State.lateUse (s : State) (t : Nat) (e : Eng) (code : BitVec 4) (words : List Nat) (pc : BitVec 32) : State :=
  let s : State := if code = 0x4#4 && s.ownEpisode.isNone then
      { s with stackBanks := s.stackBanks.map fun k => { k with stageLate := k.stageLate + 1 } } else s
  let s := s.raiseCause code (.lateUse t e.num pc.toNat)
  if code = 0x1#4 then words.foldl (fun s w => s.noteStall t w e.num pc) s else s

/-- The stream has a plan: launched, armed or waiting for its relaunch, and no CT.HALT has ended it (R45, R103, R387). -/
def State.streamLive (s : State) (t : Nat) (x : Stream) : Bool :=
  let tile := s.tile t
  tile.bound && (x.running || s.plan.armed.isSome || (s.pt tile.part.toNat).relaunchAt.isSome) && !x.halted

/-- The issue pc of the instruction at a check point, by its WAIT (R66, R99). -/
def Front.issuePc (fr : Front) (wait : Nat) : Nat := fr.last + fr.extra + wait

/-- The check point at `fr` of an instruction that issues at `p` is made at the present count: 24 pc before its issue, or
later where it waited for the one before it or for its code (R67, R514). While the counter stands still, the check point of
the count at which it stands is made only to test again what was late. -/
def State.checksAt (s : State) (t : Nat) (e : Eng) (fr : Front) (p : Nat) : Bool :=
  let g := s.plan.geyser
  !fr.stop && g ≤ p && p ≤ g + 24 && (p < g + 24 || s.running || s.hasCause (.lateUse t e.num fr.pc))

/-- The queue entry of a place in fetch order, once its code word has landed. -/
def Stream.entry (x : Stream) (seq g : Nat) : Option QEntry := x.queue.find? fun q => q.seq = seq && q.ready ≤ g

/-- The check point whose entry spells `word` and is due now. -/
def State.frontOf (s : State) (t : Nat) (e : Eng) (word : BitVec 128) (wait : Nat) : Option Front :=
  let x := (s.tile t).stream e
  x.fronts.find? fun fr => (x.entry fr.seq s.plan.geyser).map (·.word) = some word && s.checksAt t e fr (fr.issuePc wait)

/-- The check point due now that finds no instruction in the queue (R67). -/
def State.emptyFront (s : State) (t : Nat) (e : Eng) (wait : Nat) : Option Front :=
  let x := (s.tile t).stream e
  x.fronts.find? fun fr => (x.entry fr.seq s.plan.geyser).isNone && s.checksAt t e fr (fr.issuePc wait)

/-- A record of the stream that names an instruction (R121). -/
def State.instrFault (s : State) (t : Nat) (e : Eng) (code pc : Nat) : FaultRec :=
  (s.fault code 1 pc (some (s.tile t).part.toNat)).waits t e.num (BitVec.ofNat 32 pc)

/-- The instruction at `fr` as it goes in flight. -/
def State.flightAt (s : State) (t : Nat) (e : Eng) (op : Nat) (w : IWord) (fr : Front) : Flight :=
  { Flight.reset with
    op := op
    w := w
    p := fr.issuePc w.wait.toNat
    pc := fr.pc
    seq := fr.seq
    chk := s.plan.geyser
    path := fr.path
    drop := fr.drops
    areg := ((s.tile t).stream e).a }

/-- A flight that has read a word of its tile at its check point (R147). -/
def State.preRead (s : State) (t : Nat) (f : Flight) (w : Nat) : Flight :=
  let tile := s.tile t
  { f with got := [{ pc := f.chk, word := w, data := some (Memory.readLine tile.mem w), full := nsHas w tile.full }] }

/-- The check point is passed: the instruction is in flight, and the stream goes on to the next (R65, R66). -/
def Stream.pass (x : Stream) (fr : Front) (f : Flight) (pl : Plan) : Stream :=
  { x with
    flights := x.flights ++ [f]
    fronts := x.fronts.flatMap fun y => if y = fr then fr.next f.p pl.lwait pl.flow else [y] }

/-- The check point of a decoded instruction whose operands have been read: it passes, faults, or is a late use. -/
def State.checkPlan (s : State) (t : Nat) (e : Eng) (fr : Front) (f : Flight) (pl : Plan) : State :=
  match pl.fault with
  | some r => s.faultHold r.1 r.2
  | none =>
    let failed := (pl.tests.filter (s.tile t).testFails).map (·.1)
    match pl.late, failed with
    | none, [] => (s.modTile t fun y => y.setStream e ((y.stream e).pass fr f pl)).clearCause (.lateUse t e.num fr.pc)
    | some code, _ => s.lateUse t e code (if code = 0x1#4 then failed else []) (BitVec.ofNat 32 fr.pc)
    | none, ws => s.lateUse t e 0x1 ws (BitVec.ofNat 32 fr.pc)

/-- The check point at `fr` (R32, R67, R89, R147). -/
def State.check (s : State) (t : Nat) (e : Eng) (op : Nat) (w : IWord) (ok : Bool) (plan : Ctx → Plan) (fr : Front) : State :=
  let tile := s.tile t
  if tile.parityFails.any fun f => f.queue && f.source.toNat = e.num && f.pc.toNat = fr.pc then s
  else if !ok then s.faultHold (s.instrFault t e 0x309 fr.pc)
  else
    let f := s.flightAt t e op w fr
    let pl := plan { s := s, t := t, e := e, f := f }
    match pl.pre with
    | none => s.checkPlan t e fr f pl
    | some lw =>
      if (tile.unreadable [lw]).isEmpty then
        let f := s.preRead t f lw
        s.checkPlan t e fr f (plan { s := s, t := t, e := e, f := f })
      else s.tileUE t lw e.num (BitVec.ofNat 32 fr.pc)

/-- One tile instruction at its check point: opcode `op`, the words `w` as the stream's queue holds them, valid where `ok`,
doing what `plan` says. It acts only where the stream has reached a check point whose entry it is (R32, R67, R514). -/
def State.runInstr (s : State) (t : Nat) (e : Eng) (op : Nat) (w : IWord) (ok : Bool) (plan : Ctx → Plan) : State :=
  if !s.streamLive t ((s.tile t).stream e) then s
  else match s.frontOf t e (w.bits op) w.wait.toNat with
  | some fr => s.check t e op w ok plan fr
  | none => match s.emptyFront t e w.wait.toNat with
    | some fr => s.faultHold (s.instrFault t e 0x307 fr.pc)
    | none => s

end Sys2Proof.Machine
end

