-- ==== Sys2Proof/Machine/Fabric.lean ====
section
/-! DEFINITION. Packets, the rank grid, routing, transmit buffers, receive pools and transmission on a port
(R312 to R336, R348, R356, R357). -/

namespace Sys2Proof.Machine
open Sys2Proof

/-! ### Packets (R318 to R320) -/

/-- Bytes on the wire: header, payload and trailer (R318). -/
def Packet.wire (p : Packet) : Nat := 20 + 64 * p.payload.length

/-- Bytes in a receive pool: the trailer is not stored (R356). -/
def Packet.stored (p : Packet) : Nat := 16 + 64 * p.payload.length

/-- The class of a packet, 0 P, 1 S, 2 M, 3 H. -/
def Packet.clsN (p : Packet) : Nat := p.cls.toNat

/-- The 16 header bytes (R318). -/
def Packet.header (p : Packet) : List (BitVec 8) :=
  let r := p.resv.toNat
  [BitVec.ofNat 8 (p.cls.toNat + bn p.flat * 4 + bn p.relayed * 8 + p.type.toNat * 16), p.job]
    ++ bytesOf 2 p.lseq.toNat ++ bytesOf 3 p.dest.toNat ++ [p.ltile] ++ bytesOf 3 p.src.toNat
    ++ [BitVec.ofNat 8 ((p.payload.length - 1) % 128 + r % 2 * 128)]
    ++ bytesOf 2 (p.tag.toNat + r / 2 % 16 * 4096) ++ bytesOf 2 (r / 32)

/-- CRC-32C of a byte list (R318). -/
def crc32c (bs : List (BitVec 8)) : BitVec 32 :=
  (bs.foldl (fun (r : BitVec 32) b => (bitsLsb b).foldl (fun (r : BitVec 32) x =>
    if r.getLsbD 0 != x then (r >>> 1) ^^^ 0x82F63B78#32 else r >>> 1) r) (0xFFFFFFFF#32)) ^^^ 0xFFFFFFFF#32

/-- The trailer that a hop's sender computes (R319). -/
def Packet.crc (p : Packet) : BitVec 32 := crc32c (p.header ++ (p.payload.map bytesOfLine).flatten)

/-- The packet with its sequence number and trailer written (R319, R348). -/
def Packet.seal (p : Packet) (seq : BitVec 16) : Packet :=
  let q := { p with lseq := seq }
  { q with trailer := q.crc }

/-- The trailer verifies and the reserved header bits are 0 (R319). -/
def Packet.trailerOk (p : Packet) : Bool :=
  decide (p.trailer = p.crc) && decide (p.resv = 0) && decide (1 ≤ p.payload.length) && decide (p.payload.length ≤ 128)

/-- CLASS and TYPE name a use of R320. -/
def Packet.typeOk (p : Packet) : Bool :=
  match p.clsN with
  | 0 => p.type = 0
  | 1 => p.type.toNat ≤ 3
  | 2 => p.type = 0
  | _ => p.type.toNat ≤ 3

/-! ### Addresses and the rank grid (R214, R215, R315, R317) -/

/-- The coordinate of an address in physical dimension `d`: x, y, z, X, Y, Z (R315). -/
def coordDim (a : BitVec 24) (d : Nat) : Nat :=
  match d with
  | 0 => field a 15 14
  | 1 => field a 13 12
  | 2 => field a 11 10
  | 3 => field a 23 21
  | 4 => field a 20 18
  | _ => field a 17 16

/-- The ring size of a physical dimension (R331). -/
def State.ringSize (s : State) (d : Nat) : Nat :=
  match d with
  | 3 => s.map.ex.toNat
  | 4 => s.map.ey.toNat
  | 5 => s.map.ez.toNat
  | _ => 4

/-- The job's extent in a pod dimension (R236). -/
def State.jobExtent (s : State) (d : Nat) : Nat :=
  match d with
  | 3 => field s.map.jobBox 10 8 + 1
  | 4 => field s.map.jobBox 13 11 + 1
  | _ => field s.map.jobBox 15 14 + 1

/-- The job's origin in a pod dimension (R236). -/
def State.jobOrigin (s : State) (d : Nat) : Nat :=
  match d with
  | 3 => field s.map.jobBox 2 0
  | 4 => field s.map.jobBox 5 3
  | _ => field s.map.jobBox 7 6

/-- An address lies in the job's box (R335). -/
def State.inBox (s : State) (a : BitVec 24) : Bool :=
  [3, 4, 5].all fun d => s.jobOrigin d ≤ coordDim a d && coordDim a d < s.jobOrigin d + s.jobExtent d

/-- The address with the coordinate of dimension `d` replaced. -/
def setCoord (a : BitVec 24) (d v : Nat) : BitVec 24 :=
  let lo := match d with | 0 => 14 | 1 => 12 | 2 => 10 | 3 => 21 | 4 => 18 | _ => 16
  let w := match d with | 3 => 3 | 4 => 3 | _ => 2
  BitVec.ofNat 24 (a.toNat - (a.toNat >>> lo) % 2 ^ w * 2 ^ lo + v % 2 ^ w * 2 ^ lo)

/-- The chip that port `n` joins in the wiring table, with the port it joins there (R312). -/
def State.wired (s : State) (n : Nat) : BitVec 24 × Nat :=
  let d := n / 2
  let sz := s.ringSize d
  let c := coordDim s.pcie.self d
  (setCoord s.pcie.self d (if sz = 0 then c else (c + (if n % 2 = 0 then 1 else sz - 1)) % sz), if n % 2 = 0 then n + 1 else n - 1)

/-- A long port (R312). -/
def portLong (n : Nat) : Bool := decide (6 ≤ n)

/-- The digits of a rank in the mixed radix of the grid (R215). -/
def rankDigits : List RankDim → Nat → List Nat
  | [], _ => []
  | d :: ds, r => r % max 1 d.l :: rankDigits ds (r / max 1 d.l)

/-- The rank that digits spell (R215). -/
def rankOfDigits : List RankDim → List Nat → Nat
  | d :: ds, x :: xs => x + max 1 d.l * rankOfDigits ds xs
  | _, _ => 0

/-- The number of ranks of a grid (R215). -/
def rankCount (ds : List RankDim) : Nat := ds.foldl (fun a d => a * max 1 d.l) 1

/-- The ring neighbour of rank `r` on logical link `l` = 2 d + s (R215, R325). -/
def ringNeighbour (ds : List RankDim) (r l : Nat) : Option Nat :=
  match ds[l / 2]? with
  | none => none
  | some d =>
    if d.l ≤ 1 then none
    else
      let xs := rankDigits ds r
      let x := xs.getD (l / 2) 0
      some (rankOfDigits ds (xs.set (l / 2) ((x + (if l % 2 = 0 then 1 else d.l - 1)) % d.l)))

/-- The logical link from rank `r` to a ring neighbour; of the two links of a ring of length 2, the + link
(DEDUCED, notes/assumptions/30.md). -/
def linkTo (ds : List RankDim) (r dest : Nat) : Option Nat :=
  (List.range 12).find? fun l => ringNeighbour ds r l = some dest

/-- An entry of a port's rank table; 0 is an invalid one (R317). -/
def State.rankEntry (s : State) (n rank : Nat) : BitVec 32 := (alGet rank (s.link n).fab.rankTable).getD 0

/-- VALID of a rank table entry. -/
def rkValid (e : BitVec 32) : Bool := bit e 31
/-- The chip address that a rank table entry names. -/
def rkChip (e : BitVec 32) : BitVec 24 := addrOf (e.setWidth 14)

/-! ### Open routing (R330, R331) -/

/-- Where an open packet goes at this chip. -/
inductive Route where
  | deliver
  | port (n : Nat)
  | invalid
  | nowhere
  deriving DecidableEq, Repr

/-- The first matching exception entry's port (R330). -/
def exceptionPort (tab : List (Nat × BitVec 32)) (dest : BitVec 14) : Option Nat :=
  (tab.find? fun e =>
    let coord : BitVec 14 := e.2.setWidth 14
    let mask : BitVec 14 := BitVec.ofNat 14 (field e.2 27 14)
    field e.2 31 28 < 12 && dest &&& mask = coord &&& mask).map fun e => field e.2 31 28

/-- The dimension-ordered port towards a chip (R331). -/
def State.dimPort (s : State) (job : BitVec 8) (dest : BitVec 24) : Route :=
  let step := (List.range 6).findSome? fun d =>
    let n := s.ringSize d
    let a := coordDim s.pcie.self d
    let b := coordDim dest d
    if n = 0 then none
    else
      let dd := (b + n - a % n) % n
      if dd = 0 then none
      else if 3 ≤ d && job ≠ 0 && s.jobExtent d < n then some (if a < b then 2 * d else 2 * d + 1)
      else some (if dd ≤ n - dd then 2 * d else 2 * d + 1)
  match step with
  | some p => .port p
  | none => .nowhere

/-- The route of an open packet entering by port `via`, or injected (`via` = 12) (R331). -/
def State.route (s : State) (p : Packet) (via : Nat) : Route :=
  let dest? : Option (BitVec 24) :=
    if p.clsN = 1 then
      let e := s.rankEntry (if via < 12 then via else 0) (p.dest.toNat % 65536)
      if rkValid e then some (rkChip e) else none
    else some (p.dest &&& 0xFFFC00#24)
  match dest? with
  | none => .invalid
  | some dest =>
    if dest = s.selfOrigin then .deliver
    else match exceptionPort s.fab.exceptions (coordOf dest) with
      | some n => .port n
      | none => s.dimPort p.job dest

/-! ### Receive pools (R356, R357) -/

/-- Minimum space of an open class (R356). -/
def poolMin (c : Nat) : Nat := if c = 3 then 65536 else 32768

/-- Pool bytes that a class holds at a port: accepted packets, stored ones, and open ones that still wait for a transmit
buffer (R332, R356). -/
def State.poolUsed (s : State) (n c : Nat) : Nat :=
  let f := (s.link n).fab
  let a := (f.accepted.filter fun p => p.clsN = c).foldl (fun x p => x + p.stored) 0
  let b := (f.pool.filter fun q => q.pkt.clsN = c).foldl (fun x q => x + q.pkt.stored) 0
  let w := (List.range 12).foldl (fun x m =>
    ((s.link m).fab.openQ.filter fun o => o.via = n && !o.inBuf && o.pkt.clsN = c).foldl (fun x o => x + o.pkt.stored) x) 0
  a + b + w

/-- Free shared space of a port's pool (R356). -/
def State.poolShared (s : State) (n : Nat) : Nat :=
  1048576 - (s.link n).fab.pArea - 131072 - ([1, 2, 3].foldl (fun x c => x + (s.poolUsed n c - poolMin c)) 0)

/-- The space that an open class may still use (R357). -/
def State.poolRoom (s : State) (n c : Nat) : Nat := (poolMin c - s.poolUsed n c) + s.poolShared n

/-- Recomputes XOFF toward the neighbour, and sends a FLOW symbol where it changes (R333, R357). -/
def State.flowUpdate (s : State) (n : Nat) : State :=
  let f := (s.link n).fab
  let bits := (List.range 3).filter fun i =>
    let room := s.poolRoom n (i + 1)
    if f.xoffSent.getLsbD i then room < 8208 + 16384 else room ≤ 8208
  let v := ofBits 3 bits
  if v = f.xoffSent then s
  else s.modLink n fun l => { l with
    fab := { l.fab with xoffSent := v }
    ctlOut := l.ctlOut ++ [.flow (v.setWidth 16)] }

/-! ### Transmit buffers (R332) -/

/-- Gives free buffers to queued packets in order: a packet that enters a ring needs two free ones, a continuing one
needs one. Packets that wait for the rule of entry are counted once. -/
def admitBufs : Nat × Nat × Nat → List OQueued → List OQueued × Nat
  | _, [] => ([], 0)
  | used, o :: r =>
    let c := o.pkt.clsN
    let u := match c with | 1 => used.1 | 2 => used.2.1 | _ => used.2.2
    if !o.inBuf && u + (if o.newRing then 2 else 1) ≤ 4 then
      let used := match c with
        | 1 => (used.1 + 1, used.2)
        | 2 => (used.1, used.2.1 + 1, used.2.2)
        | _ => (used.1, used.2.1, used.2.2 + 1)
      let x := admitBufs used r
      ({ o with inBuf := true } :: x.1, x.2)
    else
      let x := admitBufs used r
      if !o.inBuf && o.newRing && !o.counted then ({ o with counted := true } :: x.1, x.2 + 1) else (o :: x.1, x.2)

/-- Buffers of each open class in use at a port. -/
def bufsUsed (q : List OQueued) : Nat × Nat × Nat :=
  let f (c : Nat) := q.countP fun o => o.inBuf && decide (o.pkt.clsN = c)
  (f 1, f 2, f 3)

/-- Admits waiting packets of a port to its transmit buffers. -/
def State.admitOpen (s : State) (n : Nat) : State :=
  let q := (s.link n).fab.openQ
  let r := admitBufs (bufsUsed q) q
  let s := s.modLink n fun l => { l with
    fab := { l.fab with openQ := r.1 }
    counters := { l.counters with bubbleWait := satAdd l.counters.bubbleWait r.2 } }
  (q.map (·.via)).eraseDups.foldl (fun s v => if v < 12 then s.flowUpdate v else s) s

/-- One packet dropped at a port (R320, R335). -/
def State.countDrop (s : State) (n : Nat) : State :=
  s.modLink n fun l => { l with counters := { l.counters with drop := satInc l.counters.drop } }

/-- OBJECT of a destination record (R492 kind 9). -/
def destObj (n : Nat) (dest : BitVec 24) : Nat := n + dest.toNat * 256

/-- This chip is FAILED, and so forwards nothing (R217). -/
def State.forwardsNone (s : State) : Bool := s.map.chipState = 2#2

/-- An open packet handed on by its route: delivered, queued at a port, or dropped with the fault the route gives; a FAILED
chip drops what it would forward (R217, R329 to R332, R335). -/
def State.routeOpen (s : State) (p : Packet) (via : Nat) : State :=
  let at? := if via < 12 then via else 0
  match s.route p via with
  | .deliver => { s with fab := { s.fab with delivered := s.fab.delivered ++ [p] } }
  | .invalid => s.faultHold (s.fault 0x111 9 (destObj (if via < 12 then via else 15) p.dest))
  | .nowhere => s.countDrop at?
  | .port n =>
    if via < 12 && s.forwardsNone then s.countDrop at?
    else if (s.link n).fab.role = 3#2 then
      if p.clsN = 1 then s.faultHold (s.fault 0x112 9 (destObj n p.dest)) else s.countDrop n
    else
      let o : OQueued := { OQueued.reset with
        pkt := p
        readyAt := if via < 12 then s.wall + 16 * s.clkTu else s.wall
        newRing := !(via < 12 && via / 2 = n / 2 && via ≠ n)
        via := via }
      (s.modLink n fun l => { l with fab := { l.fab with openQ := l.fab.openQ ++ [o] } }).admitOpen n

/-- Sends an open packet from this chip. -/
def State.inject (s : State) (p : Packet) : State := s.routeOpen p 12

/-- An S packet of this chip to a rank (R318, R320). -/
def State.sPacket (s : State) (type rank : Nat) (payload : List (BitVec 512)) : Packet :=
  { Packet.reset with cls := 1, type := BitVec.ofNat 4 type, job := s.fab.job, dest := BitVec.ofNat 24 rank,
                      src := s.selfOrigin, payload := payload }

/-- An M or H packet of this chip to a flat identifier (R316, R318, R320). -/
def State.flatPacket (s : State) (cls type : Nat) (dest : BitVec 24) (payload : List (BitVec 512)) : Packet :=
  { Packet.reset with cls := BitVec.ofNat 2 cls, flat := true, type := BitVec.ofNat 4 type,
                      job := if cls = 2 then 0 else s.fab.job, dest := dest, src := s.selfOrigin, payload := payload }

/-! ### Planned packets (R325, R327) -/

/-- Queues a P packet at port `n`. -/
def State.queueP (s : State) (n : Nat) (p : Packet) (readyAt : Nat) (relay : Bool) (via part : Nat) : State :=
  if (s.link n).fab.role = 3#2 then s.faultHold (s.fault 0x112 9 (destObj n p.dest))
  else s.modLink n fun l => { l with fab := { l.fab with
    pQueue := l.fab.pQueue ++ [{ pkt := p, readyAt := readyAt, relay := relay, via := via, part := part }]
    fwd := l.fab.fwd || relay } }

/-- The link map entry of a logical link: port, spliced, valid (R325, R339). -/
def State.linkEntry (s : State) (l : Nat) : Nat × Bool × Bool :=
  let e := vget s.fab.linkMap l 0
  (field e 3 0, bit e 4, bit e 5)

/-- Sends a P packet of partition `part` to a rank: on its logical link, by the marked port where the link is rerouted
(R325, R327). A rank that is no ring neighbour raises F-0111. -/
def State.sendP (s : State) (part : Nat) (p : Packet) (readyAt : Nat) : State :=
  let cfg := (s.pt part).stage
  let img := cfg.image.getD Image.reset
  match linkTo img.dims cfg.rank.toNat (p.dest.toNat % 65536) with
  | none => s.faultHold (s.fault 0x111 9 (destObj 15 p.dest))
  | some l =>
    let e := s.linkEntry l
    if !e.2.2 || !rkValid (s.rankEntry e.1 (p.dest.toNat % 65536)) then s.faultHold (s.fault 0x111 9 (destObj e.1 p.dest))
    else
      let own := (alGet l img.slotTables).getD []
      let rerouted := e.2.1 && decide (vget cfg.cells e.1 [] ≠ own)
      s.queueP e.1 p (readyAt + (if rerouted then 16 else 0)) rerouted 12 part

/-! ### Cells of a port (R322 to R324) -/

/-- The partition whose Stage plan gives the cells' frame: of the launched ones, the lowest with the longest frame. -/
def State.cellPart (s : State) : Option Nat := minBy (fun p => 2 ^ 20 - s.frameLen p) s.launchedParts

/-- The partition whose Stage slot table holds cell `i` of port `n` as a planned one; a shorter frame repeats (R322,
R402). -/
def State.cellOwner (s : State) (n i : Nat) : Option Nat :=
  s.launchedParts.find? fun p =>
    let t := vget (s.pt p).stage.cells n []
    !t.isEmpty && (t[i % t.length]?).getD 0 = 1#4

/-- The cell in progress: its index in the frame, its begin pc, and the number of cells of the frame. -/
def State.cellNow (s : State) : Option (Nat × Nat × Nat) :=
  s.cellPart.bind fun p =>
    let len := s.frameLen p
    let z := ((s.pt p).launched).getD 0
    if len < 64 || s.plan.geyser < z then none
    else
      let r := (s.plan.geyser - z) % len
      some (r / 64, s.plan.geyser - r % 64, len / 64)

/-- The code of cell `i` of a port; past the table's end a cell is OPEN (R322). -/
def LinkFab.code (f : LinkFab) (i : Nat) : Nat := ((f.cells[i]?).getD 0).toNat

/-- Cells from index `i` on that continue a run of code `c` (R322). -/
def LinkFab.runLen (f : LinkFab) (c n i : Nat) : Nat :=
  ((List.range (n - i)).takeWhile fun k => f.code (i + k) = c).length

/-- pcs from now to the begin of the next P_START or FWD cell; none where the frame holds none (R324). -/
def State.openLeft (s : State) (n : Nat) : Option Nat :=
  s.cellNow.bind fun (i, b, cells) =>
    ((List.range cells).find? fun k =>
      let c := (s.link n).fab.code ((i + 1 + k) % cells)
      c = 1 || c = 3).map fun k => b + 64 * (k + 1) - s.plan.geyser

/-- Wall time that bytes occupy a link at 200 GB/s, rounded up (R311, R342). -/
def wireTime (bytes : Nat) : Nat := ceilDiv (bytes * tuNs) 200

/-! ### Timers and replay buffer (R351, R354, R355) -/

/-- RTT_cal: calibrated data and symbol latency, in wall units (R354); before bind records them, as training measured them
with the pad included (DEDUCED, notes/assumptions/36.md). -/
def Link.rtt (l : Link) : Nat :=
  if l.calData = 0 then tu64 (l.rawData + l.rawSym + 2 * l.pad.toNat) else tu64 (l.calData.toNat + l.calSym.toNat)
/-- T_ack. -/
def Link.tAck (l : Link) : Nat := l.rtt + 192 * tuNs
/-- T_nak. -/
def Link.tNak (l : Link) : Nat := l.rtt + 128 * tuNs

/-- A port is REPLAYING (R353). -/
def Link.replaying (l : Link) : Bool := l.nakPending || l.replayUntil.isSome

/-- Wire bytes in the replay buffer (R355). -/
def Link.replayBytes (l : Link) : Nat := l.replay.foldl (fun a e => a + e.pkt.wire) 0

/-- A packet may start: a free entry, and its bytes fit (R355). -/
def Link.roomFor (l : Link) (p : Packet) : Bool :=
  l.replay.length < (if p.clsN = 0 then 4096 else 3840) && l.replayBytes + p.wire ≤ 524288

/-- A sender stall on a full replay buffer (R355). -/
def State.countStall (s : State) (n : Nat) : State :=
  s.modLink n fun l => { l with counters := { l.counters with stalls := satInc l.counters.stalls } }

/-- Index of LNKn.CNT for a class and direction (R338). -/
def cntIx (cls : Nat) (received : Bool) : Nat := cls + (if received then 4 else 0)

/-- A new packet put on the wire: its sequence number and trailer, a replay entry, the ACK timer (R319, R348, R351). -/
def State.transmit (s : State) (n : Nat) (p : Packet) : State :=
  let l := s.link n
  let q := p.seal l.txNext
  s.modLink n fun l => { l with
    txNext := l.txNext + 1
    replay := l.replay ++ [{ seq := l.txNext, pkt := q }]
    tAckAt := some (l.tAckAt.getD (s.wall + l.tAck))
    counters := { l.counters with
      cnt := vset l.counters.cnt (cntIx p.clsN false) (satInc (vget l.counters.cnt (cntIx p.clsN false) 0)) }
    fab := { l.fab with
      wireOut := some q
      busyUntil := max s.wall l.fab.busyUntil + wireTime p.wire } }

/-- A replayed packet put on the wire again (R351). -/
def State.retransmit (s : State) (n : Nat) (p : Packet) : State :=
  s.modLink n fun l => { l with fab := { l.fab with
    wireOut := some p
    busyUntil := max s.wall l.fab.busyUntil + wireTime p.wire } }

/-- The pool space of relayed packets is freed as they leave (R327). -/
def State.dropRelayed (s : State) (via : Nat) (p : Packet) : State :=
  if via < 12 then
    s.modLink via fun l => { l with fab := { l.fab with pool := l.fab.pool.eraseP fun q => q.relayPort.isSome && q.pkt = p } }
  else s

/-- A P packet leaves a port's queue (R324, R327). -/
def State.takeP (s : State) (n : Nat) (q : PQueued) : State :=
  let s := s.modLink n fun l =>
    let rest := l.fab.pQueue.erase q
    { l with fab := { l.fab with pQueue := rest, fwd := rest.any (·.relay) } }
  s.dropRelayed q.via q.pkt

/-- F-0110: a packet exceeds its slot (R324). -/
def State.slotOverrun (s : State) (n cell : Nat) (p : Packet) : State :=
  let r := s.fault 0x110 8 (n + p.ltile.toNat * 16 + p.tag.toNat * 4096)
  s.faultHold r (some (r.contWith cell))

/-! ### Acceptance of a planned packet (R118, R127, R325, R327) -/

/-- A P packet accepted by port `n`: stored in its pool under its key, or kept there for its relay. -/
def State.acceptP (s : State) (n : Nat) (p : Packet) : State :=
  let obj := n + p.ltile.toNat * 16 + p.tag.toNat * 4096
  if (s.link n).fab.pArea < s.poolUsed n 0 + p.stored then s.faultHold (s.fault 0x30C 8 obj)
  else
    let e := s.rankEntry n (p.dest.toNat % 65536)
    if !rkValid e then s.faultHold (s.fault 0x111 9 (destObj n p.dest))
    else if bit e 19 then
      if s.recvDir.any fun d => d.ltile = p.ltile && d.tag = p.tag then s.faultHold (s.fault 0x30B 8 obj)
      else
        let s := s.modLink n fun l => { l with fab := { l.fab with
          pool := l.fab.pool ++ [{ pkt := p, landedAt := s.plan.geyser, freeAt := none, relayPort := none }] } }
        { s with recvDir := s.recvDir ++ [{ ltile := p.ltile, tag := p.tag, port := n }] }
    else if bit e 18 then
      let out := field e 17 14
      let q := { p with relayed := true }
      if s.forwardsNone then s.countDrop n
      else if (s.link out).fab.role = 3#2 then s.faultHold (s.fault 0x112 9 (destObj out p.dest))
      else
        let s := s.modLink n fun l => { l with fab := { l.fab with
          pool := l.fab.pool ++ [{ pkt := q, landedAt := s.plan.geyser, freeAt := none, relayPort := some out }] } }
        s.queueP out q (s.plan.geyser + 16) true n 16
    else s.faultHold (s.fault 0x111 9 (destObj n p.dest))

/-- The packet is foreign: it came by a FOREIGN port, or its job is not this chip's (R335). -/
def State.foreign (s : State) (n : Nat) (p : Packet) : Bool :=
  p.clsN ≠ 2 && ((s.link n).fab.role = 2#2 || !s.fab.jobValid || p.job ≠ s.fab.job)

/-- A foreign packet is dropped, counted and recorded; the job runs on (R335). -/
def State.dropForeign (s : State) (n : Nat) (p : Packet) : State :=
  let s := s.countDrop n
  s.logFault (s.fault 0x113 9 (n + p.job.toNat * 256))

/-- The oldest accepted packet of a port that satisfies a test is taken off its list. -/
def State.takeAccepted (s : State) (n : Nat) (p : Packet) : State :=
  s.modLink n fun l => { l with fab := { l.fab with accepted := l.fab.accepted.erase p } }

/-- Pool space whose packet has been read is freed (R118). -/
def State.freePools (s : State) : State :=
  { s with links := s.links.map fun l =>
      { l with fab := { l.fab with pool := l.fab.pool.filter fun q => match q.freeAt with
        | some f => decide (s.plan.geyser < f)
        | none => true } } }

/-- CLEAN: every partition never enabled or fully scrubbed, one that waits for its resources among them, and no packet in a P
pool (R336, R400). -/
def State.cleanNow (s : State) : Bool :=
  s.parts.toList.all (fun b => b.state = 0#3 || b.state = 4#3) && s.links.toList.all fun l => l.fab.pool.all fun q => q.pkt.clsN ≠ 0

/-- The oldest delivered packet that satisfies a test. -/
def State.deliveredOf (s : State) (f : Packet → Bool) : Option Packet := s.fab.delivered.find? f

/-- A delivered packet consumed by its endpoint. -/
def State.consume (s : State) (p : Packet) : State := { s with fab := { s.fab with delivered := s.fab.delivered.erase p } }

end Sys2Proof.Machine
end

