-- ==== Sys2Proof/Machine/Sync.lean ====
section
/-! DEFINITION. The sync unit: watches, barriers, delivery and the sync commands (R290 to R309, R376). -/

namespace Sys2Proof.Machine
open Sys2Proof

/-! ### Objects, watches and deliveries -/

/-- A word's first use as a sync object: its stored bit goes into the tile's object table, or F-0404 (R307). -/
def State.syncObject (s : State) (t w : Nat) : State :=
  let y := s.ts t
  if (alGet w y.objects).isSome then s
  else if y.objects.length ≥ 256 then
    s.faultHold (s.fault 0x404 3 (w + (s.tile t).logical.toNat * 65536) (some (s.tile t).part.toNat))
  else s.modTs t fun y => { y with objects := alSet w (nsHas w (s.tile t).full) y.objects }

/-- The start of the frame `k` frames after the one that holds pc `q` (R297, R304). -/
def State.frameStart (s : State) (p q k : Nat) : Nat :=
  let z := s.frameZero p
  z + ((q - z) / s.frameLen p + k) * s.frameLen p

/-- A watch reaches the sync unit in the present pc (R294 to R297). -/
def State.registerWatch (s : State) (t : Nat) (engine : Nat) (pc : BitVec 32) (watched wake : Nat) (wantFull : Bool)
    (timeout : Nat) : State :=
  let x := s.tile t
  let part := x.part.toNat
  let y := s.ts t
  let reg := s.plan.geyser
  if y.watches.length ≥ 16 then
    s.faultHold ((s.fault 0x404 3 (watched + x.logical.toNat * 65536) (some part)).waits t engine pc)
  else match y.watches.find? fun v => v.wake = wake with
    | some v => s.conflict part 6 0 (t, v.engine.toNat, v.pc) (t, engine, pc)
    | none =>
      let s := (s.syncObject t watched).syncObject t wake
      s.modTs t fun y => { y with watches := y.watches ++ [{ Watch.reset with
        watched := watched
        wake := wake
        wantFull := wantFull
        regAt := reg
        expireAt := s.frameStart part reg timeout
        engine := BitVec.ofNat 2 engine
        pc := pc }] }

/-- The sync unit sets a stored bit through its side port, at the end of this pc (R291, R292). -/
def State.sidePort (s : State) (t w : Nat) : State := s.modTile t fun x => { x with sideSets := nsIns w x.sideSets }

/-- What the sync unit wrote through a tile's side port in this pc (R292). -/
def Tile.endPc (t : Tile) : Tile :=
  if t.sideSets.isEmpty then t
  else { t with
    full := t.sideSets.foldl (fun l w => nsIns w l) t.full
    sideSets := [] }

/-- Every delivery in progress advances by one step (R293); those that advance during a hold count once in SYNC.EARLY. -/
def Watch.deliver (held : Bool) (w : Watch) : Watch × Nat :=
  match w.fired with
  | some (k + 1) => ({ w with fired := some k, early := w.early || held }, bn (held && !w.early))
  | _ => (w, 0)

/-- A barrier's delivery advances (R293). -/
def Barrier.deliver (held : Bool) (b : Barrier) : Barrier × Nat :=
  match b.delivering with
  | some (k + 1) => ({ b with delivering := some k, early := b.early || held }, bn (held && !b.early))
  | _ => (b, 0)

/-- An ER flag word's delivery advances (R376). -/
def erStep (held : Bool) (e : Nat × Nat × Bool) : (Nat × Nat × Bool) × Nat :=
  match e with
  | (q, k + 1, x) => ((q, k, x || held), bn (held && !x))
  | _ => (e, 0)

/-- One delivery step for the whole chip (R293): a pc, or a clk while the counter stands still. -/
def State.deliverAll (s : State) (held : Bool) : State :=
  let ts := s.tileSync.map fun y =>
    if y.watches.isEmpty && y.erDelivery.isEmpty then (y, 0)
    else
      let w := y.watches.map (Watch.deliver held)
      let e := y.erDelivery.map (erStep held)
      ({ y with watches := w.map (·.1), erDelivery := e.map (·.1) },
        w.foldl (fun a x => a + x.2) 0 + e.foldl (fun a x => a + x.2) 0)
  let bs := s.syncB.map fun k =>
    let r := k.barriers.map (Barrier.deliver held)
    ({ k with barriers := r.map (·.1) }, r.foldl (fun a x => a + x.2) 0)
  let n := ts.foldl (fun a x => a + x.2) 0 + bs.foldl (fun a x => a + x.2) 0
  { s with
    tileSync := ts.map (·.1)
    syncB := bs.map (·.1)
    sync := { s.sync with early := satAdd s.sync.early n } }

/-! ### Barriers (R298 to R304) -/

/-- The rank that a partition's Stage mapping gives this chip. -/
def State.rankOf (s : State) (p : Nat) : Nat := (s.pt p).stage.rank.toNat

/-- This chip's index in a JOB barrier's tree (R301). -/
def State.treeIndex (s : State) (p : Nat) (d : BarDecl) : Option Nat :=
  if d.ranks.contains (s.rankOf p) then some (d.ranks.takeWhile (· < s.rankOf p)).length else none

/-- The tree indexes of a member's children (R301). -/
def treeChildren (d : BarDecl) (i : Nat) : List Nat :=
  ((List.range 8).map fun k => 8 * i + 1 + k).filter fun j => j < d.ranks.length

/-- The payload of an ARRIVE or RELEASE: barrier, round, partition (DESIGN CHOICE, notes/assumptions/31.md). -/
def barPayload (b round p : Nat) : List (BitVec 512) := [lineOfBytes [BitVec.ofNat 8 b, BitVec.ofNat 8 round, BitVec.ofNat 8 p]]

/-- ARRIVE or RELEASE to the member of a tree index. -/
def State.sendBar (s : State) (type p b i : Nat) (d : BarDecl) : State :=
  s.inject (s.sPacket type (d.ranks.getD i 0) (barPayload b (s.bar p b).round.toNat p))

/-- The root reached step 2, or RELEASE came: RELEASE to the children, then `steps` further delivery steps (R301). -/
def State.releaseBar (s : State) (p b steps : Nat) (d : BarDecl) (i : Nat) : State :=
  let s := (treeChildren d i).foldl (fun s j => s.sendBar 1 p b j d) s
  s.modBar p b fun x => { x with delivering := some steps }

/-- What a chip does once arrivals are complete (R300, R301); `past` is 1 where the last of them is made in the pc that is
now ending, which counts as the first step, and 0 for a message that comes in this pc. -/
def State.checkBar (s : State) (p b past : Nat) (d : BarDecl) : State :=
  let x := s.bar p b
  if !(d.tiles.all fun l => x.arrived.contains l) || x.delivering.isSome || x.sentUp then s
  else if d.scope = 1 then s.modBar p b fun x => { x with delivering := some (64 - past) }
  else match s.treeIndex p d with
    | none => s
    | some i =>
      if !((treeChildren d i).all fun j => x.children.contains j) then s
      else if i = 0 then s.releaseBar p b (40 - past) d 0
      else (s.sendBar 0 p b ((i - 1) / 8) d).modBar p b fun x => { x with sentUp := true }

/-- F-0407: an arrival that does not count (R299). -/
def State.misuse (s : State) (t engine : Nat) (pc : BitVec 32) (b : Nat) : State :=
  let x := s.tile t
  s.faultHold ((s.fault 0x407 10 (b + x.logical.toNat * 65536) (some x.part.toNat)).waits t engine pc)

/-- The completion words of a barrier's member tiles are sync objects (R295, R299). -/
def State.barObjects (s : State) (p : Nat) (d : BarDecl) : State :=
  d.tiles.foldl (fun s m => match s.physTile p m with
    | some pt => s.syncObject pt d.compWord
    | none => s) s

/-- CT.BAR issued in the present pc: the tile arrives at barrier `b` of its partition (R299). -/
def State.arrive (s : State) (t engine : Nat) (pc : BitVec 32) (b : Nat) : State :=
  let tile := s.tile t
  let p := tile.part.toNat
  let l := tile.logical.toNat
  match s.barDecl p b with
  | none => s.misuse t engine pc b
  | some d =>
    if d.scope = 0 || !d.tiles.contains l || (d.scope = 2 && (s.treeIndex p d).isNone) || (s.bar p b).arrived.contains l then
      s.misuse t engine pc b
    else
      let x := s.bar p b
      let s := s.barObjects p d
      let s := s.modBar p b fun y => { y with
        isOpen := true
        arrived := nsIns l y.arrived
        expireAt := if x.arrived.isEmpty then s.frameStart p s.plan.geyser d.timeout else y.expireAt
        firstTile := if y.firstTile = 0xFF then BitVec.ofNat 8 t else y.firstTile
        firstEngine := if y.firstTile = 0xFF then BitVec.ofNat 2 engine else y.firstEngine
        firstPc := if y.firstTile = 0xFF then pc else y.firstPc }
      s.checkBar p b 1 d

/-- The lowest member of a round that has not arrived: a logical tile, a child rank, or the parent's rank; with the two
flags of the barrier object (R304, R310, R492). -/
def State.missing (s : State) (p b : Nat) (d : BarDecl) : Option (Nat × Bool × Bool) :=
  let x := s.bar p b
  match d.tiles.find? fun l => !x.arrived.contains l with
  | some l => some (l, false, false)
  | none =>
    if d.scope ≠ 2 then none
    else match s.treeIndex p d with
      | none => none
      | some i =>
        match (treeChildren d i).find? fun j => !x.children.contains j with
        | some j => some (d.ranks.getD j 0, true, false)
        | none => if i = 0 then none else some (d.ranks.getD ((i - 1) / 8) 0, true, true)

/-! ### ER overflow (R376) -/

/-- A setting event of a tile's ER overflow flag, with the write that carries it in the pc now ending; the events of one pc
give one setting. -/
def State.erEvent (s : State) (t : Nat) : State :=
  let q := s.plan.geyser
  (s.modTile t fun x => { x with erFlag := true }).modTs t fun y =>
    if y.erDelivery.any fun e => e.1 = q then y else { y with erDelivery := y.erDelivery ++ [(q, 63, false)] }

/-! ### Commands -/

/-- WATCH_FIRE (R294): at the end of the last pc, which was at or after the registration and before the expiry tick, the
shadow of the watched word held the required state; 55 of the 56 delivery steps are left. -/
def execWatchFire (t : TileId) (wake : WordIx) (s : State) : Host.Outcome State Fault Refusal :=
  match s.wakeOwner t wake with
  | none => .next s
  | some w =>
    if w.fired.isSome || s.plan.geyser ≤ w.regAt || w.expireAt < s.plan.geyser
        || nsHas w.watched (s.tile t).full != w.wantFull then .next s
    else .next (s.modTs t fun y => { y with
      watches := y.watches.map fun x => if x.wake = wake.val then { x with fired := some 55 } else x })

/-- WAKE_WRITE (R294, R296): delivery has ended; the wake word is set full and the watch removed. -/
def execWakeWrite (t : TileId) (wake : WordIx) (s : State) : Host.Outcome State Fault Refusal :=
  match s.wakeOwner t wake with
  | none => .next s
  | some w =>
    if w.fired ≠ some 0 then .next s
    else
      let tile := s.tile t
      let s := if nsHas wake tile.full then
          s.logFault ((s.fault 0x302 2 (6 * 256) (some tile.part.toNat)).waits t w.engine.toNat w.pc) else s
      let s := s.modTs t fun y => { y with watches := y.watches.filter fun x => x.wake ≠ wake.val }
      .next { s.sidePort t wake with sync := { s.sync with wakes := satInc s.sync.wakes } }

/-- WATCH_TIMEOUT (R297): the expiry tick finds the watch unfired, and its condition not met at the end of the pc before. -/
def execWatchTimeout (t : TileId) (wake : WordIx) (s : State) : Host.Outcome State Fault Refusal :=
  match s.wakeOwner t wake with
  | none => .next s
  | some w =>
    let tile := s.tile t
    if w.fired.isSome || s.plan.geyser < w.expireAt
        || (decide (s.plan.geyser = w.expireAt) && nsHas w.watched tile.full = w.wantFull) then .next s
    else
      let s := s.modTs t fun y => { y with watches := y.watches.filter fun x => x.wake ≠ wake.val }
      .next (s.faultHold ((s.fault 0x401 3 (w.watched + tile.logical.toNat * 65536) (some tile.part.toNat)).waits t
        w.engine.toNat w.pc))

/-- BARRIER_COMPLETION_WRITE (R299 to R302): delivery has ended; the completion words are set full and the round ends. -/
def execBarrierCompletionWrite (p : PartId) (b : BarIx) (s : State) : Host.Outcome State Fault Refusal :=
  match s.barDecl p b, (s.bar p b).delivering with
  | some d, some 0 =>
    let s := d.tiles.foldl (fun s l => match s.physTile p l with
      | some t => s.sidePort t d.compWord
      | none => s) s
    let s := s.modBar p b fun x => { Barrier.reset with
      round := x.round + 1
      isOpen := !x.nextChildren.isEmpty
      children := x.nextChildren }
    .next { s with sync := { s.sync with completions := satInc s.sync.completions } }
  | _, _ => .next s

/-- The sender's rank of a delivered S packet under a partition's Stage mapping. -/
def State.rankOfChip (s : State) (p : Nat) (a : BitVec 24) : Option Nat :=
  (s.pt p).stage.ranks.findIdx? fun r => coordOf r = coordOf a

/-- Partition, barrier and round of an ARRIVE or RELEASE. -/
def barFields (k : Packet) : Nat × Nat × Nat :=
  let w := k.payload.headD 0
  ((byteAt w 2).toNat % 16, (byteAt w 0).toNat % 32, (byteAt w 1).toNat)

/-- BARRIER_ARRIVE (R301, R302): the oldest delivered ARRIVE counts towards its round. -/
def execBarrierArrive (s : State) : Host.Outcome State Fault Refusal :=
  match s.deliveredOf fun k => k.clsN = 1 && k.type = 0#4 with
  | none => .next s
  | some k =>
    let s := s.consume k
    let (p, b, round) := barFields k
    let rank := (s.rankOfChip p k.src).getD 0
    let bad := s.faultHold (s.fault 0x407 10 (b + 256 + rank * 65536) (some p))
    match s.barDecl p b with
    | none => .next bad
    | some d =>
      let x := s.bar p b
      let j := (d.ranks.takeWhile (· < rank)).length
      match s.treeIndex p d with
      | none => .next bad
      | some i =>
        if d.scope ≠ 2 || !d.ranks.contains rank || !(treeChildren d i).contains j then .next bad
        else if round = x.round.toNat then
          let s := s.modBar p b fun y => { y with
            isOpen := true
            children := nsIns j y.children }
          .next (s.checkBar p b 0 d)
        else if round = (x.round.toNat + 1) % 256 then
          .next (s.modBar p b fun y => { y with nextChildren := nsIns j y.nextChildren })
        else .next bad

/-- BARRIER_RELEASE (R301): the oldest delivered RELEASE is forwarded to the children, and delivery begins. -/
def execBarrierRelease (s : State) : Host.Outcome State Fault Refusal :=
  match s.deliveredOf fun k => k.clsN = 1 && k.type = 1#4 with
  | none => .next s
  | some k =>
    let s := s.consume k
    let (p, b, round) := barFields k
    match s.barDecl p b with
    | none => .next s
    | some d =>
      let x := s.bar p b
      match s.treeIndex p d with
      | none => .next s
      | some i =>
        if x.sentUp && round = x.round.toNat && x.delivering.isNone then .next (s.releaseBar p b 40 d i)
        else .next s

/-- BARRIER_TIMEOUT (R304): the round expires on this chip, counted from the frame of its first arrival. -/
def execBarrierTimeout (p : PartId) (b : BarIx) (s : State) : Host.Outcome State Fault Refusal :=
  match s.barDecl p b with
  | none => .next s
  | some d =>
    let x := s.bar p b
    if x.arrived.isEmpty || x.delivering.isSome || s.plan.geyser < x.expireAt then .next s
    else
      let m := (s.missing p b d).getD (0, false, false)
      let r := s.fault 0x402 10 (b.val + bn m.2.1 * 256 + bn m.2.2 * 512 + m.1 * 65536) (some p)
      .next (s.faultHold { r with tile := x.firstTile, engine := x.firstEngine, waiter := x.firstPc })

/-- ER_FLAG_WORD_SET (R376): 64 delivery steps after an event, the ER flag word is set full. -/
def execErFlagWordSet (t : TileId) (s : State) : Host.Outcome State Fault Refusal :=
  if (s.ts t).erDelivery.any fun e => e.2.1 = 0 then
    let s := s.modTs t fun y => { y with erDelivery := y.erDelivery.filter fun e => e.2.1 ≠ 0 }
    match (s.img (s.tile t).part.toNat).bind (·.erFlagWord) with
    | some w => .next (s.sidePort t w)
    | none => .next s
  else .next s

end Sys2Proof.Machine
end

