-- ==== Sys2Proof/Machine/Ct.lean ====
section
/-! DEFINITION. The control group CT (R99 to R104, R137, R294, R299). -/

namespace Sys2Proof.Machine
open Sys2Proof

/-- Format G with no reserved bit (R90). -/
def fmtG (w : IWord) : Bool := field w.ops 83 32 = 0

/-- Format L with no reserved bit, and an S register (R90, R95). -/
def fmtL (w : IWord) : Bool := field w.ops 91 72 = 0 && field w.ops 47 4 = 0 && w.rd < 8

/-- Integer operations of R100, MOD 0x0 to 0xB. -/
def aluInt (op : Nat) (a b : BitVec 32) : BitVec 32 :=
  match op with
  | 0 => a + b
  | 1 => a - b
  | 2 => a * b
  | 3 => a &&& b
  | 4 => a ||| b
  | 5 => a ^^^ b
  | 6 => a <<< (b.toNat % 32)
  | 7 => a >>> (b.toNat % 32)
  | 8 => a.sshiftRight (b.toNat % 32)
  | 9 => if a.toInt ≤ b.toInt then a else b
  | 10 => if a.toInt ≤ b.toInt then b else a
  | _ => if a.toInt < b.toInt then 1 else 0

/-- All operations of R100. -/
def aluAll (op : Nat) (a b : BitVec 32) : BitVec 32 :=
  match op with
  | 12 => add32 a b
  | 13 => mul32 a b
  | 14 => rne32 ((f32 a).max2 (f32 b))
  | 15 => if (f32 a).lt (f32 b) then 1 else 0
  | n => aluInt n a b

/-- An instruction that does nothing but issue. -/
def planNop (c : Ctx) : Plan := Plan.nop c.p

/-- An instruction whose one effect is a register result. -/
def planReg (c : Ctx) (due : Nat) (scalar : Bool) (idx : Nat) (v : Unit → BitVec 32) : Plan :=
  { Plan.nop c.p with regs := setReg due scalar idx v, done := due }

/-- An instruction whose one effect is where the stream goes. -/
def planFlow (c : Ctx) (f : Flow) : Plan := { Plan.nop c.p with flow := f }

/-- CT.LWAIT: COUNT more pc before the next instruction issues (R99). -/
def planLwait (w : IWord) (c : Ctx) : Plan := { Plan.nop c.p with lwait := w.z }

/-- CT.HALT: the stream issues nothing more (R99, R103). -/
def planHalt (c : Ctx) : Plan := planFlow c .halt

/-- CT.AMOV: A[RD] := IMM at p + 1 (R96, R99). -/
def planAmov (w : IWord) (c : Ctx) : Plan := planReg c (c.p + 1) false w.rd fun _ => BitVec.ofNat 32 w.z

/-- CT.AADD: A[RD] := A[RA] + IMM at p + 1 (R96, R99). -/
def planAadd (w : IWord) (c : Ctx) : Plan := planReg c (c.p + 1) false w.rd fun _ => c.aAt w.ra + BitVec.ofNat 32 w.z

/-- CT.AALU: A[RD] := A[RA] OP A[RB] at p + 1 (R96, R99, R100). -/
def planAalu (w : IWord) (c : Ctx) : Plan := planReg c (c.p + 1) false w.rd fun _ => aluInt w.md (c.aAt w.ra) (c.aAt w.rb)

/-- CT.SMOV: S[RD] := IMM at p + 1 (R96, R99). -/
def planSmov (w : IWord) (c : Ctx) : Plan := planReg c (c.p + 1) true w.rd fun _ => BitVec.ofNat 32 w.z

/-- CT.SALU: S[RD] := S[RA] OP S[RB] at p + 1 (R96, R99, R100). -/
def planSalu (w : IWord) (c : Ctx) : Plan := planReg c (c.p + 1) true w.rd fun _ => aluAll w.md (c.sAt w.ra) (c.sAt w.rb)

/-- CT.XMOV: MOD 0x0 moves A[RA] to S[RD], MOD 0x1 moves S[RA] to A[RD], at p + 1 (R96, R99). -/
def planXmov (w : IWord) (c : Ctx) : Plan :=
  planReg c (c.p + 1) (decide (w.md = 0)) w.rd fun _ => if w.md = 0 then c.aAt w.ra else c.sAt w.ra

/-- CT.SLD: W is read at p, and lane LANE of it goes to S[REG] at p + 6 (R96, R99). -/
def planCtSld (w : IWord) (c : Ctx) : Plan :=
  let k := c.first w.s1
  { Plan.nop c.p with
    tests := testsOf (srcTest (spFe w.s1)) [k]
    reads := srcReads (spFe w.s1) [(c.p, k)]
    regs := setReg (c.p + 6) true w.rd (fun _ => lane 32 (c.word k c.p) (field w.ops 3 0)) [(c.p, k)]
    done := c.p + 6 }

/-- CT.SST: W is read at p and written at p + 10 with lane LANE replaced by S[REG]; the other bytes are kept (R93, R99). -/
def planCtSst (w : IWord) (c : Ctx) : Plan :=
  let k := c.first w.s1
  { Plan.nop c.p with
    tests := testsOf (dstTest (spFe w.s1)) [k]
    reads := plainReads [(c.p, k)]
    writes := [dstWrite (spFe w.s1) false (c.p + 10) k 10
      (fun _ => lineOfLanes 32 ((lanesOf 32 (c.word k c.p)).set (field w.ops 3 0) (c.sAt w.rd))) [(c.p, k)]]
    done := c.p + 10 }

/-- CT.POLL: the full/empty bit of W as the bank read of p finds it goes to S[REG] at p + 6 (R96, R99, R292). -/
def planPoll (w : IWord) (c : Ctx) : Plan :=
  let k := c.first w.s1
  { Plan.nop c.p with
    reads := plainReads [(c.p, k)]
    regs := setReg (c.p + 6) true w.rd
      (fun _ => if ((c.f.gotAt c.p k).map (·.full)).getD false then 1 else 0) [(c.p, k)]
    done := c.p + 6 }

/-- CT.LOOP (R101). -/
def planLoop (w : IWord) (c : Ctx) : Plan := planFlow c (.loop w.x (w.y / 2 ^ 24 + 1))

/-- CT.JMP (R99). -/
def planJmp (w : IWord) (c : Ctx) : Plan := planFlow c (.jump w.x)

/-- CT.FBR: T1 where S[SREG], read at p, has any bit set, else T0 (R102). -/
def planFbr (w : IWord) (c : Ctx) : Plan := planFlow c (.frame (if c.sAt w.z ≠ 0 then w.x else w.y))

/-- LT of CT.BBR (R137). -/
def IWord.lt (w : IWord) : Nat := field w.ops 47 40
/-- LF of CT.BBR (R137). -/
def IWord.lf (w : IWord) : Nat := field w.ops 39 32

/-- CT.BBR: arm T where S[SREG], read at p, has any bit set, else arm F (R137). -/
def planBbr (w : IWord) (c : Ctx) : Plan := planFlow c (.branch w.lt w.lf (decide (c.sAt (w.z % 8) ≠ 0)))

/-- CT.FESET: word i is read at p + i, and its bit is written at p + 10 + i with the data it was read with (R99). -/
def planFeset (w : IWord) (c : Ctx) : Plan :=
  let ws := (List.range w.nWord).map fun i => (i, wordAt (c.first w.d) i)
  { Plan.nop c.p with
    reads := plainReads (ws.map fun x => (c.p + x.1, x.2))
    writes := ws.map fun x => {
      due := c.p + 10 + x.1
      word := x.2
      lat := 10 + x.1
      data := none
      full := some (w.md = 1)
      needs := [(c.p + x.1, x.2)] }
    done := c.p + 10 + (w.nWord - 1) }

/-- CT.BAR: this tile's arrival at p (R99, R299). -/
def planBar (w : IWord) (c : Ctx) : Plan :=
  { Plan.nop c.p with acts := [(c.p, fun s => s.arrive c.t c.e.num (BitVec.ofNat 32 c.pc) (w.z % 32))] }

/-- CT.WATCH: the registration reaches the sync unit at p + 8 (R99, R294). -/
def planWatch (w : IWord) (c : Ctx) : Plan :=
  { Plan.nop c.p with
    acts := [(c.p + 8, fun s =>
      s.registerWatch c.t c.e.num (BitVec.ofNat 32 c.pc) (c.first w.s1) (c.first w.d) (w.md = 0) w.cfg)]
    done := c.p + 8 }

/-- The fields of `execCtNop` hold no reserved value (R89). -/
def ctNopOk (e : Eng) (w : IWord) : Bool := commonOk none false e w && w.md = 0 && w.ops = 0

/-- CT.NOP (R99). -/
def execCtNop (t : TileId) (e : Eng) (w : IWord) (s : State) : Host.Outcome State Fault Refusal :=
  .next (s.runInstr t e 0x01 w (ctNopOk e w) planNop)

/-- The fields of `execCtLwait` hold no reserved value (R89). -/
def ctLwaitOk (e : Eng) (w : IWord) : Bool := commonOk none false e w && w.md = 0 && w.x = 0 && w.y = 0

/-- CT.LWAIT (R99): COUNT delays the next instruction. -/
def execCtLwait (t : TileId) (e : Eng) (w : IWord) (s : State) : Host.Outcome State Fault Refusal :=
  .next (s.runInstr t e 0x02 w (ctLwaitOk e w) (planLwait w))

/-- The fields of `execCtHalt` hold no reserved value (R89). -/
def ctHaltOk (e : Eng) (w : IWord) : Bool := commonOk none false e w && w.md = 0 && w.ops = 0 && w.fend

/-- CT.HALT (R99, R103): the stream issues nothing more. -/
def execCtHalt (t : TileId) (e : Eng) (w : IWord) (s : State) : Host.Outcome State Fault Refusal :=
  .next (s.runInstr t e 0x03 w (ctHaltOk e w) planHalt)

/-- The fields of `execCtAmov` hold no reserved value (R89). -/
def ctAmovOk (e : Eng) (w : IWord) : Bool := commonOk none false e w && fmtG w && w.md = 0 && w.ra = 0 && w.rb = 0

/-- CT.AMOV (R99): A[RD] := IMM. -/
def execCtAmov (t : TileId) (e : Eng) (w : IWord) (s : State) : Host.Outcome State Fault Refusal :=
  .next (s.runInstr t e 0x04 w (ctAmovOk e w) (planAmov w))

/-- The fields of `execCtAadd` hold no reserved value (R89). -/
def ctAaddOk (e : Eng) (w : IWord) : Bool := commonOk none false e w && fmtG w && w.md = 0 && w.rb = 0

/-- CT.AADD (R99): A[RD] := A[RA] + IMM. -/
def execCtAadd (t : TileId) (e : Eng) (w : IWord) (s : State) : Host.Outcome State Fault Refusal :=
  .next (s.runInstr t e 0x05 w (ctAaddOk e w) (planAadd w))

/-- The fields of `execCtAalu` hold no reserved value (R89). -/
def ctAaluOk (e : Eng) (w : IWord) : Bool := commonOk none false e w && fmtG w && w.md ≤ 11 && w.z = 0

/-- CT.AALU (R99, R100): A[RD] := A[RA] OP A[RB]. -/
def execCtAalu (t : TileId) (e : Eng) (w : IWord) (s : State) : Host.Outcome State Fault Refusal :=
  .next (s.runInstr t e 0x06 w (ctAaluOk e w) (planAalu w))

/-- The fields of `execCtSmov` hold no reserved value (R89). -/
def ctSmovOk (e : Eng) (w : IWord) : Bool :=
  commonOk none false e w && fmtG w && w.md = 0 && w.rd < 8 && w.ra = 0 && w.rb = 0

/-- CT.SMOV (R99): S[RD] := IMM. -/
def execCtSmov (t : TileId) (e : Eng) (w : IWord) (s : State) : Host.Outcome State Fault Refusal :=
  .next (s.runInstr t e 0x07 w (ctSmovOk e w) (planSmov w))

/-- The fields of `execCtSalu` hold no reserved value (R89). -/
def ctSaluOk (e : Eng) (w : IWord) : Bool :=
  commonOk none false e w && fmtG w && w.z = 0 && w.rd < 8 && w.ra < 8 && w.rb < 8

/-- CT.SALU (R99, R100): S[RD] := S[RA] OP S[RB]. -/
def execCtSalu (t : TileId) (e : Eng) (w : IWord) (s : State) : Host.Outcome State Fault Refusal :=
  .next (s.runInstr t e 0x08 w (ctSaluOk e w) (planSalu w))

/-- The fields of `execCtXmov` hold no reserved value (R89). -/
def ctXmovOk (e : Eng) (w : IWord) : Bool :=
  commonOk none false e w && fmtG w && w.z = 0 && w.rb = 0 && ((w.md = 0 && w.rd < 8) || (w.md = 1 && w.ra < 8))

/-- CT.XMOV (R99): MOD 0x0 moves A[RA] to S[RD], MOD 0x1 moves S[RA] to A[RD]. -/
def execCtXmov (t : TileId) (e : Eng) (w : IWord) (s : State) : Host.Outcome State Fault Refusal :=
  .next (s.runInstr t e 0x09 w (ctXmovOk e w) (planXmov w))

/-- The fields of `execCtSld` hold no reserved value (R89). -/
def ctSldOk (e : Eng) (w : IWord) : Bool := commonOk none false e w && fmtL w && w.md = 0 && srcOk w.s1

/-- CT.SLD (R99): S[REG] := lane LANE of W. -/
def execCtSld (t : TileId) (e : Eng) (w : IWord) (s : State) : Host.Outcome State Fault Refusal :=
  .next (s.runInstr t e 0x0A w (ctSldOk e w) (planCtSld w))

/-- The fields of `execCtSst` hold no reserved value (R89). -/
def ctSstOk (e : Eng) (w : IWord) : Bool := commonOk none false e w && fmtL w && w.md = 0 && dstOk w.s1

/-- CT.SST (R99): lane LANE of W := S[REG]; the other bytes are kept. -/
def execCtSst (t : TileId) (e : Eng) (w : IWord) (s : State) : Host.Outcome State Fault Refusal :=
  .next (s.runInstr t e 0x0B w (ctSstOk e w) (planCtSst w))

/-- The fields of `execCtPoll` hold no reserved value (R89). -/
def ctPollOk (e : Eng) (w : IWord) : Bool := commonOk none false e w && fmtL w && w.md = 0 && plainOk w.s1

/-- CT.POLL (R99, R292): S[REG] := the full/empty bit of W as it stands at p. -/
def execCtPoll (t : TileId) (e : Eng) (w : IWord) (s : State) : Host.Outcome State Fault Refusal :=
  .next (s.runInstr t e 0x0C w (ctPollOk e w) (planPoll w))

/-- The fields of `execCtLoop` hold no reserved value (R89). -/
def ctLoopOk (e : Eng) (w : IWord) : Bool :=
  commonOk none false e w && w.md = 0 && w.x < 65536 && w.y % 2 ^ 24 = 0 && w.z = 0

/-- CT.LOOP (R101). -/
def execCtLoop (t : TileId) (e : Eng) (w : IWord) (s : State) : Host.Outcome State Fault Refusal :=
  .next (s.runInstr t e 0x10 w (ctLoopOk e w) (planLoop w))

/-- The fields of `execCtJmp` hold no reserved value (R89). -/
def ctJmpOk (e : Eng) (w : IWord) : Bool := commonOk none false e w && w.md = 0 && w.y = 0 && w.z = 0

/-- CT.JMP (R99). -/
def execCtJmp (t : TileId) (e : Eng) (w : IWord) (s : State) : Host.Outcome State Fault Refusal :=
  .next (s.runInstr t e 0x11 w (ctJmpOk e w) (planJmp w))

/-- The fields of `execCtFbr` hold no reserved value (R89). -/
def ctFbrOk (e : Eng) (w : IWord) : Bool := commonOk none false e w && w.md = 0 && w.z < 8 && w.fend

/-- CT.FBR (R102): T1 where S[SREG] has any bit set, else T0. -/
def execCtFbr (t : TileId) (e : Eng) (w : IWord) (s : State) : Host.Outcome State Fault Refusal :=
  .next (s.runInstr t e 0x12 w (ctFbrOk e w) (planFbr w))

/-- The fields of `execCtBbr` hold no reserved value (R89). -/
def ctBbrOk (e : Eng) (w : IWord) : Bool :=
  commonOk none false e w && w.md = 0 && w.x = 0 && w.y < 65536 && 0 < w.lt && 0 < w.lf && 0 < w.z / 65536 && w.z % 65536 < 8

/-- CT.BBR (R137): arm T where S[SREG] has any bit set, else arm F; the other arm leaves the queue. -/
def execCtBbr (t : TileId) (e : Eng) (w : IWord) (s : State) : Host.Outcome State Fault Refusal :=
  .next (s.runInstr t e 0x13 w (ctBbrOk e w) (planBbr w))

/-- The fields of `execCtFeset` hold no reserved value (R89). -/
def ctFesetOk (e : Eng) (w : IWord) : Bool :=
  commonOk none false e w && w.md ≤ 1 && plainOk w.d && w.s1 = 0 && w.s2 = 0 && w.cfg % 4096 = 0

/-- CT.FESET (R99): N words set empty or full; their data is unchanged. -/
def execCtFeset (t : TileId) (e : Eng) (w : IWord) (s : State) : Host.Outcome State Fault Refusal :=
  .next (s.runInstr t e 0x18 w (ctFesetOk e w) (planFeset w))

/-- The fields of `execCtBar` hold no reserved value (R89). -/
def ctBarOk (e : Eng) (w : IWord) : Bool := commonOk none false e w && w.md = 0 && w.x = 0 && w.y = 0 && w.z < 32

/-- CT.BAR (R99, R299): this tile's arrival at p. -/
def execCtBar (t : TileId) (e : Eng) (w : IWord) (s : State) : Host.Outcome State Fault Refusal :=
  .next (s.runInstr t e 0x19 w (ctBarOk e w) (planBar w))

/-- The fields of `execCtWatch` hold no reserved value (R89). -/
def ctWatchOk (e : Eng) (w : IWord) : Bool :=
  commonOk none false e w && w.md ≤ 1 && plainOk w.d && plainOk w.s1 && w.s2 = 0 && w.cfg < 65536 && w.cfg ≠ 0

/-- CT.WATCH (R99, R294): a watch registered at p + 8. -/
def execCtWatch (t : TileId) (e : Eng) (w : IWord) (s : State) : Host.Outcome State Fault Refusal :=
  .next (s.runInstr t e 0x1A w (ctWatchOk e w) (planWatch w))

end Sys2Proof.Machine
end

