-- ==== Sys2Proof/Machine/Mx.lean ====
section
/-! DEFINITION. The matrix engine MX: weight tiles, formats and the K2 accumulation order (R105 to R109, R128 to R133). -/

namespace Sys2Proof.Machine
open Sys2Proof

/-- A row of the MX format tables (R105, R130). -/
structure MxFmt where
  /-- Element width in bits. -/
  bits : Nat
  /-- Words per activation row. -/
  rowWords : Nat
  /-- Weight words. -/
  wWords : Nat
  /-- Scale words are used. -/
  scaled : Bool
  /-- pc per row; 0 stands for one half. -/
  rowPc : Nat
  /-- Array pass in pc. -/
  pass : Nat
  /-- Formats of one set may meet in an MX.MMA. -/
  set : Nat
  deriving DecidableEq, Repr

/-- The MX formats of the K2 (R105, R128, R130). -/
def mxFmt (md : Nat) : Option MxFmt :=
  match md with
  | 0x0 => some ⟨8, 2, 160, false, 1, 40, 0⟩
  | 0x1 => some ⟨8, 2, 160, false, 1, 40, 0⟩
  | 0x2 => some ⟨8, 2, 160, true, 1, 40, 1⟩
  | 0x3 => some ⟨8, 2, 160, true, 1, 40, 1⟩
  | 0x4 => some ⟨8, 2, 160, true, 1, 40, 2⟩
  | 0x5 => some ⟨8, 2, 160, false, 1, 40, 3⟩
  | 0x6 => some ⟨16, 4, 320, false, 2, 48, 4⟩
  | 0x7 => some ⟨16, 4, 320, false, 2, 48, 5⟩
  | 0x8 => some ⟨32, 8, 640, false, 8, 64, 6⟩
  | 0xA => some ⟨4, 1, 80, true, 0, 40, 7⟩
  | 0xB => some ⟨6, 2, 120, true, 1, 40, 1⟩
  | 0xC => some ⟨6, 2, 120, true, 1, 40, 1⟩
  | _ => none

/-- The format with no row, for a reserved MOD. -/
def mxFmtD (md : Nat) : MxFmt := (mxFmt md).getD ⟨8, 2, 160, false, 1, 40, 8⟩

/-- The value of an element code (R105, R152, R154). -/
def mxVal (md : Nat) (code : Nat) : FVal :=
  match md with
  | 0x0 | 0x2 => decodeF e4m3 code
  | 0x1 | 0x3 => decodeF e5m2 code
  | 0x4 => (FVal.ofInt (sext 8 code)).shift (-6)
  | 0x5 => FVal.ofInt (sext 8 code)
  | 0x6 => decodeF bf16 code
  | 0x7 => decodeF fp16 code
  | 0x8 => decodeF fp32 code
  | 0xA => decodeF e2m1 code
  | 0xB => decodeF e3m2 code
  | _ => decodeF e2m3 code

/-- Words as one bit string, bit 0 of the first word first (R106, R131). -/
def bitString (ws : List (BitVec 512)) : Nat := ws.foldr (fun w a => w.toNat + a * 2 ^ 512) 0

/-- Element `k` of `b` bits of a bit string. -/
def elemAt (x b k : Nat) : Nat := (x >>> (b * k)) % 2 ^ b

/-- The value of a sum scaled by an E8M0 code; 0xFF is NaN (R105). -/
def scaleBy (v : FVal) (e : Nat) : FVal := if e = 255 then .nan else v.shift ((e : Int) - 127)

/-- One block of 32 products: an exact sum with one rounding, or the FP32 tree (R133). -/
def mxBlock (md : Nat) (ps : List FVal) (sa sw : Option Nat) : BitVec 32 :=
  if md = 8 then
    match treeFold (fun a b => f32 (rne32 (a.add b))) 5 ps with
    | v :: _ => rne32 v
    | [] => 0
  else
    let x := ps.foldl FVal.add (.fin false 0 0)
    let x := match x with
      | .fin _ 0 _ => .fin false 0 0
      | v => v
    let x := match sa with | some e => scaleBy x e | none => x
    rne32 (match sw with | some e => scaleBy x e | none => x)

/-- One result column of one row (R109, R133). `a` and `w` are bit strings, `sa` the row's four scale codes and `sw` the
scale bytes. -/
def mxColumn (fa fw : Nat) (acc : BitVec 32) (a w : Nat) (sa sw : Option Nat) (n : Nat) : BitVec 32 :=
  let ba := (mxFmtD fa).bits
  let bw := (mxFmtD fw).bits
  if fa = 5 then
    let s := (List.range 128).foldl (fun (x : Int) k => x + sext 8 (elemAt a 8 k) * sext 8 (elemAt w 8 (80 * k + n))) 0
    acc + BitVec.ofInt 32 s
  else
    let blk (g : Nat) : BitVec 32 :=
      mxBlock fa ((List.range 32).map fun i =>
        (mxVal fa (elemAt a ba (32 * g + i))).mul (mxVal fw (elemAt w bw (80 * (32 * g + i) + n))))
        (sa.map fun x => elemAt x 8 g) (sw.map fun x => elemAt x 8 (80 * g + n))
    add32 acc (add32 (add32 (blk 0) (blk 1)) (add32 (blk 2) (blk 3)))

/-- The pc, from issue, in which row `i` is read (R108, R132). -/
def mxRowPc (f : MxFmt) (i : Nat) : Nat := if f.rowPc = 0 then i / 2 else f.rowPc * i

/-- pcs that M rows hold the row resource (R97, R132). -/
def mxUse (f : MxFmt) (m : Nat) : Nat := if f.rowPc = 0 then ceilDiv m 2 else f.rowPc * m

/-- The weight slot that CFG[15] names. -/
def Tile.wslot (t : Tile) (i : Bool) : WSlot := if i then t.slot1 else t.slot0

/-- A weight slot replaced. -/
def Tile.setSlot (t : Tile) (i : Bool) (x : WSlot) : Tile := if i then { t with slot1 := x } else { t with slot0 := x }

/-- The bank reads of the weight words of MX.LDW, 8 a pc (R97, R107). -/
def ldwReads (w : IWord) (c : Ctx) : List (Nat × Nat) :=
  (List.range (mxFmtD w.md).wWords).map fun j => (c.p + j / 8, wordAt (c.first w.s1) j)

/-- The bank reads of the scale words of MX.LDW (R107). -/
def ldwScales (w : IWord) (c : Ctx) : List (Nat × Nat) :=
  if (mxFmtD w.md).scaled then (List.range 5).map fun j => (c.p, wordAt (c.first w.s2) j) else []

/-- The pc at which an MX.LDW that issues at `p` has its slot ready (R107). -/
def ldwReady (w : IWord) (p : Nat) : Nat := p + 6 + ceilDiv (mxFmtD w.md).wWords 8

/-- An MX.LDW in flight that has not made its slot ready (R94, R107). -/
def State.slotLoading (s : State) (t : Nat) (slot : Bool) : Bool :=
  (s.tile t).mx.flights.any fun y => y.op = 0x40 && bit y.w.ops 15 = slot && decide (s.plan.geyser < y.at_ (ldwReady y.w y.p))

/-- The plan of MX.LDW (R98, R107, R130). -/
def planLdw (w : IWord) (c : Ctx) : Plan :=
  let f := mxFmtD w.md
  let el := ldwReads w c
  let sc := ldwScales w c
  let done := ldwReady w c.p
  let slot := bit w.ops 15
  { Plan.nop c.p with
    tests := testsOf (srcTest (spFe w.s1)) (el.map (·.2)) ++ testsOf (srcTest (spFe w.s2)) (sc.map (·.2))
    reads := srcReads (spFe w.s1) el ++ srcReads (spFe w.s2) sc
    load := some {
      due := done
      slot := slot
      val := fun _ => {
        valid := true
        fmt := w.modf
        readyAt := done
        elems := el.map fun x => c.word x.2 x.1
        scales := sc.map fun x => c.word x.2 x.1 }
      needs := el ++ sc }
    wants := [1, 2 + bn slot]
    holds := [(1, ceilDiv f.wWords 8), (2 + bn slot, done - c.p)]
    done := done }

/-- The result words of row `i` of an MX.MMA (R106, R108, R133). -/
def mmaRow (w : IWord) (c : Ctx) (sl : WSlot) (i : Nat) : List (BitVec 512) :=
  let f := mxFmtD w.md
  let q := c.p + mxRowPc f i
  let a := bitString ((List.range f.rowWords).map fun k => c.word (wordAt (c.first w.s1) (i * f.rowWords + k)) q)
  let wt := bitString sl.elems
  let first := i / 16 * 16
  let sa := if f.scaled then
      some (elemAt (c.word (wordAt (c.first w.s2) (i / 16)) (c.p + mxRowPc f first)).toNat 32 (i % 16)) else none
  let sw := if (mxFmtD sl.fmt.toNat).scaled then some (bitString sl.scales) else none
  let old := bitString ((List.range 5).map fun k => c.word (wordAt (c.first w.d) (5 * i + k)) q)
  let zero := bit w.ops 14
  let cols := (List.range 80).map fun n =>
    mxColumn w.md sl.fmt.toNat (if zero then 0 else BitVec.ofNat 32 (elemAt old 32 n)) a wt sa sw n
  (chunksOf 16 5 cols).map (lineOfLanes 32)

/-- The bank reads of row `i` of an MX.MMA: its activation words, its scale word, and its old result words (R108). -/
def mmaReads (w : IWord) (c : Ctx) (i : Nat) : List (Nat × Nat) × List (Nat × Nat) × List (Nat × Nat) :=
  let f := mxFmtD w.md
  let q := c.p + mxRowPc f i
  ((List.range f.rowWords).map fun k => (q, wordAt (c.first w.s1) (i * f.rowWords + k)),
    if f.scaled then [(c.p + mxRowPc f (i / 16 * 16), wordAt (c.first w.s2) (i / 16))] else [],
    if bit w.ops 14 then [] else (List.range 5).map fun k => (q, wordAt (c.first w.d) (5 * i + k)))

/-- The plan of MX.MMA (R94, R108, R130, R132). The slot is tested as it stands, with the load in progress; the rows are
computed with what the slot holds at issue. -/
def planMma (w : IWord) (c : Ctx) : Plan :=
  let f := mxFmtD w.md
  let m := field w.ops 23 16 + 1
  let lat := 10 + f.pass
  let slot := bit w.ops 15
  let sl := c.tile.wslot slot
  let rows := List.range m
  let rd := rows.map fun i => mmaReads w c i
  let sc := (List.range (ceilDiv m 16)).flatMap fun u => (mmaReads w c (16 * u)).2.1
  let ds := rows.flatMap fun i => (List.range 5).map fun k => wordAt (c.first w.d) (5 * i + k)
  let ready := sl.valid && !c.s.slotLoading c.t slot
  { Plan.nop c.p with
    fault := if ready && (mxFmtD sl.fmt.toNat).set ≠ f.set then some (c.s.instrFault c.t c.e 0x309 c.pc, none) else none
    late := if ready then none else some 1
    tests := testsOf (srcTest (spFe w.s1)) (rd.flatMap fun x => x.1.map (·.2)) ++ testsOf (srcTest (spFe w.s2)) (sc.map (·.2))
      ++ testsOf (dstTest (spFe w.d)) ds
    reads := srcReads (spFe w.s1) (rd.flatMap (·.1)) ++ srcReads (spFe w.s2) sc ++ plainReads (rd.flatMap (·.2.2))
    writes := rows.flatMap fun i => (List.range 5).map fun k =>
      let need := mmaReads w c i
      dstWrite (spFe w.d) false (c.p + lat + mxRowPc f i) (wordAt (c.first w.d) (5 * i + k)) (lat + mxRowPc f i)
        (fun _ => (mmaRow w c c.f.slot i).getD k 0) (need.1 ++ need.2.1 ++ need.2.2)
    wants := [0]
    holds := [(0, mxUse f m), (2 + bn slot, mxUse f m)]
    done := c.p + lat + mxRowPc f (m - 1) }

/-- A source or, for a format without scales, an unused S2 (R107, R108). -/
def mxS2Ok (w : IWord) : Bool := if (mxFmtD w.md).scaled then srcOk w.s2 else w.s2 = 0

/-- The fields of `execMxLdw` hold no reserved value (R89). -/
def mxLdwOk (w : IWord) : Bool :=
  commonOk (some .mx) false .mx w && (mxFmt w.md).isSome && w.d = 0 && srcOk w.s1 && mxS2Ok w && (w.cfg = 0 || w.cfg = 32768)

/-- MX.LDW (R107, R130, R131). -/
def execMxLdw (t : TileId) (w : IWord) (s : State) : Host.Outcome State Fault Refusal :=
  .next (s.runInstr t .mx 0x40 w (mxLdwOk w) (planLdw w))

/-- The fields of `execMxMma` hold no reserved value (R89). -/
def mxMmaOk (w : IWord) : Bool :=
  commonOk (some .mx) false .mx w && (mxFmt w.md).isSome && dstOk w.d && srcOk w.s1 && mxS2Ok w && w.cfg % 2 ^ 14 = 0

/-- MX.MMA (R108, R130, R132, R133). -/
def execMxMma (t : TileId) (w : IWord) (s : State) : Host.Outcome State Fault Refusal :=
  .next (s.runInstr t .mx 0x41 w (mxMmaOk w) (planMma w))

end Sys2Proof.Machine
end

