-- ==== Sys2Proof/Machine/Vx.lean ====
section
/-! DEFINITION. The vector engine VX: lane arithmetic, conversion, transcendentals, reductions, Philox, exact-register
accumulation and layer digests (R110 to R115, R134, R135, R139 to R143, R166, R167). -/

namespace Sys2Proof.Machine
open Sys2Proof

/-! ### Vectors -/

/-- Vector `j` of `k` words from first word `w0`, as read for the plan's pc `q`, as a bit string. -/
def Ctx.vec (c : Ctx) (w0 k j q : Nat) : Nat := bitString ((List.range k).map fun i => c.word (wordAt w0 (k * j + i)) q)

/-- The bank reads of vector `j` of `k` words at pc `q`. -/
def vecRead (w0 k j q : Nat) : List (Nat × Nat) := (List.range k).map fun i => (q, wordAt w0 (k * j + i))

/-- The bank reads of `n` vectors of `k` words, vector `j` at pc `at_ j`. -/
def vecReads (w0 k n : Nat) (at_ : Nat → Nat) : List (Nat × Nat) := (List.range n).flatMap fun j => vecRead w0 k j (at_ j)

/-- The writes of vector `j` of `k` words, whose bit string is `x`. -/
def vecWrites (fe : Nat) (digest : Bool) (due lat w0 k j : Nat) (x : Unit → Nat) (needs : List (Nat × Nat)) : List Out :=
  (List.range k).map fun i =>
    dstWrite fe digest due (wordAt w0 (k * j + i)) lat (fun _ => BitVec.ofNat 512 (x () >>> (512 * i))) needs

/-- Lanes of `b` bits packed, lane 0 first. -/
def packLanes (b : Nat) (l : List Nat) : Nat := l.foldr (fun x a => x % 2 ^ b + a * 2 ^ b) 0

/-- Lane width of a lane type (R110). -/
def laneBits (lt : Nat) : Nat := if lt = 1 || lt = 2 then 16 else 32

/-- Lanes of a vector of a lane type (R110). -/
def laneCount (lt : Nat) : Nat := 2048 / laneBits lt

/-- The floating-point format of a lane type (R110). -/
def laneFmt (lt : Nat) : FFmt :=
  match lt with
  | 1 => bf16
  | 2 => fp16
  | _ => fp32

/-- The lanes of a vector. -/
def lanesIn (lt x : Nat) : List Nat := (List.range (laneCount lt)).map fun i => elemAt x (laneBits lt) i

/-! ### VX.ALU (R111) -/

/-- One lane of VX.ALU: codes in, code out. -/
def laneAlu (lt op a b d : Nat) : Nat :=
  if lt = 3 then
    let x := BitVec.ofNat 32 a
    let y := BitVec.ofNat 32 b
    (match op with
      | 0 => x + y
      | 1 => x - y
      | 2 => x * y
      | 3 => x * y + BitVec.ofNat 32 d
      | 4 => if x.toInt ≤ y.toInt then x else y
      | 5 => if x.toInt ≤ y.toInt then y else x
      | 6 => if x.toInt < y.toInt then 1 else 0
      | 7 => if x = y then 1 else 0
      | 8 => x &&& y
      | 9 => x ||| y
      | _ => x ^^^ y : BitVec 32).toNat
  else
    let f := laneFmt lt
    let x := decodeF f a
    let y := decodeF f b
    let one := encodeF f false (.fin false 1 0)
    match op with
    | 0 => encodeF f false (x.add y)
    | 1 => encodeF f false (x.add y.neg)
    | 2 => encodeF f false (x.mul y)
    | 3 => encodeF f false ((x.mul y).add (decodeF f d))
    | 4 => encodeF f false (x.min2 y)
    | 5 => encodeF f false (x.max2 y)
    | 6 => if x.lt y then one else 0
    | _ => if x.eq y then one else 0

/-- S[SREG] broadcast as a lane code (R110). -/
def broadcast (lt : Nat) (v : BitVec 32) : Nat := if lt = 3 || lt = 0 then v.toNat else encodeF (laneFmt lt) false (f32 v)

/-- The plan of an instruction that maps vectors of 4 words to vectors of 4 words. -/
def planMap (w : IWord) (c : Ctx) (lat : Nat) (s2 old : Bool) (f : Nat → Nat → Nat → Nat) : Plan :=
  let n := w.nVec
  let d0 := c.first w.d
  let a0 := c.first w.s1
  let b0 := c.first w.s2
  let ra := vecReads a0 4 n (c.p + ·)
  let rb := if s2 then vecReads b0 4 n (c.p + ·) else []
  let rd := if old then vecReads d0 4 n (c.p + ·) else []
  { Plan.nop c.p with
    tests := testsOf (srcTest (spFe w.s1)) (ra.map (·.2)) ++ testsOf (srcTest (spFe w.s2)) (rb.map (·.2))
      ++ testsOf (dstTest (spFe w.d)) (wordsFrom d0 (4 * n))
    reads := srcReads (spFe w.s1) ra ++ srcReads (spFe w.s2) rb ++ plainReads rd
    writes := (List.range n).flatMap fun j => vecWrites (spFe w.d) w.digest (c.p + lat + j) (lat + j) d0 4 j
      (fun _ => f (c.vec a0 4 j (c.p + j)) (if s2 then c.vec b0 4 j (c.p + j) else 0) (if old then c.vec d0 4 j (c.p + j) else 0))
      (vecRead a0 4 j (c.p + j) ++ (if s2 then vecRead b0 4 j (c.p + j) else [])
        ++ (if old then vecRead d0 4 j (c.p + j) else []))
    wants := [0]
    holds := [(0, n)]
    done := c.p + lat + (n - 1) }

/-- One vector of VX.ALU. -/
def vecAlu (w : IWord) (c : Ctx) (a b d : Nat) : Nat :=
  let lt := w.md
  let k := laneBits lt
  let s := broadcast lt (c.sAt w.sreg)
  packLanes k ((List.range (laneCount lt)).map fun i =>
    laneAlu lt w.cfgB (elemAt a k i) (if w.useS then s else elemAt b k i) (elemAt d k i))

/-- The plan of VX.ALU (R110, R111). -/
def planAlu (w : IWord) (c : Ctx) : Plan := planMap w c 16 (!w.useS) (w.cfgB = 3) (vecAlu w c)

/-- The fields of `execVxAlu` hold no reserved value (R89). -/
def vxAluOk (w : IWord) : Bool :=
  commonOk (some .vx) true .vx w && w.md < 4 && w.cfgB ≤ 10 && (w.cfgB < 8 || w.md = 3) && w.cfgA = 0 && w.cfg % 16 = 0
      && dstOk w.d && srcOk w.s1 && (if w.useS then w.s2 = 0 else srcOk w.s2)

/-- VX.ALU (R110, R111). -/
def execVxAlu (t : TileId) (w : IWord) (s : State) : Host.Outcome State Fault Refusal :=
  .next (s.runInstr t .vx 0x80 w (vxAluOk w) (planAlu w))

/-! ### VX.TR (R113, R166, R167) -/

/-- One vector of VX.TR. -/
def vecTr (w : IWord) (a : Nat) : Nat :=
  let k := laneBits w.md
  packLanes k ((lanesIn w.md a).map fun x =>
    let y := trFunc w.cfgB (decodeF (laneFmt w.md) x)
    if w.md = 0 then y.toNat else encodeF bf16 false (f32 y))

/-- The plan of VX.TR (R110, R113). -/
def planTr (w : IWord) (c : Ctx) : Plan := planMap w c 30 false false fun a _ _ => vecTr w a

/-- The fields of `execVxTr` hold no reserved value (R89). -/
def vxTrOk (w : IWord) : Bool :=
  commonOk (some .vx) true .vx w && w.md < 2 && w.cfgB ≤ 5 && w.cfgA = 0 && w.cfg % 32 = 0
      && dstOk w.d && srcOk w.s1 && w.s2 = 0

/-- VX.TR (R113). -/
def execVxTr (t : TileId) (w : IWord) (s : State) : Host.Outcome State Fault Refusal :=
  .next (s.runInstr t .vx 0x82 w (vxTrOk w) (planTr w))

/-! ### VX.CVT (R112, R134, R155, R157) -/

/-- Bits of an element of a VX.CVT type code. -/
def cvtBits (code : Nat) : Nat :=
  match code with
  | 0 | 3 => 32
  | 1 | 2 => 16
  | 10 => 4
  | 11 | 12 => 6
  | _ => 8

/-- The value of a source element. -/
def cvtVal (code x : Nat) : FVal :=
  match code with
  | 0 => decodeF fp32 x
  | 1 => decodeF bf16 x
  | 2 => decodeF fp16 x
  | 3 => FVal.ofInt (sext 32 x)
  | 4 => decodeF e4m3 x
  | 5 => decodeF e5m2 x
  | _ => FVal.ofInt (sext 8 x)

/-- A value converted to a destination without a block scale. -/
def cvtTo (code : Nat) (sat : Bool) (v : FVal) : Nat :=
  match code with
  | 0 => encodeF fp32 sat v
  | 1 => encodeF bf16 sat v
  | 2 => encodeF fp16 sat v
  | 3 => (toIntSat 32 v).toNat
  | 4 => encodeF e4m3 sat v
  | 5 => encodeF e5m2 sat v
  | _ => (toIntSat 8 v).toNat

/-- The element format of an MX destination; none for MXINT8. -/
def mxElemFmt (code : Nat) : Option FFmt :=
  match code with
  | 7 => some e4m3
  | 8 => some e5m2
  | 10 => some e2m1
  | 11 => some e3m2
  | 12 => some e2m3
  | _ => none

/-- emax of an MX destination (R112, R134). -/
def mxEmax (code : Nat) : Int :=
  match code with
  | 7 => 8
  | 8 => 15
  | 9 => 0
  | 11 => 4
  | _ => 2

/-- One block of 32 values: the scale code and the element codes (R112, R155, R157). -/
def mxEncode (code : Nat) (vs : List FVal) : Nat × List Nat :=
  if vs.any FVal.special then (255, vs.map fun _ => 0)
  else
    let top := vs.foldl (fun (a : Option Int) v => match a, v.log2 with
      | none, y => y
      | some x, some y => some (max x y)
      | some x, none => some x) none
    let x : Int := match top with
      | none => -127
      | some y => clampI (-127) 127 (y - mxEmax code)
    let enc (v : FVal) : Nat := match mxElemFmt code with
      | some f => encodeF f true (v.shift (-x))
      | none => (BitVec.ofInt 8 (clampI (-127) 127 ((v.shift (6 - x)).rint))).toNat
    ((x + 127).toNat, vs.map enc)

/-- The 64 values of source vector `j`, scaled where USE_S asks for it (R112). -/
def cvtVals (w : IWord) (c : Ctx) (j : Nat) : List FVal :=
  let b := cvtBits w.cfgB
  let x := c.vec (c.first w.s1) (b / 8) j (c.p + j)
  let k := f32 (c.sAt w.sreg)
  (List.range 64).map fun i =>
    let v := cvtVal w.cfgB (elemAt x b i)
    if w.useS then v.mul k else v

/-- The result words of vector `j` (R112), or of the pair that ends with vector `j` for a narrow destination (R134). -/
def cvtData (w : IWord) (c : Ctx) (j : Nat) : Nat :=
  let dst := w.cfgA
  let db := cvtBits dst
  if 10 ≤ dst then
    packLanes db ((chunksOf 32 4 (cvtVals w c (j - 1) ++ cvtVals w c j)).flatMap fun b => (mxEncode dst b).2)
  else if 7 ≤ dst then packLanes db ((chunksOf 32 2 (cvtVals w c j)).flatMap fun b => (mxEncode dst b).2)
  else packLanes db ((cvtVals w c j).map (cvtTo dst w.sat))

/-- The scale word `m`, which covers vectors 32m to 32m + 31 of `n` (R112). -/
def cvtScale (w : IWord) (c : Ctx) (n m : Nat) : Line :=
  let bytes := ((List.range 32).filter fun i => 32 * m + i < n).flatMap fun i =>
    (chunksOf 32 2 (cvtVals w c (32 * m + i))).map fun b => (mxEncode w.cfgA b).1
  BitVec.ofNat 512 (packLanes 8 bytes)

/-- The plan of VX.CVT (R112, R134). -/
def planCvt (w : IWord) (c : Ctx) : Plan :=
  let n := w.nVec
  let dst := w.cfgA
  let d0 := c.first w.d
  let a0 := c.first w.s1
  let g0 := c.first w.s2
  let sb := cvtBits w.cfgB / 8
  let ra := vecReads a0 sb n (c.p + ·)
  let narrow := decide (10 ≤ dst)
  let k := if dst = 10 then 1 else if narrow then 2 else cvtBits dst / 8
  let dWords := if narrow then k * (n / 2) else k * n
  let sWords := if 7 ≤ dst then ceilDiv n 32 else 0
  let fe := spFe w.d
  let need (j : Nat) := vecRead a0 sb j (c.p + j)
  { Plan.nop c.p with
    tests := testsOf (srcTest (spFe w.s1)) (ra.map (·.2)) ++ testsOf (dstTest fe) (wordsFrom d0 dWords)
      ++ testsOf (dstTest (spFe w.s2)) (wordsFrom g0 sWords)
    reads := srcReads (spFe w.s1) ra
    writes := ((List.range n).flatMap fun j =>
        if narrow then
          if j % 2 = 0 then []
          else vecWrites fe w.digest (c.p + 16 + j) (16 + j) d0 k (j / 2) (fun _ => cvtData w c j) (need (j - 1) ++ need j)
        else vecWrites fe w.digest (c.p + 16 + j) (16 + j) d0 k j (fun _ => cvtData w c j) (need j))
      ++ (List.range sWords).map fun m =>
        let last := 16 + min (32 * m + 31) (n - 1)
        dstWrite (spFe w.s2) w.digest (c.p + last) (wordAt g0 m) last (fun _ => cvtScale w c n m)
          (((List.range 32).filter fun i => 32 * m + i < n).flatMap fun i => need (32 * m + i))
    wants := [0]
    holds := [(0, n)]
    done := c.p + 16 + (n - 1) }

/-- The fields of `execVxCvt` hold no reserved value (R89). -/
def vxCvtOk (w : IWord) : Bool :=
  commonOk (some .vx) true .vx w && w.md = 0 && w.cfgB ≤ 6 && w.cfgA ≤ 12 && (w.cfgA < 10 || w.nVec % 2 = 0)
      && w.cfg % 8 = 0 && dstOk w.d && srcOk w.s1 && (if 7 ≤ w.cfgA then dstOk w.s2 else w.s2 = 0)

/-- VX.CVT (R112, R134). -/
def execVxCvt (t : TileId) (w : IWord) (s : State) : Host.Outcome State Fault Refusal :=
  .next (s.runInstr t .vx 0x81 w (vxCvtOk w) (planCvt w))

/-! ### VX.RED and VX.REDS (R114, R135) -/

/-- A lane as FP32 or INT32 bits: BF16 and FP16 widen exactly. -/
def widen (lt x : Nat) : BitVec 32 :=
  if lt = 1 || lt = 2 then rne32 (decodeF (laneFmt lt) x) else BitVec.ofNat 32 x

/-- Order of ARGMAX and ARGMIN: `a` comes before `b`; a NaN is greater than every other value, -0 less than +0. -/
def argLt (int : Bool) (a b : BitVec 32) : Bool :=
  if int then decide (a.toInt < b.toInt)
  else
    let x := f32 a
    let y := f32 b
    if x.isNan then false
    else if y.isNan then true
    else x.lt y || (x.eq y && x.negZero && !y.negZero && decide (y.log2 = none))

/-- Index of the first extreme lane (R114). -/
def argIx (int max : Bool) : List (BitVec 32) → Nat
  | [] => 0
  | x :: xs =>
    (xs.foldl (fun (a : Nat × Nat × BitVec 32) y =>
      let i := a.2.1 + 1
      if (if max then argLt int a.2.2 y else argLt int y a.2.2) then (i, i, y) else (a.1, i, a.2.2)) (0, 0, x)).1

/-- SUM, MAX or MIN of two widened values (R114, R135). -/
def redCombine (int : Bool) (op : Nat) (a b : BitVec 32) : BitVec 32 :=
  match op, int with
  | 0, true => a + b
  | 0, false => add32 a b
  | 1, true => if a.toInt ≤ b.toInt then b else a
  | 1, false => rne32 ((f32 a).max2 (f32 b))
  | _, true => if a.toInt ≤ b.toInt then a else b
  | _, false => rne32 ((f32 a).min2 (f32 b))

/-- The reduction of one vector's widened lanes (R114). -/
def redVec (int : Bool) (op : Nat) (ls : List (BitVec 32)) : BitVec 32 :=
  if op = 0 then (treeFold (redCombine int 0) 7 ls).headD 0
  else if op ≤ 2 then
    match ls with
    | x :: xs => xs.foldl (redCombine int op) x
    | [] => 0
  else BitVec.ofNat 32 (argIx int (op = 3) ls)

/-- The plan of VX.RED (R110, R114). -/
def planRed (w : IWord) (c : Ctx) : Plan :=
  let n := w.nVec
  let a0 := c.first w.s1
  let d0 := c.first w.d
  let ra := vecReads a0 4 n (c.p + ·)
  { Plan.nop c.p with
    tests := testsOf (srcTest (spFe w.s1)) (ra.map (·.2)) ++ testsOf (dstTest (spFe w.d)) (wordsFrom d0 n)
    reads := srcReads (spFe w.s1) ra
    writes := (List.range n).flatMap fun j => vecWrites (spFe w.d) w.digest (c.p + 24 + j) (24 + j) d0 1 j
      (fun _ => (redVec (w.md = 3) w.cfgB ((lanesIn w.md (c.vec a0 4 j (c.p + j))).map (widen w.md))).toNat)
      (vecRead a0 4 j (c.p + j))
    wants := [0]
    holds := [(0, n)]
    done := c.p + 24 + (n - 1) }

/-- The fields of `execVxRed` hold no reserved value (R89). -/
def vxRedOk (w : IWord) : Bool :=
  commonOk (some .vx) true .vx w && w.md < 4 && w.cfgB ≤ 4 && w.cfgA = 0 && w.cfg % 32 = 0
      && dstOk w.d && srcOk w.s1 && w.s2 = 0

/-- VX.RED (R114). -/
def execVxRed (t : TileId) (w : IWord) (s : State) : Host.Outcome State Fault Refusal :=
  .next (s.runInstr t .vx 0x83 w (vxRedOk w) (planRed w))

/-- The result of VX.REDS over all vectors (R135). -/
def redsAll (int : Bool) (op : Nat) (vs : List (List (BitVec 32))) : BitVec 32 :=
  if 3 ≤ op then BitVec.ofNat 32 (argIx int (op = 3) vs.flatten)
  else
    match vs.map (redVec int op) with
    | r :: rs => rs.foldl (redCombine int op) r
    | [] => 0

/-- The widened lanes of vector `j` (R114, R135). -/
def redLanes (w : IWord) (c : Ctx) (j : Nat) : List (BitVec 32) :=
  (lanesIn w.md (c.vec (c.first w.s1) 4 j (c.p + j))).map (widen w.md)

/-- The plan of VX.REDS (R135). -/
def planReds (w : IWord) (c : Ctx) : Plan :=
  let n := w.nVec
  let ra := vecReads (c.first w.s1) 4 n (c.p + ·)
  { Plan.nop c.p with
    tests := testsOf (srcTest (spFe w.s1)) (ra.map (·.2))
    reads := srcReads (spFe w.s1) ra
    regs := setReg (c.p + n + 19) true w.sreg
      (fun _ => redsAll (w.md = 3) w.cfgB ((List.range n).map (redLanes w c))) ra
    wants := [0]
    holds := [(0, n)]
    done := c.p + n + 19 }

/-- The fields of `execVxReds` hold no reserved value (R89). -/
def vxRedsOk (w : IWord) : Bool :=
  commonOk (some .vx) false .vx w && w.md < 4 && w.cfgB ≤ 4 && w.cfgA = 0 && w.cfg % 32 = 0
      && w.d = 0 && srcOk w.s1 && w.s2 = 0

/-- VX.REDS (R135). -/
def execVxReds (t : TileId) (w : IWord) (s : State) : Host.Outcome State Fault Refusal :=
  .next (s.runInstr t .vx 0x85 w (vxRedsOk w) (planReds w))

/-! ### VX.RNG (R115) -/

/-- One round of Philox-4x32 (PRESUMED, notes/assumptions/32.md). -/
def philoxRound (k0 k1 : BitVec 32) (x : BitVec 32 × BitVec 32 × BitVec 32 × BitVec 32) :
    BitVec 32 × BitVec 32 × BitVec 32 × BitVec 32 :=
  let m0 : BitVec 64 := 0xD2511F53#64 * x.1.setWidth 64
  let m1 : BitVec 64 := 0xCD9E8D57#64 * x.2.2.1.setWidth 64
  (hi32 m1 ^^^ x.2.1 ^^^ k0, lo32 m1, hi32 m0 ^^^ x.2.2.2 ^^^ k1, lo32 m0)

/-- Rounds of Philox-4x32 with the key bumped between them. -/
def philoxRounds : Nat → BitVec 32 → BitVec 32 → BitVec 32 × BitVec 32 × BitVec 32 × BitVec 32 →
    BitVec 32 × BitVec 32 × BitVec 32 × BitVec 32
  | 0, _, _, x => x
  | n + 1, k0, k1, x => philoxRounds n (k0 + 0x9E3779B9#32) (k1 + 0xBB67AE85#32) (philoxRound k0 k1 x)

/-- Philox-4x32-10 of a 128-bit counter, its low 32 bits first. -/
def philox (k0 k1 : BitVec 32) (ctr : Nat) : Nat :=
  let f (i : Nat) := BitVec.ofNat 32 (ctr >>> (32 * i))
  let y := philoxRounds 10 k0 k1 (f 0, f 1, f 2, f 3)
  y.1.toNat + y.2.1.toNat * 2 ^ 32 + y.2.2.1.toNat * 2 ^ 64 + y.2.2.2.toNat * 2 ^ 96

/-- The plan of VX.RNG (R110, R115). -/
def planRng (w : IWord) (c : Ctx) : Plan := planMap w c 30 false false fun a _ _ =>
  packLanes 128 ((List.range 16).map fun i => philox (c.sAt w.sreg) (c.sAt (w.sreg + 1)) (elemAt a 128 i))

/-- The fields of `execVxRng` hold no reserved value (R89). -/
def vxRngOk (w : IWord) : Bool :=
  commonOk (some .vx) false .vx w && w.md = 3 && w.sreg % 2 = 0 && w.cfgA = 0 && w.cfgB = 0 && w.cfg % 32 = 0
      && dstOk w.d && srcOk w.s1 && w.s2 = 0

/-- VX.RNG (R115). -/
def execVxRng (t : TileId) (w : IWord) (s : State) : Host.Outcome State Fault Refusal :=
  .next (s.runInstr t .vx 0x84 w (vxRngOk w) (planRng w))

/-! ### Exact-register accumulation (R139 to R141) -/

/-- Fields of an ER instruction (R139). -/
def erOk (w : IWord) : Bool :=
  commonOk (some .vx) false .vx w && w.md = 0 && w.cfgA = 0 && w.cfgB = 0 && w.cfg % 32 = 0 && dstOk w.d && srcOk w.s1 && w.s2 = 0

/-- E_base outside its range raises F-0309 at the issue pc (R139, R162). -/
def ebaseFault (w : IWord) (c : Ctx) : Option (FaultRec × Option FaultRec) :=
  if ebaseOk (c.sAt w.sreg).toInt then none else some (c.s.instrFault c.t c.e 0x309 c.pc, none)

/-- A group of 16 ER sums: the bits and whether a setting event took place. -/
def erGroup (xs : List ((BitVec 128 × Bool) × BitVec 128)) : Nat × Bool :=
  let rs := xs.map fun x =>
    let r := erAdd x.2 x.1.1
    (r.1, r.2 || x.1.2)
  (packLanes 128 (rs.map (·.1.toNat)), rs.any (·.2))

/-- The sums of group `j` of an accumulation, and whether a setting event takes place; `srcWords` words of S1 make a group
(R140, R141). -/
def erSums (w : IWord) (c : Ctx) (srcWords j : Nat) : Nat × Bool :=
  let a := c.vec (c.first w.s1) srcWords j (c.p + 2 * j)
  let d := c.vec (c.first w.d) 4 j (c.p + 2 * j + 1)
  erGroup ((List.range 16).map fun i =>
    ((if srcWords = 1 then toER (f32 (BitVec.ofNat 32 (elemAt a 32 i))) (c.sAt w.sreg).toInt
      else (BitVec.ofNat 128 (elemAt a 128 i), false)), BitVec.ofNat 128 (elemAt d 128 i)))

/-- The plan of VX.ERACC (`srcWords` 1) and VX.ERADD (`srcWords` 4) (R140, R141). -/
def planEr (w : IWord) (c : Ctx) (srcWords : Nat) : Plan :=
  let n := w.nVec
  let a0 := c.first w.s1
  let d0 := c.first w.d
  let ra := vecReads a0 srcWords n (fun j => c.p + 2 * j)
  let rd := vecReads d0 4 n (fun j => c.p + 2 * j + 1)
  { Plan.nop c.p with
    issueFault := if srcWords = 1 then ebaseFault w c else none
    tests := testsOf (srcTest (spFe w.s1)) (ra.map (·.2)) ++ testsOf (dstTest (spFe w.d)) (wordsFrom d0 (4 * n))
    reads := srcReads (spFe w.s1) ra ++ plainReads rd
    writes := (List.range n).flatMap fun j =>
      (vecWrites (spFe w.d) false (c.p + 17 + 2 * j) (17 + 2 * j) d0 4 j (fun _ => (erSums w c srcWords j).1)
        (vecRead a0 srcWords j (c.p + 2 * j) ++ vecRead d0 4 j (c.p + 2 * j + 1))).map
          fun x => { x with er := fun _ => (erSums w c srcWords j).2 }
    wants := [0]
    holds := [(0, 2 * n)]
    done := c.p + 17 + 2 * (n - 1) }

/-- The plan of VX.ERACC (R139 to R141). -/
def planEracc (w : IWord) (c : Ctx) : Plan := planEr w c 1

/-- The plan of VX.ERADD (R140, R141). -/
def planEradd (w : IWord) (c : Ctx) : Plan := planEr w c 4

/-- The fields of `execVxEracc` hold no reserved value (R89). -/
def vxEraccOk (w : IWord) : Bool := erOk w

/-- VX.ERACC (R139 to R141). -/
def execVxEracc (t : TileId) (w : IWord) (s : State) : Host.Outcome State Fault Refusal :=
  .next (s.runInstr t .vx 0x86 w (vxEraccOk w) (planEracc w))

/-- The fields of `execVxEradd` hold no reserved value (R89). -/
def vxEraddOk (w : IWord) : Bool := erOk w

/-- VX.ERADD (R140, R141). -/
def execVxEradd (t : TileId) (w : IWord) (s : State) : Host.Outcome State Fault Refusal :=
  .next (s.runInstr t .vx 0x87 w (vxEraddOk w) (planEradd w))

/-- The plan of VX.ERCVT (R140). -/
def planErcvt (w : IWord) (c : Ctx) : Plan :=
  let n := w.nVec
  let a0 := c.first w.s1
  let d0 := c.first w.d
  let ra := vecReads a0 4 n (c.p + ·)
  { Plan.nop c.p with
    issueFault := ebaseFault w c
    tests := testsOf (srcTest (spFe w.s1)) (ra.map (·.2)) ++ testsOf (dstTest (spFe w.d)) (wordsFrom d0 n)
    reads := srcReads (spFe w.s1) ra
    writes := (List.range n).flatMap fun j => vecWrites (spFe w.d) false (c.p + 16 + j) (16 + j) d0 1 j
      (fun _ => packLanes 32 ((List.range 16).map fun i =>
        (fromER (BitVec.ofNat 128 (elemAt (c.vec a0 4 j (c.p + j)) 128 i)) (c.sAt w.sreg).toInt).toNat))
      (vecRead a0 4 j (c.p + j))
    wants := [0]
    holds := [(0, n)]
    done := c.p + 16 + (n - 1) }

/-- The fields of `execVxErcvt` hold no reserved value (R89). -/
def vxErcvtOk (w : IWord) : Bool := erOk w

/-- VX.ERCVT (R140, R165). -/
def execVxErcvt (t : TileId) (w : IWord) (s : State) : Host.Outcome State Fault Refusal :=
  .next (s.runInstr t .vx 0x88 w (vxErcvtOk w) (planErcvt w))

/-! ### Layer digests (R142, R143, R377, R378) -/

/-- The initial value of a digest (R377). -/
def digestInit : BitVec 64 := 0x6A09E667F3BCC908

/-- The fold of one word into a digest (R377). -/
def digestFold (h : BitVec 64) (ix : Nat) (x : BitVec 512) : BitVec 64 :=
  let h := h ^^^ (BitVec.ofNat 64 ix * 0x9E3779B97F4A7C15#64)
  (List.range 8).foldl (fun h j => ((h ^^^ lane 64 x j).rotateLeft 27) * 0xFF51AFD7ED558CCD#64) h

/-- An entry appended to the digest log, a ring of 8,192 (R378, R397). In a mirror plan an entry that has not been compared
is not overwritten: F-030F (R381). -/
def State.appendDigest (s : State) (e : DigEntry) : State :=
  let old := alGet s.dig.logHead.toNat s.dig.log
  if s.dig.mirror && (old.map fun (o : DigEntry) => !o.compared).getD false then
    s.faultHold (s.fault 0x30F 0x11 ((old.map fun (o : DigEntry) => o.frame.toNat).getD 0) (some e.part.toNat))
  else { s with dig := { s.dig with
    log := alSet s.dig.logHead.toNat e s.dig.log
    logWrapped := s.dig.logWrapped || decide (s.dig.logHead = 0x1FFF#13)
    logHead := s.dig.logHead + 1 } }

/-- VX.DCLOSE in its issue pc, after the writes of that pc (R143): the open digest goes into the digest log and starts anew.
Where folds wait for a replay, so does the entry's value (R142). -/
def State.closeDigest (s : State) (t : Nat) (layer : BitVec 16) : State :=
  let x := s.tile t
  let slot := s.dig.logHead.toNat
  (s.appendDigest {
    digest := x.digest
    layer := layer
    ltile := x.logical
    compared := false
    part := x.part
    frame := BitVec.ofNat 32 (s.frameNo x.part.toNat) }).modTile t fun y =>
      if x.foldWait.isEmpty then { y with digest := digestInit } else { y with foldWait := y.foldWait ++ [.close slot] }

/-- One item that waited: a word folded, or a digest closed (R142, R143). -/
def foldStep (a : BitVec 64 × List (Nat × DigEntry)) : FoldItem → BitVec 64 × List (Nat × DigEntry)
  | .word ix d => (digestFold a.1 ix d, a.2)
  | .close slot => (digestInit, a.2.map fun (e : Nat × DigEntry) => if e.1 = slot then (e.1, { e.2 with digest := a.1 }) else e)

/-- The folds and closed digests that waited for a replay are made in order, once no failed fold is left (R142). -/
def State.releaseFolds (s : State) (t : Nat) : State :=
  let x := s.tile t
  if x.foldWait.isEmpty || x.parityFails.any fun f => f.writes.any (·.digest) then s
  else
    let r := x.foldWait.foldl foldStep (x.digest, s.dig.log)
    ({ s with dig := { s.dig with log := r.2 } } : State).modTile t fun y => { y with digest := r.1, foldWait := [] }

/-- The plan of VX.DCLOSE (R143). -/
def planDclose (w : IWord) (c : Ctx) : Plan :=
  { Plan.nop c.p with acts := [(c.p, fun s => s.closeDigest c.t ((c.sAt w.sreg).setWidth 16))] }

/-- The fields of `execVxDclose` hold no reserved value (R89). -/
def vxDcloseOk (w : IWord) : Bool :=
  commonOk (some .vx) false .vx w && w.md = 0 && w.d = 0 && w.s1 = 0 && w.s2 = 0 && w.cfg / 256 = 0 && w.cfg % 32 = 0

/-- VX.DCLOSE (R143). -/
def execVxDclose (t : TileId) (w : IWord) (s : State) : Host.Outcome State Fault Refusal :=
  .next (s.runInstr t .vx 0x89 w (vxDcloseOk w) (planDclose w))

end Sys2Proof.Machine
end

