-- ==== Sys2Proof/Machine/Mv.lean ====
section
/-! DEFINITION. The move engine MV: local moves, the mesh, the fabric, and the stacks through their logic dies
(R75 to R79, R116 to R120, R144 to R148, R174, R188, R197 to R202, R326). -/

namespace Sys2Proof.Machine
open Sys2Proof

/-! ### Shared parts -/

/-- F-030A: an address out of range (R120). -/
def Ctx.addrFault (c : Ctx) (addr : Nat) : Option (FaultRec × Option FaultRec) :=
  some ((c.s.fault 0x30A 4 addr (some c.part)).waits c.t c.e.num (BitVec.ofNat 32 c.pc), none)

/-- F-0308: a logical tile out of range (R78, R120). -/
def Ctx.meshFault (c : Ctx) : Option (FaultRec × Option FaultRec) := some (c.s.instrFault c.t c.e 0x308 c.pc, none)

/-- Bank reads of an operand of `n` words, four a beat from pc `q` (R117). -/
def beatReads (w0 n q : Nat) : List (Nat × Nat) := (List.range n).map fun i => (q + i / 4, wordAt w0 i)

/-- `n` words written four a pc from issue + `lat` (R75, R117): word `i` with what `data i` computes from the reads
`needs i`. -/
def beatOuts (fe p lat w0 n : Nat) (data : Nat → Unit → Line) (needs : Nat → List (Nat × Nat)) : List Out :=
  (List.range n).map fun i => dstWrite fe false (p + lat + i / 4) (wordAt w0 i) (lat + i / 4) (data i) (needs i)

/-- The beats of `n` words at a port, from pc `q` on (R75). -/
def beatsAt (n q port : Nat) : List (Nat × Nat) := (List.range (ceilDiv n 4)).map fun b => (q + b, port)

/-- The mesh endpoint of fabric port `n` (R79). -/
def fabricEnd (n : Nat) : Nat := 256 + n

/-- A move's plan, before its reads and writes (R29, R97). -/
def movePlan (p n lat : Nat) : Plan :=
  { Plan.nop p with
    wants := [0]
    holds := [(0, ceilDiv n 4)]
    done := p + lat + (n - 1) / 4
    move := true }

/-- Words that land in tile `d` from issue + `lat`, with the beats that bring them (R75, R79). -/
def Plan.landIn (pl : Plan) (d fe p lat d0 n : Nat) (data : Nat → Unit → Line) (needs : Nat → List (Nat × Nat)) : Plan :=
  { pl with
    beats := beatsAt n (p + lat) d
    lands := (beatOuts fe p lat d0 n data needs).map fun o => (d, o) }

/-- Fields that every MV instruction shares: its code, MOD at most `md`, specifiers used or zero (R88, R116, R117). -/
def mvOk (w : IWord) (maxMod : Nat) (d s1 : Bool) : Bool :=
  commonOk (some .mv) false .mv w && w.md ≤ maxMod && (if d then dstOk w.d else w.d = 0) && (if s1 then srcOk w.s1 else w.s1 = 0)

/-- The fault of a plan where one condition fails, in order. -/
def firstFault (l : List (Option (FaultRec × Option FaultRec))) : Option (FaultRec × Option FaultRec) := l.findSome? id

/-- The first word of a list that lies in no plan-space region of the kind (R120). -/
def Ctx.outside (c : Ctx) (ember : Bool) (ws : List Nat) : Option (FaultRec × Option FaultRec) :=
  (ws.find? fun w => (c.img.regionOf ember w).isNone).bind c.addrFault

/-- Word `i` of a move's source, read at p + b (R117). -/
def Ctx.src (c : Ctx) (a0 i : Nat) : Line := c.word (wordAt a0 i) (c.p + i / 4)

/-- The read of word `i` of a move's source. -/
def Ctx.srcKey (c : Ctx) (a0 i : Nat) : Nat × Nat := (c.p + i / 4, wordAt a0 i)

/-! ### Local moves (R117) -/

/-- The plan of MV.CPY: word i read at p + b, written at p + 12 + b. -/
def planCpy (w : IWord) (c : Ctx) : Plan :=
  let n := w.nWord
  let d0 := c.first w.d
  let a0 := c.first w.s1
  let ra := beatReads a0 n c.p
  { movePlan c.p n 12 with
    tests := testsOf (srcTest (spFe w.s1)) (ra.map (·.2)) ++ testsOf (dstTest (spFe w.d)) (wordsFrom d0 n)
    reads := srcReads (spFe w.s1) ra
    writes := beatOuts (spFe w.d) c.p 12 d0 n (fun i _ => c.src a0 i) fun i => [c.srcKey a0 i] }

/-- The fields of `execMvCpy` hold no reserved value (R89). -/
def mvCpyOk (w : IWord) : Bool := mvOk w 0 true true && w.s2 = 0 && w.cfg % 4096 = 0

/-- MV.CPY (R117). -/
def execMvCpy (t : TileId) (w : IWord) (s : State) : Host.Outcome State Fault Refusal :=
  .next (s.runInstr t .mv 0xC0 w (mvCpyOk w) (planCpy w))

/-- The plan of MV.FILL: every 4-byte lane is S[SREG], written at p + 6 + b. -/
def planFill (w : IWord) (c : Ctx) : Plan :=
  let n := w.nWord
  let d0 := c.first w.d
  { movePlan c.p n 6 with
    tests := testsOf (dstTest (spFe w.d)) (wordsFrom d0 n)
    writes := beatOuts (spFe w.d) c.p 6 d0 n (fun _ _ => lineOfLanes 32 (List.replicate 16 (c.sAt (w.md % 8)))) fun _ => [] }

/-- The fields of `execMvFill` hold no reserved value (R89). -/
def mvFillOk (w : IWord) : Bool := mvOk w 7 true false && w.s2 = 0 && w.cfg % 4096 = 0

/-- MV.FILL (R117). -/
def execMvFill (t : TileId) (w : IWord) (s : State) : Host.Outcome State Fault Refusal :=
  .next (s.runInstr t .mv 0xC1 w (mvFillOk w) (planFill w))

/-! ### The mesh and the fabric (R75 to R79, R117, R118, R144, R326) -/

/-- The plan of MV.SEND: words land in tile LTILE at p + 102 + b. -/
def planSend (w : IWord) (c : Ctx) : Plan :=
  let n := w.nWord
  let l := w.s2 / 2 ^ 16
  let a0 := c.first w.s1
  let ra := beatReads a0 n c.p
  match (if l < c.img.n then c.s.physTile c.part l else none) with
  | none => { Plan.nop c.p with fault := c.meshFault }
  | some d =>
    ({ movePlan c.p n 102 with
      tests := testsOf (srcTest (spFe w.s1)) (ra.map (·.2))
      reads := srcReads (spFe w.s1) ra } : Plan).landIn d (spFe w.d) c.p 102 (c.first w.d) n (fun i _ => c.src a0 i)
        fun i => [c.srcKey a0 i]

/-- The fields of `execMvSend` hold no reserved value (R89). -/
def mvSendOk (w : IWord) : Bool :=
  mvOk w 0 true true && w.s2 % 2 ^ 16 = 0 && w.cfg % 4096 = 0 && spFe w.d % 2 = 0

/-- MV.SEND (R75, R117): the destination mode is WS or WK. -/
def execMvSend (t : TileId) (w : IWord) (s : State) : Host.Outcome State Fault Refusal :=
  .next (s.runInstr t .mv 0xC2 w (mvSendOk w) (planSend w))

/-- The packet of an MV.FSEND, from the words that it has read (R118, R319). -/
def fsendPacket (w : IWord) (c : Ctx) : Packet :=
  { Packet.reset with
    cls := 0
    job := c.s.fab.job
    dest := BitVec.ofNat 24 (w.s2 / 256)
    ltile := BitVec.ofNat 8 w.s2
    src := c.s.selfOrigin
    tag := BitVec.ofNat 12 w.cfg
    payload := (List.range w.nWord).map fun i => c.src (c.first w.s1) i }

/-- The port whose mesh endpoint the beats of a packet to a rank reach: that of its logical link (R79, R325). -/
def Ctx.fabricPort (c : Ctx) (rank : Nat) : Nat :=
  match linkTo c.img.dims (c.s.rankOf c.part) rank with
  | some l => (c.s.linkEntry l).1
  | none => 15

/-- The plan of MV.FSEND: its beats reach the port at p + 102 + b, and its packet is there with the first (R29, R118, R120,
R326). -/
def planFsend (w : IWord) (c : Ctx) : Plan :=
  let n := w.nWord
  let rank := w.s2 / 256
  let a0 := c.first w.s1
  let ra := beatReads a0 n c.p
  { movePlan c.p n 102 with
    fault := firstFault [
      if w.s2 % 256 < c.img.n then none else c.meshFault,
      if rank < rankCount c.img.dims then none else c.addrFault rank]
    tests := testsOf (srcTest (spFe w.s1)) (ra.map (·.2))
    reads := srcReads (spFe w.s1) ra
    beats := beatsAt n (c.p + 102) (fabricEnd (c.fabricPort rank))
    send := some { pc := c.p + 102, pkt := fun _ => fsendPacket w c, needs := (List.range n).map fun i => c.srcKey a0 i } }

/-- The fields of `execMvFsend` hold no reserved value (R89). -/
def mvFsendOk (w : IWord) : Bool := mvOk w 0 false true && w.nWord ≤ 128

/-- MV.FSEND (R118). -/
def execMvFsend (t : TileId) (w : IWord) (s : State) : Host.Outcome State Fault Refusal :=
  .next (s.runInstr t .mv 0xC5 w (mvFsendOk w) (planFsend w))

/-- The packet in the pools that the directory records under a key (R118). -/
def State.recvPacket (s : State) (l : Nat) (tag : BitVec 12) : Option (Nat × Packet) :=
  (s.recvDir.find? fun d => d.ltile.toNat = l && d.tag = tag).bind fun d =>
    ((s.link d.port).fab.pool.find? fun q =>
      q.pkt.ltile = d.ltile && q.pkt.tag = d.tag && q.freeAt.isNone && q.relayPort.isNone && q.pkt.clsN = 0).map
        fun q => (d.port, q.pkt)

/-- The cause of a receive whose packet has not landed: LINK_RETRY where its planned port is REPLAYING (R34, R353). -/
def Ctx.recvCause (c : Ctx) (tag : BitVec 12) : BitVec 4 :=
  match c.img.recvKeys.find? fun k => k.ltile = c.lt && k.tag = tag.toNat with
  | some k => if (c.s.link (c.s.linkEntry k.link).1).replaying then 3 else 1
  | none => 1

/-- The packet of an MV.FRECV: the one it has claimed, or the one that waits and that no earlier MV.FRECV is about to claim
(R118). -/
def Ctx.recvPkt (c : Ctx) (tag : BitVec 12) : Option (Nat × Packet) :=
  match c.f.pkt with
  | some x => some x
  | none =>
    if c.tile.mv.flights.any fun y => y.op = 0xC6 && !y.issued && decide (y.p < c.p) && BitVec.ofNat 12 y.w.cfg = tag then none
    else c.s.recvPacket c.lt tag

/-- The packet is claimed at issue: its key leaves the directory, the instruction holds its words, and its pool space is
freed at pc `free` (R118). -/
def State.claimPacket (s : State) (t p l : Nat) (tag : BitVec 12) (free : Nat) : State :=
  match s.recvPacket l tag with
  | none => s
  | some (port, k) =>
    let s := { s with recvDir := s.recvDir.filter fun d => !(d.ltile.toNat = l && d.tag = tag) }
    let s := s.modLink port fun y => { y with fab := { y.fab with
      pool := y.fab.pool.map fun (q : PoolPkt) => if q.pkt = k && q.freeAt.isNone then { q with freeAt := some free } else q } }
    s.modTile t fun y => { y with mv := { y.mv with
      flights := y.mv.flights.map fun f => if f.p = p then { f with pkt := some (port, k) } else f } }

/-- Word `i` of D after a receive with a reduction, and whether an ER value saturated (R141, R144). -/
def frecvSum (w : IWord) (old x : Line) : Line × Bool :=
  if w.md = 1 then (lineOfLanes 32 (((lanesOf 32 old).zip (lanesOf 32 x)).map fun y => add32 y.1 y.2), false)
  else
    let g := ((lanesOf 128 old).zip (lanesOf 128 x)).map fun y => erAdd y.1 y.2
    (lineOfLanes 128 (g.map (·.1)), g.any (·.2))

/-- The plan of MV.FRECV: the beats land at p + 102 + b; with a reduction D is read then and written at p + 118 + b
(R79, R118, R144). -/
def planFrecv (w : IWord) (c : Ctx) : Plan :=
  let n := w.nWord
  let d0 := c.first w.d
  let tag := BitVec.ofNat 12 w.cfg
  let pk := c.recvPkt tag
  let word (i : Nat) : Line := ((pk.map (·.2.payload)).getD []).getD i 0
  let base : Plan := { movePlan c.p n (if w.md = 0 then 102 else 118) with
    late := if pk.isNone then some (c.recvCause tag) else none
    fault := match pk with
      | some (port, k) =>
        if k.payload.length = n then none
        else some ((c.s.fault 0x30B 8 (port + c.lt * 16 + tag.toNat * 4096) (some c.part)).waits c.t c.e.num
          (BitVec.ofNat 32 c.pc), none)
      | none => none
    tests := testsOf (dstTest (spFe w.d)) (wordsFrom d0 n)
    acts := [(c.p, fun s => s.claimPacket c.t c.p c.lt tag (c.f.at_ (c.p + 6 + (n - 1) / 4) + 1))] }
  if w.md = 0 then base.landIn c.t (spFe w.d) c.p 102 d0 n (fun i _ => word i) fun _ => []
  else
    let key (i : Nat) : Nat × Nat := (c.p + 102 + i / 4, wordAt d0 i)
    let sum (i : Nat) : Line × Bool := frecvSum w (c.word (key i).2 (key i).1) (word i)
    { base with
      beats := beatsAt n (c.p + 102) c.t
      reads := plainReads ((List.range n).map key)
      writes := (beatOuts (spFe w.d) c.p 118 d0 n (fun i _ => (sum i).1) fun i => [key i]).zipIdx.map
        fun o => { o.1 with er := fun _ => (sum o.2).2 } }

/-- The fields of `execMvFrecv` hold no reserved value (R89). -/
def mvFrecvOk (w : IWord) : Bool := mvOk w 2 true false && w.s2 = 0 && w.nWord ≤ 128

/-- MV.FRECV (R118, R144). -/
def execMvFrecv (t : TileId) (w : IWord) (s : State) : Host.Outcome State Fault Refusal :=
  .next (s.runInstr t .mv 0xC6 w (mvFrecvOk w) (planFrecv w))

/-! ### Plan space (R117, R188) -/

/-- The key of stored word `ix` of a stack access that arrives at pc `q`. -/
def stackKey (q ix : Nat) : Nat × Nat := (q, 65536 + ix)

/-- Stored word `ix`, as it arrived at the plan's pc `q`. -/
def Ctx.stored (c : Ctx) (q ix : Nat) : Line := c.word (65536 + ix) q

/-- Plan-space words read with arrivals from issue + `arr`, four a pc (R188). -/
def Ctx.planReads (c : Ctx) (ws : List Nat) (arr : Nat) : List StackAcc :=
  ws.zipIdx.map fun x =>
    let l := c.s.planLoc c.part c.img x.1
    { pc := c.p + arr + x.2 / 4, chan := l.1, word := l.2, ix := x.2 }

/-- Plan-space word `w` as the instruction's read `i` delivers it: decrypted where its region is encrypted (R203). -/
def Ctx.planWord (c : Ctx) (w arr i : Nat) : Line :=
  c.s.fromRest c.part ((c.img.regionOf false w).bind Region.slot) (planTweak w) (c.stored (c.p + arr + i / 4) i)

/-- Plan-space words that are read with arrivals from issue + `arr` and land in the tile from issue + `lat` (R188). -/
def Ctx.loadPlan (c : Ctx) (pl : Plan) (ws : List Nat) (arr lat fe d0 : Nat) : Plan :=
  let pl := pl.landIn c.t fe c.p lat d0 ws.length (fun i _ => c.planWord (ws.getD i 0) arr i)
    fun i => [stackKey (c.p + arr + i / 4) i]
  { pl with stack := c.planReads ws arr }

/-- The plan of MV.SLD (R117, R188). -/
def planSld (w : IWord) (c : Ctx) : Plan :=
  let n := w.nWord
  let d0 := c.first w.d
  let ws := (List.range n).map fun i => c.remote w + i
  c.loadPlan { movePlan c.p n 420 with
    fault := c.outside false ws
    late := c.s.stackLate c.part c.img ws
    tests := testsOf (dstTest (spFe w.d)) (wordsFrom d0 n) } ws 102 420 (spFe w.d) d0

/-- The fields of `execMvSld` hold no reserved value (R89). -/
def mvSldOk (w : IWord) : Bool := mvOk w 0 true false && w.cfg % 4096 = 0

/-- MV.SLD (R117, R188). -/
def execMvSld (t : TileId) (w : IWord) (s : State) : Host.Outcome State Fault Refusal :=
  .next (s.runInstr t .mv 0xC3 w (mvSldOk w) (planSld w))

/-- The plan of MV.SST: word i is read at p + b and arrives at p + 102 + b; the write is complete 150 pc later (R117, R188). -/
def planSst (w : IWord) (c : Ctx) : Plan :=
  let n := w.nWord
  let a0 := c.first w.s1
  let ra := beatReads a0 n c.p
  let ws := (List.range n).map fun i => c.remote w + i
  { movePlan c.p n 252 with
    fault := c.outside false ws
    late := c.s.stackLate c.part c.img []
    tests := testsOf (srcTest (spFe w.s1)) (ra.map (·.2))
    reads := srcReads (spFe w.s1) ra
    stack := (c.planReads ws 102).zip ws |>.map fun x => { x.1 with
      data := some fun _ => c.s.atRest c.part ((c.img.regionOf false x.2).bind Region.slot) (planTweak x.2) (c.src a0 x.1.ix)
      needs := [c.srcKey a0 x.1.ix] } }

/-- The fields of `execMvSst` hold no reserved value (R89). -/
def mvSstOk (w : IWord) : Bool := mvOk w 0 false true && w.cfg % 4096 = 0

/-- MV.SST (R117, R188). -/
def execMvSst (t : TileId) (w : IWord) (s : State) : Host.Outcome State Fault Refusal :=
  .next (s.runInstr t .mv 0xC4 w (mvSstOk w) (planSst w))

/-! ### Ember (R145, R148, R197 to R199) -/

/-- A stored word that arrives at pc `q`: as it has arrived, or as the array holds it now; none where the read delivered
nothing. -/
def Ctx.seenStored (c : Ctx) (q ix chan word : Nat) : Option Line :=
  match c.f.gotAt q (65536 + ix) with
  | some g => g.data
  | none => some (Memory.readLine (c.s.pch chan).mem word)

/-- Stored words of chunk frame `ch` that are read: those its header gives, all where the header was not delivered
(R175, R197). -/
def Ctx.chunkStored (c : Ctx) (r : Region) (ch k : Nat) : Nat :=
  let l := c.s.chunkLoc c.part c.img ch 0
  match c.seenStored (c.p + 102 + 256 * k) (2048 * k) l.1 l.2 with
  | some d => emberStored (c.s.fromRest c.part r.slot (chunkTweak ch 0) d)
  | none => 1025

/-- The arrivals of the first `n` stored words of chunk `k` of an MV.ELD, four a pc (R188, R197). -/
def Ctx.chunkReads (c : Ctx) (ch k n : Nat) : List StackAcc :=
  (List.range n).map fun j =>
    let l := c.s.chunkLoc c.part c.img ch j
    { pc := c.p + 102 + 256 * k + j / 4, chan := l.1, word := l.2, ix := 2048 * k + j }

/-- Chunk `k` of an MV.ELD, decoded from what has arrived (R197, R198). -/
def Ctx.decodeChunk (c : Ctx) (r : Region) (ch k : Nat) : EmberResult :=
  emberDecode ((List.range 1025).map fun j =>
    c.s.fromRest c.part r.slot (chunkTweak ch j) (c.stored (c.p + 102 + 256 * k + j / 4) (2048 * k + j)))

/-- The chunks that an MV.ELD reads, in order: region and chunk frame (R145, R197). -/
def Ctx.eldChunks (c : Ctx) (w : IWord) : List (Region × Nat) :=
  (List.range (w.nWord / 1024)).filterMap fun k =>
    let a := c.remote w + 1024 * k
    (c.img.regionOf true a).map fun r => (r, r.chunk0 + (a - r.base) / 1024)

/-- The decoded words of a chunk; none unless every check passes (R178, R198). -/
def EmberResult.lines : EmberResult → List Line
  | .ok l _ => l
  | _ => []

/-- A decoder has the whole of a chunk: EMBER_CHUNKS, F-0204 or F-0206, or nothing where a word did not arrive (R178, R184,
R198, R209). -/
def State.chunkDone (s : State) (c : Ctx) (ch : Nat) (lost : Bool) (x : EmberResult) : State :=
  let k := c.s.physChan c.part (ch % 8) / 32
  let r (code : Nat) := (s.fault code 5 (ch % 2 ^ 26) (some c.part) k).waits c.t c.e.num (BitVec.ofNat 32 c.pc)
  if lost then s
  else match x with
    | .ok _ _ => s.modStk k fun y => { y with emberChunks := satInc y.emberChunks }
    | .corrupt _ => s.faultHold (r 0x204)
    | .feed => s.faultHold (r 0x206)

/-- The plan of MV.ELD: chunk k's stored words arrive from p + 102 + 256 k, the decoder has the chunk 286 pc later, and its
words land from p + 484 + 256 k (R145, R148, R188, R197, R198). -/
def planEld (w : IWord) (c : Ctx) : Plan :=
  let n := w.nWord
  let a := c.remote w
  let d0 := c.first w.d
  let chunks := (c.eldChunks w).zipIdx.map fun x => (x.1.1, x.1.2, x.2)
  let acc := chunks.map fun x => c.chunkReads x.2.1 x.2.2 (c.chunkStored x.1 x.2.1 x.2.2)
  let keys (k : Nat) : List (Nat × Nat) := (acc.getD k []).map fun x => stackKey x.pc x.ix
  let res (k : Nat) : EmberResult := match chunks[k]? with
    | some x => c.decodeChunk x.1 x.2.1 x.2.2
    | none => .feed
  let base : Plan := ({ movePlan c.p n 484 with
    fault := if a % 1024 ≠ 0 || n % 1024 ≠ 0 then c.addrFault a else c.outside true ((List.range n).map (a + ·))
    late := c.s.stackLate c.part c.img []
    tests := testsOf (dstTest (spFe w.d)) (wordsFrom d0 n)
    stack := acc.flatten
    acts := chunks.map fun x =>
      (c.p + 388 + 256 * x.2.2, fun s => s.chunkDone c x.2.1 ((keys x.2.2).any c.lost) (res x.2.2)) } : Plan).landIn
      c.t (spFe w.d) c.p 484 d0 n (fun i _ => (res (i / 1024)).lines.getD (i % 1024) 0) fun i => keys (i / 1024)
  { base with lands := base.lands.zipIdx.map fun x => (x.1.1, { x.1.2 with ok := fun _ => !(res (x.2 / 1024)).lines.isEmpty }) }

/-- The fields of `execMvEld` hold no reserved value (R89). -/
def mvEldOk (w : IWord) : Bool := mvOk w 0 true false && w.cfg % 4096 = 0

/-- MV.ELD (R145). -/
def execMvEld (t : TileId) (w : IWord) (s : State) : Host.Outcome State Fault Refusal :=
  .next (s.runInstr t .mv 0xC8 w (mvEldOk w) (planEld w))

/-! ### KV pages (R146, R174, R200 to R202) -/

/-- F-0203: a position without a valid page-table entry (R146, R202). -/
def Ctx.pageFault (c : Ctx) (table pos : Nat) : FaultRec × Option FaultRec :=
  let r := (c.s.fault 0x203 4 table (some c.part)).waits c.t c.e.num (BitVec.ofNat 32 c.pc)
  (r, some (r.contWith pos))

/-- The first word of the page table as a tile word (R201). -/
def Ctx.tableWord (c : Ctx) (w : IWord) : Nat := c.remote w % 65536

/-- A table word that is read at the plan's pc `q`: as it was read, or as the tile holds it now; none where the read
delivered nothing. -/
def Ctx.seen (c : Ctx) (word q : Nat) : Option Line :=
  match c.f.gotAt q word with
  | some g => g.data
  | none => some (Memory.readLine c.tile.mem word)

/-- The bank reads of the page table: the header at p, and the two words that may hold the entries at p + 1 and p + 2
(R202). -/
def Ctx.tableReads (c : Ctx) (w : IWord) : List (Nat × Nat) :=
  let table := c.tableWord w
  let p := max 1 (((c.seen table c.p).getD 0).toNat % 65536)
  let first := (c.sAt (w.cfg % 8)).toNat / p / 16
  [(c.p, table), (c.p + 1, (table + 1 + first) % 65536), (c.p + 2, (table + 2 + first) % 65536)]

/-- What the page table gives (R202). -/
inductive KvMap where
  /-- A test fails on what the read of this pc gives. -/
  | bad (pc : Nat) (r : FaultRec × Option FaultRec)
  /-- Per tile word (CODE 0x0) or unit: the page and the first stored word. -/
  | found (items : List (Nat × Nat))
  /-- A table word could not be read. -/
  | lost

/-- The test of one tile word or unit, in R202's order: its page and first stored word, or the fault. `ent` gives entry
`x` of the two table words held, which begin with entry `first`. -/
def Ctx.entryOf (c : Ctx) (table code p v e sw first pos0 : Nat) (ent : Nat → BitVec 32) (i : Nat) :
    (FaultRec × Option FaultRec) ⊕ (Nat × Nat) :=
  let pos := pos0 + i / v
  let x := pos / p
  if e ≤ x then .inl (c.pageFault table pos)
  else if first + 32 ≤ x then .inl ((c.addrFault table).getD (FaultRec.reset, none))
  else if !bit (ent x) 31 || (c.s.pt c.part).res.poolPages.toNat ≤ field (ent x) 23 0 then .inl (c.pageFault table pos)
  else .inr (field (ent x) 23 0, pos % p * sw + (if code = 0 then i % v else i % v / 8 * kvUnit code))

/-- The tests of a list of tile words or units, up to the first fault. -/
def kvItems (f : Nat → (FaultRec × Option FaultRec) ⊕ (Nat × Nat)) : List Nat → (FaultRec × Option FaultRec) ⊕ List (Nat × Nat)
  | [] => .inr []
  | i :: r => match f i with
    | .inl x => .inl x
    | .inr y => match kvItems f r with
      | .inl x => .inl x
      | .inr l => .inr (y :: l)

/-- The translation of R202. -/
def Ctx.translate (c : Ctx) (w : IWord) (code : Nat) : KvMap :=
  let table := c.tableWord w
  match (c.tableReads w).map fun x => c.seen x.2 x.1 with
  | [some hd, l0, l1] =>
    let h := hd.toNat
    let p := h % 65536
    let v := h / 65536 % 65536
    let sw := if code = 0 then v else v * kvUnit code / 8
    if p = 0 || v = 0 || (code ≠ 0 && v % 8 ≠ 0) || 1024 < p * sw then
      .bad (c.f.after c.p) ((c.addrFault table).getD (FaultRec.reset, none))
    else match l0, l1 with
      | some l0, some l1 =>
        let pos0 := (c.sAt (w.cfg % 8)).toNat
        let first := pos0 / p / 16 * 16
        let ent (x : Nat) : BitVec 32 := if x < first + 16 then lane 32 l0 (x - first) else lane 32 l1 (x - first - 16)
        let is := if code = 0 then List.range w.nWord else (List.range (w.nWord / 8)).map (· * 8)
        match kvItems (c.entryOf table code p v (h / 2 ^ 32 % 2 ^ 32) sw first pos0 ent) is with
        | .inl r => .bad (c.f.after (c.p + 2)) r
        | .inr l => .found l
      | _, _ => .lost
  | _ => .lost

/-- What a KV access finds wrong with its table happens once its table words have been read (R146, R202). -/
def KvMap.acts : KvMap → List (Nat × (State → State))
  | .bad q r => [(q, fun s => s.faultHold r.1 r.2)]
  | _ => []

/-- The pages and first stored words of a KV access. -/
def KvMap.items : KvMap → List (Nat × Nat)
  | .found l => l
  | _ => []

/-- F-030A of a unit form whose N is no whole number of units (R202). -/
def Ctx.unitFault (c : Ctx) (w : IWord) : Option (FaultRec × Option FaultRec) :=
  if w.md ≠ 0 && w.nWord % 8 ≠ 0 then c.addrFault (c.tableWord w) else none

/-- Arrival of the stored words of item `u`: a unit's words arrive together, two pc after the unit before (R188, R202). -/
def Ctx.kvArrival (c : Ctx) (code arr u : Nat) : Nat := c.p + arr + (if code = 0 then u / 4 else 2 * u)

/-- The stored words of a KV access, as (arrival, page, stored word, channel, channel word), by item (R186, R188, R202). -/
def Ctx.kvReads (c : Ctx) (code arr : Nat) (items : List (Nat × Nat)) : List StackAcc :=
  items.zipIdx.flatMap fun x => (List.range (kvUnit code)).map fun k =>
    let l := c.s.pageLoc c.part c.img x.1.1 (x.1.2 + k)
    { pc := c.kvArrival code arr x.2, chan := l.1, word := l.2, ix := 8 * x.2 + k }

/-- The 32 BF16 codes of each of a unit's 8 tile words. -/
def linesOfBf16 (el : List Nat) : List Line := (chunksOf 32 8 el).map fun l => lineOfLanes 16 (l.map (BitVec.ofNat 16))

/-- The stored words of item `u`, decrypted, as they have arrived (R203). -/
def Ctx.kvStored (c : Ctx) (code arr : Nat) (items : List (Nat × Nat)) (u : Nat) : List Line :=
  let x := items.getD u (0, 0)
  (List.range (kvUnit code)).map fun k =>
    c.s.fromRest c.part (c.s.poolSlot c.part) (pageTweak x.1 (x.2 + k)) (c.stored (c.kvArrival code arr u) (8 * u + k))

/-- Tile word `i` of an MV.PGATH: the stored word, or a word of its decoded unit (R146, R172). -/
def Ctx.gathered (c : Ctx) (code : Nat) (items : List (Nat × Nat)) (i : Nat) : Line :=
  if code = 0 then (c.kvStored code 126 items i).getD 0 0
  else (linesOfBf16 (cinderDecode code (c.kvStored code 126 items (i / 8)))).getD (i % 8) 0

/-- The plan of MV.PGATH (R146, R148, R188, R202). -/
def planPgath (w : IWord) (c : Ctx) : Plan :=
  let code := w.md
  let n := w.nWord
  let d0 := c.first w.d
  let lat := if code = 0 then 444 else 452
  let kv := c.translate w code
  let base : Plan := { movePlan c.p n lat with
    fault := c.unitFault w
    late := c.s.stackLate c.part c.img []
    tests := testsOf (dstTest (spFe w.d)) (wordsFrom d0 n)
    reads := plainReads (c.tableReads w)
    stack := c.kvReads code 126 kv.items
    acts := kv.acts }
  let unit (i : Nat) : Nat := if code = 0 then i else i / 8
  let pl := base.landIn c.t (spFe w.d) c.p lat d0 n (fun i _ => c.gathered code kv.items i) fun i =>
    (List.range (kvUnit code)).map fun k => stackKey (c.kvArrival code 126 (unit i)) (8 * unit i + k)
  { pl with lands := pl.lands.map fun x => (x.1, { x.2 with ok := fun _ => !kv.items.isEmpty }) }

/-- The fields of `execMvPgath` hold no reserved value (R89). -/
def mvPgathOk (w : IWord) : Bool := mvOk w 2 true false && w.cfg % 4096 < 8

/-- MV.PGATH (R146). -/
def execMvPgath (t : TileId) (w : IWord) (s : State) : Host.Outcome State Fault Refusal :=
  .next (s.runInstr t .mv 0xC9 w (mvPgathOk w) (planPgath w))

/-- The stored words of item `u` of an MV.PST: the tile word, or its encoded unit (R146, R171). -/
def Ctx.toStore (c : Ctx) (code a0 u : Nat) : List Line :=
  if code = 0 then [c.src a0 u]
  else cinderEncode code ((List.range 8).flatMap fun i => (lanesOf 16 (c.src a0 (8 * u + i))).map (·.toNat))

/-- The plan of MV.PST (R146, R148, R188, R202). A fault of the translation moves no data from its pc on. -/
def planPst (w : IWord) (c : Ctx) : Plan :=
  let code := w.md
  let n := w.nWord
  let a0 := c.first w.s1
  let ra := beatReads a0 n c.p
  let kv := c.translate w code
  let items := kv.items
  let per := if code = 0 then 1 else 8
  { movePlan c.p n (if code = 0 then 276 else 284) with
    fault := c.unitFault w
    late := c.s.stackLate c.part c.img []
    tests := testsOf (srcTest (spFe w.s1)) (ra.map (·.2))
    reads := plainReads (c.tableReads w) ++ srcReads (spFe w.s1) (match kv with
      | .bad q _ => ra.filter fun x => x.1 ≤ q
      | _ => ra)
    stack := (c.kvReads code (if code = 0 then 126 else 134) items).map fun x =>
      let y := items.getD (x.ix / 8) (0, 0)
      { x with
        data := some fun _ => c.s.atRest c.part (c.s.poolSlot c.part) (pageTweak y.1 (y.2 + x.ix % 8))
          ((c.toStore code a0 (x.ix / 8)).getD (x.ix % 8) 0)
        needs := (List.range per).map fun i => c.srcKey a0 (per * (x.ix / 8) + i) }
    acts := kv.acts }

/-- The fields of `execMvPst` hold no reserved value (R89). -/
def mvPstOk (w : IWord) : Bool := mvOk w 2 false true && w.cfg % 4096 < 8

/-- MV.PST (R146). -/
def execMvPst (t : TileId) (w : IWord) (s : State) : Host.Outcome State Fault Refusal :=
  .next (s.runInstr t .mv 0xCA w (mvPstOk w) (planPst w))

/-! ### Strings (R147, R148) -/

/-- The plan of MV.STRF (R147, R148, R188). -/
def planStrf (w : IWord) (c : Ctx) : Plan :=
  let n := w.nWord
  let lw := c.first w.s1
  let e := field (c.word lw c.f.chk) (64 * (w.cfg % 8) + 63) (64 * (w.cfg % 8))
  let slot := e % 65536
  let set := e / 65536 % 2 ^ 32
  let valid := 2 ^ 63 ≤ e
  let sv := (c.img.serving).getD Serving.reset
  let pr := ((c.s.pt c.part).stage.params).getD Params.reset
  let d0 := c.first w.d + slot * n
  let ds := (List.range n).map fun i => d0 + i
  let ws := (List.range n).map fun i => pr.stringBase + set * pr.stringStride + w.rOff + i
  let inCache := ds.all fun x => sv.cacheBase ≤ x && x < sv.cacheBase + sv.cacheWords
  let base : Plan := { movePlan c.p n 428 with
    fault := if !inCache then c.addrFault (d0 % 2 ^ 32)
      else if valid && pr.stringCount ≤ set then c.addrFault ((pr.stringBase + set * pr.stringStride) % 2 ^ 32)
      else if valid then c.outside false ws else none
    late := c.s.stackLate c.part c.img (if valid then ws else [])
    tests := testsOf (srcTest (spFe w.s1)) [lw] ++ testsOf (dstTest (spFe w.d)) (ds.map (· % 65536))
    pre := some lw
    reads := srcReads (spFe w.s1) [(c.f.chk, lw)] }
  if valid then c.loadPlan base ws 110 428 (spFe w.d) (d0 % 65536)
  else { base with
    writes := match dstFull (spFe w.d) with
      | none => []
      | some b => (List.range n).map fun i => {
          due := c.p + 428 + i / 4
          word := wordAt d0 i
          lat := 428 + i / 4
          data := none
          full := some b } }

/-- The fields of `execMvStrf` hold no reserved value (R89). -/
def mvStrfOk (w : IWord) : Bool := mvOk w 0 true true && w.rAreg = 0 && w.cfg % 4096 < 8

/-- MV.STRF (R147). -/
def execMvStrf (t : TileId) (w : IWord) (s : State) : Host.Outcome State Fault Refusal :=
  .next (s.runInstr t .mv 0xCB w (mvStrfOk w) (planStrf w))

end Sys2Proof.Machine
end

