-- ==== Sys2Proof/Machine/Jobs.lean ====
section
/-! DEFINITION. Every instruction in flight with its plan, and the accesses that the plans hold (R15, R55, R69, R88). -/

namespace Sys2Proof.Machine
open Sys2Proof

/-! ### The plan of an opcode (R88) -/

/-- What the instruction of an opcode plans. -/
def planOf (op : Nat) (w : IWord) (c : Ctx) : Plan :=
  match op with
  | 0x02 => planLwait w c
  | 0x03 => planHalt c
  | 0x04 => planAmov w c
  | 0x05 => planAadd w c
  | 0x06 => planAalu w c
  | 0x07 => planSmov w c
  | 0x08 => planSalu w c
  | 0x09 => planXmov w c
  | 0x0A => planCtSld w c
  | 0x0B => planCtSst w c
  | 0x0C => planPoll w c
  | 0x10 => planLoop w c
  | 0x11 => planJmp w c
  | 0x12 => planFbr w c
  | 0x13 => planBbr w c
  | 0x18 => planFeset w c
  | 0x19 => planBar w c
  | 0x1A => planWatch w c
  | 0x40 => planLdw w c
  | 0x41 => planMma w c
  | 0x80 => planAlu w c
  | 0x81 => planCvt w c
  | 0x82 => planTr w c
  | 0x83 => planRed w c
  | 0x84 => planRng w c
  | 0x85 => planReds w c
  | 0x86 => planEracc w c
  | 0x87 => planEradd w c
  | 0x88 => planErcvt w c
  | 0x89 => planDclose w c
  | 0xC0 => planCpy w c
  | 0xC1 => planFill w c
  | 0xC2 => planSend w c
  | 0xC3 => planSld w c
  | 0xC4 => planSst w c
  | 0xC5 => planFsend w c
  | 0xC6 => planFrecv w c
  | 0xC8 => planEld w c
  | 0xC9 => planPgath w c
  | 0xCA => planPst w c
  | 0xCB => planStrf w c
  | _ => planNop c

/-- Opcodes of the control group (R88, R123). -/
def ctOps : List Nat := [0x01, 0x02, 0x03, 0x04, 0x05, 0x06, 0x07, 0x08, 0x09, 0x0A, 0x0B, 0x0C, 0x10, 0x11, 0x12, 0x13, 0x18, 0x19, 0x1A]

/-- Opcodes of an engine's group (R88, R123). -/
def engOps : Eng → List Nat
  | .mx => [0x40, 0x41]
  | .vx => [0x80, 0x81, 0x82, 0x83, 0x84, 0x85, 0x86, 0x87, 0x88, 0x89]
  | .mv => [0xC0, 0xC1, 0xC2, 0xC3, 0xC4, 0xC5, 0xC6, 0xC8, 0xC9, 0xCA, 0xCB]

/-- The opcode is one of a stream's (R88, R89). -/
def knownOp (op : Nat) (e : Eng) : Bool := ctOps.contains op || (engOps e).contains op

/-- The plan of an instruction in flight. -/
def Ctx.plan (c : Ctx) : Plan := planOf c.f.op c.f.w c

/-! ### The instructions in flight, in R15's order -/

/-- An instruction in flight with its plan, and its beats that the ports have taken in the present pc. -/
structure Job where
  c : Ctx
  pl : Plan
  beats : List (Nat × Nat) := []

/-- A stream has nothing to do in a pc. -/
def Stream.quiet (x : Stream) : Bool := x.flights.isEmpty && x.queue.isEmpty && x.fetchSlots = 0

/-- A tile has nothing to do in a pc. -/
def Tile.quiet (t : Tile) : Bool := t.mx.quiet && t.vx.quiet && t.mv.quiet && t.winAt.isNone && t.windows.isEmpty && t.seqBeats.isEmpty

/-- The tiles with something to do, by logical tile (R15). -/
def State.busyTiles (s : State) : List Nat :=
  sortBy (fun a b => (s.tile a).logical.toNat < (s.tile b).logical.toNat) ((List.range 160).filter fun t => !(s.tile t).quiet)

/-- The streams of a tile in their order (R15). -/
def engines : List Eng := [.mx, .vx, .mv]

/-- The instructions in flight of a list of tiles, with their plans. -/
def State.jobs (s : State) (ts : List Nat) : List Job :=
  ts.flatMap fun t => engines.flatMap fun e => ((s.tile t).stream e).flights.map fun f =>
    { c := { s := s, t := t, e := e, f := f }, pl := ({ s := s, t := t, e := e, f := f } : Ctx).plan }

/-- An access of a kind that the plan puts at pc `q` is due at count `g`: its pc has come, or it was not served before. -/
def Job.due (j : Job) (g kind q x : Nat) : Bool := j.c.f.at_ q = g || j.c.f.retry.contains (kind, q, x)

/-- The bank accesses that an instruction plans, as (pc, tile, word) (R55, R79). -/
def Job.bankUses (j : Job) : List (Nat × Nat × Nat) :=
  (j.pl.reads.map fun r => (j.c.f.at_ r.pc, j.c.t, r.word))
    ++ (j.pl.writes.map fun o => (j.c.f.at_ o.due, j.c.t, o.word))
    ++ (j.pl.lands.map fun l => (j.c.f.at_ l.2.due, l.1, l.2.word))

/-- A bank of a tile has a planned use in pcs `lo` to `hi` (R56, R83). -/
def State.bankPlanned (s : State) (t b lo hi : Nat) : Bool :=
  (s.jobs s.busyTiles).any fun j => j.bankUses.any fun u => u.2.1 = t && u.2.2 % 64 = b && lo ≤ u.1 && u.1 ≤ hi

/-- A pseudo-channel has a planned arrival in the present pc (R189, R191). -/
def State.arrivalPlanned (s : State) (x : Nat) : Bool :=
  (s.jobs s.busyTiles).any fun j => j.pl.stack.any fun a => a.chan = x && j.due s.plan.geyser 4 a.pc a.ix

/-! ### Changes of a stream and of an instruction in flight -/

/-- A stream changed. -/
def State.modStream (s : State) (t : Nat) (e : Eng) (f : Stream → Stream) : State :=
  s.modTile t fun y => y.setStream e (f (y.stream e))

/-- The same instruction in flight. -/
def Flight.is (a b : Flight) : Bool := a.p = b.p && a.seq = b.seq

/-- An instruction in flight changed. -/
def State.modFlight (s : State) (c : Ctx) (f : Flight → Flight) : State :=
  s.modStream c.t c.e fun x => { x with flights := x.flights.map fun y => if y.is c.f then f y else y }

/-- An access that was not served in this pc: it is due again in the next, and what the instruction does after it comes one
pc later (R15, R77, R189). -/
def State.delay (s : State) (c : Ctx) (kind q x : Nat) : State :=
  let g := s.plan.geyser
  s.modFlight c fun f => { f with
    retry := f.retry ++ [(kind, q, x)]
    shifts := if f.at_ (q + 1) = g + 1 then f.shifts ++ [(q + 1, 1)] else f.shifts }

/-- A word read for the plan's pc `q` (R70). -/
def State.noteRead (s : State) (c : Ctx) (x : Got) : State :=
  s.modFlight c fun f => if (f.gotAt x.pc x.word).isSome then f else { f with got := f.got ++ [x] }

/-- What an instruction has asked of, as a record names it (R15, R493). -/
def Ctx.who (c : Ctx) : Nat × Nat × BitVec 32 := (c.t, c.e.num, BitVec.ofNat 32 c.f.pc)

end Sys2Proof.Machine
end

