-- ==== Sys2Proof/Machine/Land.lean ====
section
/-! DEFINITION. Words written in a pc, code words fetched, and the bank accesses of the host window (R56, R57, R61, R63, R65,
R69, R82, R83, R142). -/

namespace Sys2Proof.Machine
open Sys2Proof

/-! ### Writes (R63, R69, R142) -/

/-- One write or full/empty change made now: data replaces the whole word with its errors, and a planned write clears
poison (R61, R63). -/
def Tile.put (t : Tile) (x : PendWrite) : Tile :=
  let t := match x.data with
    | none => t
    | some d => { t with
        mem := Memory.writeLine t.mem x.word d
        bad := nsDel x.word t.bad
        correctable := nsDel x.word t.correctable
        writeBacks := nsDel x.word t.writeBacks
        poison := if x.clearPoison then nsDel x.word t.poison else t.poison }
  match x.full with
  | none => t
  | some b => { t with full := nsSet x.word b t.full }

/-- A write folded into the open digest, or queued behind a fold that waits for its replay; `held` is a write that itself
waits (R142). -/
def Tile.fold (t : Tile) (held : Bool) (x : PendWrite) : Tile :=
  match x.digest, x.data with
  | true, some d =>
    if t.foldWait.isEmpty && !held then { t with digest := digestFold t.digest x.word d }
    else { t with foldWait := t.foldWait ++ [.word x.word d] }
  | _, _ => t

/-- A suppressed write that a later one has overtaken: what the later one replaced stays (R73). -/
def PendWrite.behind (later x : PendWrite) : PendWrite :=
  if x.word ≠ later.word || later.due < x.due then x
  else { x with
    data := if later.data.isSome then none else x.data
    full := if later.full.isSome then none else x.full }

/-- A write whose pc has come. -/
def Tile.land (t : Tile) (x : PendWrite) : Tile :=
  let t := (t.put x).fold false x
  if t.parityFails.isEmpty then t
  else { t with parityFails := t.parityFails.map fun f => { f with writes := f.writes.map (PendWrite.behind x) } }

/-- A word of a plan as it is written at pc `g`. -/
def Out.write (o : Out) (g unit : Nat) (pc : BitVec 32) : PendWrite :=
  { due := g
    word := o.word
    data := o.data.map fun d => d ()
    full := o.full
    digest := o.digest
    clearPoison := true
    unit := unit
    pc := pc
    lat := o.lat }

/-! ### Fetch (R65, R102) -/

/-- The instructions of a code word from entry `i` on: they end at a CT.JMP, which the fetch unit follows, or at a CT.FBR
or CT.HALT, after which it waits. Answers the instructions, the next program counter, and whether fetch waits. -/
def fetchEntries (d : Line) : Nat → Nat → Nat → List (Nat × BitVec 128) × Nat × Bool
  | 0, _, pc => ([], pc, false)
  | k + 1, i, pc =>
    let b := lane 128 d i
    if opcodeOf b = 0x11 then ([(pc, b)], (iwordOf b).x, false)
    else if opcodeOf b = 0x12 || opcodeOf b = 0x03 then ([(pc, b)], pc + 1, true)
    else
      let r := fetchEntries d k (i + 1) (pc + 1)
      ((pc, b) :: r.1, r.2)

/-- The code word that holds the next program counter. -/
def Stream.codeWord (x : Stream) : Nat := (x.codeBase + x.fetchPc / 4 % max 1 x.codeWords) % 65536

/-- A code word enters the queue, in place in fetch order; what a CT.BBR has dropped does not (R65, R137). -/
def Stream.takeCode (x : Stream) (d : Line) (ready : Nat) : Stream :=
  let r := fetchEntries d (4 - x.fetchPc % 4) (x.fetchPc % 4) x.fetchPc
  let new := r.1.zipIdx.map fun v => ({ pc := v.1.1, word := v.1.2, ready := ready, seq := x.fetchSeq + v.2 } : QEntry)
  let next := x.fetchSeq + r.1.length
  { x with
    queue := x.queue ++ new.filter fun q => !(x.skips.any fun k => k.1 ≤ q.seq && q.seq ≤ k.2)
    skips := x.skips.filter fun k => next ≤ k.2
    fetchPc := r.2.1
    fetchSeq := next
    fetchStop := r.2.2 }

/-- Places `lo` to `hi` in fetch order leave the queue, or do not enter it (R137). -/
def Stream.dropPlaces (x : Stream) (lo hi : Nat) : Stream :=
  { x with
    queue := x.queue.filter fun q => !(lo ≤ q.seq && q.seq ≤ hi)
    skips := if hi < x.fetchSeq then x.skips else x.skips ++ [(max lo x.fetchSeq, hi)] }

/-- The code word that holds instruction `pc` of a stream's program. -/
def StreamCode.line (c : StreamCode) (pc : Nat) : Line :=
  lineOfLanes 128 ((List.range 4).map fun k => (c.code[pc / 4 * 4 + k]?).getD 0)

/-- The stream of a program before it launches: `n` code words are in its queue, in the order of fetch (R65, R514). -/
def StreamCode.loaded (c : StreamCode) : Nat → Stream
  | 0 => { Stream.reset with
      fetchPc := c.entry
      codeWords := c.words
      codeBase := c.base }
  | n + 1 =>
    let x := c.loaded n
    if x.fetchStop then x else x.takeCode (c.line x.fetchPc) 0

/-! ### Host window accesses (R57, R82, R83) -/

/-- Bytes `o` to `o + n - 1` of a word as a number. -/
def bytesAt (d : Line) (o n : Nat) : Nat := d.toNat / 2 ^ (8 * o) % 2 ^ (8 * n)

/-- A word with bytes from `o` on replaced. -/
def setBytes (d : Line) (o : Nat) (bs : List (BitVec 8)) : Line :=
  lineOfBytes ((bytesOfLine d).take o ++ bs ++ (bytesOfLine d).drop (o + bs.length))

/-- What a host access writes: it leaves poison (R63). -/
def hostPut (w : Nat) (data : Option Line) (full : Option Bool) : PendWrite :=
  { PendWrite.reset with word := w, data := data, full := full, unit := 6, pc := 0xFFFFFFFF }

/-- A read of a word that an error corrects counts, and the corrected word waits to be written back (R61). -/
def Tile.corrected (t : Tile) (w : Nat) : Tile :=
  if nsHas w t.correctable then { t with
    eccCe := satInc t.eccCe
    writeBacks := nsIns w t.writeBacks }
  else t

/-- The effect of a window access in the pc of its bank access (R82): a poisoned word, or one found uncorrectable, gives
and takes nothing. -/
def State.serveWindow (s : State) (t : Nat) (r : WinReq) : State :=
  let x := s.tile t
  let s := s.modTile t fun y => { y.corrected r.word with
    winQueue := y.winQueue.drop 1
    winAt := none }
  if !(x.unreadable [r.word]).isEmpty then
    let s := s.modTile t fun y => { y with
      winPoison := true
      winBuf := none
      winData := if r.kind = .read then 0 else y.winData }
    if nsHas r.word x.poison then s else s.tileUE t r.word 3 0xFFFFFFFF
  else
    let d := Memory.readLine x.mem r.word
    s.modTile t fun y =>
      let y := { y with winPoison := false }
      match r.kind with
      | .read => { y with
          winBuf := some (r.word, d)
          winData := BitVec.ofNat 64 (bytesAt d r.byteOff r.bytes.length) }
      | .write =>
        let d' := setBytes d r.byteOff r.bytes
        { y.put (hostPut r.word (some d') none) with winBuf := some (r.word, d') }
      | k => y.put (hostPut r.word none (some (decide (k = .setFull))))

/-- The window access in progress occupies its bank for 4 clk, of which `left` are still to pass (R82); `holds` where the
counter waits for it at a resume (R83, R513). -/
def State.beginWindow (s : State) (t left : Nat) (holds : Bool) : State :=
  s.modTile t fun x => { x with winActive := some (s.wall + left * s.clkTu, holds) }

/-- An unplanned user takes a bank for the present pc and the three that follow (R57, R82). -/
def State.takeWindow (s : State) (t b : Nat) : State :=
  s.modTile t fun x => { x with windows := x.windows ++ [{ bank := b, start := s.plan.geyser }] }

/-- A bank of a tile is taken by an unplanned user in the present pc. -/
def State.bankTaken (s : State) (t b : Nat) : Bool :=
  (s.tile t).windows.any fun w => w.bank = b && w.start ≤ s.plan.geyser && s.plan.geyser < w.start + 4

end Sys2Proof.Machine
end

