-- ==== Sys2Proof/Machine/Pipe.lean ====
section
/-! DEFINITION. One pc of every instruction in flight: issue, mesh beats, bank accesses, stack accesses, results and the
order of the streams (R15, R32, R55 to R57, R61 to R66, R69, R76 to R79, R83, R89, R96 to R98, R101, R102, R137, R142, R189). -/

namespace Sys2Proof.Machine
open Sys2Proof

/-! ### Issue (R64, R66, R97, R98, R139) -/

/-- A check point that falls in the present pc at the latest and finds an entry that is no instruction of its stream raises
F-0309 (R89). -/
def State.checkCodes (s : State) (t : Nat) (e : Eng) : State :=
  let x := (s.tile t).stream e
  let g := s.plan.geyser
  let bad (fr : Front) : Bool := !fr.stop && match x.entry fr.seq g with
    | some q => !knownOp (opcodeOf q.word) e && fr.issuePc (iwordOf q.word).wait.toNat ≤ g + 24
    | none => false
  if !s.streamLive t x then s
  else match x.fronts.find? bad with
    | none => s
    | some fr =>
      (s.modStream t e fun y => { y with fronts := y.fronts.map fun z => if z = fr then { z with stop := true } else z }).faultHold
        (s.instrFault t e 0x309 fr.pc)

/-- The instruction of a stream that holds a resource longest from the present pc on, as (first free pc, program counter)
(R98). -/
def State.holder (s : State) (t : Nat) (e : Eng) (res : Nat) : Option (Nat × Nat) :=
  (((s.tile t).stream e).flights.filter (·.issued)).foldl (fun a f =>
    match (({ s := s, t := t, e := e, f := f } : Ctx).plan.holds.find? fun h => h.1 = res) with
    | none => a
    | some h =>
      let free := f.at_ (f.p + h.2 - 1) + 1
      if h.2 = 0 || free ≤ max s.plan.geyser ((a.map (·.1)).getD 0) then a else some (free, f.pc)) none

/-- The resource that an instruction wants and that stays held longest (R98). -/
def State.blocker (s : State) (t : Nat) (e : Eng) (wants : List Nat) : Option (Nat × Nat) :=
  wants.foldl (fun a r => match a, s.holder t e r with
    | some x, some y => if x.1 < y.1 then some y else some x
    | none, y => y
    | x, none => x) none

/-- An instruction as it issues: it reads the registers that it reads at issue, and MX.MMA takes its weight slot (R96,
R108). -/
def State.issued (s : State) (t : Nat) (e : Eng) (f : Flight) : Flight :=
  let x := (s.tile t).stream e
  { f with
    issued := true
    aIss := x.a
    sIss := x.s
    slot := (s.tile t).wslot (bit f.w.ops 15) }

/-- An instruction issues: it leaves the queue, and starts at once or when the resource it wants is free (R64, R98, R139). -/
def State.issue (s : State) (t : Nat) (e : Eng) (f : Flight) : State :=
  let f' := s.issued t e f
  let c : Ctx := { s := s, t := t, e := e, f := f' }
  let g := s.plan.geyser
  let s' := s.modStream t e fun y => { y with
    queue := y.queue.filter fun q => !(f.drop.any fun d => d.1 ≤ q.seq && q.seq ≤ d.2)
    fendAt := if f.w.fend then some f.p else y.fendAt
    flights := y.flights.map fun z => if z.is f then f' else z }
  match c.plan.issueFault with
  | some r => (s'.modStream t e fun y => { y with flights := y.flights.filter fun z => !z.is f }).faultHold r.1 r.2
  | none => match s.blocker t e c.plan.wants with
    | none => s'
    | some (free, pc) =>
      (s'.conflict c.part 3 0 (t, e.num, BitVec.ofNat 32 pc) (t, e.num, BitVec.ofNat 32 f.pc)).modFlight c fun z =>
        { z with shifts := z.shifts ++ [(f.p, free - g)] }

/-- The instruction of a stream that issues in the present pc, if any. -/
def State.issueStream (s : State) (t : Nat) (e : Eng) : State :=
  match ((s.tile t).stream e).flights.find? fun f => !f.issued && decide (f.p = s.plan.geyser) with
  | some f => s.issue t e f
  | none => s

/-- Accesses that were not served in an earlier pc are taken up in this one. -/
def State.takeRetries (s : State) (j : Job) : State :=
  if j.c.f.retry.isEmpty then s else s.modFlight j.c fun f => { f with retry := [] }

/-! ### Mesh beats (R75 to R79) -/

/-- Two beats meet at a port: F-0302 names both senders, a tile's ejection port or a fabric port (R15, R77, R492). -/
def State.portConflict (s : State) (port : Nat) (a b : Ctx) : State :=
  if port < 256 then s.conflict b.part 2 port a.who b.who else s.conflict b.part 5 (port - 256) a.who b.who

/-- The beats of the present pc so far: the machine, the ports taken, and the instructions with the beats that were taken. -/
structure Beats where
  s : State
  ports : List (Nat × Ctx)
  jobs : List Job

/-- The beats of one instruction: a port that has taken one in this pc takes no other (R77). -/
def Beats.serve (b : Beats) (j : Job) : Beats :=
  let due := j.pl.beats.filter fun x => j.due b.s.plan.geyser 3 x.1 x.2
  due.foldl (fun b x =>
    match b.ports.find? fun y => y.1 = x.2 with
    | some y => { b with s := (b.s.portConflict x.2 y.2 j.c).delay j.c 3 x.1 x.2 }
    | none => { b with
        ports := b.ports ++ [(x.2, j.c)]
        jobs := b.jobs.map fun k => if k.c.t = j.c.t && decide (k.c.e = j.c.e) && k.c.f.is j.c.f then
          { k with beats := k.beats ++ [x] } else k }) { b with jobs := b.jobs ++ [j] }

/-- The step sequencer as a record names it: no tile and no engine (R15, R491). -/
def seqWho : Nat × Nat × BitVec 32 := (0xFF, 3, 0xFFFFFFFF)

/-- A beat of the step sequencer comes after those of every tile: where the tile's port has taken one in this pc, it comes in
the next (R15, R77). -/
def Beats.serveSeq (b : Beats) (t : Nat) : Beats :=
  let g := b.s.plan.geyser
  match b.ports.find? fun y => y.1 = t with
  | none => b
  | some y =>
    if (b.s.tile t).seqBeats.any fun x => x.1 = g then
      { b with s := (b.s.conflict (b.s.tile t).part.toNat 2 t y.2.who seqWho).modTile t fun z =>
          { z with seqBeats := z.seqBeats.map fun x => if x.1 = g then (g + 1, x.2) else x } }
    else b

/-- The packet that an MV.FSEND queues with the first of its beats that the port takes (R118, R326). -/
def State.sendPacket (s : State) (j : Job) : State :=
  match j.pl.send with
  | none => s
  | some x =>
    if (j.beats.any fun b => b.1 = x.pc) && !x.needs.any j.c.lost then s.sendP j.c.part (x.pkt ()) s.plan.geyser else s

/-! ### Bank accesses (R55 to R57, R61 to R63) -/

/-- The kinds of planned bank access, as an access not served names them. -/
inductive UseKind where
  | read | write | landing | fetch | seq
  deriving DecidableEq, Repr

/-- The number of a kind among the accesses that were not served. -/
def UseKind.num : UseKind → Nat
  | .read => 0
  | .write => 1
  | .landing => 2
  | .fetch => 5
  | .seq => 6

/-- One planned access to a bank in the present pc: tile and word, who asks, and the pc at which the plan puts it. -/
structure Use where
  d : Nat
  word : Nat
  c : Ctx
  kind : UseKind
  q : Nat
  empties : Bool := false
  out : Option Out := none

/-- The requester as a record names it: an engine of the tile, or none for its fetch and its ejection port (R15, R492). -/
def Use.who (u : Use) : Nat × Nat × BitVec 32 :=
  match u.kind with
  | .read | .write => u.c.who
  | .seq => seqWho
  | _ => (u.d, 3, BitVec.ofNat 32 u.c.f.pc)

/-- The unit number of a write (R15). -/
def Use.unit (u : Use) : Nat := if u.kind = .landing || u.kind = .seq then 4 else u.c.e.num

/-- The accesses of an instruction to its own tile. -/
def Job.ownUses (j : Job) (g : Nat) : List Use :=
  ((j.pl.reads.filter fun r => j.due g 0 r.pc r.word).map fun r =>
    { d := j.c.t, word := r.word, c := j.c, kind := .read, q := r.pc, empties := r.empties })
  ++ ((j.pl.writes.filter fun o => j.due g 1 o.due o.word).map fun o =>
    { d := j.c.t, word := o.word, c := j.c, kind := .write, q := o.due, out := some o })

/-- The words that land with beats of the present pc, and those whose bank did not take them before. -/
def Job.landings (j : Job) : List Use :=
  (j.pl.lands.filter fun l => j.beats.contains (l.2.due, l.1) || j.c.f.retry.contains (2, l.2.due, l.2.word)).map fun l =>
    { d := l.1, word := l.2.word, c := j.c, kind := .landing, q := l.2.due, out := some l.2 }

/-- The code word that a fetch slot of the present pc reads (R65); the slot of a stream that waits or has no room is lost. -/
def State.fetchUse (s : State) (t : Nat) (e : Eng) : List Use :=
  let x := (s.tile t).stream e
  if x.fetchSlots = 0 || x.fetchStop || x.halted || 512 < x.queue.length + 4 then []
  else [{ d := t, word := x.codeWord, kind := .fetch, q := s.plan.geyser,
          c := { s := s, t := t, e := e, f := { Flight.reset with pc := x.fetchPc } } }]

/-- The words that the step sequencer's beats land in a tile in the present pc, with mode WS (R250). -/
def State.seqUses (s : State) (t : Nat) : List Use :=
  ((s.tile t).seqBeats.filter fun x => x.1 = s.plan.geyser).map fun x =>
    { d := t, word := x.2.1, kind := .seq, q := x.1, c := { s := s, t := t, e := .mv, f := Flight.reset }
      out := some { due := x.1, word := x.2.1, lat := 0, data := some fun _ => x.2.2, full := some true } }

/-- The step sequencer's beats of the present pc have ejected. -/
def State.passBeats (s : State) (t : Nat) : State :=
  if (s.tile t).seqBeats.isEmpty then s
  else s.modTile t fun x => { x with seqBeats := x.seqBeats.filter fun y => y.1 ≠ s.plan.geyser }

/-- The accesses of the present pc in R15's order: engines, fetch, ejection, and the step sequencer. -/
def State.uses (s : State) (ts : List Nat) (jobs : List Job) : List Use :=
  (jobs.flatMap fun j => j.ownUses s.plan.geyser) ++ (ts.flatMap fun t => engines.flatMap fun e => s.fetchUse t e)
    ++ jobs.flatMap Job.landings ++ ts.flatMap s.seqUses

/-- The banks in the present pc so far: the machine and the accesses that were served. -/
structure Served where
  s : State
  uses : List Use

/-- The two accesses are one: an instruction reads the word once. -/
def Use.same (a b : Use) : Bool :=
  a.kind = .read && b.kind = .read && a.word = b.word && a.c.t = b.c.t && decide (a.c.e = b.c.e) && a.c.f.is b.c.f

/-- An access that its bank does not serve in this pc; a fetch slot comes again in the next (R15). -/
def State.notServed (s : State) (u : Use) : State :=
  match u.kind, u.out with
  | .fetch, _ => s
  | .seq, some o => s.modTile u.d fun x => { x with
      seqBeats := x.seqBeats ++ [(u.q + 1, u.word, (o.data.map fun d => d ()).getD 0)] }
  | _, _ => s.delay u.c u.kind.num u.q u.word

/-- One access: its bank serves it unless it has served another in this pc (R15, R55). A planned access in the bank's open
window is served and recorded (R56). A fetch finds the bank that a host access has taken at its check point (R83). -/
def Served.serve (r : Served) (u : Use) : Served :=
  let b := u.word % 64
  let part := (r.s.tile u.d).part.toNat
  match r.uses.find? fun v => v.d = u.d && v.word % 64 = b with
  | some v =>
    if v.same u then r
    else { r with s := (r.s.conflict part 0 b v.who u.who).notServed u }
  | none =>
    if u.kind = .fetch && r.s.bankTaken u.d b && (r.s.tile u.d).winActive.isSome then { r with s := r.s.raiseCause 0x7 (.hostAccess u.d) }
    else
      { s := if r.s.inWindow part b r.s.plan.geyser then r.s.windowConflict part b u.d u.who.2.1 u.who.2.2 else r.s
        uses := r.uses ++ [u] }

/-- What a read delivers: nothing where the word holds an uncorrectable error or poison, else its data; the corrector counts
a corrected word (R61, R63). -/
def State.readWord (s : State) (t w unit : Nat) (pc : BitVec 32) : Option Line × State :=
  let x := s.tile t
  if nsHas w x.bad || nsHas w x.poison then (none, s.tileUE t w unit pc)
  else (some (Memory.readLine x.mem w), if nsHas w x.correctable then s.modTile t fun y => y.corrected w else s)

/-- A served read: what it delivered is kept with the word's bit, and RFE empties the word (R70, R93). A served fetch:
the code word is in the queue 6 pc later (R65, R69). -/
def State.makeRead (s : State) (u : Use) : State :=
  let r := s.readWord u.d u.word u.who.2.1 u.who.2.2
  match u.kind with
  | .read =>
    let s := r.2.noteRead u.c { pc := u.q, word := u.word, data := r.1, full := nsHas u.word (s.tile u.d).full }
    if u.empties then s.modTile u.d fun y => { y with full := nsDel u.word y.full } else s
  | .fetch => r.2.modStream u.d u.c.e fun x => match r.1 with
      | some d => x.takeCode d (s.plan.geyser + 6)
      | none => x
  | _ => s

/-- A served write or landing: the word, its bit, the digest, the ER flag, and the watch or barrier that it meets (R69, R72,
R141, R142, R296). A write of what was not read is not made (R63). -/
def State.makeWrite (s : State) (u : Use) : State :=
  match u.out with
  | none => s
  | some o =>
    if o.needs.any u.c.lost || !o.ok () then s
    else
      let x := o.write s.plan.geyser u.unit (BitVec.ofNat 32 u.c.f.pc)
      if u.c.f.withheld.contains (u.q, u.word) then s.modTile u.d fun y => y.fold true x
      else
        let s := (s.syncConflict u.d (min u.unit 3) x.pc u.word).modTile u.d fun y => y.land x
        if o.er () then s.erEvent u.d else s

/-- The fetch slots of the present pc have passed, but those whose bank did not serve them (R65). -/
def State.passSlots (s : State) (served : List Use) (before : State) (t : Nat) (e : Eng) : State :=
  if ((s.tile t).stream e).fetchSlots = 0 then s
  else if !(before.fetchUse t e).isEmpty && !(served.any fun u => u.kind = .fetch && u.d = t && decide (u.c.e = e)) then s
  else s.modStream t e fun x => { x with fetchSlots := x.fetchSlots - 1 }

/-- The bank accesses of the present pc: reads as the pc finds the words, then writes in the order of their words (R69,
R142). -/
def State.banks (s : State) (ts : List Nat) (jobs : List Job) : State :=
  let r := (s.uses ts jobs).foldl Served.serve { s := ts.foldl State.passBeats s, uses := [] }
  let s' := r.uses.foldl State.makeRead r.s
  let s' := (sortBy (fun a b => a.word < b.word) (r.uses.filter fun u => u.out.isSome)).foldl State.makeWrite s'
  ts.foldl (fun a t => engines.foldl (fun a e => a.passSlots r.uses s t e) a) s'

/-! ### Stack accesses (R183, R184, R188, R189) -/

/-- The pseudo-channels in the present pc so far: the machine, and those that have taken an access. -/
structure Chans where
  s : State
  taken : List (Nat × Ctx)

/-- One access arrives at its pseudo-channel: a read keeps what it delivers, a write is complete 150 pc later (R183, R184,
R188). -/
def State.arriveAt (s : State) (c : Ctx) (a : StackAcc) : State :=
  let g := s.plan.geyser
  match a.data with
  | some d =>
    if a.needs.any c.lost then s
    else s.admitWrite a.chan { PendWrite.reset with due := g + 150, word := a.word, data := some (d ()) }
  | none =>
    let ch := s.pch a.chan
    let got (d : Option Line) : Got := { pc := a.pc, word := 65536 + a.ix, data := d, full := false }
    if ch.unreadable a.word g then
      (((s.stackUE a.chan a.word (some c.part)).raiseCause 0x1 (.memErr c.part a.chan a.word)).noteRead c (got none))
    else
      let s := match ch.ceDie a.word with
        | some d => s.stackCE a.chan a.word d
        | none => s
      s.noteRead c (got (some (ch.wordAtPc a.word g)))

/-- The stack accesses of one instruction: a pseudo-channel takes one in a pc (R189). -/
def Chans.serve (r : Chans) (j : Job) : Chans :=
  (j.pl.stack.filter fun a => j.due r.s.plan.geyser 4 a.pc a.ix).foldl (fun r a =>
    match r.taken.find? fun y => y.1 = a.chan with
    | some y => { r with s := (r.s.conflict j.c.part 4 a.chan y.2.who j.c.who).delay j.c 4 a.pc a.ix }
    | none => { s := r.s.arriveAt j.c a, taken := r.taken ++ [(a.chan, j.c)] }) r

/-- A word of the step sequencer that arrives at a pseudo-channel in this pc comes after the tile's access: it arrives in the
next (R15, R189). -/
def State.seqClash (s : State) (y : Nat × Ctx) : State :=
  let late (w : PendWrite) : Bool := w.unit = 6 && w.due = s.plan.geyser + 150
  if (s.pch y.1).pend.any late then
    (s.conflict y.2.part 4 y.1 y.2.who seqWho).modPch y.1 fun c => { c with
      pend := c.pend.map fun w => if late w then { w with due := w.due + 1 } else w }
  else s

/-- The stack accesses of the present pc. -/
def State.stacks (s : State) (jobs : List Job) : State :=
  let r := jobs.foldl Chans.serve { s := s, taken := [] }
  r.taken.foldl State.seqClash r.s

/-! ### What else happens in the pc -/

/-- The other effects that the plan puts at the present pc (R104, R118, R143, R178, R202, R299). -/
def State.act (s : State) (j : Job) : State :=
  (j.pl.acts.filter fun a => j.c.f.at_ a.1 = s.plan.geyser).foldl (fun s a => a.2 s) s

/-- A planned use that will find its bank taken by a committed host access raises HOST_ACCESS at its check point (R83). -/
def State.hostCheck (s : State) (j : Job) : State :=
  let g := s.plan.geyser
  j.bankUses.foldl (fun s u =>
    let x := s.tile u.2.1
    match x.winAt, x.winQueue with
    | some q, r :: _ =>
      if q < u.1 && u.1 ≤ q + 3 && u.2.2 % 64 = r.word % 64 && (u.1 = g + 24 || (j.c.f.chk = g && u.1 ≤ g + 24)) then
        s.raiseCause 0x7 (.hostAccess u.2.1)
      else s
    | _, _ => s) s

/-- A committed host access has its pc (R83); taken windows end with their fourth pc (R56). -/
def State.windowPc (s : State) (t : Nat) : State :=
  let x := s.tile t
  let g := s.plan.geyser
  let s := if x.winAt ≠ some g then s else match x.winQueue with
    | r :: _ => ((s.takeWindow t (r.word % 64)).serveWindow t r).beginWindow t 3 false
    | [] => s.modTile t fun y => { y with winAt := none }
  s.modTile t fun y => { y with windows := y.windows.filter fun w => g + 1 < w.start + 4 }

/-! ### The end of the pc: results, branches and completion (R64, R95, R96, R99, R101, R102, R107, R137) -/

/-- A register result written; A0 takes none (R95, R96). -/
def Stream.takeReg (x : Stream) (r : RegOut) : Stream :=
  if r.scalar then { x with s := vset x.s r.idx (r.val ()) }
  else if r.idx = 0 then x
  else { x with a := vset x.a r.idx (r.val ()) }

/-- The results that are visible from the next pc on: registers and a loaded weight slot (R96, R107). -/
def State.results (s : State) (j : Job) : State :=
  let next := s.plan.geyser + 1
  let s := (j.pl.regs.filter fun r => j.c.f.at_ r.due = next && !r.needs.any j.c.lost).foldl (fun s r =>
    s.modStream j.c.t j.c.e fun x => x.takeReg r) s
  match j.pl.load with
  | none => s
  | some l =>
    if j.c.f.at_ l.due = next && !l.needs.any j.c.lost then
      s.modTile j.c.t fun y => y.setSlot l.slot { l.val () with readyAt := next }
    else s

/-- The path element of a CT.BBR at `p` that takes arm T or not leaves a path. -/
def dropPath (p : Nat) (l : List (Nat × Bool)) : List (Nat × Bool) := l.filter fun x => x.1 ≠ p

/-- A CT.BBR has chosen: check points and instructions of the other arm are gone, with the causes that they raised, and its
places in fetch order leave the queue or do not enter it; in a loop the queue keeps the body (R101, R137, R514; DEDUCED,
notes/assumptions/60.md). -/
def State.takeArm (s : State) (t : Nat) (e : Eng) (f : Flight) (lt lf : Nat) (takesT : Bool) : State :=
  let x := (s.tile t).stream e
  let other := (f.p, !takesT)
  let lo := if takesT then f.seq + lt + 1 else f.seq + 1
  let hi := if takesT then f.seq + lt + lf else f.seq + lt
  let s := (x.fronts.filter fun fr => fr.path.contains other).foldl (fun s fr => s.clearCause (.lateUse t e.num fr.pc)) s
  s.modStream t e fun y =>
    let y := { y with
      fronts := (y.fronts.filter fun fr => !fr.path.contains other).map fun fr => { fr with path := dropPath f.p fr.path }
      flights := (y.flights.filter fun z => !z.path.contains other).map fun z => { z with path := dropPath f.p z.path } }
    if f.drop.isEmpty then y else y.dropPlaces lo hi

/-- Where the stream of an instruction that issued in the present pc goes on (R99, R101, R102, R137). -/
def State.follow (s : State) (j : Job) : State :=
  let f := j.c.f
  if !f.issued || f.p ≠ s.plan.geyser then s
  else match j.pl.flow with
    | .halt => s.modStream j.c.t j.c.e fun x => { x with halted := true }
    | .frame target => s.modStream j.c.t j.c.e fun x => { x with
        fronts := [{ Front.reset with pc := target, seq := x.fetchSeq, last := f.p }]
        queue := []
        skips := []
        fetchPc := target
        fetchStop := false }
    | .branch lt lf takesT => s.takeArm j.c.t j.c.e f lt lf takesT
    | _ => s

/-- A complete instruction is in flight no more (R29, R69). -/
def State.retire (s : State) (j : Job) : State :=
  if j.c.f.issued && j.c.f.at_ j.pl.done ≤ s.plan.geyser && j.c.f.retry.isEmpty then
    s.modStream j.c.t j.c.e fun x => { x with flights := x.flights.filter fun y => !y.is j.c.f }
  else s

/-- One pc of the tiles: the count is still that of the pc (R15, R69). -/
def State.runPc (s : State) : State :=
  let ts := s.busyTiles
  if ts.isEmpty then s
  else
    let s := ts.foldl (fun s t => engines.foldl (fun s e => (s.checkCodes t e).issueStream t e) s) s
    let jobs := s.jobs ts
    let s := jobs.foldl State.takeRetries s
    let b := ts.foldl Beats.serveSeq (jobs.foldl Beats.serve { s := s, ports := [], jobs := [] })
    let s := b.s.banks ts b.jobs
    let s := b.jobs.foldl State.sendPacket s
    let s := s.stacks b.jobs
    let s := (s.jobs ts).foldl State.act s
    let s := ts.foldl State.windowPc ((s.jobs ts).foldl State.hostCheck s)
    let last := s.jobs ts
    let s := (last.foldl State.results s)
    let s := last.foldl State.follow s
    last.foldl State.retire s

end Sys2Proof.Machine
end

