-- ==== Sys2Proof/Machine/Tile.lean ====
section
/-! DEFINITION. Fetch slots, parity replay, error correction, scrubbing and the host window of a tile (R54 to R86). -/

namespace Sys2Proof.Machine
open Sys2Proof

/-- The plan has a fetch slot of the stream in the present pc (R65). -/
def State.isFetchSlot (s : State) (t : Nat) (e : Eng) : Bool :=
  let x := s.tile t
  let p := x.part.toNat
  let l := max 1 (s.frameLen p)
  match (s.img p).bind fun i => i.streams.find? fun c => c.ltile = x.logical.toNat && c.engine = e.num with
  | some c => c.slots.contains ((s.plan.geyser + l - s.frameZero p % l) % l)
  | none => false

/-- INSTRUCTION_FETCH (R65, R68): a fetch slot of the stream comes in the present pc; none comes while the counter stands. -/
def execInstructionFetch (t : TileId) (e : Eng) (s : State) : Host.Outcome State Fault Refusal :=
  if !s.running || !(s.tile t).bound || !s.isFetchSlot t e then .next s
  else .next (s.modStream t e fun x => { x with fetchSlots := x.fetchSlots + 1 })

/-! ### Parity and replay (R71 to R74) -/

/-- A failed check counted and recorded (R84). -/
def Tile.countParity (t : Tile) (source : BitVec 2) (queue : Bool) (attempt : Nat) (pc : BitVec 32) : Tile :=
  { t with
    parityCount := satInc t.parityCount
    parityLast := BitVec.ofNat 5 (source.toNat + bn queue * 4 + attempt * 8)
    parityPc := pc }

/-- The engine of a parity source. -/
def engOf (source : BitVec 2) : Eng := if source = 0#2 then .mx else if source = 1#2 then .vx else .mv

/-- The writes that come in the present pc from instruction `pc` of a source, with the instructions that make them: an
engine's, or those that land in the tile (R71, R72). -/
def State.failing (s : State) (t : Nat) (source : BitVec 2) (pc : BitVec 32) : List (Ctx × Out) :=
  let g := s.plan.geyser
  (s.jobs s.busyTiles).flatMap fun j =>
    if BitVec.ofNat 32 j.c.f.pc ≠ pc then []
    else if source = 3#2 then
      ((j.pl.lands.filter fun l => l.1 = t && j.c.f.at_ l.2.due = g).map fun l => (j.c, l.2))
    else if j.c.t = t && j.c.e.num = source.toNat then
      ((j.pl.writes.filter fun o => j.due g 1 o.due o.word).map fun o => (j.c, o))
    else []

/-- The entry of instruction `pc` is decoded in the present pc (R71). -/
def State.decoding (s : State) (t : Nat) (e : Eng) (pc : Nat) : Bool :=
  let x := (s.tile t).stream e
  x.fronts.any fun fr => fr.pc = pc && match x.entry fr.seq s.plan.geyser with
    | some q => s.checksAt t e fr (fr.issuePc (iwordOf q.word).wait.toNat)
    | none => false

/-- The replay of R73 in clk: L + 56, or 64 for a queue entry. -/
def replayClk (queue : Bool) (l : Nat) : Nat := if queue then 64 else l + 56

/-- A check fails (R72): what the instruction writes in the present pc is held back, and a PARITY episode is raised. -/
def State.parityDetect (s : State) (t : Nat) (source : BitVec 2) (queue : Bool) (pc : BitVec 32) : State :=
  let ws := if queue then [] else s.failing t source pc
  let found := if queue then source ≠ 3#2 && s.decoding t (engOf source) pc.toNat else !ws.isEmpty
  if !s.running || !found then s
  else
    let l := if source = 3#2 then 96 else ((ws.head?).map fun x => x.2.lat).getD 0
    let unit := if source = 3#2 then 4 else source.toNat
    let f : ParityFail := {
      source := source
      queue := queue
      pc := pc
      attempt := 1
      writes := ws.map fun x => x.2.write s.plan.geyser unit pc
      er := ws.any fun x => x.2.er ()
      latency := l
      endAt := s.wall + replayClk queue l * s.clkTu }
    let s := ws.foldl (fun s x => s.modFlight x.1 fun f => { f with withheld := f.withheld ++ [(x.2.due, x.2.word)] }) s
    (s.modTile t fun y => { y.countParity source queue 1 pc with parityFails := y.parityFails ++ [f] }).raiseCause 0x5 (.parity t)

/-- The replay in progress of a source ends (R73, R74). -/
def State.parityFinish (s : State) (t : Nat) (source : BitVec 2) (ok : Bool) : State :=
  let x := s.tile t
  match x.parityFails.find? fun f => f.source = source && f.endAt ≤ s.wall with
  | none => s
  | some f =>
    if ok then
      let s := s.modTile t fun y => { f.writes.foldl (fun y w => y.put w) y with parityFails := y.parityFails.erase f }
      let s := (if f.er then s.erEvent t else s).releaseFolds t
      if (s.tile t).parityFails.isEmpty then s.clearCause (.parity t) else s
    else
      let n := f.attempt + 1
      let s := s.modTile t fun y => { y.countParity source f.queue n f.pc with
        parityFails := if n ≥ 3 then y.parityFails.erase f
          else y.parityFails.map fun g => if g = f then { f with
            attempt := n
            endAt := s.wall + replayClk f.queue f.latency * s.clkTu } else g }
      if n ≥ 3 then
        let s : State := { s with map := { s.map with tileFailed := s.map.tileFailed ||| BitVec.ofNat 160 (2 ^ t) } }
        s.faultHold ((s.fault 0x202 1 f.pc.toNat (some x.part.toNat)).waits t (min source.toNat 3) f.pc)
      else s

/-- PARITY_REPLAY (R72 to R74): a check fails, or the replay in progress ends. -/
def execParityReplay (t : TileId) (ev : ParityEv) (s : State) : Host.Outcome State Fault Refusal :=
  match ev with
  | .detect source queue pc => .next (s.parityDetect t source queue pc)
  | .finish source ok => .next (s.parityFinish t source ok)

/-! ### Open windows (R56, R57, R61, R62) -/

/-- The bank's open window begins in the present pc, no unplanned user has taken it, and no planned access falls in it
(R56, R57). -/
def State.windowFree (s : State) (t b : Nat) : Bool :=
  let part := (s.tile t).part.toNat
  let g := s.plan.geyser
  s.running && s.inWindow part b g && (g + 256 - s.frameZero part % 256) % 4 = 0 && !s.bankTaken t b && !s.bankPlanned t b g (g + 3)

/-- A corrected word of the bank waits to be written back. -/
def Tile.writeBackWaits (t : Tile) (b : Nat) : Bool := t.writeBacks.any fun w => w % 64 = b

/-- TILE_ECC_WRITEBACK (R61): a word that a read has corrected goes back in its bank's open window. -/
def execTileEccWriteback (t : TileId) (word : WordIx) (s : State) : Host.Outcome State Fault Refusal :=
  if nsHas word (s.tile t).writeBacks && s.windowFree t (word % 64) then
    .next ((s.takeWindow t (word % 64)).modTile t fun x => { x with
      correctable := nsDel word x.correctable
      writeBacks := nsDel word x.writeBacks })
  else .next s

/-- TILE_SCRUB_READ (R57, R61 to R63): the scrubber reads the next word of a bank, after write-backs and window accesses. -/
def execTileScrubRead (t : TileId) (bank : BankIx) (s : State) : Host.Outcome State Fault Refusal :=
  let x := s.tile t
  let w := x.scrubRow.toNat * 64 + bank.val
  let busy := x.writeBackWaits bank || x.winQueue.head?.any fun r => r.openOnly && r.word % 64 = bank.val
  if x.state = 0#3 || busy || nsHas bank x.scrubDone || !s.windowFree t bank then .next s
  else
    let s := (s.takeWindow t bank).modTile t fun y =>
      let d := nsIns bank y.scrubDone
      { y.corrected w with
        scrubDone := if d.length = 64 then [] else d
        scrubRow := if d.length = 64 then y.scrubRow + 1 else y.scrubRow }
    if nsHas w x.bad then .next (s.tileUE t w 3 0xFFFFFFFF) else .next s

/-! ### The data window (R81 to R85) -/

/-- A window access that reaches the tile waits for its bank; a disabled tile's aperture and one being scrubbed take none
(R81, R412). -/
def State.queueWindow (s : State) (t : Nat) (rs : List WinReq) : State :=
  s.modTile t fun x => if x.state = 0#3 || x.state = 5#3 then x else { x with
    winQueue := x.winQueue ++ rs.map fun r => { r with openOnly := x.openOnly, arrived := s.plan.geyser } }

/-- Word and byte of a window offset: words WIN_BASE to WIN_BASE + 31 (R82). -/
def Tile.windowAt (t : Tile) (off : Nat) : Nat × Nat := ((t.winBase.toNat + (off - 0x800) / 64) % 65536, off % 64)

/-- A read of the data window (R81, R82, R412): the buffered word is served at once; any other waits for its bank. -/
def State.winRead (s : State) (t off : Nat) (dbl : Bool) : State :=
  let x := s.tile t
  let n := if dbl then 8 else 4
  if off < 0x800 then s
  else if x.state = 0#3 || x.state = 5#3 || !s.ready then s.modTile t fun y => { y with winData := 0 }
  else
    let (w, o) := x.windowAt off
    match x.winBuf, x.winQueue with
    | some (v, d), [] =>
      if v = w then s.modTile t fun y => { y with winData := BitVec.ofNat 64 (bytesAt d o n), winPoison := false }
      else s.queueWindow t [{ WinReq.reset with word := w, kind := .read, byteOff := o, bytes := List.replicate n 0 }]
    | _, _ => s.queueWindow t [{ WinReq.reset with word := w, kind := .read, byteOff := o, bytes := List.replicate n 0 }]

/-- TILE_WIN_READ (R81, R82, R412, R480). -/
def execTileWinRead (t : TileId) (off : BitVec 12) (dbl : Bool) (s : State) : Host.Outcome State Fault Refusal :=
  .next (s.winRead t off.toNat dbl)

/-- A write of the data window (R82, R429): an 8-byte write is two 4-byte writes, the lower address first. -/
def State.winWrite (s : State) (t off val : Nat) (dbl : Bool) : State :=
  if off < 0x800 || !s.ready then s
  else
    let (w, o) := (s.tile t).windowAt off
    let one (o v : Nat) : WinReq := { WinReq.reset with word := w, kind := .write, byteOff := o, bytes := bytesOf 4 v }
    s.queueWindow t (one o val :: (if dbl then [one (o + 4) (val / 2 ^ 32)] else []))

/-- TILE_WIN_WRITE (R82, R429). -/
def execTileWinWrite (t : TileId) (off : BitVec 12) (val : BitVec 64) (dbl : Bool) (s : State) :
    Host.Outcome State Fault Refusal := .next (s.winWrite t off.toNat val.toNat dbl)

/-- One window access for each bit set: the window word's full/empty bit (R84). -/
def State.queueFe (s : State) (t : Nat) (kind : WinKind) (mask : BitVec 32) : State :=
  if !s.ready then s
  else s.queueWindow t ((bitsOf mask).map fun i =>
    { WinReq.reset with word := ((s.tile t).winBase.toNat + i) % 65536, kind := kind })

/-- TILE_FE_SET (R84). -/
def execTileFeSet (t : TileId) (mask : BitVec 32) (s : State) : Host.Outcome State Fault Refusal :=
  .next (s.queueFe t .setFull mask)

/-- TILE_FE_CLR (R84). -/
def execTileFeClr (t : TileId) (mask : BitVec 32) (s : State) : Host.Outcome State Fault Refusal :=
  .next (s.queueFe t .setEmpty mask)

/-- TILE_WIN_ACCESS (R57, R83): the oldest waiting window access starts, or is committed to a pc 24 pc ahead, where R83 lets
it. -/
def execTileWinAccess (t : TileId) (s : State) : Host.Outcome State Fault Refusal :=
  let x := s.tile t
  let g := s.plan.geyser
  let runs := x.bound && (s.pt x.part.toNat).launched.isSome
  match x.winQueue with
  | [] => .next s
  | r :: _ =>
    let b := r.word % 64
    if x.winActive.isSome || (x.winAt.isSome && (s.running || r.openOnly)) then .next s
    else if !runs then .next ((s.serveWindow t r).beginWindow t 4 false)
    else if r.openOnly then
      if s.windowFree t b && !x.writeBackWaits b then .next (((s.takeWindow t b).serveWindow t r).beginWindow t 4 false)
      else .next s
    else if !s.running then .next ((s.serveWindow t r).beginWindow t 4 true)
    else if s.bankPlanned t b (g + 24) (g + 24) then .next s
    else .next (s.modTile t fun y => { y with winAt := some (g + 24) })

end Sys2Proof.Machine
end

