-- ==== Sys2Proof/Machine/PlanTime.lean ====
section
/-! DEFINITION. Plan time: holds and their symbols, alignment, launch, frequency steps and thermal holds
(R25 to R53, R345 to R347). -/

namespace Sys2Proof.Machine
open Sys2Proof

/-- A register write reaches a block only once firmware is ready (R480). -/
def State.ifReady (s : State) (f : State → State) : State := if s.ready then f s else s

/-! ### Hold and release symbols (R36, R345 to R347) -/

/-- An inline unit of TYPE `ty` that passes CHECK and has no reserved bit set (R345). -/
def unitOk (ty : Nat) (u : BitVec 64) : Bool :=
  field u 63 60 = ty && !bit u 58 && (u.setWidth 8 = inlineCheck u) && (ty = 5 || field u 11 8 = 0)

/-- JOB of a header unit. -/
def unitJob (u : BitVec 64) : BitVec 8 := BitVec.ofNat 8 (field u 56 49)
/-- ORIGIN of a header unit, as a chip address. -/
def unitOrigin (u : BitVec 64) : BitVec 24 := addrOf (BitVec.ofNat 14 (field u 48 35))
/-- EPISODE or sequence number of a header unit. -/
def unitNum (u : BitVec 64) : BitVec 8 := BitVec.ofNat 8 (field u 34 27)
/-- PATH of a header unit. -/
def unitPath (u : BitVec 64) : Nat := field u 26 12
/-- DATA of a PAYLOAD unit, 49 bits. -/
def unitData (u : BitVec 64) : Nat := field u 56 8

/-- A PAYLOAD unit (R345). -/
def payloadUnit (more : Bool) (data : Nat) : BitVec 64 :=
  sealUnit (BitVec.ofNat 64 (5 <<< 60 + bn more <<< 59 + (data % 2 ^ 49) <<< 8))

/-- The two PAYLOAD units of a 98-bit value, low unit first (R345). -/
def payloadUnits (v : Nat) : List (BitVec 64) := [payloadUnit true v, payloadUnit false (v / 2 ^ 49)]

/-- The symbol is this job's, comes by an active job port, and is no echo of this chip's own (R36). -/
def State.takesSymbol (s : State) (n : Nat) (u : BitVec 64) : Bool :=
  s.jobPort n && s.fab.jobValid && unitJob u = s.fab.job && unitOrigin u ≠ s.selfOrigin

/-- d(o) without the 24 clk, in wall units (R347). -/
def State.distTo (s : State) (origin : BitVec 24) : Nat :=
  (s.activeParts.findSome? fun p =>
    ((s.pt p).stage.dist.find? fun d => d.1 = coordOf origin).map (·.2)).getD 0

/-- Elapsed time of a symbol since its origin raised the episode: PATH and the calibrated hop without the queue allowance
of 6.4 ns (R347). -/
def State.elapsed (s : State) (n : Nat) (u : BitVec 64) : Nat :=
  unitPath u * s.clkTu + (tu64 (s.link n).calHold.toNat - 2 * tuCodeword)

/-- Wall time left until a symbol's elapsed time reaches d(o), or how late it is already. -/
def State.symbolDue (s : State) (n : Nat) (u : BitVec 64) : Nat × Nat :=
  let d := s.distTo (unitOrigin u) + s.ownDelay
  let e := s.elapsed n u
  (d - e, e - d)

/-- The first clk edge at or after a moment lies this many clk before the present (R347). -/
def lateClk (late clk : Nat) : Nat := late / max 1 clk

/-- A late HOLD adds to the hold debt (R347). -/
def State.addDebt (s : State) (d : Nat) : State := { s with plan := { s.plan with debt := s.plan.debt + d } }

/-- A late RELEASE subtracts from the hold debt; a shortfall raises F-0105 (R347). -/
def State.subDebt (s : State) (d : Nat) (origin : BitVec 24) : State :=
  let s' : State := { s with plan := { s.plan with debt := s.plan.debt - d } }
  if d ≤ s.plan.debt then s'
  else
    let r := s'.fault 0x105 0xB origin.toNat
    s'.faultHold r (some (r.contWith (d - s.plan.debt)))

/-- HOLD_SYMBOL (R36, R345 to R347): the first copy of a HOLD of the job is forwarded and waits for d(o); a late one is
applied at once. `cause` is what the operator's view of R34 shows for the origin. -/
def execHoldSymbol (n : PortId) (unit : BitVec 64) (cause : BitVec 4) (s : State) : Host.Outcome State Fault Refusal :=
  let o := unitOrigin unit
  let k := unitNum unit
  if !unitOk 1 unit || !s.takesSymbol n unit || s.plan.holdSeen.contains (o, k, false) then .next s
  else
    let due := s.symbolDue n unit
    let e : Episode := { Episode.reset with
      origin := o
      num := k
      cause := cause
      applyAt := s.wall + due.1 }
    let s' : State := { s with plan := { s.plan with
      episodes := s.plan.episodes ++ [e]
      holdEpisodes := s.plan.holdEpisodes + 1
      holdSeen := seenIns s.plan.holdSeen (o, k, false) } }
    let s' := s'.flood n (holdSym s' false o k (s.wall - s.elapsed n unit))
    if due.2 = 0 then .next s' else .next ((s'.applyHold o k).addDebt (lateClk due.2 s.clkTu))

/-- RELEASE_SYMBOL (R36, R345 to R347). -/
def execReleaseSymbol (n : PortId) (unit : BitVec 64) (s : State) : Host.Outcome State Fault Refusal :=
  let o := unitOrigin unit
  let k := unitNum unit
  if !unitOk 2 unit || !s.takesSymbol n unit || s.plan.holdSeen.contains (o, k, true) then .next s
  else
    let due := s.symbolDue n unit
    let s' : State := { s with plan := { s.plan with
      episodes := s.plan.episodes.map fun e =>
        if e.origin = o && e.num = k then { e with released := true, releaseAt := s.wall + due.1 } else e
      holdSeen := seenIns s.plan.holdSeen (o, k, true) } }
    let s' := s'.flood n (holdSym s' true o k (s.wall - s.elapsed n unit))
    if due.2 = 0 then .next s' else .next ((s'.applyRelease o k).subDebt (lateClk due.2 s.clkTu) o)

/-- An episode known to this chip. -/
def State.episode (s : State) (origin : BitVec 24) (num : BitVec 8) : Option Episode :=
  s.plan.episodes.find? fun e => e.origin = origin && e.num = num

/-- HOLD_APPLY (R40, R347): the elapsed time of a HOLD has reached d(o); every clk past that edge goes to the debt. -/
def execHoldApply (origin : BitVec 24) (num : BitVec 8) (s : State) : Host.Outcome State Fault Refusal :=
  match s.plan.episodes.find? fun e => e.origin = origin && e.num = num && !e.counted with
  | some e =>
    if s.wall < e.applyAt then .next s
    else .next ((s.applyHold origin num).addDebt (lateClk (s.wall - e.applyAt) s.clkTu))
  | none => .next s

/-- RELEASE_APPLY (R40, R347): the elapsed time of a RELEASE has reached d(o). -/
def execReleaseApply (origin : BitVec 24) (num : BitVec 8) (s : State) : Host.Outcome State Fault Refusal :=
  match s.plan.episodes.find? fun e => e.origin = origin && e.num = num && e.counted && e.released with
  | some e =>
    if s.wall < e.releaseAt then .next s
    else .next ((s.applyRelease origin num).subDebt (lateClk (s.wall - e.releaseAt) s.clkTu) origin)
  | none => .next s

/-- EPISODE_RELEASE (R35): no local cause is left, so the origin releases its episode. -/
def execEpisodeRelease (s : State) : Host.Outcome State Fault Refusal :=
  if s.plan.localCauses.isEmpty then .next s.releaseOwn else .next s

/-- COUNTER_RESUME (R513). -/
def execCounterResume (s : State) : Host.Outcome State Fault Refusal := .next s.resume

/-! ### The hold limit (R42, R305) -/

/-- The length of an episode on this chip has reached PLAN.HOLD_LIMIT (R42). -/
def State.limitReached (s : State) (e : Episode) : Bool :=
  let since := e.counted || e.origin = s.selfOrigin
  s.plan.holdLimit ≠ 0 && e.cause ≠ 0xF#4 && !e.limitRaised && since && decide (e.countedAt + s.plan.holdLimit.toNat * tuUs ≤ s.wall)

/-- F-0403 for every partition whose stall was recorded in this own episode (R305). -/
def State.raiseStall (s : State) (num : BitVec 8) : State :=
  (List.range 16).foldl (fun s p =>
    let y := s.sy p
    if y.stallValid && y.stallEpisode = some num then
      s.logFault ((s.fault 0x403 3 (field y.stallObj 23 0) (some p)).waits y.stallTile.toNat y.stallEngine.toNat y.stallPc)
    else s) s

/-- F-0303 for one episode, once (R42). -/
def State.raiseLimit (s : State) (e : Episode) : State :=
  let s' : State := { s with plan := { s.plan with
    episodes := s.plan.episodes.map fun x => if x = e then { x with limitRaised := true } else x } }
  let s' := s'.logFault (s'.fault 0x303 0xB (e.origin.toNat + e.cause.toNat * 2 ^ 24))
  if e.origin = s.selfOrigin then s'.raiseStall e.num else s'

/-- HOLD_LIMIT (R42). -/
def execHoldLimit (origin : BitVec 24) (num : BitVec 8) (s : State) : Host.Outcome State Fault Refusal :=
  match s.plan.episodes.find? fun e => e.origin = origin && e.num = num && s.limitReached e with
  | some e => .next (s.raiseLimit e)
  | none => .next s

/-- PLAN.HOLD_LIMIT written: it takes effect at once on the episodes in progress (R42). -/
def State.writeHoldLimit (s : State) (v : BitVec 32) : State :=
  let s' : State := { s with plan := { s.plan with holdLimit := v.setWidth 20 } }
  (s'.plan.episodes.filter s'.limitReached).foldl (fun s e => s.raiseLimit e) s'

/-- HOLD_LIMIT_WRITE (R42). -/
def execHoldLimitWrite (val : BitVec 32) (s : State) : Host.Outcome State Fault Refusal :=
  .next (s.ifReady (·.writeHoldLimit val))

/-! ### Thermal holds (R49) -/

/-- The throttle level after one comparison. -/
def throttleNext (n tj temp maxLevel : Nat) : Nat :=
  if temp ≤ tj then min (n + 1) (max n maxLevel) else if tj + 3 ≤ temp then n - 1 else n

/-- THROTTLE_EVAL (R49): the comparison at a multiple of 2^16, and the THERMAL episode of its level. -/
def execThrottleEval (tj : BitVec 8) (s : State) : Host.Outcome State Fault Refusal :=
  if s.plan.geyser < s.plan.throttleEvalAt || !s.alive then .next s
  else
    let n := throttleNext s.plan.throttleLevel.toNat tj.toNat s.plan.throttleTemp.toNat s.plan.throttleMax.toNat
    let s' : State := { s with
      plan := { s.plan with
        throttleLevel := BitVec.ofNat 4 n
        throttleEvalAt := s.plan.throttleEvalAt + 65536 }
      pins := { s.pins with tj := tj }
      top := { s.top with tempC := tj } }
    if n = 0 || s.launchedParts.isEmpty then .next s'
    else
      let s' : State := { s' with plan := { s'.plan with thermalEnd := some (s.wall + n * 4096 * s.clkTu) } }
      .next (s'.raiseCause 0x6 .thermal)

/-- THERMAL_HOLD_END (R49): the injected cause has lasted n × 4,096 clk. -/
def execThermalHoldEnd (s : State) : Host.Outcome State Fault Refusal :=
  match s.plan.thermalEnd with
  | some e =>
    if s.wall < e then .next s
    else .next (({ s with plan := { s.plan with thermalEnd := none } } : State).clearCause .thermal)
  | none => .next s

/-- PLAN.THROTTLE written: a MAX_LEVEL below n lowers n at once (R49). -/
def State.writeThrottle (s : State) (v : BitVec 32) : State :=
  let m : BitVec 4 := BitVec.ofNat 4 (field v 15 12)
  { s with plan := { s.plan with
    throttleTemp := v.setWidth 8
    throttleMax := m
    throttleLevel := if m.toNat < s.plan.throttleLevel.toNat then m else s.plan.throttleLevel } }

/-- THROTTLE_WRITE (R49). -/
def execThrottleWrite (val : BitVec 32) (s : State) : Host.Outcome State Fault Refusal :=
  .next (s.ifReady (·.writeThrottle val))

/-! ### Alignment (R44) -/

/-- The counter set by alignment, in 1/16 pc; counts of R49 that it passes are not evaluated. -/
def State.setCount (s : State) (c16 : Nat) : State :=
  { s with plan := { s.plan with
    geyser := c16 / 16
    alignFrac := BitVec.ofNat 4 (c16 % 16)
    throttleEvalAt := ceilDiv (c16 / 16) 65536 * 65536
    state := 2
    alignOk := true } }

/-- An ALIGN or BARRIER symbol: a header and the two units of its value (R345). -/
def valueSym (s : State) (ty : Nat) (origin : BitVec 24) (num : BitVec 8) (v : Nat) : InlineSym :=
  { units := inlineUnit ty true false s.fab.job (coordOf origin) num 0 :: payloadUnits v
    born := none, copied := false }

/-- No launched plan keeps the counter from being set (R25, R44). -/
def State.mayAlign (s : State) : Bool := s.launchedParts.isEmpty && s.plan.state.toNat ≤ 2 && s.fab.jobValid

/-- The root sends its count on every job port, and is ALIGNED with it; any other chip is ALIGNED with the first symbol that it
takes, and no chip shows ALIGNING (R44, R51; DESIGN CHOICE, notes/assumptions/68.md). -/
def State.alignStart (s : State) : State :=
  if !s.mayAlign || !s.map.upRoot then s
  else
    let v := s.plan.geyser * 16 + s.plan.alignFrac.toNat
    let s' : State := { s with plan := { s.plan with
      nextSym := s.plan.nextSym + 1
      state := 2
      alignOk := true } }
    s'.flood 12 (valueSym s 3 s.selfOrigin s.plan.nextSym v)

/-- ALIGN_START (R44). -/
def execAlignStart (s : State) : Host.Outcome State Fault Refusal := .next s.alignStart

/-- The calibrated hop latency of a port in 1/16 pc, to the nearest (R44). -/
def State.hop16 (s : State) (n : Nat) : Nat := (tu64 (s.link n).calHold.toNat * 16 + s.clkTu / 2) / s.clkTu

/-- The three units of an ALIGN or BARRIER symbol pass and it is the first copy for this chip. -/
def State.takesValue (s : State) (ty n : Nat) (u lo hi : BitVec 64) : Bool :=
  unitOk ty u && unitOk 5 lo && unitOk 5 hi && bit u 59 && bit lo 59 && s.takesSymbol n u
    && !s.plan.symSeen.contains (decide (ty = 4), unitOrigin u, unitNum u)

/-- A symbol remembered. -/
def State.rememberSym (s : State) (ty : Nat) (u : BitVec 64) : State :=
  let l := s.plan.symSeen.filter fun x => !(x.2.1 = unitOrigin u && x.2.2 = unitNum u + 128)
  { s with plan := { s.plan with symSeen := l ++ [(decide (ty = 4), unitOrigin u, unitNum u)] } }

/-- ALIGN_SYMBOL (R44): the count is set to the carried value plus the hop, and the symbol goes on. A port without a
calibrated latency cannot meet ±2 pc: F-0306. -/
def execAlignSymbol (n : PortId) (unit lo hi : BitVec 64) (s : State) : Host.Outcome State Fault Refusal :=
  if !s.mayAlign || !s.takesValue 3 n unit lo hi then .next s
  else
    let s := s.rememberSym 3 unit
    let v := unitData lo + unitData hi * 2 ^ 49
    if (s.link n).calHold = 0 then
      let s : State := { s with plan := { s.plan with state := 0, alignOk := false } }
      .next (s.logFault (s.fault 0x306 0xC (v / 16 % 2 ^ 32) none 3))
    else
      let c := (v % 2 ^ 68 + s.hop16 n) % 2 ^ 68
      .next ((s.setCount c).flood n (valueSym s 3 (unitOrigin unit) (unitNum unit) c))

/-! ### Launch (R45, R46) -/

/-- A partition whose Stage plan is mapped and not launched. -/
def State.mayLaunch (s : State) (p : Nat) : Bool :=
  let b := s.pt p
  b.state = 1#3 && b.stage.mapped && b.stage.image.isSome && b.launched.isNone

/-- The partitions that a launch starts (R45). -/
def State.launching (s : State) : List Nat := (List.range 16).filter s.mayLaunch

/-- A launching plan that declares MIRROR (R46, R379). -/
def State.mirrorLaunch (s : State) : Bool := s.launching.any fun p => ((s.img p).map (·.mirror)).getD false

/-- A stream as it stands before its first instruction, for a launch at `g` (R66, R95). -/
def Stream.prime (x : Stream) (g : Nat) : Stream :=
  { x with
    fronts := match x.queue with
      | [] => if x.codeWords = 0 then [] else [{ Front.reset with pc := x.fetchPc, seq := x.fetchSeq, last := g }]
      | q :: _ => [{ Front.reset with pc := q.pc, seq := q.seq, last := g }]
    flights := []
    fetchSlots := 0
    skips := []
    halted := false
    a := Vector.replicate 16 0
    s := Vector.replicate 8 0
    fendAt := none }

/-- A tile before a launch at `g`: registers 0, the ER flag and the digest at their initial values (R95, R376, R377). -/
def Tile.prime (t : Tile) (g : Nat) : Tile :=
  { t with
    mx := t.mx.prime g
    vx := t.vx.prime g
    mv := t.mv.prime g
    erFlag := false
    digest := digestInit
    foldWait := [] }

/-- A partition made ready for its launch at `g`: streams, sync objects and serving counts (R95, R247, R307, R376). A plan
that a rollback resumes goes on counting its admissions (R390). -/
def State.primePart (s : State) (g p : Nat) : State :=
  let s := (s.tilesOf p).foldl (fun s t => (s.modTile t fun x => x.prime g).modTs t fun y => { y with objects := [], erDelivery := [] }) s
  if (s.pt p).resumeUnit.isSome then s
  else s.modSq p fun q => { q with
    nextAge := 0
    inStep := false
    slots := [] }

/-- A BARRIER symbol to the mirror partner: CK0 of copy A, CK1 of copy B (R46, R379). -/
def State.sendBarrier (s : State) (release : Nat) : State :=
  let n := coordDim s.pcie.self 0 % 2
  let s' : State := { s with plan := { s.plan with nextSym := s.plan.nextSym + 1 } }
  if s.jobPort n then
    s'.modLink n fun l => { l with inlineOut := l.inlineOut ++ [valueSym s 4 s.selfOrigin s.plan.nextSym release] }
  else s'

/-- PLAN.CTRL.ARM written with 1 (R45). -/
def State.launchArm (s : State) : State :=
  let g := s.plan.launchAt.toNat
  if s.plan.state ≠ 2#3 then s
  else if g < s.plan.geyser + 24 then s.logFault (s.fault 0x305 0xC (g % 2 ^ 32) none 2)
  else
    let s := s.launching.foldl (fun s p => s.primePart g p) s
    let s : State := { s with plan := { s.plan with armed := some g, state := 3 } }
    if s.mirrorLaunch then s.sendBarrier g else s

/-- LAUNCH_ARM (R45). -/
def execLaunchArm (s : State) : Host.Outcome State Fault Refusal := .next (s.ifReady (·.launchArm))

/-- The image holds code for an engine of a logical tile. -/
def Image.hasStream (i : Image) (l : Nat) (e : Eng) : Bool :=
  i.streams.any fun c => decide (c.ltile = l) && decide (c.engine = e.num) && !c.code.isEmpty

/-- A stream with code starts (R84). -/
def Stream.start (x : Stream) (code : Bool) : Stream := { x with running := code }

/-- The tiles of a partition run (R84). -/
def State.startTiles (s : State) (p : Nat) : State :=
  let i := (s.img p).getD Image.reset
  (s.tilesOf p).foldl (fun s t => s.modTile t fun x =>
    let has (e : Eng) := i.hasStream x.logical.toNat e
    { x with
      state := 3
      mx := x.mx.start (has .mx)
      vx := x.vx.start (has .vx)
      mv := x.mv.start (has .mv) }) s

/-- Frames of a unit: a step of a serving plan, else the replay unit of a restartable one; 0 where there is none (R28,
R382). -/
def State.unitFrames (s : State) (p : Nat) : Nat :=
  match s.img p with
  | none => 0
  | some i => if 2 ≤ i.fs then i.fs else if i.restartable then i.unitFrames else 0

/-- A partition starts its plan at count `g` (R45); a plan that a rollback resumes goes on from its unit (R391). -/
def State.startPart (s : State) (g p : Nat) : State :=
  let unit := (s.pt p).resumeUnit.getD 0
  let frames := unit * s.unitFrames p
  let s : State := if (s.pt p).resumeUnit.isNone then s
    else { s with dig := { s.dig with
      recState := if s.dig.logReplayTo.isEmpty then 0 else 4
      recPhase := 0 } }
  (s.startTiles p).modPt p fun b => { b with
    launched := some g
    relaunchAt := none
    resumeUnit := none
    tickAt := g
    frameBase := frames
    stepBase := unit
    faultStop := false }

/-- Every launching partition starts at count `g`; the halves of a step sequencer wait for their barrier (R45, R46). -/
def State.startAll (s : State) (g : Nat) : State :=
  let serves := s.launching.any fun p => ((s.img p).map (fun i => decide (0 < i.fs))).getD false
  let s := s.launching.foldl (fun s p => s.startPart g p) s
  { s with plan := { s.plan with
    armed := none
    state := 4
    launchBarrier := if serves then some g else none } }

/-- LAUNCH (R45): the counter reaches LAUNCH_AT. The chips of a mirror pair wait for their barrier instead (R46). -/
def execLaunch (s : State) : Host.Outcome State Fault Refusal :=
  match s.plan.armed with
  | some g => if s.plan.geyser = g && !s.mirrorLaunch then .next (s.startAll g) else .next s
  | none => .next s

/-- The barrier has released (R46). -/
def State.clearBarrier (s : State) : State := { s with plan := { s.plan with launchBarrier := none } }

/-- BARRIER_SYMBOL (R46): the partner's symbol names the release pc. -/
def execBarrierSymbol (n : PortId) (unit lo hi : BitVec 64) (s : State) : Host.Outcome State Fault Refusal :=
  if !s.takesValue 4 n unit lo hi then .next s
  else
    let v := (unitData lo + unitData hi * 2 ^ 49) % 2 ^ 64
    let s := s.rememberSym 4 unit
    .next { s with plan := { s.plan with launchBarrier := some v } }

/-- LAUNCH_BARRIER_RELEASE (R46): at the named pc a mirror pair launches, where the partner's symbol has come by then, or the
sequencer's halves start. -/
def execLaunchBarrierRelease (s : State) : Host.Outcome State Fault Refusal :=
  match s.plan.launchBarrier with
  | some g =>
    if s.plan.geyser < g then .next s
    else if s.plan.armed.isSome && s.mirrorLaunch then
      if s.plan.geyser = g && s.plan.armed = some g then .next ((s.startAll g).clearBarrier) else .next s
    else .next s.clearBarrier
  | none => .next s

/-! ### Frequency steps (R47, R48) -/

/-- F-0801: a change of step rejected (R47, R48). -/
def State.rejectStep (s : State) (tick : Nat) : State :=
  let s : State := { s with clk := { s.clk with rejected := true, armed := none } }
  s.logFault (s.fault 0x801 0xC (tick % 2 ^ 32) none 1)

/-- F-0304: a change aimed at a tick already passed (R31); `ext` names the change (R492). -/
def State.tickPassed (s : State) (tick ext : Nat) (p : Option Nat := none) : State :=
  s.faultHold (s.fault 0x304 0xC (tick % 2 ^ 32) p ext)

/-- CLK.STEP_CTRL.ARM written with 1 (R48, R478). -/
def State.stepArm (s : State) : State :=
  let g := s.clk.stepAt.toNat
  if s.clk.armed.isSome || s.clk.switching.isSome then s
  else if !s.commonTick g then s.rejectStep g
  else if g < s.plan.geyser then s.tickPassed g 1
  else { s with clk := { s.clk with armed := some (g, s.clk.stepTarget) } }

/-- STEP_ARM (R48). -/
def execStepArm (s : State) : Host.Outcome State Fault Refusal := .next (s.ifReady (·.stepArm))

/-- The lowest highest step that the chip's Stage plans declare (R47). -/
def State.stepMax (s : State) : Nat :=
  (List.range 16).foldl (fun m p => match s.img p with
    | some i => min m i.fMax.toNat
    | none => m) 7

/-- STEP_SWITCH (R30, R47, R48): at the armed tick the counter stops for 40.96 µs, unless the step is rejected or in force. -/
def execStepSwitch (s : State) : Host.Outcome State Fault Refusal :=
  match s.clk.armed with
  | some (g, tgt) =>
    if s.plan.geyser ≠ g || s.recordLeft g || s.curtainLeft g || s.paused then .next s
    else if s.stepMax < tgt.toNat then .next (s.rejectStep g)
    else if tgt = s.clk.stepCur then .next { s with clk := { s.clk with armed := none } }
    else .next { s with
      clk := { s.clk with
        armed := none
        switching := some (s.wall + 6400 * tuLinkRef, tgt) }
      plan := { s.plan with counterWasStopped := true }
      pins := { s.pins with coreVid := if s.clk.stepCur.toNat < tgt.toNat then tgt else s.pins.coreVid } }
  | none => .next s

/-- STEP_SWITCH_END (R48): the new step is in force. -/
def execStepSwitchEnd (s : State) : Host.Outcome State Fault Refusal :=
  match s.clk.switching with
  | some (e, tgt) =>
    if s.wall < e then .next s
    else
      let old := s.clk.stepCur
      let s : State := { s with
        clk := { s.clk with switching := none, stepCur := tgt }
        pins := { s.pins with coreVid := tgt } }
      .next (s.logEvent 6 (old.toNat + tgt.toNat * 256))
  | none => .next s

end Sys2Proof.Machine
end

