-- ==== Sys2Proof/Machine/Fab.lean ====
section
/-! DEFINITION. The fabric's commands: cells, transmission, acceptance, flow control, the exception table and the Vent
endpoint (R321 to R339, R419). -/

namespace Sys2Proof.Machine
open Sys2Proof

/-! ### Transmission (R324, R327) -/

/-- An ACTIVE port with nothing on its wire. -/
def State.portFree (s : State) (n : Nat) : Bool :=
  (s.link n).state = 5#3 && (s.link n).resendFrom.isNone && decide ((s.link n).fab.busyUntil ≤ s.wall)

/-- Bytes that a run of cells carries (R323, R339). -/
def State.runBytes (s : State) (cells : Nat) : Nat := cells * s.fab.cellBytes.toNat

/-- P_SLOT_START (R324): a P_START cell begins; the oldest P packet queued for the planned cells is transmitted, or the
slot is counted idle. While a replay runs the packet follows it (R351). -/
def execPSlotStart (n : PortId) (s : State) : Host.Outcome State Fault Refusal :=
  match s.cellNow with
  | none => .next s
  | some (i, b, cells) =>
    let f := (s.link n).fab
    if !s.running || (s.link n).state ≠ 5#3 || s.plan.geyser ≠ b || f.code i ≠ 1 || f.lastCell = b then .next s
    else
      let s := s.modLink n fun l => { l with fab := { l.fab with lastCell := b } }
      match (f.pQueue.find? fun q => !q.relay && some q.part = s.cellOwner n i).filter fun q => decide (q.readyAt ≤ s.plan.geyser) with
      | none => .next (s.modLink n fun l => { l with counters := { l.counters with pIdle := satInc l.counters.pIdle } })
      | some q =>
        if s.runBytes (1 + f.runLen 2 cells (i + 1)) < q.pkt.wire then .next (s.slotOverrun n i q.pkt)
        else if (s.link n).resendFrom.isSome then .next s
        else if !(s.link n).roomFor q.pkt then .next (s.countStall n)
        else .next ((s.takeP n q).transmit n q.pkt)

/-- The relay packet of a port that arrived first, of those of one pc that of the lowest port, may start: it waits at the port
since 16 pc (R327). -/
def State.relayHead (s : State) (n : Nat) : Option PQueued :=
  (minBy (fun q => q.readyAt * 16 + q.via) ((s.link n).fab.pQueue.filter (·.relay))).filter fun q => decide (q.readyAt ≤ s.plan.geyser)

/-- A run of FWD cells begins at this pc: its length in cells (R327). -/
def State.fwdRun (s : State) (n : Nat) : Option Nat :=
  s.cellNow.bind fun (i, b, cells) =>
    let f := (s.link n).fab
    if s.running && s.plan.geyser = b && f.code i = 3 && (i = 0 || f.code (i - 1) ≠ 3) then some (f.runLen 3 cells i) else none

/-- RELAY_TRANSMIT (R327): relayed and rerouted packets start in order of arrival at the begin of a FWD run that holds
them. -/
def execRelayTransmit (n : PortId) (s : State) : Host.Outcome State Fault Refusal :=
  match s.fwdRun n, s.relayHead n with
  | some run, some q =>
    let l := s.link n
    let used := l.fab.busyUntil - s.wall
    if l.state ≠ 5#3 || l.resendFrom.isSome || wireTime (s.runBytes run) < used + wireTime q.pkt.wire then .next s
    else if !l.roomFor q.pkt then .next (s.countStall n)
    else .next ((s.takeP n q).transmit n q.pkt)
  | _, _ => .next s

/-- The order in which a port serves the open classes now: reserved cells their own class first, all others in rotation
(R324). -/
def State.classOrder (s : State) (n : Nat) : List Nat × Bool :=
  let r := (s.link n).fab.rotation.toNat
  let turn := (List.range 3).map fun k => (r - 1 + k) % 3 + 1
  match s.cellNow with
  | some (i, _, _) =>
    let c := (s.link n).fab.code i
    if s.running && 4 ≤ c && c ≤ 6 then ((c - 3) :: turn.filter (· ≠ c - 3), false) else (turn, true)
  | none => (turn, true)

/-- An open packet must let the slot or the FWD packet of this pc go first (R324). -/
def State.plannedFirst (s : State) (n : Nat) : Bool :=
  match s.cellNow with
  | some (i, b, _) =>
    let f := (s.link n).fab
    s.running && s.plan.geyser = b &&
      ((f.code i = 1 && f.lastCell ≠ b) || (f.code i = 3 && (s.relayHead n).isSome && (s.fwdRun n).isSome))
  | none => false

/-- The first packet of a class that holds a transmit buffer, may start now and is not stopped by XOFF (R332, R333). -/
def State.openHead (s : State) (n c : Nat) : Option OQueued :=
  let f := (s.link n).fab
  if f.xoffRcvd.getLsbD (c - 1) then none
  else f.openQ.find? fun o => o.inBuf && o.pkt.clsN = c && decide (o.readyAt ≤ s.wall)

/-- OPEN_PACKET_TRANSMIT (R324, R332, R333, R355). -/
def execOpenPacketTransmit (n : PortId) (s : State) : Host.Outcome State Fault Refusal :=
  if !s.portFree n || s.plannedFirst n then .next s
  else
    let order := s.classOrder n
    match order.1.findSome? fun c => (s.openHead n c).map fun o => (c, o) with
    | none => .next s
    | some (c, o) =>
      let fits := !s.running || (match s.openLeft n with
        | some left => decide (wireTime o.pkt.wire ≤ left * s.clkTu)
        | none => true)
      if !fits then .next s
      else if !(s.link n).roomFor o.pkt then .next (s.countStall n)
      else
        let s := s.modLink n fun l => { l with fab := { l.fab with
          openQ := l.fab.openQ.erase o
          rotation := if order.2 then BitVec.ofNat 2 (c % 3 + 1) else l.fab.rotation } }
        .next ((s.transmit n o.pkt).admitOpen n)

/-! ### Acceptance (R118, R320, R331, R335) -/

/-- P_PACKET_RECEIVE (R118, R127, R325, R327, R335): the oldest accepted P packet of the port. -/
def execPPacketReceive (n : PortId) (s : State) : Host.Outcome State Fault Refusal :=
  match (s.link n).fab.accepted.find? fun p => p.clsN = 0 with
  | none => .next s
  | some p =>
    let s := s.takeAccepted n p
    if !p.typeOk then .next (s.countDrop n)
    else if s.foreign n p then .next (s.dropForeign n p)
    else .next (s.acceptP n p)

/-- OPEN_PACKET_RECEIVE (R320, R331, R335): the oldest accepted open packet of the port. -/
def execOpenPacketReceive (n : PortId) (s : State) : Host.Outcome State Fault Refusal :=
  match (s.link n).fab.accepted.find? fun p => p.clsN ≠ 0 with
  | none => .next s
  | some p =>
    let s := s.takeAccepted n p
    let s := if !p.typeOk then s.countDrop n
      else if s.foreign n p then s.dropForeign n p
      else s.routeOpen p n
    .next (s.flowUpdate n)

/-! ### Exception table (R330, R339) -/

/-- LNK0.FLAT_DATA written: a reserved PORT leaves the entry as it is (R330, R339, R476). -/
def State.writeFlat (s : State) (v : BitVec 32) : State :=
  let port := field v 31 28
  let i := s.fab.flatSel.toNat
  if 12 ≤ port && port ≤ 14 then s
  else { s with fab := { s.fab with
    exceptions := if v = 0xF0000000#32 then alDel i s.fab.exceptions else alSet i v s.fab.exceptions } }

/-- FLAT_DATA_WRITE (R339). -/
def execFlatDataWrite (val : BitVec 32) (s : State) : Host.Outcome State Fault Refusal :=
  .next (s.ifReady (·.writeFlat val))

/-! ### Flow control (R333, R344) -/

/-- FLOW (R333): XON and XOFF as the neighbour's symbol gives them. -/
def execFlow (n : PortId) (val : BitVec 16) (s : State) : Host.Outcome State Fault Refusal :=
  if (s.link n).state ≠ 5#3 then .next s
  else .next (s.modLink n fun l => { l with fab := { l.fab with xoffRcvd := val.setWidth 3 } })

/-- FLOW_REFRESH (R344): the current FLOW state repeated after 256 codewords. -/
def execFlowRefresh (n : PortId) (s : State) : Host.Outcome State Fault Refusal :=
  let l := s.link n
  if l.state ≠ 5#3 || l.sinceFlow < 256 then .next s
  else .next (s.modLink n fun l => { l with
    sinceFlow := 0
    ctlOut := l.ctlOut ++ [.flowRefresh (l.fab.xoffSent.setWidth 16)] })

/-! ### The Vent endpoint (R337, R419) -/

/-- The payload bytes of a packet. -/
def Packet.bytes (p : Packet) : List (BitVec 8) := p.payload.flatMap bytesOfLine

/-- `n` bytes at `o` as a number. -/
def natAt (b : List (BitVec 8)) (o n : Nat) : Nat := natOfBytes ((b.drop o).take n)

/-- The management key of an epoch (R419, R420). -/
def State.mgmtKey (s : State) (epoch : Nat) : Option (BitVec 256) :=
  if s.sec.mgmtCur.isNone then none
  else ((s.sec.mgmtCur.toList ++ s.sec.mgmtNext.toList).find? fun k => k.1.toNat = epoch).map (·.2)

/-- The nonce of a fragment (R419). -/
def ventNonce (src msgId frag : Nat) : BitVec 96 := BitVec.ofNat 96 (src + msgId * 2 ^ 32 + frag * 2 ^ 64)

/-- A transport header without its authentication fields (R337). -/
def ventHeader (msgId : BitVec 32) (frag nfrag len : Nat) (src : BitVec 24) : List (BitVec 8) :=
  bytesOf 4 msgId.toNat ++ bytesOf 1 frag ++ bytesOf 1 nfrag ++ bytesOf 2 len ++ bytesOf 3 src.toNat ++ bytesOf 5 0

/-- A list of bytes padded with zeros to a whole number of words. -/
def padWord (b : List (BitVec 8)) : List (BitVec 8) := b ++ List.replicate ((64 - b.length % 64) % 64) 0

/-- One fragment as an M packet, sealed under the key of an epoch (R337, R419). -/
def State.ventPacket (s : State) (epoch : BitVec 32) (dest : BitVec 24) (msgId : BitVec 32) (frag nfrag : Nat)
    (b : List (BitVec 8)) : Packet :=
  let h := ventHeader msgId frag nfrag b.length s.pcie.self ++ bytesOf 4 epoch.toNat
  let key := (s.mgmtKey epoch.toNat).getD 0
  let c := Config.gcmSeal key (ventNonce s.pcie.self.toNat msgId.toNat frag) h (padWord b)
  s.flatPacket 2 0 dest (linesOfBytes (h ++ bytesOf 16 c.2.toNat ++ bytesOf 28 0 ++ c.1))

/-- A message goes out in up to 8 packets (R337); nothing is sent while the epoch used to send names no key that the chip
holds (R420). -/
def State.ventTransmit (s : State) (m : VentOut) : State :=
  if (s.mgmtKey m.epoch.toNat).isNone then s else
  let fr := chunksOf 8128 8 m.body
  fr.zipIdx.foldl (fun s x => s.inject (s.ventPacket m.epoch m.dest m.msgId x.2 fr.length x.1)) s

/-- A message sent under the epoch of SEC.MGMT.TX, and kept until it is acknowledged (R337, R420). -/
def State.ventSend (s : State) (dest : BitVec 24) (body : List (BitVec 8)) : State :=
  let m : VentOut := { VentOut.reset with
    msgId := s.vent.nextId
    dest := dest
    body := body
    epoch := s.sec.mgmtTx
    retryAt := s.wall + 50 * tuMs }
  let s' : State := { s with vent := { s.vent with out := s.vent.out ++ [m], nextId := s.vent.nextId + 1 } }
  s'.ventTransmit m

/-- A message discarded: SEC.VENT_FAIL and F-0603 (R419). -/
def State.ventFail (s : State) (src : BitVec 24) (msgId : BitVec 32) : State :=
  let s : State := { s with
    sec := { s.sec with ventFail := satInc s.sec.ventFail }
    vent := { s.vent with parts := s.vent.parts.filter fun x => !(x.1 = src && x.2.1 = msgId) } }
  let r := s.fault 0x603 0x12 msgId.toNat
  s.logFault r (some (r.contWith src.toNat))

/-- The acknowledgement of a message: a transport header with no fragment (R337; DESIGN CHOICE, notes/assumptions/35.md). -/
def State.ventAck (s : State) (src : BitVec 24) (msgId : BitVec 32) : State :=
  s.inject (s.flatPacket 2 0 src (linesOfBytes (padWord (ventHeader msgId 0 0 0 s.pcie.self))))

/-- The plaintext of a fragment that verifies: header in order, key known, tag right (R337, R419). -/
def State.ventOpen (s : State) (b : List (BitVec 8)) : Option (List (BitVec 8)) :=
  let len := natAt b 6 2
  let ok := natAt b 4 1 < natAt b 5 1 && natAt b 5 1 ≤ 8 && 1 ≤ len && len ≤ 8128 && 64 + len ≤ b.length
    && natAt b 11 5 = 0 && natAt b 36 28 = 0
  if !ok then none
  else match s.mgmtKey (natAt b 16 4) with
    | none => none
    | some key =>
      (Config.gcmOpen key (ventNonce (natAt b 8 3) (natAt b 0 4) (natAt b 4 1)) (b.take 20) (b.drop 64)
        (BitVec.ofNat 128 (natAt b 20 16))).map (·.take len)

/-- A sender's identifiers in a key epoch, the last 1,024 (R419, R420). -/
def rememberMsg (l : List (BitVec 32 × BitVec 24 × BitVec 32)) (x : BitVec 32 × BitVec 24 × BitVec 32) :
    List (BitVec 32 × BitVec 24 × BitVec 32) :=
  let same (y : BitVec 32 × BitVec 24 × BitVec 32) : Bool := y.1 = x.1 && y.2.1 = x.2.1
  let mine := l.filter same
  l.filter (fun y => !same y) ++ (mine ++ [x]).drop (mine.length + 1 - 1024)

/-- A message identifier lies below its sender's window (R419). -/
def belowWindow (l : List (BitVec 32 × BitVec 24 × BitVec 32)) (x : BitVec 32 × BitVec 24 × BitVec 32) : Bool :=
  let mine := l.filter fun y => y.1 = x.1 && y.2.1 = x.2.1
  1024 ≤ mine.length && mine.all fun y => x.2.2.toNat < y.2.2.toNat

/-- VENT_MESSAGE (R337, R419): the oldest delivered fragment; a complete verified message is acknowledged and handed to
the firmware once. -/
def execVentMessage (s : State) : Host.Outcome State Fault Refusal :=
  match s.deliveredOf fun k => k.clsN = 2 && k.type = 0#4 && natAt k.bytes 5 1 ≠ 0 with
  | none => .next s
  | some k =>
    let s := s.consume k
    let b := k.bytes
    let src := BitVec.ofNat 24 (natAt b 8 3)
    let msgId := BitVec.ofNat 32 (natAt b 0 4)
    let frag := natAt b 4 1
    let nfrag := natAt b 5 1
    match s.ventOpen b with
    | none => .next (s.ventFail src msgId)
    | some pt =>
      let ident := (BitVec.ofNat 32 (natAt b 16 4), src, msgId)
      if s.vent.seen.contains ident then .next (if frag = 0 then s.ventAck src msgId else s)
      else if belowWindow s.vent.seen ident then .next (s.ventFail src msgId)
      else
        let parts := s.vent.parts.filter (fun x => !(x.1 = src && x.2.1 = msgId && x.2.2.1 = frag)) ++ [(src, msgId, frag, pt)]
        let mine := parts.filter fun x => x.1 = src && x.2.1 = msgId
        if mine.length < nfrag then .next { s with vent := { s.vent with parts := parts } }
        else
          let body := (List.range nfrag).flatMap fun i =>
            ((mine.find? fun x => x.2.2.1 = i).map (·.2.2.2)).getD []
          let s : State := { s with vent := { s.vent with
            parts := parts.filter fun x => !(x.1 = src && x.2.1 = msgId)
            seen := rememberMsg s.vent.seen ident
            inbox := s.vent.inbox ++ [(src, body)] } }
          .next (s.ventAck src msgId)

/-- VENT_ACK (R337): the acknowledgement ends the message's retries. -/
def execVentAck (msgId : BitVec 32) (s : State) : Host.Outcome State Fault Refusal :=
  let s := match s.deliveredOf fun k => k.clsN = 2 && k.type = 0#4 && natAt k.bytes 5 1 = 0 && natAt k.bytes 0 4 = msgId.toNat with
    | some k => s.consume k
    | none => s
  .next { s with vent := { s.vent with out := s.vent.out.filter fun m => m.msgId ≠ msgId } }

/-- VENT_RETRY_TIMEOUT (R337): sent again after 50 ms, up to 8 times; then the destination is reported unreachable. -/
def execVentRetryTimeout (msgId : BitVec 32) (s : State) : Host.Outcome State Fault Refusal :=
  match s.vent.out.find? fun m => m.msgId = msgId && decide (m.retryAt ≤ s.wall) with
  | none => .next s
  | some m =>
    if m.tries < 8 then
      let m' := { m with tries := m.tries + 1, retryAt := s.wall + 50 * tuMs }
      let s : State := { s with vent := { s.vent with out := s.vent.out.map fun x => if x = m then m' else x } }
      .next (s.ventTransmit m')
    else .next { s with vent := { s.vent with
      out := s.vent.out.erase m
      unreachable := s.vent.unreachable ++ [m.dest] } }

end Sys2Proof.Machine
end

