-- ==== Sys2Proof/Machine/Walk.lean ====
section
/-! DEFINITION. What a plan image does, as bind works it out from its instructions and tables: every stream is followed frame
by frame along every path, with the plans that the machine itself makes (R64 to R67, R95 to R102, R137, R138, R149).
How bind names what it finds is the model's (DESIGN CHOICE, notes/assumptions/72.md). -/

namespace Sys2Proof.Machine
open Sys2Proof

/-! ### What bind looks at (R149) -/

/-- Where a check of R149 fails: logical tile, stream (3 none), program counter (R236). -/
structure CheckLoc where
  ltile : Nat
  stream : Nat
  pc : Nat
  deriving DecidableEq, Repr

/-- A failure of no stream. -/
def noLoc : CheckLoc := { ltile := 0, stream := 3, pc := 0 }

/-- The engine of a stream. -/
def StreamCode.eng (c : StreamCode) : Eng :=
  match c.engine with
  | 0 => .mx
  | 1 => .vx
  | _ => .mv

/-- The pc that stands for the tick of the frame in hand. -/
def tickPc : Nat := 2 ^ 22

/-- The frame length of a plan (R27). -/
def Image.frame (i : Image) : Nat := 2 ^ min i.k 20

/-- A machine that holds the plan alone, each logical resource on the physical one of its number: what an instruction plans on
it is what it plans on any placement (R12, R185, R221). -/
def Image.bench (i : Image) (rank : Option Nat) : State :=
  let s : State := State.reset.modPt 0 fun b => { b with
    stage := { b.stage with
      image := some i
      rank := BitVec.ofNat 16 (rank.getD 0)
      rankValid := rank.isSome
      tiles := List.range i.n
      chans := (List.range i.nch).map fun j => 32 * (j % 8) + j / 8 }
    res := { b.res with poolPages := 1 } }
  (List.range i.n).foldl (fun s l => s.modTile l fun t => { t with logical := BitVec.ofNat 8 l, bound := true })
    { s with fab := { s.fab with linkMap := Vector.ofFn fun l => BitVec.ofNat 6 (32 + l.val) } }

/-- How an instruction uses a bank. A read that looks at the full/empty bit alone, or keeps the data as it is, uses no
operand. -/
inductive BankUse where
  | read | look | write | landing | fetch
  deriving DecidableEq, Repr

/-- One thing that a plan does at a pc. -/
inductive Deed where
  /-- A bank access, with the change of the word's bit; `tested` where the mode of the operand tests it. -/
  | bank (d word : Nat) (use : BankUse) (bit : Option Bool) (tested : Bool)
  /-- A beat at a port: tile, or 256 + logical link. -/
  | port (n : Nat)
  /-- An engine resource held until a pc, and one that an instruction wants (R97, R98). -/
  | hold (res till : Nat)
  | want (res : Nat)
  /-- An arrival at a logical channel (R188). -/
  | arrive (chan : Nat)
  /-- A decoder of a logical stack taken (R199). -/
  | decode (stack : Nat)
  /-- A packet whose first beat is at a logical link: rank, logical tile, TAG and units (R326). -/
  | send (link rank ltile tag n : Nat)
  /-- A request of CT.BAR or CT.WATCH. -/
  | sync (op : Nat) (fields : BitVec 96)
  /-- A word folded into the digest, and the digest closed (R142, R143). -/
  | fold
  | close
  deriving DecidableEq, Repr

/-- A deed with its pc, and the instruction that does it: stream, issue pc and arm. -/
structure Ev where
  x : Nat
  loc : CheckLoc
  p : Nat
  path : List (Nat × Bool)
  q : Nat
  deed : Deed
  deriving DecidableEq, Repr

/-- A register as bind knows it: its value where no data decides it, and the pc from which it reads so (R96). -/
structure Known where
  val : Option (BitVec 32)
  due : Nat
  deriving DecidableEq, Repr

/-- A weight slot as bind knows it: the format of its load, and the pc at which it is ready (R94, R130). -/
structure SlotKnown where
  fmt : Option Nat
  ready : Option Nat
  deriving DecidableEq, Repr

/-- A stream between two instructions. -/
structure Walk where
  st : Stream
  fr : Front
  a : List Known
  s : List Known
  slots : List SlotKnown
  /-- The pc up to which its fetch slots have passed. -/
  fetched : Nat
  /-- Deeds of the frame before that reach into the next. -/
  past : List Ev
  deriving DecidableEq, Repr

/-- What a stream does in a frame on one path up to the choices of CT.BBR: its deeds, the checks that fail on the way, and
where the next frame may find it. -/
structure Track where
  evs : List Ev := []
  bad : List (Nat × CheckLoc) := []
  ends : List Walk := []
  deriving DecidableEq, Repr

/-! ### Registers (R96) -/

/-- The A registers that an instruction reads at its check point: those of its specifiers and of REMOTE (R96). -/
def checkRegs (op : Nat) (w : IWord) : List Nat :=
  let d := spAreg w.d
  let s1 := spAreg w.s1
  match op with
  | 0x0A | 0x0B | 0x0C | 0x85 | 0xC5 => [s1]
  | 0x18 | 0xC1 | 0xC6 => [d]
  | 0x1A | 0xC0 | 0xC2 | 0xCB => [d, s1]
  | 0x40 => [s1, spAreg w.s2]
  | 0x41 | 0x80 | 0x81 | 0x82 | 0x83 | 0x84 | 0x86 | 0x87 | 0x88 => [d, s1, spAreg w.s2]
  | 0xC3 | 0xC8 | 0xC9 => [d, w.rAreg]
  | 0xC4 | 0xCA => [s1, w.rAreg]
  | _ => []

/-- The A registers that an instruction reads at its issue (R96). -/
def issueA (op : Nat) (w : IWord) : List Nat :=
  match op with
  | 0x05 => [w.ra]
  | 0x06 => [w.ra, w.rb]
  | 0x09 => if w.md = 0 then [w.ra] else []
  | _ => []

/-- The S registers that an instruction reads at its issue (R96). -/
def issueS (op : Nat) (w : IWord) : List Nat :=
  match op with
  | 0x08 => [w.ra, w.rb]
  | 0x09 => if w.md = 0 then [] else [w.ra]
  | 0x0B => [w.rd]
  | 0x12 => [w.z]
  | 0x13 => [w.z % 8]
  | 0x80 | 0x81 => if w.useS then [w.sreg] else []
  | 0x84 => [w.sreg, w.sreg + 1]
  | 0x86 | 0x88 | 0x89 => [w.sreg]
  | 0xC1 => [w.md % 8]
  | 0xC9 | 0xCA => [w.cfg % 8]
  | _ => []

/-- Register `i` of a file; A0 reads 0 (R95). -/
def known (l : List Known) (i : Nat) : Known := (l[i]?).getD { val := some 0, due := 0 }

/-- The values of a file, 0 for what data decides. -/
def knownVals (n : Nat) (l : List Known) : Vector (BitVec 32) n := Vector.ofFn fun i => (known l i.val).val.getD 0

/-- A result: the later write of a register is the one that stays. -/
def Known.put (k : Known) (v : Option (BitVec 32)) (due : Nat) : Known := if k.due ≤ due then { val := v, due := due } else k

/-- A register after a CT.BBR, from both arms. -/
def Known.meet (a b : Known) : Known := { val := if a.val = b.val then a.val else none, due := max a.due b.due }

/-- A weight slot after a CT.BBR, from both arms. -/
def SlotKnown.meet (a b : SlotKnown) : SlotKnown :=
  { fmt := if a.fmt = b.fmt then a.fmt else none
    ready := match a.ready, b.ready with
      | some x, some y => some (max x y)
      | _, _ => none }

/-- A stream at the join of a CT.BBR, from both arms; `path` is that of the branch. -/
def Walk.meet (t f : Walk) (path : List (Nat × Bool)) : Walk :=
  { t with
    fr := { t.fr with path := path, join := none }
    a := t.a.zipWith Known.meet f.a
    s := t.s.zipWith Known.meet f.s
    slots := t.slots.zipWith SlotKnown.meet f.slots }

/-! ### Fetch (R65, R67, R102) -/

/-- A failure at the next instruction of a stream. -/
def Walk.loc (c : StreamCode) (y : Walk) : CheckLoc := { ltile := c.ltile, stream := c.engine, pc := y.fr.pc }

/-- The fetch slots of a stream before pc `q`: each reads a code word, where fetch does not wait; a queue without room fails
check 0x07 (R64, R65). -/
def Walk.fetchTo (x : Nat) (c : StreamCode) (y : Walk) (q : Nat) : Walk × Track :=
  let due := (sortBy (· < ·) c.slots).filter fun o => y.fetched ≤ tickPc + o && tickPc + o < q
  due.foldl (fun r o =>
    let y := r.1
    let st := y.st
    if st.fetchStop || st.halted then r
    else if 512 < st.queue.length + 4 then (y, { r.2 with bad := r.2.bad ++ [(7, y.loc c)] })
    else
      ({ y with st := st.takeCode (c.line st.fetchPc) (tickPc + o + 6) },
        { r.2 with evs := r.2.evs ++ [{
            x := x
            loc := { ltile := c.ltile, stream := c.engine, pc := st.fetchPc }
            p := tickPc + o
            path := y.fr.path
            q := tickPc + o
            deed := .bank c.ltile st.codeWord .fetch none false }] }))
    ({ y with fetched := max y.fetched q }, {})

/-! ### One instruction -/

/-- What an instruction reads before bind can know it, as words that show every access it may make: a page table whose
entries are valid, and a fetch-list entry that asks for a set (R147, R201). -/
def Ctx.sample (c : Ctx) (op : Nat) (w : IWord) : List Got :=
  let got (q word : Nat) (d : Line) : Got := { pc := q, word := word, data := some d, full := true }
  match op with
  | 0xC9 | 0xCA =>
    let hd := got c.p (c.tableWord w) (BitVec.ofNat 512 (1 + 1024 * 2 ^ 16 + (2 ^ 32 - 1) * 2 ^ 32))
    let c := { c with f := { c.f with got := [hd] } }
    hd :: ((c.tableReads w).drop 1).map fun r => got r.1 r.2 (lineOfLanes 32 (List.replicate 16 0x80000000))
  | 0xCB => [got c.f.chk (c.first w.s1) (lineOfLanes 64 (List.replicate 8 (BitVec.ofNat 64 (2 ^ 63))))]
  | _ => []

/-- An instruction of a stream as it stands at its check point on the bench. -/
def Walk.ctx (b : State) (c : StreamCode) (y : Walk) (op : Nat) (w : IWord) (p : Nat) : Ctx :=
  let f : Flight := { Flight.reset with
    op := op
    w := w
    p := p
    pc := y.fr.pc
    seq := y.fr.seq
    chk := p - 24
    path := y.fr.path
    drop := y.fr.drops
    areg := knownVals 16 y.a
    aIss := knownVals 16 y.a
    sIss := knownVals 8 y.s
    pkt := some (0, { Packet.reset with payload := List.replicate w.nWord 0 }) }
  let x : Ctx := { s := b, t := c.ltile, e := c.eng, f := f }
  { x with f := { f with got := x.sample op w } }

/-- The stack accesses that a plan has slots for: those of MV.ELD by the coded length that its region declares; those that a
page table or a fetch list decides are not known (R197, R202). -/
def Ctx.slotsOf (c : Ctx) (op : Nat) (w : IWord) (pl : Plan) : List StackAcc :=
  match op with
  | 0xC8 => (c.eldChunks w).zipIdx.flatMap fun x => c.chunkReads x.1.2 x.2 x.1.1.coded
  | 0xC9 | 0xCA | 0xCB => []
  | _ => pl.stack

/-- The bank reads of a plan that bind can place: of a page table, the header alone (R202). -/
def readsOf (op : Nat) (pl : Plan) : List Read := if op = 0xC9 || op = 0xCA then pl.reads.take 1 ++ pl.reads.drop 3 else pl.reads

/-- A logical channel from its physical number on the bench. -/
def benchChan (x : Nat) : Nat := 8 * (x % 32) + x / 32

/-- The deeds of an instruction at words of its own bank, of other tiles and of stacks. -/
def Ctx.bankDeeds (c : Ctx) (op : Nat) (w : IWord) (pl : Plan) : List (List (Nat × Deed)) :=
  let tested (x : Nat) : Bool := pl.tests.any fun t => t.1 = x
  let use : BankUse := if op = 0x0C || op = 0x18 then .look else .read
  [(readsOf op pl).map fun r => (r.pc, .bank c.t r.word use (if r.empties then some false else none) (tested r.word)),
   pl.writes.map fun o => (o.due, .bank c.t o.word .write o.full (tested o.word)),
   if op = 0xCB then [] else
     pl.lands.map fun l => (l.2.due, .bank l.1 l.2.word .landing l.2.full (op ≠ 0xC2 && tested l.2.word)),
   (c.slotsOf op w pl).map fun a => (a.pc, .arrive (benchChan a.chan)),
   if op = 0xC8 then (c.eldChunks w).zipIdx.map fun x => (c.p + 102 + 256 * x.2, .decode (x.1.2 % 8)) else []]

/-- The deeds of an instruction that no address register decides. -/
def Ctx.otherDeeds (c : Ctx) (op : Nat) (w : IWord) (pl : Plan) : List (List (Nat × Deed)) :=
  [pl.beats.map fun x => (x.1, .port x.2),
   (pl.holds.filter fun h => h.2 ≠ 0).map fun h => (c.p, .hold h.1 (c.p + h.2)),
   pl.wants.map fun r => (c.p, .want r),
   (pl.writes.filter (·.digest)).map fun o => (o.due, .fold),
   if op = 0xC5 then [(c.p + 102, .send (c.fabricPort (w.s2 / 256)) (w.s2 / 256) (w.s2 % 256) (w.cfg % 4096) w.nWord)] else [],
   if op = 0x19 then [(c.p, .sync op w.ops)] else if op = 0x1A then [(c.p + 8, .sync op w.ops)] else [],
   if op = 0x89 then [(c.p, .close)] else []]

/-- The deeds of an instruction. Where data decides its address registers, its words are not known. -/
def Ctx.deeds (c : Ctx) (op : Nat) (w : IWord) (pl : Plan) (placed : Bool) : List (Nat × Deed) :=
  ((if placed then c.bankDeeds op w pl else []) ++ c.otherDeeds op w pl).flatten

/-- The planned landing of an MV.FRECV's packet, as a pc on the bench (R33). -/
def Image.landing (i : Image) (ltile tag : Nat) : Option Int :=
  (i.recvKeys.find? fun k => k.ltile = ltile && k.tag = tag).map fun k => tickPc + k.landing

/-- The checks that an instruction fails by itself: its slot's format (R130), a register read before its write (R96, R136), an
entry that is not there at its decode (R67), the lead of its slot or packet (R33, R94), the channels of a Cinder unit (R202),
and a packet to a rank that is no ring neighbour (R325). -/
def Walk.fails (i : Image) (ranked : Bool) (c : StreamCode) (y : Walk) (k : Ctx) (op : Nat) (w : IWord) : List Nat :=
  let p := k.p
  let sl := (y.slots[bn (bit w.ops 15)]?).getD { fmt := none, ready := none }
  (if op = 0x41 && (sl.fmt.map fun f => decide ((mxFmtD f).set ≠ (mxFmtD w.md).set)).getD false then [2] else [])
    ++ (if (checkRegs op w).any (fun r => p < (known y.a r).due + 24) || (issueA op w).any (fun r => p < (known y.a r).due)
        || (issueS op w).any (fun r => p < (known y.s r).due) then [6] else [])
    ++ (if ((y.st.entry y.fr.seq (p - 24)).map (·.word)) = some (w.bits op) then [] else [7])
    ++ (if op = 0x41 && !(sl.ready.map fun q => decide (q + 24 ≤ p)).getD false then [8] else [])
    ++ (if op = 0xC6 && !((i.landing c.ltile (w.cfg % 4096)).map fun q => decide (q + 40 ≤ (p : Int))).getD false then [8] else [])
    ++ (if (op = 0xC9 || op = 0xCA) && (w.md = 1 && i.kp < 3 || w.md = 2 && i.kp < 5) then [9] else [])
    ++ (if op = 0xC5 && ranked && (linkTo i.dims (k.s.rankOf 0) (w.s2 / 256)).isNone then [9] else [])

/-- The registers and slots that an instruction leaves. -/
def Walk.write (y : Walk) (op : Nat) (w : IWord) (pl : Plan) : Walk :=
  let sure := (checkRegs op w ++ issueA op w).all (fun r => (known y.a r).val.isSome)
    && (issueS op w).all fun r => (known y.s r).val.isSome
  let y := pl.regs.foldl (fun (y : Walk) r =>
    let v : Option (BitVec 32) := if sure && r.needs.isEmpty then some (r.val ()) else none
    if r.scalar then { y with s := y.s.modify r.idx fun k => k.put v r.due }
    else { y with a := y.a.modify r.idx fun k => k.put v r.due }) y
  match pl.load with
  | some l => { y with slots := y.slots.set (bn l.slot) { fmt := some w.md, ready := some l.due } }
  | none => y

/-- What one instruction gives: the stream after it, its deeds and failures, and the instruction itself. -/
structure Taken where
  y : Walk
  tr : Track
  op : Nat
  w : IWord
  p : Nat
  pl : Plan

/-- The next instruction of a stream: its code and issue pc (R66). -/
def Walk.next (c : StreamCode) (y : Walk) : Option (Nat × IWord × Nat) :=
  (c.code[y.fr.pc]?).map fun b =>
    let w := iwordOf b
    (opcodeOf b, w, y.fr.issuePc w.wait.toNat)

/-- The stream issues its next instruction. -/
def Image.take (i : Image) (b : State) (x : Nat) (c : StreamCode) (y : Walk) (op : Nat) (w : IWord) (p : Nat) : Taken :=
  let r := y.fetchTo x c p
  let y := r.1
  let k := y.ctx b c op w p
  let pl := planOf op w k
  let placed := (checkRegs op w).all fun r => (known y.a r).val.isSome
  let evs := (k.deeds op w pl placed).map fun d =>
    ({ x := x, loc := y.loc c, p := p, path := y.fr.path, q := d.1, deed := d.2 } : Ev)
  let bad := (y.fails i (b.pt 0).stage.rankValid c k op w).map fun n => (n, y.loc c)
  let y := y.write op w pl
  let st := { y.st with queue := y.st.queue.filter fun q => !(k.f.drop.any fun d => d.1 ≤ q.seq && q.seq ≤ d.2) }
  { y := { y with st := st }, tr := { r.2 with evs := r.2.evs ++ evs, bad := r.2.bad ++ bad }, op := op, w := w, p := p, pl := pl }

/-- One track after another. -/
def Track.seq (a b : Track) : Track := { evs := a.evs ++ b.evs, bad := a.bad ++ b.bad, ends := b.ends }

/-- `n` instructions of an arm, which hold no branch (R138). -/
def Image.arm (i : Image) (b : State) (x : Nat) (c : StreamCode) : Nat → Walk → Walk × Track
  | 0, y => (y, {})
  | n + 1, y => match y.next c with
    | none => (y, { bad := [(7, y.loc c)] })
    | some (op, w, p) =>
      let k := i.take b x c y op w p
      match k.y.fr.next p k.pl.lwait .seq with
      | fr :: _ =>
        let r := i.arm b x c n { k.y with fr := fr }
        (r.1, k.tr.seq r.2)
      | [] => (k.y, k.tr)

/-! ### Balanced branches (R137, R138) -/

/-- What an arm does outside its stream's registers, by pc (condition 3 of R138). -/
def Ev.effect (e : Ev) : Option (Nat × Deed) :=
  match e.deed with
  | .bank d w _ (some b) _ => some (e.q, .bank d w .write (some b) false)
  | .port n => some (e.q, .port n)
  | .arrive n => some (e.q, .arrive n)
  | .send l r t g n => some (e.q, .send l r t g n)
  | .sync op f => some (e.q, .sync op f)
  | _ => none

/-- Two arms have the same effects. -/
def sameEffects (a b : List Ev) : Bool :=
  let f := a.filterMap Ev.effect
  let g := b.filterMap Ev.effect
  f.all (g.contains ·) && g.all (f.contains ·)

/-- A CT.BBR that has issued at `p`, with both its arms: the stream at the join, and what both arms do (R137, R138). -/
def Image.branch (i : Image) (b : State) (x : Nat) (c : StreamCode) (k : Taken) : Walk × Track :=
  let fr := k.y.fr
  let lt := k.w.lt
  let lf := k.w.lf
  match fr.next k.p 0 (.branch lt lf true) with
  | [ft, ff] =>
    let st := k.y.st
    let keep := fr.drops.isEmpty
    let armT := i.arm b x c lt { k.y with fr := ft, st := if keep then st else st.dropPlaces (fr.seq + lt + 1) (fr.seq + lt + lf) }
    let armF := i.arm b x c lf { k.y with fr := ff, st := if keep then st else st.dropPlaces (fr.seq + 1) (fr.seq + lt) }
    let at_ : CheckLoc := k.y.loc c
    let ok := sameEffects armT.2.evs armF.2.evs && armT.1.fr.last + armT.1.fr.extra = armF.1.fr.last + armF.1.fr.extra
    (armT.1.meet armF.1 fr.path,
      { evs := armT.2.evs ++ armF.2.evs
        bad := (if ok then [] else [(5, at_)]) ++ armT.2.bad ++ armF.2.bad })
  | _ => (k.y, {})

/-! ### One frame of a stream (R29, R102, R103) -/

/-- Where a stream goes on after its frame-end instruction: both targets of a CT.FBR, nowhere after CT.HALT (R102, R103). -/
def Taken.after (k : Taken) : List Walk :=
  let y := k.y
  let st := y.st
  match k.op with
  | 0x12 => [k.w.x, k.w.y].eraseDups.map fun target => { y with
      fetched := k.p + 1
      st := { st with queue := [], skips := [], fetchPc := target, fetchStop := false }
      fr := { Front.reset with pc := target, seq := st.fetchSeq, last := k.p } }
  | 0x03 => [{ y with fr := { y.fr with stop := true }, st := { st with halted := true } }]
  | _ => (y.fr.next k.p k.pl.lwait k.pl.flow).map fun fr => { y with fr := fr }

/-- The frame work of an instruction is complete by the tick `g` that ends the frame (R29). -/
def Taken.late (k : Taken) (g : Nat) : Bool := (k.w.fend || k.pl.move) && decide (g < k.pl.done)

/-- The checks 0x07 and 0x0A of what follows a frame-end instruction: it issues in a later frame, and 32 pc or more after a
CT.FBR (R29, R102). -/
def Taken.nextFails (k : Taken) (c : StreamCode) (g : Nat) (y : Walk) : List (Nat × CheckLoc) :=
  match y.next c with
  | none => if y.fr.stop then [] else [(7, y.loc c)]
  | some (_, w, p) =>
    (if k.op = 0x12 && w.wait.toNat < 32 then [(7, y.loc c)] else []) ++ (if !y.fr.stop && p < g then [(10, y.loc c)] else [])

/-- A stream from one instruction to the end of its frame. After a failed fetch nothing runs (R67). -/
def Image.walk (i : Image) (b : State) (x : Nat) (c : StreamCode) : Nat → Walk → Track
  | 0, y => { ends := [y] }
  | n + 1, y =>
    let g := tickPc + i.frame
    let stop (y : Walk) (code : List (Nat × CheckLoc)) : Track :=
      let r := y.fetchTo x c g
      { r.2 with bad := r.2.bad ++ code, ends := [r.1] }
    if y.fr.stop then { ends := [{ y with fetched := g }] }
    else match y.next c with
      | none => { bad := [(7, y.loc c)] }
      | some (op, w, p) =>
        if g ≤ p then stop y [(10, y.loc c)]
        else
          let k := i.take b x c y op w p
          let late : Track := { k.tr with bad := k.tr.bad ++ if k.late g then [(10, y.loc c)] else [] }
          if k.tr.bad.any fun x => x.1 = 7 then late
          else if w.fend then
            late.seq (k.after.foldl (fun a z =>
              let r := stop z (k.nextFails c g z)
              { evs := a.evs ++ r.evs, bad := a.bad ++ r.bad, ends := a.ends ++ r.ends }) {})
          else match k.pl.flow with
            | .branch _ _ _ =>
              let r := i.branch b x c k
              (late.seq r.2).seq (i.walk b x c n r.1)
            | f => match k.y.fr.next p k.pl.lwait f with
              | fr :: _ => late.seq (i.walk b x c n { k.y with fr := fr })
              | [] => late

end Sys2Proof.Machine
end

