-- ==== Sys2Proof/Machine/Closure.lean ====
section
/-! DEFINITION. The timing closure that bind works out: every frame that a plan can come to, on every path of its streams, and
the checks of each (R33, R55, R56, R77, R98, R138, R143, R149, R188, R193, R199, R323, R326). -/

namespace Sys2Proof.Machine
open Sys2Proof

/-! ### The frames that a plan can come to (R27, R28, R102) -/

/-- How far beyond its pc a deed matters. -/
def Deed.reach (l : Nat) : Deed → Nat
  | .bank _ _ _ _ _ => 24
  | .arrive _ => 256
  | .decode _ => 541
  | .send _ _ _ _ _ => l
  | .port _ | .fold => 1
  | _ => 0

/-- A deed of this frame that matters in the next, with its pc as the next frame counts. -/
def Ev.carry (l : Nat) (e : Ev) : Option Ev :=
  let g := tickPc + l
  let e' := { e with p := e.p - l, q := e.q - l, path := e.path.map fun k => (k.1 - l, k.2) }
  match e.deed with
  | .hold r till => if g < till then some { e' with deed := .hold r (till - l) } else none
  | d => if g < e.q + d.reach l then some e' else none

/-- A pc as the next frame counts; one so old that it matters no more is 0. -/
def carryPc (l q : Nat) : Nat := if q + 24 ≤ tickPc + l then 0 else q - l

/-- A stream at the end of its frame, as the next frame begins; places in fetch order count from the oldest entry. -/
def Walk.carry (l : Nat) (evs : List Ev) (y : Walk) : Walk :=
  let st := y.st
  let base := ((st.queue.head?).map (·.seq)).getD st.fetchSeq
  let reg (k : Known) : Known := { k with due := carryPc l k.due }
  { y with
    st := { st with
      queue := st.queue.map fun q => { q with seq := q.seq - base, ready := carryPc l q.ready }
      skips := st.skips.map fun k => (k.1 - base, k.2 - base)
      fetchSeq := st.fetchSeq - base }
    fr := { y.fr with
      seq := y.fr.seq - base
      last := y.fr.last - l
      loops := y.fr.loops.map fun f => { f with start := f.start - base, last := f.last - base } }
    a := y.a.map reg
    s := y.s.map reg
    slots := y.slots.map fun s => { s with ready := s.ready.map (carryPc l) }
    fetched := tickPc
    past := evs.filterMap (Ev.carry l) }

/-- One frame of a plan: its place in the step, the pc from launch to its tick modulo 8,192, and what each stream does in it
on each path that CT.FBR may have chosen. -/
structure FrameView where
  step : Nat
  off : Nat
  alts : List (List Track)

/-- The streams of an image that hold code, each with its place. -/
def Image.live (i : Image) : List (StreamCode × Nat) := i.streams.zipIdx.filter fun c => !c.1.code.isEmpty

/-- A stream at launch. -/
def StreamCode.begin (c : StreamCode) : Walk :=
  { st := c.loaded c.load
    fr := { Front.reset with pc := c.entry, last := tickPc }
    a := List.replicate 16 { val := some 0, due := 0 }
    s := List.replicate 8 { val := some 0, due := 0 }
    slots := List.replicate 2 { fmt := none, ready := none }
    fetched := tickPc
    past := [] }

/-- The frames from one on, until they recur. -/
def Image.framesFrom (i : Image) (b : State) :
    Nat → List (Nat × Nat × List (List Walk)) → Nat → Nat → List (List Walk) → List FrameView
  | 0, _, _, _, _ => []
  | n + 1, seen, step, off, ws =>
    if seen.contains (step, off, ws) then []
    else
      let alts := (i.live.zip ws).map fun c => c.2.map fun y =>
        let t := i.walk b c.1.2 c.1.1 (2 ^ 21) y
        { t with evs := y.past ++ t.evs }
      let next := alts.map fun ts => (ts.flatMap fun t => t.ends.map (Walk.carry i.frame t.evs)).eraseDups
      { step := step, off := off, alts := alts }
        :: i.framesFrom b n ((step, off, ws) :: seen) ((step + 1) % max 1 i.fs) ((off + i.frame) % 8192) next

/-- Every frame that a plan can come to. The count of frames has no end that a run could reach (R25). -/
def Image.frames (i : Image) (rank : Option Nat) : List FrameView :=
  i.framesFrom (i.bench rank) (2 ^ 64) [] 0 0 (i.live.map fun c => [c.1.begin])

/-! ### Deeds that meet -/

/-- A deed with the path of its stream. -/
abbrev Tagged := Nat × Ev

/-- Both deeds can come in one run: streams choose their paths on their own, one stream takes one path (DESIGN CHOICE,
notes/assumptions/72.md). -/
def compatible (a b : Tagged) : Bool :=
  a.2.x ≠ b.2.x || (a.1 = b.1 && !(a.2.path.any fun k => b.2.path.contains (k.1, !k.2)))

/-- Both are deeds of one instruction. -/
def Ev.sameInstr (a b : Ev) : Bool := a.x = b.x && a.p = b.p && a.loc = b.loc && a.path = b.path

/-- A use that only reads. -/
def BankUse.reads (u : BankUse) : Bool := u = .read || u = .look

/-- Two deeds own one thing: a bank, an ejection or fabric port, an engine resource or a stack slot (R55, R77, R98, R188). -/
def Ev.meets (a b : Ev) : Bool :=
  match a.deed, b.deed with
  | .bank d w u _ _, .bank d' w' u' _ _ =>
    d = d' && w % 64 = w' % 64 && a.q = b.q && !(a.sameInstr b && w = w' && u.reads && u'.reads)
      && !(a.x = b.x && u = .fetch && u' = .fetch)
  | .port n, .port m => n = m && a.q = b.q
  | .hold r till, .want r' => a.x = b.x && r = r' && a.q ≤ b.q && b.q < till && !a.sameInstr b
  | .want r', .hold r till => a.x = b.x && r = r' && b.q ≤ a.q && a.q < till && !a.sameInstr b
  | .arrive c, .arrive c' => c = c' && a.q = b.q
  | _, _ => false

/-- The first deed that meets an earlier one; `arm` where one of them lies in an arm of a CT.BBR. -/
def firstMeeting (arm : Bool) : List Tagged → Option CheckLoc
  | [] => none
  | a :: r => match r.find? fun b => compatible a b && a.2.meets b.2 && (!a.2.path.isEmpty || !b.2.path.isEmpty) = arm with
    | some b => some b.2.loc
    | none => firstMeeting arm r

/-- `e` produces the word that `u` uses, for another unit (R32): data for a source, the bit's state for a tested
destination. -/
def Ev.feeds (e u : Ev) : Bool :=
  match e.deed, u.deed with
  | .bank d w k bit _, .bank d' w' k' _ tested =>
    d = d' && w = w' && !e.sameInstr u && (e.x ≠ u.x || k = .landing)
      && ((k' = .read && (k = .write || k = .landing)) || ((k' = .write || k' = .landing) && tested && bit.isSome))
  | _, _ => false

/-- A planned use comes less than 24 pc after what produces its word (R33; DEDUCED, notes/assumptions/73.md). -/
def lacksLead (u e : Tagged) : Bool := compatible u e && e.2.feeds u.2 && e.2.q < u.2.q && u.2.q < e.2.q + 24

/-- A digest write falls after the VX.DCLOSE that follows its instruction (R143). -/
def foldsLate (f c : Tagged) : Bool :=
  compatible f c && f.2.x = c.2.x && f.2.deed = .fold && c.2.deed = .close && f.2.p < c.2.p && c.2.q < f.2.q

/-! ### The checks of a frame -/

/-- What the slot table of a plan declares for a logical channel (R188). -/
def Image.lchOf (i : Image) (c : Nat) : LchDecl := (i.lch[c]?).getD LchDecl.reset

/-- The arrivals of the step sequencer in and about a frame (R249). -/
def FrameView.seqEvs (v : FrameView) (i : Image) : List Ev :=
  if i.fs = 0 then []
  else (List.range i.nch).flatMap fun c => (i.lchOf c).seq.filterMap fun o =>
    let q := tickPc + o - v.step * i.frame
    if tickPc ≤ q + 256 && q < tickPc + i.frame + 256 then
      some { x := i.streams.length, loc := noLoc, p := q, path := [], q := q, deed := .arrive c }
    else none

/-- Every deed of a frame. -/
def FrameView.all (v : FrameView) (i : Image) : List Tagged :=
  (v.alts.flatMap fun ts => ts.zipIdx.flatMap fun t => t.1.evs.map fun e => (t.2, e)) ++ (v.seqEvs i).map fun e => (0, e)

/-- How many deeds of a kind can come together: of each stream, those of the path with the most. Both arms of a CT.BBR have
the same, so arm T stands for both. -/
def FrameView.most (v : FrameView) (i : Image) (f : Ev → Bool) : Nat :=
  v.alts.foldl (fun n ts => n + ts.foldl (fun m t => max m (t.evs.countP fun e => f e && e.path.all (·.2))) 0) 0
    + (v.seqEvs i).countP f

/-- A planned access falls in its bank's open window (R56). -/
def Ev.inOpenWindow (e : Ev) : Bool :=
  match e.deed with
  | .bank _ w _ _ _ => e.q % 256 / 4 = w % 64
  | _ => false

/-- A stack arrival breaks rule B or C (R188, R193), or a chunk finds eight decoders taken (R199). -/
def FrameView.overSlots (v : FrameView) (i : Image) (e : Ev) : Bool :=
  match e.deed with
  | .arrive c =>
    let d := i.lchOf c
    181 < d.openShare + v.most i (fun f => f.deed = .arrive c && e.q ≤ f.q && f.q < e.q + 256)
      || (e.q + v.off + 8192 - d.phase % 8192) % max 1 d.period < d.len
  | .decode k => 8 < v.most i fun f => f.deed = .decode k && f.q ≤ e.q && e.q < f.q + 541
  | _ => false

/-! ### P slots (R322 to R326) -/

/-- Bytes of a cell at the plan's highest step: 200 GB/s for 64 pc (R323). -/
def Image.cellBytes (i : Image) : Nat := 12800 * clkPeriod i.fMax / tuNs

/-- The P slots of a table, as pc from the tick and cells. -/
def pSlots (t : List (BitVec 4)) : List (Nat × Nat) :=
  (List.range t.length).filterMap fun k =>
    if t[k]? = some 1#4 then some (64 * k, 1 + ((t.drop (k + 1)).takeWhile fun c => c = 2#4).length) else none

/-- One of each. -/
def sections {α : Type} : List (List α) → List (List α)
  | [] => [[]]
  | l :: r => l.flatMap fun x => (sections r).map (x :: ·)

/-- Each packet in turn begins in the first P slot that is not taken and that begins at its first beat or later, and fits it:
(pc of the first beat, wire bytes, place) and (start, bytes). Answers the first that finds none (R323, R324, R326; DEDUCED,
notes/assumptions/74.md). -/
def firstUnsent : List (Nat × Nat × CheckLoc) → List (Nat × Nat) → Option CheckLoc
  | [], _ => none
  | k :: r, slots => match slots.dropWhile fun s => s.1 < k.1 with
    | [] => some k.2.2
    | s :: rest => if k.2.1 ≤ s.2 then firstUnsent r rest else some k.2.2

/-- The packets of a stream on one path at a logical link: pc of the first beat, wire bytes, place. -/
def Track.sends (t : Track) (l : Nat) : List (Nat × Nat × CheckLoc) :=
  t.evs.filterMap fun e => match e.deed with
    | .send k _ _ _ n => if k = l && e.path.all (·.2) then some (e.q, 64 * n + 20, e.loc) else none
    | _ => none

/-- The first packet of a frame, or of the one before, that owns no P slot of its link. -/
def FrameView.unsent (v : FrameView) (i : Image) : Option CheckLoc :=
  (List.range 12).findSome? fun l =>
    let slots := (pSlots ((alGet l i.slotTables).getD [])).map fun s => (s.1, s.2 * i.cellBytes)
    let all := [tickPc - i.frame, tickPc, tickPc + i.frame].flatMap fun g => slots.map fun s => (g + s.1, s.2)
    (sections (v.alts.map fun ts => (ts.map fun t => t.sends l).eraseDups)).findSome? fun ks =>
      firstUnsent (sortBy (fun a b => a.1 < b.1 || (a.1 = b.1 && a.2.2.ltile < b.2.2.ltile)) ks.flatten) all

/-! ### The checks by code (R149) -/

/-- What the walk of a frame's streams found for a code. -/
def FrameView.found (v : FrameView) (code : Nat) : Option CheckLoc :=
  (v.alts.flatten.flatMap (·.bad)).findSome? fun x => if x.1 = code then some x.2 else none

/-- The place of a use that lacks its lead; `arm` where it lies in an arm. -/
def leadless (arm : Bool) (l : List Tagged) : Option CheckLoc :=
  (l.find? fun u => !u.2.path.isEmpty = arm && l.any fun e => lacksLead u e).map fun u => u.2.loc

/-- The place of an access in an open window; `arm` where it lies in an arm. -/
def windowed (arm : Bool) (l : List Tagged) : Option CheckLoc :=
  (l.find? fun u => !u.2.path.isEmpty = arm && u.2.inOpenWindow).map fun u => u.2.loc

/-- The place at which a frame fails the check of a code. -/
def FrameView.fails (v : FrameView) (i : Image) (code : Nat) : Option CheckLoc :=
  let l := v.all i
  v.found code <|> match code with
    | 5 => firstMeeting true l <|> windowed true l <|> leadless true l
    | 8 => leadless false l
    | 9 => firstMeeting false l <|> windowed false l <|> ((l.find? fun e => v.overSlots i e.2).map fun e => e.2.loc) <|> v.unsent i
    | 12 => (l.find? fun f => l.any fun c => foldsLate f c).map fun f => f.2.loc
    | _ => none

/-- The place at which a plan first fails the check of a code. -/
def Image.closure (i : Image) (rank : Option Nat) (code : Nat) : Option CheckLoc :=
  (i.frames rank).findSome? fun v => v.fails i code

end Sys2Proof.Machine
end

