-- ==== Sys2Proof/Machine/Link.lean ====
section
/-! DEFINITION. The link layer: sequence numbers, acknowledgement, replay, training, retraining and spare lanes
(R341 to R370). -/

namespace Sys2Proof.Machine
open Sys2Proof

/-! ### States and going down (R360, R363) -/

/-- DETAIL of a port's fault record, beside the port (R492 kind 7). -/
def portObj (n detail : Nat) : Nat := n + detail * 16

/-- A port's state changed, with its event and vector 5 of the physical function (R360, R436, R463). -/
def State.setLinkState (s : State) (n : Nat) (st : BitVec 3) : State :=
  if (s.link n).state = st then s
  else ((s.modLink n fun l => { l with state := st }).logEvent 7 (n + st.toNat * 256)).signal 0 5

/-- The cause of going down as F-0101 names it, in the order of R363; 5 is a forced retrain (DEDUCED, notes/assumptions/36.md). -/
def DownCause.code : DownCause → Nat
  | .lockLost => 1
  | .uncorrectable => 2
  | .nakLimit => 3
  | .pattern => 4

/-- An ACTIVE port goes down: RETRAIN, F-0101, and on a job port an episode with cause LINK_DOWN. Replay buffer, pool and
sequence state are kept (R363). -/
def State.goDown (s : State) (n cause : Nat) : State :=
  if (s.link n).state ≠ 5#3 then s
  else
    let job := (s.link n).fab.role = 1#2
    let s := s.modLink n fun l => { l with
      inlineOut := []
      resendFrom := none
      catchUp := false
      replaySeen := false
      retraining := true
      calCount := 0
      trainAt := s.wall
      uncorrWin := []
      downHeld := l.downHeld || job
      lanes := { l.lanes with
        armed := none
        request := none
        verifying := none
        verifyBad := false }
      counters := { l.counters with retrains := satInc l.counters.retrains } }
    let s := (s.setLinkState n 6).logFault (s.fault 0x101 7 (portObj n cause))
    if job then s.raiseCause 0x8 (.linkDown n) else s

/-- F-0102 with the number in no window; the link goes down (R349, R351). -/
def State.seqProtocol (s : State) (n : Nat) (num : BitVec 16) : State :=
  let s := s.goDown n 3
  s.logFault (s.fault 0x102 7 (portObj n num.toNat))

/-- Packets of a port discarded: what is unacknowledged, and what has not been read from its pool (R362). -/
def State.discardPackets (s : State) (n : Nat) : State :=
  let s : State := { s with
    recvDir := s.recvDir.filter fun d => d.port ≠ n
    links := s.links.map fun l => { l with fab := { l.fab with
      pQueue := l.fab.pQueue.filter fun q => !(q.relay && q.via = n)
      openQ := l.fab.openQ.filter fun o => !(o.via = n && !o.inBuf) } } }
  s.modLink n fun l => { l with
    replay := []
    resendFrom := none
    tAckAt := none
    nakPending := false
    replayUntil := none
    sinceAck := 0
    ackAt := none
    lost := false
    fab := { l.fab with
      pool := []
      accepted := [] } }

/-- A port becomes FAILED and carries nothing (R313, R360). -/
def State.failPort (s : State) (n : Nat) : State :=
  (s.modLink n fun l => { l with
    fullTrain := false
    retraining := false
    catchUp := false
    inlineOut := []
    ctlOut := []
    fab := { l.fab with role := 3 } }).setLinkState n 7

/-! ### Acknowledgement and replay (R349 to R353) -/

/-- Two symbols of one kind, of which the later supersedes the earlier (R344). -/
def LinkSym.sameKind : LinkSym → LinkSym → Bool
  | .ack _, .ack _ => true
  | .nak _, .nak _ => true
  | .replay _, .replay _ => true
  | _, _ => false

/-- A link symbol waits for a control field. -/
def Link.say (l : Link) (c : LinkSym) : Link := { l with ctlOut := l.ctlOut.filter (fun x => !x.sameKind c) ++ [c] }

/-- ACK of everything accepted in order (R350). -/
def Link.sendAck (l : Link) : Link :=
  let v := l.rxExpected - 1
  { l.say (.ack v) with
    rxAcked := v
    sinceAck := 0
    ackAt := none }

/-- NAK of the expected number (R349). -/
def Link.sendNak (l : Link) (now : Nat) : Link :=
  { l.say (.nak l.rxExpected) with
    nakPending := true
    nakAt := now + l.tNak }

/-- NAK where none is pending (R349). -/
def Link.nakOnce (l : Link) (now : Nat) : Link := if l.nakPending then l else l.sendNak now

/-- Where a number that an ACK or NAK names lies: in the window from the oldest unacknowledged number to the next one,
with its distance; behind it within 4,096; or in no window (R351). -/
def Link.windowOf (l : Link) (k : BitVec 16) : Option Nat × Bool :=
  let d := (k - l.txOldest).toNat
  if d ≤ (l.txNext - l.txOldest).toNat then (some d, false) else (none, decide (65536 - 4096 ≤ d))

/-- The entries before number `k`, which lies in the window, freed; the timer starts again where the oldest number
advances (R351). -/
def Link.freeTo (l : Link) (k : BitVec 16) (now : Nat) : Link :=
  let rest := l.replay.filter fun e => (k - l.txOldest).toNat ≤ (e.seq - l.txOldest).toNat
  { l with
    replay := rest
    txOldest := k
    resendFrom := l.resendFrom.map fun r => if (r - l.txOldest).toNat < (k - l.txOldest).toNat then k else r
    tAckAt := if rest.isEmpty then none else if k = l.txOldest then l.tAckAt else some (now + l.tAck) }

/-- ACK (R350, R351): the entries up to its value are free. -/
def execAck (n : PortId) (val : BitVec 16) (s : State) : Host.Outcome State Fault Refusal :=
  let l := s.link n
  if l.state ≠ 5#3 then .next s
  else match l.windowOf (val + 1) with
    | (some _, _) => .next (s.modLink n fun l => l.freeTo (val + 1) s.wall)
    | (none, true) => .next s
    | (none, false) => .next (s.seqProtocol n val)

/-- NAK (R350, R351): earlier entries are free, the packet in transmission stops, and the replay runs from its number. -/
def execNak (n : PortId) (val : BitVec 16) (s : State) : Host.Outcome State Fault Refusal :=
  let l := s.link n
  if l.state ≠ 5#3 then .next s
  else match l.windowOf val with
    | (some _, _) =>
      .next (s.modLink n fun l =>
        let l := l.freeTo val s.wall
        { l with
          resendFrom := some val
          fab := { l.fab with busyUntil := min l.fab.busyUntil s.wall }
          counters := { l.counters with replays := satInc l.counters.replays } })
    | (none, true) => .next s
    | (none, false) => .next (s.seqProtocol n val)

/-- REPLAY (R351, R353): the receiver is REPLAYING until the announced number is reached. -/
def execReplay (n : PortId) (val : BitVec 16) (s : State) : Host.Outcome State Fault Refusal :=
  if (s.link n).state ≠ 5#3 then .next s
  else .next (s.modLink n fun l => { l with
    replaySeen := true
    replayUntil := if val = l.rxExpected then none else some val })

/-- A packet whose trailer fails (R319, R343, R349). -/
def State.badTrailer (s : State) (n : Nat) : State :=
  s.modLink n fun l =>
    let l := { l with
      lost := true
      counters := { l.counters with crcErr := satInc l.counters.crcErr } }
    l.nakOnce s.wall

/-- An open packet without room in its class's space (R357). -/
def State.noRoom (s : State) (n : Nat) (p : Packet) : Bool :=
  p.clsN ≠ 0 && decide (s.poolRoom n p.clsN < p.stored)

/-- A packet accepted in order (R349, R350, R353). -/
def State.acceptNext (s : State) (n : Nat) (p : Packet) : State :=
  let s := s.modLink n fun l => { l with
    rxExpected := l.rxExpected + 1
    nakPending := false
    lost := false
    replayUntil := l.replayUntil.filter (· ≠ l.rxExpected + 1)
    sinceAck := l.sinceAck + 1
    ackAt := some (l.ackAt.getD (s.wall + 64 * tuNs))
    counters := { l.counters with
      cnt := vset l.counters.cnt (cntIx p.clsN true) (satInc (vget l.counters.cnt (cntIx p.clsN true) 0)) }
    fab := { l.fab with accepted := l.fab.accepted ++ [p] } }
  if p.clsN = 0 then s else s.flowUpdate n

/-- LINK_PACKET_CHECK (R319, R343, R349, R357). -/
def execLinkPacketCheck (n : PortId) (pkt : Packet) (s : State) : Host.Outcome State Fault Refusal :=
  let l := s.link n
  let dd := (pkt.lseq - l.rxExpected).toNat
  if l.state ≠ 5#3 then .next s
  else if !pkt.trailerOk then .next (s.badTrailer n)
  else if l.lost && (!l.replaying || (0 < dd && dd < 61440)) then .next s
  else if dd = 0 then
    if s.noRoom n pkt then
      .next (s.modLink n fun l => { l.nakOnce s.wall with
        lost := false
        counters := { l.counters with poolNak := satInc l.counters.poolNak } })
    else .next (s.acceptNext n pkt)
  else if dd ≤ 4095 then .next (s.modLink n fun l => l.nakOnce s.wall)
  else if 61440 ≤ dd then .next (s.modLink n fun l => { l.sendAck with lost := false })
  else .next (s.seqProtocol n pkt.lseq)

/-- ACK_TIMER_EXPIRY (R351): REPLAY announces the next new number, and the oldest unacknowledged packet goes first. -/
def execAckTimerExpiry (n : PortId) (s : State) : Host.Outcome State Fault Refusal :=
  let l := s.link n
  let due := match l.tAckAt with
    | some t => decide (t ≤ s.wall)
    | none => false
  if l.state ≠ 5#3 || l.replay.isEmpty || !due then .next s
  else .next (s.modLink n fun l => { l.say (.replay l.txNext) with
    resendFrom := some l.txOldest
    tAckAt := some (s.wall + l.tAck)
    counters := { l.counters with
      ackTimeouts := satInc l.counters.ackTimeouts
      replays := satInc l.counters.replays } })

/-- NAK_REPEAT (R349). -/
def execNakRepeat (n : PortId) (s : State) : Host.Outcome State Fault Refusal :=
  let l := s.link n
  if l.state ≠ 5#3 || !l.nakPending || s.wall < l.nakAt then .next s
  else .next (s.modLink n fun l => l.sendNak s.wall)

/-- ACK_INTERVAL (R350). -/
def execAckInterval (n : PortId) (s : State) : Host.Outcome State Fault Refusal :=
  let l := s.link n
  let due := 32 ≤ l.sinceAck || (match l.ackAt with
    | some t => decide (t ≤ s.wall)
    | none => false)
  if l.state ≠ 5#3 || l.sinceAck = 0 || !due then .next s
  else .next (s.modLink n Link.sendAck)

/-- UNCORRECTABLE_CODEWORD (R343, R344, R363, R367). -/
def execUncorrectableCodeword (n : PortId) (s : State) : Host.Outcome State Fault Refusal :=
  if (s.link n).state ≠ 5#3 then .next s
  else
    let s := s.modLink n fun l => { l with
      lost := true
      uncorrWin := (l.uncorrWin.filter fun c => l.rxCodewords < c + 1024) ++ [l.rxCodewords]
      lanes := { l.lanes with verifyBad := l.lanes.verifyBad || l.lanes.verifying.isSome }
      counters := { l.counters with fecUncorr := satInc l.counters.fecUncorr } }
    .next (if 8 ≤ (s.link n).uncorrWin.length then s.goDown n 2 else s)

/-! ### Calibration, training and retraining (R358 to R364) -/

/-- A training or retraining attempt is in progress. -/
def Link.training (l : Link) : Bool := l.state = 1#3 || l.state = 2#3 || l.state = 3#3 || l.state = 4#3 || l.state = 6#3

/-- The states up to `last` that an attempt passes (R360). -/
def State.passStates (s : State) (n last : Nat) : State :=
  ((List.range 5).filter fun k => 2 ≤ k && k ≤ last && ((s.link n).state.toNat < k || (s.link n).state = 6#3)).foldl
    (fun s k => s.setLinkState n (BitVec.ofNat 3 k)) s

/-- CAL (R358, R361): one exchange of calibration stamps; the raw latencies as measured so far, less the end constants. -/
def execCal (n : PortId) (stamp : BitVec 16) (raw : CalRaw) (s : State) : Host.Outcome State Fault Refusal :=
  let l := s.link n
  if !l.training || s.wall < l.trainAt || (!l.retraining && !s.pcie.selfValid) then .next s
  else
    let s := s.passStates n 4
    .next (s.modLink n fun l => { l with
      rawHold := raw.hold
      rawData := raw.data
      rawSym := raw.sym
      calCount := l.calCount + 1
      ctlOut := l.ctlOut ++ [.cal stamp] })

/-- LINK_DOWN (R363). -/
def execLinkDown (n : PortId) (cause : DownCause) (s : State) : Host.Outcome State Fault Refusal :=
  .next (s.goDown n cause.code)

/-- Data lanes 0 to 7 with the replaced one taken by lane 8. -/
def LinkLanes.inUse (x : LinkLanes) : List Nat :=
  (List.range 8).map fun i => if x.replaced.toNat = i then 8 else i

/-- The spare carries no lane of this receiver. -/
def LinkLanes.spareFree (x : LinkLanes) : Bool := decide (8 ≤ x.replaced.toNat)

/-- The lane set after (re)training with these lanes locked, where one exists: a lane that does not lock is replaced by
the spare (R361, R364). -/
def LinkLanes.lockWith (x : LinkLanes) (locked : BitVec 9) : Option LinkLanes :=
  let y := { x with locked := locked }
  match x.inUse.filter fun i => !locked.getLsbD i with
  | [] => some y
  | [i] => if x.spareFree && i < 8 && locked.getLsbD 8 then some { y with replaced := BitVec.ofNat 4 i } else none
  | _ => none

/-- Full training starts; what the port still holds is lost, and on a job port F-0104 follows (R361, R362). -/
def State.startTraining (s : State) (n : Nat) (byReq : Bool) : State :=
  let l := s.link n
  let holds := !l.replay.isEmpty || !l.fab.pool.isEmpty || !l.fab.accepted.isEmpty
  let job := l.fab.role = 1#2
  let s := s.discardPackets n
  let s := s.modLink n fun l => { l with
    fullTrain := byReq
    retraining := false
    catchUp := false
    inlineOut := []
    ctlOut := []
    calCount := 0
    trainAt := s.wall
    neighbourValid := false
    lanes := { LinkLanes.reset with
      thresh := l.lanes.thresh
      auto := l.lanes.auto
      sel := l.lanes.sel } }
  let s := s.setLinkState n 1
  if holds && job then s.faultHold (s.fault 0x104 0 0) else s

/-- LNKn.CTRL.ENABLE written (R361). -/
def State.writeEnable (s : State) (n : Nat) (on : Bool) : State :=
  let was := (s.link n).enable
  let s := s.modLink n fun l => { l with enable := on }
  if on then (if was then s else s.startTraining n false)
  else (s.modLink n fun l => { l with
    fullTrain := false
    retraining := false
    inlineOut := []
    ctlOut := [] }).setLinkState n 0

/-- LINK_ENABLE (R361). -/
def execLinkEnable (n : PortId) (on : Bool) (s : State) : Host.Outcome State Fault Refusal :=
  .next (s.ifReady fun s => s.writeEnable n on)

/-- LNKn.CTRL.FULL_TRAIN written; a disabled port does not train (R360, R361). -/
def State.fullTrainReq (s : State) (n : Nat) : State :=
  if (s.link n).enable then s.startTraining n true else s

/-- FULL_TRAIN (R361, R362). -/
def execFullTrain (n : PortId) (s : State) : Host.Outcome State Fault Refusal :=
  .next (s.ifReady fun s => s.fullTrainReq n)

/-- LNKn.CTRL.RETRAIN written: an ACTIVE port goes down, a retraining one begins its attempt again (R369). -/
def State.forceRetrain (s : State) (n : Nat) : State :=
  if (s.link n).state = 5#3 then s.goDown n 5
  else if (s.link n).retraining then
    (s.modLink n fun l => { l with
      trainAt := s.wall
      calCount := 0
      counters := { l.counters with retrains := satInc l.counters.retrains } }).setLinkState n 6
  else s

/-- FORCE_RETRAIN (R369). -/
def execForceRetrain (n : PortId) (s : State) : Host.Outcome State Fault Refusal :=
  .next (s.ifReady fun s => s.forceRetrain n)

/-- LNKn.CTRL.DECLARE_FAILED written (R364). -/
def State.declarePort (s : State) (n : Nat) : State :=
  let s := s.discardPackets n
  let s := s.modLink n fun l => { l with fab := { l.fab with
    pQueue := []
    openQ := []
    fwd := false } }
  s.failPort n

/-- DECLARE_FAILED (R364). -/
def execDeclareFailed (n : PortId) (s : State) : Host.Outcome State Fault Refusal :=
  .next (s.ifReady fun s => s.declarePort n)

/-- F-0114 with the neighbour's address; the port is FAILED (R313, R364). -/
def State.wiringMismatch (s : State) (n : Nat) (id : LinkIdent) : State :=
  let r := s.fault 0x114 7 (portObj n 0)
  (s.failPort n).logFault r (some (r.contWith id.addr.toNat))

/-- The highest version that both ends list (R362). -/
def commonVersion (l : Link) (id : LinkIdent) : Option (BitVec 8) :=
  let hi := min l.verMax.toNat id.verMax.toNat
  let lo := max l.verMin.toNat id.verMin.toNat
  if lo ≤ hi then some (BitVec.ofNat 8 hi) else none

/-- A link that has reached ACTIVE sends codewords and its FLOW state from now on (R342, R344). -/
def Link.goActive (l : Link) (now : Nat) : Link :=
  { l with
    codewordAt := now
    sinceFlow := 0
    lost := false
    uncorrWin := []
    retraining := false
    fullTrain := false }

/-- IDENT has completed (R361, R369). -/
def Link.identified (l : Link) (id : LinkIdent) : Link :=
  { l with
    neighbour := id.addr
    neighbourPort := id.port
    neighbourValid := true }

/-- TRAINING_DONE (R313, R348, R358, R361, R362): IDENT is reached only with a valid chip address, and ACTIVE after 256 round
trips. -/
def execTrainingDone (n : PortId) (id : LinkIdent) (locked : BitVec 9) (s : State) : Host.Outcome State Fault Refusal :=
  let l := s.link n
  if !l.training || l.retraining || !s.pcie.selfValid || s.wall < l.trainAt || l.calCount < 256 then .next s
  else match l.lanes.lockWith locked with
    | none => .next s
    | some lanes =>
      let s := s.modLink n fun l => { l with lanes := lanes }
      let s := (s.passStates n 3).modLink n fun l => l.identified id
      if s.wired n ≠ (id.addr, id.port.toNat) then .next (s.wiringMismatch n id)
      else match commonVersion l id with
        | none => .next ((s.failPort n).logFault (s.fault 0x107 7 (portObj n (id.verMin.toNat + id.verMax.toNat * 256))))
        | some v =>
          let s := s.passStates n 4
          let s := s.modLink n fun l => { l.goActive s.wall with
            verUsed := v
            txNext := 0
            txOldest := 0
            rxExpected := 0
            rxAcked := 0
            downHeld := false
            ctlOut := []
            fab := { l.fab with
              role := if l.fab.role = 3#2 then 0 else l.fab.role
              xoffSent := 0
              xoffRcvd := 0 } }
          .next (((s.setLinkState n 5).clearCause (.linkDown n)).flowUpdate n)

/-- The pad that restores the recorded hold latency, where one from 0 to 32 ns does; a latency that no bind has recorded
asks for none (R359). -/
def Link.newPad (l : Link) : Option (BitVec 12) :=
  if l.calHold = 0 then some l.pad
  else if l.rawHold ≤ l.calHold.toNat && l.calHold.toNat - l.rawHold ≤ 2048 then
    some (BitVec.ofNat 12 (l.calHold.toNat - l.rawHold))
  else none

/-- The port is ACTIVE again: ACK of what was accepted, REPLAY of the next number, and the replay (R364). -/
def Link.resume (l : Link) (now : Nat) : Link :=
  let l := { l.goActive now with
    ctlOut := []
    catchUp := true
    replaySeen := false
    replayUntil := none
    resendFrom := if l.replay.isEmpty then none else some l.txOldest
    tAckAt := if l.replay.isEmpty then none else some (now + l.tAck) }
  (l.say (.replay l.txNext)).sendAck

/-- RETRAIN_DONE (R358, R359, R364): after 64 round trips. -/
def execRetrainDone (n : PortId) (id : LinkIdent) (locked : BitVec 9) (s : State) : Host.Outcome State Fault Refusal :=
  let l := s.link n
  if !l.training || !l.retraining || s.wall < l.trainAt || l.calCount < 64 then .next s
  else match l.lanes.lockWith locked with
    | none => .next s
    | some lanes =>
      let s := s.modLink n fun l => { l with lanes := lanes }
      if (l.neighbour, l.neighbourPort) ≠ (id.addr, id.port) then .next ((s.passStates n 3).wiringMismatch n id)
      else match l.newPad with
        | none => .next ((s.setLinkState n 6).logFault (s.fault 0x106 7 (portObj n l.rawHold)))
        | some pad =>
          let s := s.passStates n 4
          .next ((s.modLink n fun l => { l.resume s.wall with pad := pad }).setLinkState n 5)

/-- RETRAIN_TIMEOUT (R364): an attempt not ACTIVE by 2 ms starts again after 10 ms. -/
def execRetrainTimeout (n : PortId) (s : State) : Host.Outcome State Fault Refusal :=
  let l := s.link n
  if !l.training || !l.retraining || s.wall < l.trainAt + 2 * tuMs then .next s
  else .next ((s.modLink n fun l => { l with
    trainAt := s.wall + 10 * tuMs
    calCount := 0
    counters := { l.counters with retrains := satInc l.counters.retrains } }).setLinkState n 6)

/-- The chip's upstream port (R39, R234). -/
def State.isUpstream (s : State) (n : Nat) : Bool := s.map.rankValid && !s.map.upRoot && s.map.upPort.toNat = n

/-- LINK_CATCH_UP (R364): the announced number has been accepted and the PLL has relocked. -/
def execLinkCatchUp (n : PortId) (pll : Bool) (s : State) : Host.Outcome State Fault Refusal :=
  let l := s.link n
  if l.state ≠ 5#3 || !l.catchUp || !l.replaySeen || l.replayUntil.isSome || (s.isUpstream n && !pll) then .next s
  else .next ((s.modLink n fun l => { l with
    catchUp := false
    downHeld := false }).clearCause (.linkDown n))

/-- LANE_LOCK_TIMEOUT (R361): lanes not locked by 20 ms are excluded; fewer than eight locked lanes train again after
100 ms. -/
def execLaneLockTimeout (n : PortId) (locked : BitVec 9) (s : State) : Host.Outcome State Fault Refusal :=
  let l := s.link n
  if l.state ≠ 1#3 || s.wall < l.trainAt + 20 * tuMs then .next s
  else match l.lanes.lockWith locked with
    | some lanes => .next ((s.modLink n fun l => { l with lanes := lanes }).setLinkState n 2)
    | none => .next (s.modLink n fun l => { l with
        lanes := { l.lanes with locked := locked }
        trainAt := l.trainAt + 100 * tuMs })

/-! ### Spare lanes (R365 to R367) -/

/-- A swap of a lane is under way at this receiver. -/
def LinkLanes.swapping (x : LinkLanes) : Bool := x.request.isSome || x.armed.isSome || x.verifying.isSome

/-- LANE REQ leaves for a lane (R365). -/
def State.requestLane (s : State) (n lane : Nat) : State :=
  s.modLink n fun l => { l with
    ctlOut := l.ctlOut ++ [.lane 1 (BitVec.ofNat 4 lane)]
    lanes := { l.lanes with
      request := some (BitVec.ofNat 4 lane)
      retryAt := s.wall + 10 * tuUs } }

/-- A degrading lane: its swap starts, or F-0108 where the spare is in use (R365, R367). -/
def State.laneDegrades (s : State) (n lane : Nat) : State :=
  let x := (s.link n).lanes
  if !x.spareFree then s.logFault (s.fault 0x108 7 (portObj n lane))
  else if x.auto && !x.swapping then s.requestLane n lane
  else s

/-- LANE_ERROR_WINDOW (R365, R367): a window of 2^20 codewords ends with these corrected symbols on each lane. -/
def execLaneErrorWindow (n : PortId) (counts : List (BitVec 32)) (corrected : BitVec 32) (s : State) :
    Host.Outcome State Fault Refusal :=
  let l := s.link n
  if l.state ≠ 5#3 then .next s
  else
    let c (i : Nat) : Nat := (counts.getD i 0).toNat
    let s := s.modLink n fun l => { l with
      counters := { l.counters with
        fecCorr := satAdd l.counters.fecCorr corrected.toNat
        laneErr := Vector.ofFn fun i => satAdd l.counters.laneErr[i] (c i.val) } }
    .next ((l.lanes.inUse.filter fun i => l.lanes.thresh.toNat < c i).foldl (fun s i => s.laneDegrades n i) s)

/-- LNKn.LANE_CFG.REQ written: the swap of LANE_SEL.LANE regardless of THRESH (R369). -/
def State.laneSwapReq (s : State) (n : Nat) : State :=
  let l := s.link n
  if l.state = 5#3 && l.lanes.spareFree && !l.lanes.swapping && l.lanes.sel.toNat < 8 then s.requestLane n l.lanes.sel.toNat
  else s

/-- LANE_SWAP_REQ (R369). -/
def execLaneSwapReq (n : PortId) (s : State) : Host.Outcome State Fault Refusal :=
  .next (s.ifReady fun s => s.laneSwapReq n)

/-- LANE_REQ (R365): the sender copies the lane onto lane 8 and answers. -/
def execLaneReq (n : PortId) (lane : LaneIx) (s : State) : Host.Outcome State Fault Refusal :=
  if (s.link n).state ≠ 5#3 then .next s
  else .next (s.modLink n fun l => { l with
    ctlOut := l.ctlOut ++ [.lane 2 (BitVec.ofNat 4 lane.val)]
    lanes := { l.lanes with sendCopy := some (BitVec.ofNat 4 lane.val) } })

/-- LANE_ACK (R365): the requested lane's swap is armed for the next frame tick. -/
def execLaneAck (n : PortId) (lane : LaneIx) (s : State) : Host.Outcome State Fault Refusal :=
  let l := s.link n
  if l.state ≠ 5#3 || l.lanes.request ≠ some (BitVec.ofNat 4 lane.val) then .next s
  else .next (s.modLink n fun l => { l with lanes := { l.lanes with
    request := none
    armed := some (BitVec.ofNat 4 lane.val) } })

/-- LANE_DONE (R366): the sender sends idle on the replaced lane. -/
def execLaneDone (n : PortId) (lane : LaneIx) (s : State) : Host.Outcome State Fault Refusal :=
  if (s.link n).state ≠ 5#3 then .next s
  else .next (s.modLink n fun l => { l with lanes := { l.lanes with
    sendCopy := none
    sendIdle := some (BitVec.ofNat 4 lane.val) } })

/-- LANE_REVERT (R367): the lane carries the link again, and lane 8 is the spare. -/
def execLaneRevert (n : PortId) (lane : LaneIx) (s : State) : Host.Outcome State Fault Refusal :=
  .next (s.modLink n fun l => { l with lanes := { l.lanes with
    sendCopy := none
    sendIdle := l.lanes.sendIdle.filter (· ≠ BitVec.ofNat 4 lane.val) } })

/-- LANE_SYMBOL_RETRY (R365). -/
def execLaneSymbolRetry (n : PortId) (s : State) : Host.Outcome State Fault Refusal :=
  let l := s.link n
  match l.lanes.request with
  | none => .next s
  | some lane => if l.state ≠ 5#3 || s.wall < l.lanes.retryAt then .next s else .next (s.requestLane n lane.toNat)

/-- A frame tick of this chip stands at the present count; a chip that has launched no plan has none to wait for
(R365). -/
def State.anyTick (s : State) : Bool :=
  s.launchedParts.isEmpty || s.launchedParts.any (fun p => s.isTick p s.plan.geyser)

/-- LANE_SWAP (R366): a job port swaps at the armed tick under its own LINK_DOWN episode, another port at once. -/
def execLaneSwap (n : PortId) (s : State) : Host.Outcome State Fault Refusal :=
  let l := s.link n
  let job := l.fab.role = 1#2
  match l.lanes.armed with
  | none => .next s
  | some lane =>
    if l.state ≠ 5#3 || (job && !s.anyTick) then .next s
    else
      let s := s.modLink n fun l => { l with
        downHeld := job
        lanes := { l.lanes with
          armed := none
          replaced := lane
          verifying := some (lane, l.rxCodewords)
          verifyBad := false } }
      .next (if job then s.raiseCause 0x8 (.linkDown n) else s)

/-- LANE_SWAP_VERIFY (R366, R367): 256 codewords have arrived on the new lane set. -/
def execLaneSwapVerify (n : PortId) (good : Bool) (s : State) : Host.Outcome State Fault Refusal :=
  let l := s.link n
  match l.lanes.verifying with
  | none => .next s
  | some (lane, start) =>
    if l.state ≠ 5#3 || l.rxCodewords < start + 256 then .next s
    else if good && !l.lanes.verifyBad then
      .next ((s.modLink n fun l => { l with
        downHeld := false
        ctlOut := l.ctlOut ++ [.lane 3 lane]
        lanes := { l.lanes with verifying := none } }).clearCause (.linkDown n))
    else
      let s := s.modLink n fun l => { l with
        lastCtl := .lane 4 lane
        lanes := { l.lanes with
          replaced := 0xF
          verifying := none } }
      let s := s.goDown n 2
      .next (s.logFault (s.fault 0x109 7 (portObj n lane.toNat)))

end Sys2Proof.Machine
end

