-- ==== Sys2Proof/Machine/Check.lean ====
section
/-! DEFINITION. The checks that bind makes of a plan image (R149). -/

namespace Sys2Proof.Machine
open Sys2Proof

/-- The 128 bits are a valid instruction of stream `e` (R88, R89, R124). -/
def instrValid (e : Eng) (b : BitVec 128) : Bool :=
  let w := iwordOf b
  match opcodeOf b with
  | 0x01 => ctNopOk e w
  | 0x02 => ctLwaitOk e w
  | 0x03 => ctHaltOk e w
  | 0x04 => ctAmovOk e w
  | 0x05 => ctAaddOk e w
  | 0x06 => ctAaluOk e w
  | 0x07 => ctSmovOk e w
  | 0x08 => ctSaluOk e w
  | 0x09 => ctXmovOk e w
  | 0x0A => ctSldOk e w
  | 0x0B => ctSstOk e w
  | 0x0C => ctPollOk e w
  | 0x10 => ctLoopOk e w
  | 0x11 => ctJmpOk e w
  | 0x12 => ctFbrOk e w
  | 0x13 => ctBbrOk e w
  | 0x18 => ctFesetOk e w
  | 0x19 => ctBarOk e w
  | 0x1A => ctWatchOk e w
  | 0x40 => decide (e = .mx) && mxLdwOk w
  | 0x41 => decide (e = .mx) && mxMmaOk w
  | 0x80 => decide (e = .vx) && vxAluOk w
  | 0x81 => decide (e = .vx) && vxCvtOk w
  | 0x82 => decide (e = .vx) && vxTrOk w
  | 0x83 => decide (e = .vx) && vxRedOk w
  | 0x84 => decide (e = .vx) && vxRngOk w
  | 0x85 => decide (e = .vx) && vxRedsOk w
  | 0x86 => decide (e = .vx) && vxEraccOk w
  | 0x87 => decide (e = .vx) && vxEraddOk w
  | 0x88 => decide (e = .vx) && vxErcvtOk w
  | 0x89 => decide (e = .vx) && vxDcloseOk w
  | 0xC0 => decide (e = .mv) && mvCpyOk w
  | 0xC1 => decide (e = .mv) && mvFillOk w
  | 0xC2 => decide (e = .mv) && mvSendOk w
  | 0xC3 => decide (e = .mv) && mvSldOk w
  | 0xC4 => decide (e = .mv) && mvSstOk w
  | 0xC5 => decide (e = .mv) && mvFsendOk w
  | 0xC6 => decide (e = .mv) && mvFrecvOk w
  | 0xC8 => decide (e = .mv) && mvEldOk w
  | 0xC9 => decide (e = .mv) && mvPgathOk w
  | 0xCA => decide (e = .mv) && mvPstOk w
  | 0xCB => decide (e = .mv) && mvStrfOk w
  | _ => false

/-! ### The code of an image (R66, R149) -/

/-- The instructions of a stream with their program counters. -/
def StreamCode.program (c : StreamCode) : List (Nat × BitVec 128) := c.code.zipIdx.map fun x => (x.2, x.1)

/-- The first instruction that fails a test, stream by stream. -/
def Image.firstBad (i : Image) (bad : StreamCode → List (Nat × BitVec 128) → Nat → BitVec 128 → Bool) : Option CheckLoc :=
  i.streams.findSome? fun c =>
    let prog := c.program
    (prog.find? fun x => bad c prog x.1 x.2).map fun x => { ltile := c.ltile, stream := c.engine, pc := x.1 }

/-- Instructions from `lo` to `hi`. -/
def within (prog : List (Nat × BitVec 128)) (lo hi : Nat) : List (BitVec 128) :=
  (prog.filter fun x => lo ≤ x.1 && x.1 ≤ hi).map (·.2)

/-- BODY of a CT.LOOP (R101). -/
def loopBody (b : BitVec 128) : Nat := field b 63 56 + 1

/-- Loops of a program: first and last program counter of each body. -/
def loopsOf (prog : List (Nat × BitVec 128)) : List (Nat × Nat) :=
  (prog.filter fun x => opcodeOf x.2 = 0x10).map fun x => (x.1 + 1, x.1 + loopBody x.2)

/-- A CT.LOOP breaks a limit of R101: nesting above 4, an inner body beyond its outer one, CT.JMP, CT.FBR or CT.HALT in
the body, or a body beyond the code. -/
def loopBad (prog : List (Nat × BitVec 128)) (pc : Nat) (b : BitVec 128) : Bool :=
  if opcodeOf b ≠ 0x10 then false
  else
    let last := pc + loopBody b
    let outer := (loopsOf prog).filter fun l => l.1 ≤ pc && pc ≤ l.2
    let body := within prog (pc + 1) last
    body.length ≠ loopBody b || body.any (fun x => [0x03, 0x11, 0x12].contains (opcodeOf x))
      || 4 ≤ outer.length || outer.any (fun l => l.2 < last)

/-- A CT.BBR breaks condition 1 or 2 of R138, or leaves its loop body. -/
def branchBad (prog : List (Nat × BitVec 128)) (pc : Nat) (b : BitVec 128) : Bool :=
  if opcodeOf b ≠ 0x13 then false
  else
    let lt := field b 47 40
    let lf := field b 39 32
    let arm (lo n : Nat) : Bool :=
      let xs := within prog lo (lo + n - 1)
      xs.length = n && (xs.map fun x => field x 115 104).sum = field b 31 16
        && xs.all fun x => !bit x 96 && !([0x03, 0x10, 0x11, 0x12, 0x13].contains (opcodeOf x))
    !(arm (pc + 1) lt && arm (pc + lt + 1) lf) || (within prog (pc + lt + lf + 1) (pc + lt + lf + 1)).isEmpty
      || (loopsOf prog).any fun l => l.1 ≤ pc && pc ≤ l.2 && l.2 < pc + lt + lf

/-- A used barrier entry that makes the image invalid: an empty mask, a reserved value, or a bitmap of member ranks outside
the image (R298). -/
def barrierBad (i : Image) (b : BarDecl) : Bool :=
  b.scope ≠ 0 && (2 < b.scope || b.tiles.isEmpty || b.tiles.any (fun t => i.n ≤ t) || b.timeout = 0 || 65535 < b.timeout
    || 65535 < b.compWord || b.ranks.any (fun r => rankCount i.dims ≤ r) || b.resv ≠ 0
    || (if b.scope = 1 then b.rankMap ≠ 0 else i.size < b.rankMap + 2048))

/-- The barrier table: 32 entries at most, none invalid (R298). -/
def Image.barriersOk (i : Image) : Bool := i.barriers.length ≤ 32 && i.barriers.all fun x => !barrierBad i x

/-- Two descriptors of the staging table share a word of a half. -/
def stagesMeet (a b : StageDesc) : Bool := a.target ≤ b.target + b.length && b.target ≤ a.target + a.length

/-- The targets of a staging table do not overlap. -/
def stagesApart : List StageDesc → Bool
  | [] => true
  | a :: r => !r.any (stagesMeet a) && stagesApart r

/-- The staging table: at most 4,096 descriptors, each within a half, none overlapping, and SEALED where the plan marks the
region of the target encrypted (R207). R149 lists no check for it; it is made with 0x03 (DESIGN CHOICE,
notes/assumptions/72.md). -/
def Image.stagingOk (i : Image) : Bool :=
  i.stageTable.length ≤ 4096 && stagesApart i.stageTable && i.stageTable.all fun d =>
    d.target + d.length < i.halfWords && (d.sealed || [0, 1].all fun h =>
      (List.range (d.length + 1)).all fun k =>
        !((i.regionOf false (i.stageBase + h * i.halfWords + d.target + k)).map (·.encrypted)).getD false)

/-- What a slot table declares for its channels: OPEN, the refresh period and the window's length and phase (R188, R193). -/
def Image.lchOk (i : Image) : Bool :=
  (List.range i.nch).all fun c =>
    let d := i.lchOf c
    d.openShare ≤ 181 && (d.period = 4096 || d.period = 8192) && d.phase < d.period
      && 128 + ceilDiv (320 * tuNs) (clkPeriod i.fMax) ≤ d.len

/-- A descriptor of the rank grid within R214. One of length 1 is unused, and its other fields are not tested (DESIGN CHOICE,
notes/assumptions/71.md). -/
def dimOk (d : RankDim) : Bool :=
  1 ≤ d.l && d.l ≤ 16384 && (!d.fold || d.l = 1 || (2 ≤ d.a && 2 ≤ d.b && d.b % 2 = 0 && d.a * d.b = d.l))

/-- Check 0x03: declared header values in range; a mirrored plan is not spliceable (R379); the four areas fit their
pseudo-channels (R187; DEDUCED, notes/assumptions/37.md). No check lists FWD_SHARE, which is not tested (R213; DESIGN CHOICE,
notes/assumptions/71.md). -/
def Image.headerOk (i : Image) (step : Nat) (pages devArea : Nat) : Bool :=
  1 ≤ i.n && i.n ≤ 160 && 12 ≤ i.k && i.k ≤ 20 && step ≤ i.fMax.toNat && 1 ≤ i.kp && i.kp ≤ 32 && i.fs ≠ 1
    && i.dims.length ≤ 6 && i.dims.all dimOk && 1 ≤ i.pauseUs && i.pauseUs ≤ 2000000
    && !(i.mirror && i.spliceable) && i.bDev pages + devArea ≤ 37748736 && i.stagingOk

/-- Cells that S, M and H are given at least by a slot table (R323). -/
def cellsOk (cells : Nat) (t : List (BitVec 4)) : Bool :=
  let n (c : BitVec 4) : Nat := t.countP fun x => x = c
  max 1 (cells / 32) ≤ n 4 && max 1 (cells / 256) ≤ n 5 && max 1 (cells / 64) ≤ n 6

/-- Cells of a frame (R322). -/
def Image.cells (i : Image) : Nat := 2 ^ (i.k - 6)

/-- A planned cell: part of a P slot (R322). -/
def isP (c : BitVec 4) : Bool := c = 1#4 || c = 2#4

/-- P cells of two tables meet; the shorter frame repeats (R402). -/
def cellsMeet (a b : List (BitVec 4)) : Bool :=
  !a.isEmpty && !b.isEmpty && (List.range (max a.length b.length)).any fun i =>
    isP ((a[i % a.length]?).getD 0) && isP ((b[i % b.length]?).getD 0)

/-- The kinds of physical dimension that a logical link's steps take (R41, R214). -/
def RankDim.kinds (d : RankDim) : List Bool := if d.fold then [d.pLong, d.qLong] else [d.kindLong]

/-- The receive reservation in bytes that R41 asks of a port of a kind, or R229 of a spliceable plan. -/
def reserveOf (spliceable long : Bool) : Nat :=
  if spliceable then (if long then 409600 else 69248) else (if long then 372032 else 31616)

/-- Check 0x0B: the declared reservation of every logical link, and the shared part of its port's pool (R41, R356). -/
def Image.reserveOk (i : Image) : Bool :=
  i.dims.zipIdx.all fun x => x.1.l ≤ 1 || [2 * x.2, 2 * x.2 + 1].all fun l =>
    let r := (alGet l i.reserve).getD 0
    let peak := (alGet l i.pPeak).getD 0
    x.1.kinds.all (fun k => reserveOf i.spliceable k ≤ r) && peak + r + 131072 ≤ 1048576

/-- The checks of R149 in table order: the first code that fails, with its place; the order of places within a code is that of
the frames and streams (DESIGN CHOICE, notes/assumptions/72.md). `rank` is the chip's own; `clash` is a meeting of P cells with
another partition's (R402). The reductions of 0x0D across chips are those of MV.FRECV (DEDUCED, notes/assumptions/75.md). -/
def Image.check (i : Image) (step pages devArea : Nat) (rank : Option Nat) (clash det : Bool) : Option (Nat × CheckLoc) :=
  let b (ok : Bool) (c : Nat) : Option (Nat × CheckLoc) := if ok then none else some (c, noLoc)
  let f (c : Nat) (l : Option CheckLoc) : Option (Nat × CheckLoc) := l.map fun x => (c, x)
  let v (c : Nat) : Option (Nat × CheckLoc) := f c (i.closure rank c)
  (b i.k2 1)
    <|> (f 2 (i.firstBad fun c _ _ x => !instrValid c.eng x)) <|> (b i.barriersOk 2) <|> (v 2)
    <|> (b (i.headerOk step pages devArea) 3)
    <|> (f 4 (i.firstBad fun _ p pc x => loopBad p pc x))
    <|> (f 5 (i.firstBad fun _ p pc x => branchBad p pc x)) <|> (v 5)
    <|> (v 6) <|> (v 7) <|> (v 8)
    <|> (b (i.slotTables.all fun x => cellsOk i.cells x.2) 9)
    <|> (b (!i.spliceable || cellsOk i.cells i.relayTable) 9)
    <|> (b i.lchOk 9) <|> (b (!clash) 9) <|> (v 9)
    <|> (v 10)
    <|> (b i.reserveOk 11)
    <|> (v 12)
    <|> (if det then f 13 (i.firstBad fun _ _ _ x => opcodeOf x = 0xC6 && field x 103 100 = 1) else none)

end Sys2Proof.Machine
end

