-- ==== Sys2Proof/Machine/Place.lean ====
section
/-! DEFINITION. The placement mapper: tiles and channels, embedding of the rank grid, splices, clock tree and reference
latencies (R213 to R234, R347, R379). -/

namespace Sys2Proof.Machine
open Sys2Proof

/-- What the mapper of one run works from: the job health map, the box, the machine, and the plan with its partition's
rows and slice (R219). -/
structure JobCtx where
  recs : List HealthRec
  box : BitVec 16
  ex : Nat
  ey : Nat
  ez : Nat
  rows : BitVec 16
  slice : BitVec 32
  img : Image
  deriving DecidableEq, Repr

/-! ### Chips of the job (R217, R312) -/

/-- Machine extent of a physical dimension, in the order x, y, z, X, Y, Z. -/
def JobCtx.machine (c : JobCtx) (d : Nat) : Nat :=
  match d with
  | 3 => c.ex
  | 4 => c.ey
  | 5 => c.ez
  | _ => 4

/-- Size of a physical dimension in the job: 4 in a pod, the job's extent across pods (R223). -/
def JobCtx.size (c : JobCtx) (d : Nat) : Nat :=
  match d with
  | 3 => field c.box 10 8 + 1
  | 4 => field c.box 13 11 + 1
  | 5 => field c.box 15 14 + 1
  | _ => 4

/-- The job's origin in a physical dimension. -/
def JobCtx.origin (c : JobCtx) (d : Nat) : Nat :=
  match d with
  | 3 => field c.box 2 0
  | 4 => field c.box 5 3
  | 5 => field c.box 7 6
  | _ => 0

/-- The chip at job-relative coordinates. -/
def JobCtx.chipAt (c : JobCtx) (xs : List Nat) : BitVec 24 :=
  xs.zipIdx.foldl (fun a x => setCoord a x.2 ((c.origin x.2 + x.1) % max 1 (c.machine x.2))) 0

/-- A chip lies in the job's pods. -/
def JobCtx.inJob (c : JobCtx) (a : BitVec 24) : Bool :=
  [3, 4, 5].all fun d => (coordDim a d + c.machine d - c.origin d) % max 1 (c.machine d) < c.size d

/-- All coordinates of a list of ranges, the last range running fastest. -/
def product : List (List Nat) → List (List Nat)
  | [] => [[]]
  | r :: rest =>
    let tails := product rest
    r.flatMap fun x => tails.map fun t => x :: t

/-- The chips of the job's pods, ascending (R218). -/
def JobCtx.chips (c : JobCtx) : List (BitVec 24) :=
  sortBy (fun a b => a.toNat < b.toNat)
    ((product ((List.range 6).map fun d => List.range (c.size d))).map c.chipAt)

/-- The neighbour of a chip on a port of the wiring table (R312). -/
def JobCtx.next (c : JobCtx) (a : BitVec 24) (n : Nat) : BitVec 24 :=
  let sz := max 1 (c.machine (n / 2))
  setCoord a (n / 2) ((coordDim a (n / 2) + (if n % 2 = 0 then 1 else sz - 1)) % sz)

/-- The record of a chip. -/
def JobCtx.record (c : JobCtx) (a : BitVec 24) : Option HealthRec := c.recs.find? fun r => r.addr = a

/-- A chip is not FAILED and lies in the job. -/
def JobCtx.live (c : JobCtx) (a : BitVec 24) : Bool := match c.record a with
  | some r => r.state ≠ 2#2
  | none => false

/-- A hop over port `n` of a chip: a live neighbour in the job, and both ports usable (R216, R228). -/
def JobCtx.hop (c : JobCtx) (a : BitVec 24) (n : Nat) : Bool :=
  let b := c.next a n
  let m := if n % 2 = 0 then n + 1 else n - 1
  b ≠ a && c.live a && c.live b && (match c.record a, c.record b with
    | some x, some y => x.ports.getLsbD n && y.ports.getLsbD m
    | _, _ => false)

/-- Usable tiles of the partition's rows, ascending (R221). -/
def rowsUsable (rows : BitVec 16) (r : HealthRec) : List Nat := (rowTiles rows).filter fun t => r.tiles.getLsbD t

/-- Usable pseudo-channels of the slice in a stack, ascending. -/
def sliceUsable (slice : BitVec 32) (r : HealthRec) (k : Nat) : List Nat := bitsOf (slice &&& vget r.channels k 0)

/-- A chip lacks usable tiles (code 0x20). -/
def JobCtx.lacksTiles (c : JobCtx) (r : HealthRec) : Bool := decide ((rowsUsable c.rows r).length < c.img.n)

/-- A chip lacks usable channels (code 0x21). -/
def JobCtx.lacksChans (c : JobCtx) (r : HealthRec) : Bool :=
  (List.range 8).any fun k => decide ((sliceUsable c.slice r k).length < c.img.kp)

/-- A chip is rank-capable (R217). -/
def JobCtx.capable (c : JobCtx) (a : BitVec 24) : Bool := match c.record a with
  | some r => r.state = 0#2 && !c.lacksTiles r && !c.lacksChans r
  | none => false

/-! ### Tiles and channels (R221, R222) -/

/-- Logical items placed afresh, or as a re-bind places them: what stays usable keeps its item, and each displaced item
takes the lowest free candidate; none where the candidates do not suffice. -/
def placeItems (n : Nat) (cands : List Nat) (prev : Option (List Nat)) : Option (List Nat) :=
  match prev with
  | none => if cands.length < n then none else some (cands.take n)
  | some old =>
    let kept := (List.range n).map fun i => (old[i]?).filter fun x => cands.contains x
    let free := cands.filter fun x => !kept.contains (some x)
    let r := kept.foldl (fun (acc : Option (List Nat) × List Nat) k =>
      match acc.1, k with
      | none, _ => acc
      | some l, some x => (some (l ++ [x]), acc.2)
      | some l, none => match acc.2 with
        | [] => (none, [])
        | f :: fs => (some (l ++ [f]), fs)) (some [], free)
    r.1

/-- The physical tile of each logical tile on a chip. -/
def JobCtx.tiles (c : JobCtx) (r : HealthRec) (prev : Option (List Nat)) : Option (List Nat) :=
  placeItems c.img.n (rowsUsable c.rows r) prev

/-- Candidates of a stack: usable non-degraded pseudo-channels first (R221). -/
def JobCtx.chanCands (c : JobCtx) (r : HealthRec) (deg : Vector (BitVec 32) 8) (k : Nat) : List Nat :=
  let u := sliceUsable c.slice r k
  let bad (x : Nat) : Bool := (vget deg k 0).getLsbD x
  u.filter (fun x => !bad x) ++ u.filter bad

/-- The physical pseudo-channel, 32 k + c, of each logical channel on a chip. -/
def JobCtx.chans (c : JobCtx) (r : HealthRec) (deg : Vector (BitVec 32) 8) (prev : Option (List Nat)) : Option (List Nat) :=
  let per := (List.range 8).map fun k =>
    placeItems c.img.kp (c.chanCands r deg k)
      (prev.map fun l => (List.range c.img.kp).map fun m => ((l[8 * m + k]?).map fun x => x - 32 * k).getD 999)
  if per.any (·.isNone) then none
  else some ((List.range (8 * c.img.kp)).map fun j => 32 * (j % 8) + (((per.getD (j % 8) none).getD [])[j / 8]?).getD 0)

/-! ### Embedding (R223 to R226) -/

/-- The cycle of a FOLD dimension (R226). -/
def foldCycle (a b : Nat) : List (Nat × Nat) :=
  [(0, 0)] ++ (List.range b).flatMap (fun q =>
    (List.range (a - 1)).map fun i => (if q % 2 = 0 then i + 1 else a - 1 - i, q))
  ++ (List.range (b - 1)).map fun i => (0, b - 1 - i)

/-- A used logical dimension with its physical ones: P, and for a FOLD dimension Q and the cycle. -/
structure DimUse where
  ld : Nat
  dim : RankDim
  p : Nat
  q : Nat
  cyc : List (Nat × Nat)
  deriving DecidableEq, Repr

/-- Physical dimensions of a kind (R223). -/
def kindDims (long : Bool) : List Nat := if long then [3, 4, 5] else [0, 1, 2]

/-- Physical dimensions assigned in ascending logical dimension (R223). -/
def JobCtx.assign (c : JobCtx) : List (Nat × RankDim) → List Nat → Option (List DimUse)
  | [], _ => some []
  | (ld, d) :: rest, free =>
    if d.l ≤ 1 then c.assign rest free
    else if d.fold then
      match (kindDims d.pLong).find? fun x => free.contains x && d.a ≤ c.size x with
      | none => none
      | some p =>
        match (kindDims d.qLong).find? fun x => (free.erase p).contains x && d.b ≤ c.size x with
        | none => none
        | some q => (c.assign rest ((free.erase p).erase q)).map fun us =>
            { ld := ld, dim := d, p := p, q := q, cyc := foldCycle d.a d.b } :: us
    else
      match (kindDims d.kindLong).find? fun x => free.contains x &&
          (if d.kindLong then c.size x = d.l && c.machine x = d.l else d.l = 4) with
      | none => none
      | some p => (c.assign rest (free.erase p)).map fun us => { ld := ld, dim := d, p := p, q := p, cyc := [] } :: us

/-- The used dimensions of the plan; a mirrored plan leaves x to its pairs (R379). -/
def JobCtx.uses (c : JobCtx) : Option (List DimUse) :=
  c.assign (c.img.dims.zipIdx.map fun x => (x.2, x.1)) (if c.img.mirror then [1, 2, 3, 4, 5] else [0, 1, 2, 3, 4, 5])

/-- Offsets that a physical dimension takes (R224, R379). -/
def JobCtx.offsets (c : JobCtx) (us : List DimUse) (d : Nat) : List Nat :=
  if c.img.mirror && d = 0 then [0, 2]
  else if us.any fun u => !u.dim.fold && u.p = d then [0]
  else if d < 3 then [0, 1, 2, 3]
  else
    let used := (us.findSome? fun u => if u.p = d then some u.dim.a else if u.q = d then some u.dim.b else none).getD 1
    List.range (c.size d + 1 - used)

/-- Every combination of offsets for x, y, z, X, Y, Z, in the search order X, Y, Z, x, y, z (R224). -/
def JobCtx.combos (c : JobCtx) (us : List DimUse) : List (List Nat) :=
  (product ([3, 4, 5, 0, 1, 2].map (c.offsets us))).map fun o => o.drop 3 ++ o.take 3

/-- The chip at which a combination places a rank (R224). -/
def JobCtx.placeOf (c : JobCtx) (us : List DimUse) (offs : List Nat) (r : Nat) : BitVec 24 :=
  let ls := rankDigits c.img.dims r
  let xs := us.foldl (fun (xs : List Nat) u =>
    let l := ls.getD u.ld 0
    if u.dim.fold then
      let z := u.cyc.getD l (0, 0)
      (xs.set u.p (offs.getD u.p 0 + z.1)).set u.q (offs.getD u.q 0 + z.2)
    else xs.set u.p (offs.getD u.p 0 + l)) offs
  c.chipAt (xs.zipIdx.map fun x => if x.2 < 3 then x.1 % 4 else x.1)

/-- Every rank's chip under a combination. -/
def JobCtx.places (c : JobCtx) (us : List DimUse) (offs : List Nat) : List (BitVec 24) :=
  (List.range (rankCount c.img.dims)).map (c.placeOf us offs)

/-- The port of logical link `l` of a rank, where it exists: the direction of the DIRECT dimension, or of the cycle's step
(R325). -/
def JobCtx.nominalPort (c : JobCtx) (us : List DimUse) (r l : Nat) : Option Nat :=
  (us.find? fun u => u.ld = l / 2).map fun u =>
    if u.dim.fold then
      let x := (rankDigits c.img.dims r).getD u.ld 0
      let n := u.cyc.length
      let a := u.cyc.getD x (0, 0)
      let b := u.cyc.getD ((x + (if l % 2 = 0 then 1 else n - 1)) % max 1 n) (0, 0)
      if a.1 ≠ b.1 then (if a.1 < b.1 then 2 * u.p else 2 * u.p + 1)
      else if a.2 < b.2 then 2 * u.q else 2 * u.q + 1
    else 2 * u.p + l % 2

/-- The chip that carries copy B of a chip's rank (R379). -/
def copyBOf (a : BitVec 24) : BitVec 24 := setCoord a 0 (coordDim a 0 + 1)

/-- A chip may hold a rank under a combination: it is rank-capable, and so is its mirror, with their port pair (R224,
R379). -/
def JobCtx.chipFits (c : JobCtx) (us : List DimUse) (r : Nat) (a : BitVec 24) : Bool :=
  let one (a : BitVec 24) : Bool := c.capable a &&
    (List.range 12).all fun l => match c.nominalPort us r l with
      | some n => c.hop a n
      | none => true
  one a && (!c.img.mirror || (one (copyBOf a) && c.hop a 0))

/-- A combination places every rank (R224). -/
def JobCtx.fits (c : JobCtx) (us : List DimUse) (offs : List Nat) : Bool :=
  (c.places us offs).zipIdx.all fun x => c.chipFits us x.2 x.1

/-! ### Paths and splices (R227 to R233) -/

/-- A rank mapping: the used dimensions and offsets it started from, the chip of each rank, its splices, and the length of
the last chain. -/
structure RankMap where
  us : List DimUse
  offs : List Nat
  ranks : List (BitVec 24)
  splices : Nat
  chain : Nat
  deriving DecidableEq, Repr

/-- The kind of a rank's logical link (R41, R226). -/
def JobCtx.linkLong (c : JobCtx) (m : RankMap) (r l : Nat) : Bool :=
  match c.nominalPort m.us r l with
  | some n => decide (6 ≤ n)
  | none => false

/-- The ports of the path that a logical link takes from a chip to another: its own port, another direct hop of its kind,
or two hops within the budget, by an old place of either rank before any other (R228, R230). -/
def JobCtx.path (c : JobCtx) (u v : BitVec 24) (nominal : Nat) (old : List (BitVec 24)) : Option (List Nat) :=
  let long := decide (6 ≤ nominal)
  let ports := nominal :: (List.range 12).erase nominal
  match ports.find? fun n => decide (6 ≤ n) = long && c.hop u n && c.next u n = v with
  | some n => some [n]
  | none =>
    let two := (List.range 12).flatMap fun a => (List.range 12).filterMap fun b =>
      let w := c.next u a
      let kinds := if long then decide (6 ≤ a) != decide (6 ≤ b) else decide (a < 6) && decide (b < 6)
      if kinds && w ≠ v && c.hop u a && c.hop w b && c.next w b = v then some (w, [a, b]) else none
    ((two.find? fun x => old.contains x.1).orElse fun _ => two[0]?).map (·.2)

/-- The logical links of a rank with the rank at their other end. -/
def JobCtx.links (c : JobCtx) (r : Nat) : List (Nat × Nat) :=
  (List.range 12).filterMap fun l => (ringNeighbour c.img.dims r l).map fun x => (l, x)

/-- The path of a rank's logical link under a mapping. -/
def JobCtx.pathOf (c : JobCtx) (m : RankMap) (r l r2 : Nat) : Option (List Nat) :=
  c.path (m.ranks.getD r 0) (m.ranks.getD r2 0) ((c.nominalPort m.us r l).getD 0)
    [c.placeOf m.us m.offs r2, c.placeOf m.us m.offs r]

/-- The slot table that a port of a chip carries for the job: that of the logical link whose port it is, or the relay
table (R322). -/
def JobCtx.tableAt (c : JobCtx) (m : RankMap) (a : BitVec 24) (n : Nat) : List (BitVec 4) :=
  match m.ranks.findIdx? (· = a) with
  | some r => match (c.links r).find? fun x => c.nominalPort m.us r x.1 = some n with
    | some x => (alGet x.1 c.img.slotTables).getD []
    | none => c.img.relayTable
  | none => c.img.relayTable

/-- Every spliced hop of a path has FWD cells on its port (R328). -/
def JobCtx.forwarded (c : JobCtx) (m : RankMap) (u : BitVec 24) (nominal : Nat) (ps : List Nat) : Bool :=
  let f (a : BitVec 24) (n : Nat) : Bool := (c.tableAt m a n).contains 3
  match ps with
  | [a] => a = nominal || f u a
  | [a, b] => (a = nominal || f u a) && f (c.next u a) b
  | _ => false

/-- Every logical link of a mapping meets the two-hop budget (R228, R328). -/
def JobCtx.meets (c : JobCtx) (m : RankMap) : Bool :=
  (List.range m.ranks.length).all fun r => (c.links r).all fun x =>
    match c.pathOf m r x.1 x.2 with
    | some ps => c.forwarded m (m.ranks.getD r 0) ((c.nominalPort m.us r x.1).getD 0) ps
    | none => false

/-- A chain shifts its ranks: the rank of each chip moves to the next one (R230). -/
def shiftRanks (ranks : List (BitVec 24)) (path : List (BitVec 24)) : List (BitVec 24) :=
  ranks.map fun a => match path.findIdx? (· = a) with
    | some i => (path[i + 1]?).getD a
    | none => a

/-- One direction of the search of R231: the queue, the chips seen, and a trial that meets the budget. -/
def JobCtx.searchDir (c : JobCtx) (m : RankMap) (a : BitVec 24) (path : List (BitVec 24))
    (acc : Option RankMap × List (List (BitVec 24)) × List (BitVec 24)) (n : Nat) :
    Option RankMap × List (List (BitVec 24)) × List (BitVec 24) :=
  let b := c.next a n
  match acc.1 with
  | some _ => acc
  | none =>
    if acc.2.2.contains b || !c.live b then acc
    else
      let seen := acc.2.2 ++ [b]
      if m.ranks.contains b then (none, acc.2.1 ++ [path ++ [b]], seen)
      else if c.capable b then
        let t := { m with ranks := shiftRanks m.ranks (path ++ [b]), splices := m.splices + 1, chain := path.length }
        (if c.meets t then some t else none, acc.2.1, seen)
      else (none, acc.2.1, seen)

/-- The chain search of R231; a pod has 64 chips, which bounds it. -/
def JobCtx.search (c : JobCtx) (m : RankMap) : Nat → List (List (BitVec 24)) → List (BitVec 24) → Option RankMap
  | 0, _, _ => none
  | _ + 1, [], _ => none
  | k + 1, path :: rest, seen =>
    let a := path.getLastD 0
    let r := (List.range 6).foldl (c.searchDir m a path) (none, rest, seen)
    match r.1 with
    | some t => some t
    | none => c.search m k r.2.1 r.2.2

/-- The chip of a rank fails the test of R224: it is not rank-capable, or a link of its rank to a rank-capable chip lies on no
usable port; of a mapping that keeps earlier splices, on no path within the budget (R224, R228, R230, R232). -/
def JobCtx.mustMove (c : JobCtx) (m : RankMap) (fresh : Bool) (r : Nat) : Bool :=
  let a := m.ranks.getD r 0
  let broken (x : Nat × Nat) : Bool :=
    if fresh then (match c.nominalPort m.us r x.1 with
      | some n => !c.hop a n
      | none => false)
    else (c.pathOf m r x.1 x.2).isNone
  !c.capable a || (c.links r).any fun x => c.capable (m.ranks.getD x.2 0) && broken x

/-- Chips spliced one at a time in ascending address; a chip without a chain is the failure (R231, R232). -/
def JobCtx.spliceAll (c : JobCtx) : List (BitVec 24) → RankMap → RankMap ⊕ BitVec 24
  | [], m => .inl m
  | f :: fs, m => match c.search m 64 [[f]] [f] with
    | some t => c.spliceAll fs t
    | none => .inr f

/-- The chips of a mapping that fail the test, ascending (R224, R232). -/
def JobCtx.failing (c : JobCtx) (m : RankMap) (fresh : Bool) : List (BitVec 24) :=
  sortBy (fun a b => a.toNat < b.toNat)
    (((List.range m.ranks.length).filter (c.mustMove m fresh)).map fun r => m.ranks.getD r 0)

/-- What the rank embedding answers: a mapping, or a code of R237 with the chip it names. -/
abbrev Embedded := RankMap ⊕ (Nat × BitVec 24)

/-- A mapping spliced where it must be (R230 to R232). -/
def JobCtx.spliced (c : JobCtx) (m : RankMap) (fresh : Bool) : Embedded :=
  match c.spliceAll (c.failing m fresh) m with
  | .inl t => .inl t
  | .inr f => .inr (0x23, f)

/-- The lowest chip of a list that satisfies a test. -/
def lowest (l : List (BitVec 24)) : Option (BitVec 24) := minBy (·.toNat) l

/-- The embedding from R224 on: the first healthy combination, else combination 0 spliced, else the first code. The record of a
FAILED chip says nothing of its tiles and channels, so such a chip counts towards neither 0x20 nor 0x21 (R218, R224). -/
def JobCtx.embed (c : JobCtx) : Embedded :=
  match c.uses with
  | none => .inr (0x22, 0)
  | some us =>
    let combos := c.combos us
    let mk (o : List Nat) : RankMap := { us := us, offs := o, ranks := c.places us o, splices := 0, chain := 0 }
    match combos.find? (c.fits us) with
    | some o => .inl (mk o)
    | none =>
      let m0 := mk (combos.headD [])
      if c.img.spliceable then c.spliced m0 true
      else
        let lack (f : HealthRec → Bool) := m0.ranks.filter fun a => match c.record a with
          | some r => r.state ≠ 2#2 && f r
          | none => false
        match lowest (lack c.lacksTiles), lowest (lack c.lacksChans) with
        | some a, _ => .inr (0x20, a)
        | none, some a => .inr (0x21, a)
        | none, none =>
          .inr (0x22, (lowest ((m0.ranks.zipIdx.filter fun x => !c.chipFits us x.2 x.1).map (·.1))).getD 0)

/-- A re-bind of ranks: from the present mapping with its splices, or afresh for a plan that cannot splice (R232,
R233). -/
def JobCtx.reembed (c : JobCtx) (ranks : List (BitVec 24)) (offs : List Nat) (splices chain : Nat) : Embedded :=
  if !c.img.spliceable then c.embed
  else match c.uses with
    | none => .inr (0x22, 0)
    | some us => c.spliced { us := us, offs := offs, ranks := ranks, splices := splices, chain := chain } false

/-! ### Clock tree and reference latencies (R234, R347) -/

/-- Breadth-first levels of the clock tree: each reached chip with the port of its tree edge. -/
def JobCtx.tree (c : JobCtx) : Nat → List (BitVec 24) → List (BitVec 24 × Nat) → List (BitVec 24 × Nat)
  | 0, _, seen => seen
  | _ + 1, [], seen => seen
  | k + 1, a :: rest, seen =>
    let new := (List.range 12).filterMap fun n =>
      let b := c.next a n
      if c.hop a n && c.inJob b && !(seen.any fun x => x.1 = b) then some (b, if n % 2 = 0 then n + 1 else n - 1) else none
    let new := new.foldl (fun l x => if l.any (fun y => y.1 = x.1) then l else l ++ [x]) []
    c.tree k (rest ++ new.map (·.1)) (seen ++ new)

/-- The upstream port of a chip: the port of its tree edge (R234). -/
def JobCtx.upstream (c : JobCtx) (root self : BitVec 24) : Option Nat :=
  ((c.tree (c.recs.length + 1) [root] [(root, 12)]).find? fun x => x.1 = self).map (·.2)

/-- One round of relaxation of the least hold latencies towards this chip; `cal` gives the hold latency that a chip's port
recorded, in 1/64 ns. -/
def JobCtx.relax (c : JobCtx) (cal : BitVec 24 → Nat → Option Nat) (d : List (BitVec 24 × Nat)) : List (BitVec 24 × Nat) :=
  d.foldl (fun acc x => (List.range 12).foldl (fun acc n =>
    let b := c.next x.1 n
    match c.hop x.1 n && c.inJob b, cal x.1 n with
    | true, some w =>
      match acc.find? fun y => y.1 = b with
      | some y => if x.2 + w < y.2 then acc.map (fun z => if z.1 = b then (b, x.2 + w) else z) else acc
      | none => acc ++ [(b, x.2 + w)]
    | _, _ => acc) acc) d

/-- d(o) without the 24 clk for every chip of the job, in 1/64 ns (R347). -/
def JobCtx.distances (c : JobCtx) (cal : BitVec 24 → Nat → Option Nat) (self : BitVec 24) : List (BitVec 24 × Nat) :=
  (List.range c.recs.length).foldl (fun d _ => c.relax cal d) [(self, 0)]

end Sys2Proof.Machine
end

