-- ==== Sys2Proof/Machine/StackCmd.lean ====
section
/-! DEFINITION. The logic dies' own work: open accesses, scrub, refresh, the stack window, sealed loads, staging and
training (R183, R184, R189 to R196, R205 to R212, R440, R441). -/

namespace Sys2Proof.Machine
open Sys2Proof

/-! ### The plan that uses a pseudo-channel -/

/-- The launched partition and logical channel that a physical pseudo-channel serves. -/
def State.chanOwner (s : State) (x : Nat) : Option (Nat × Nat) :=
  s.launchedParts.findSome? fun p =>
    ((List.range (s.pt p).stage.chans.length).find? fun l => (s.pt p).stage.chans[l]? = some x).map fun l => (p, l)

/-- What the slot table declares for the logical channel (R188, R193). -/
def State.lchDecl (s : State) (p l : Nat) : LchDecl := ((s.img p).bind fun i => i.lch[l]?).getD LchDecl.reset

/-- pcs into the channel's refresh window period at pc `q` (R193). -/
def State.windowPhase (s : State) (p : Nat) (d : LchDecl) (q : Nat) : Nat :=
  let n := max 1 d.period
  (q + (n - (s.frameZero p + d.phase) % n)) % n

/-- The pc lies in the channel's refresh window (R193). -/
def State.inRefresh (s : State) (p : Nat) (d : LchDecl) (q : Nat) : Bool := s.windowPhase p d q < d.len

/-- A refresh of the pseudo-channel is in progress. -/
def State.refreshing (s : State) (x : Nat) : Bool := match (s.pch x).refreshEnd with
  | some (e, _) => decide (s.wall < e)
  | none => false

/-- The counter stands still for a recovery or a checkpoint pause (R386). -/
def State.recoveryStop (s : State) : Bool :=
  s.dig.ckptPausing.isSome || (s.held && s.plan.localCauses.any fun c => match c.src with
    | .memErr _ _ _ => true
    | _ => false)

/-- Ranks of the unplanned users (R191). -/
def OpenKind.rank : OpenKind → Nat
  | .writeBack => 1
  | .ashAppend => 2
  | .staging => 3
  | .buddy => 4
  | .sealedLoad => 5
  | .window => 5
  | .scrub => 6

/-- An open access may be admitted to the pseudo-channel in this pc, which takes one access (R188, R191, R386). -/
def State.openFree (s : State) (x : Nat) : Bool :=
  let c := s.pch x
  if s.refreshing x then false
  else if s.recoveryStop then true
  else if !s.running then false
  else match s.chanOwner x with
    | none => true
    | some (p, l) =>
      let d := s.lchDecl p l
      let g := s.plan.geyser
      !c.openPcs.contains g && !s.arrivalPlanned x && !s.inRefresh p d g
        && decide ((c.openPcs.filter fun q => q < g && g ≤ q + 256).length < d.openShare)

/-- A user of rank `r` finds no queued access of a better rank (R191). -/
def Channel.noBetter (c : Channel) (r : Nat) : Bool := c.openQueue.all fun o => r ≤ o.kind.rank

/-- The open access counts towards the OPEN share of the pcs that follow (R191). -/
def State.countOpen (s : State) (x : Nat) : State :=
  if s.running then s.modPch x fun c => { c with openPcs := c.openPcs ++ [s.plan.geyser] } else s

/-- A word written by an open access: it is complete in the array 150 pc later, or at once while the counter stands still. -/
def State.openWrite (s : State) (x w : Nat) (d : Line) : State :=
  if s.running then
    s.modPch x fun c => { c with
      pend := pendIns { PendWrite.reset with due := s.plan.geyser + 150, word := w, data := some d, unit := 5 } c.pend
      correctable := alDel w c.correctable
      openQueue := c.openQueue.filter fun o => !(o.kind = .writeBack && o.word = w) }
  else s.modPch x fun c => c.store w d

/-- STACK_ECC_WRITEBACK (R183, R191): the corrected word goes back. -/
def execStackEccWriteback (k : StackId) (c : ChId) (word : BitVec 26) (s : State) : Host.Outcome State Fault Refusal :=
  let x := 32 * k.val + c.val
  if (s.pch x).openQueue.any (fun o => o.kind = .writeBack && o.word = word.toNat) && s.openFree x then
    .next ((s.countOpen x).modPch x fun y => { y with
      correctable := alDel word.toNat y.correctable
      openQueue := y.openQueue.filter fun o => !(o.kind = .writeBack && o.word = word.toNat) })
  else .next s

/-- Words of a pseudo-channel (R181). -/
def chanWords : Nat := 37748736

/-- The scrub position of a stack after pseudo-channel `c` has been read (R191, R209). -/
def Stack.scrubbedCh (y : Stack) (c : Nat) : Stack :=
  let done := y.scrubCh ||| 2 ^ c
  if done = 2 ^ 32 - 1 then
    let last := y.scrubWord.toNat + 1 = chanWords
    { y with
      scrubCh := 0
      scrubWord := if last then 0 else y.scrubWord + 1
      scrubPasses := if last then y.scrubPasses + 1 else y.scrubPasses }
  else { y with scrubCh := done }

/-- PATROL_SCRUB (R184, R191): the next channel word is read and corrected. -/
def execPatrolScrub (k : StackId) (c : ChId) (s : State) : Host.Outcome State Fault Refusal :=
  let x := 32 * k.val + c.val
  let y := s.stk k
  let w := y.scrubWord.toNat
  let ch := s.pch x
  let waits := y.winGo.any fun a => a.ch = c.val && y.winLeft.isNone
  if y.state ≠ 2#2 || y.scrubCh.testBit c || !ch.noBetter 6 || waits || !s.openFree x then .next s
  else
    let s := (s.countOpen x).modStk k fun y => y.scrubbedCh c
    if ch.unreadable w s.plan.geyser then
      .next (if nsHas w ch.bad then s.stackUE x w ((s.chanOwner x).map (·.1)) else s)
    else match ch.ceDie w with
      | some die => .next (s.stackCE x w die)
      | none => .next s

/-- A staging descriptor whose words have all been received and written is ready (R207). -/
def State.stageSettle (s : State) (tag : Option (Nat × Nat × Nat)) : State :=
  match tag with
  | none => s
  | some (p, h, d) =>
    let queued := s.stackBanks.toList.any fun y => y.ch.toList.any fun c => c.openQueue.any fun o => o.tag = tag
    let reading := (s.pcie.stgReads ++ s.pcie.stgQueue).any fun r => r.part.toNat = p && r.half = h && r.desc = d
    if queued || reading || (s.pt p).stageReady.contains (h, d) then s
    else s.modPt p fun b => { b with stageReady := b.stageReady ++ [(h, d)] }

/-- STACK_OPEN_ACCESS (R191): the best queued access of the pseudo-channel is admitted; the first come goes first among
equals. -/
def execStackOpenAccess (k : StackId) (c : ChId) (s : State) : Host.Outcome State Fault Refusal :=
  let x := 32 * k.val + c.val
  let q := (s.pch x).openQueue
  match minBy (·.kind.rank) q with
  | none => .next s
  | some o =>
    if o.kind = .writeBack || !s.openFree x then .next s
    else
      let s := (s.countOpen x).modPch x fun y => { y with openQueue := y.openQueue.erase o }
      let s := match o.data with
        | some d => s.openWrite x o.word d
        | none => s
      .next (s.stageSettle o.tag)

/-! ### Refresh (R192 to R196) -/

/-- 320 ns of one refresh. -/
def tuRefresh : Nat := 320 * tuNs

/-- tREFI of a stack (R192). -/
def Stack.tRefi (y : Stack) : Nat := if y.hot then 3900 * tuNs else 7800 * tuNs

/-- REFRESH_DEBT_TICK (R192, R195). -/
def execRefreshDebtTick (k : StackId) (c : ChId) (s : State) : Host.Outcome State Fault Refusal :=
  let y := s.stk k
  let ch := s.chan k c
  if y.state ≠ 2#2 || s.wall < ch.debtAt then .next s
  else .next (s.modChan k c fun z =>
    let d := min 8 (z.debt + 1)
    { z with
      debt := d
      debtAt := z.debtAt + y.tRefi
      pending := z.pending || decide (d = 8)
      pendingPc := if !z.pending && d = 8 then s.plan.geyser else z.pendingPc })

/-- `n` refreshes of a pseudo-channel begin, after the 128 clk drain and after the refreshes that are still in progress
(R192, R194; DEDUCED, notes/assumptions/61.md); `forced` under R195, `held` because the counter stands held (R196). -/
def State.beginRefresh (s : State) (k c n : Nat) (forced held : Bool) : State :=
  s.modChan k c fun z =>
    let busy := match z.refreshEnd with
      | some (e, m) => if s.wall < e then (e, m) else (0, 0)
      | none => (0, 0)
    { z with
      debt := z.debt - n
      refreshEnd := some (max (s.wall + 128 * s.clkTu) busy.1 + n * tuRefresh, busy.2 + n)
      forced := z.forced || forced
      inHold := z.inHold || held }

/-- REFRESH_IDLE (R192): no launched plan uses the pseudo-channel, and its debt has reached +1. -/
def execRefreshIdle (k : StackId) (c : ChId) (s : State) : Host.Outcome State Fault Refusal :=
  let x := 32 * k.val + c.val
  if (s.chanOwner x).isSome || (s.pch x).debt < 1 || s.refreshing x || !s.alive then .next s
  else .next (s.beginRefresh k c 1 false false)

/-- The refreshes that fit a window of `len` pc after the drain, at the step in force (R194). -/
def windowRefreshes (len clk : Nat) : Nat := (len - 128) * clk / tuRefresh

/-- REFRESH_WINDOW (R193, R194): the window begins at this pc; the debt is not taken below -8. -/
def execRefreshWindow (k : StackId) (c : ChId) (s : State) : Host.Outcome State Fault Refusal :=
  let x := 32 * k.val + c.val
  match s.chanOwner x with
  | none => .next s
  | some (p, l) =>
    let d := s.lchDecl p l
    if !s.running || s.windowPhase p d s.plan.geyser ≠ 0 then .next s
    else
      let n := windowRefreshes d.len s.clkTu
      let m := min n ((s.pch x).debt + 8).toNat
      let s := s.modChan k c fun z => { z with winN := n }
      if m = 0 then .next s else .next (s.beginRefresh k c m false false)

/-- FORCED_REFRESH (R195): once the counter has stopped, or 1,184 pc after the mark, every pending pseudo-channel of the
stack is refreshed, and in the same drain every one at +4 or more. -/
def execForcedRefresh (k : StackId) (s : State) : Host.Outcome State Fault Refusal :=
  let chs := List.range 32
  let due := chs.filter fun c =>
    let z := s.chan k c
    z.pending && !(s.refreshing (32 * k.val + c) && z.forced) && (!s.running || z.pendingPc + 1184 ≤ s.plan.geyser)
  if due.isEmpty || !s.alive then .next s
  else
    let all := chs.filter fun c => !s.refreshing (32 * k.val + c) && ((s.chan k c).pending || decide (4 ≤ (s.chan k c).debt))
    let s := s.modStk k fun y => { y with refreshForced := satAdd y.refreshForced (all.filter fun c => (s.chan k c).pending).length }
    .next (all.foldl (fun s c => s.beginRefresh k c 1 true false) s)

/-- HOLD_REFRESH (R196): during a hold every pseudo-channel at +6 or more; during a step switch every one at +1 or more
whose refresh ends before the switch does. -/
def execHoldRefresh (k : StackId) (s : State) : Host.Outcome State Fault Refusal :=
  let least : Int := match s.clk.switching with
    | some _ => 1
    | none => 6
  let fits := match s.clk.switching with
    | some (e, _) => decide (s.wall + 128 * s.clkTu + tuRefresh ≤ e)
    | none => s.held
  if !fits || !s.alive then .next s
  else .next ((List.range 32).foldl (fun s c =>
    if least ≤ (s.chan k c).debt && !s.refreshing (32 * k.val + c) then
      s.beginRefresh k c 1 false s.clk.switching.isNone else s) s)

/-- A stack's temperature, with HOT set at 85 °C and cleared at 82 °C (R192, R209). -/
def Stack.warm (y : Stack) (temp : BitVec 8) : Stack :=
  { y with
    tempC := temp
    hot := if 85 ≤ temp.toNat then true else if temp.toNat ≤ 82 then false else y.hot }

/-- STACK_HOT (R192, R209): the stack's temperature crosses 85 °C or 82 °C. -/
def execStackHot (k : StackId) (temp : BitVec 8) (s : State) : Host.Outcome State Fault Refusal :=
  .next (s.modStk k fun y => y.warm temp)

/-! ### The stack window (R209, R210) -/

/-- A pseudo-channel number lies in the slice of a partition that is being scrubbed (R412). -/
def State.sliceScrubs (s : State) (c : Nat) : Bool :=
  s.parts.toList.any fun b => (b.state = 2#3 || b.state = 3#3) && b.res.slice.getLsbD c

/-- STKn.WIN_CTRL.GO written with 1, with WRITE as it stands (R209, R210); refused in a slice being scrubbed (R412). A write
takes WIN_DATA as it stands now (DESIGN CHOICE, notes/assumptions/62.md). -/
def State.stkGo (s : State) (k : Nat) : State :=
  s.modStk k fun y =>
    if y.winGo.isSome then y
    else if s.sliceScrubs (field y.winAddr 30 26) then { y with winError := true }
    else { y with
      winGo := some { word := field y.winAddr 25 0, ch := field y.winAddr 30 26, write := y.winWrite, data := y.winData }
      winLeft := none
      winGot := none }

/-- STK_WIN_READ: GO with WRITE 0 (R210). -/
def execStkWinRead (k : StackId) (s : State) : Host.Outcome State Fault Refusal :=
  .next (s.ifReady fun s => (s.modStk k fun y => { y with winWrite := false }).stkGo k)

/-- STK_WIN_WRITE: GO with WRITE 1 (R210). -/
def execStkWinWrite (k : StackId) (s : State) : Host.Outcome State Fault Refusal :=
  .next (s.ifReady fun s => (s.modStk k fun y => { y with winWrite := true }).stkGo k)

/-- The window access admitted now (R210): a read takes the word as it stands, a write stores the whole word. A channel word
beyond the capacity of R181 is memory as any other (DESIGN CHOICE, notes/assumptions/63.md). -/
def State.admitWindow (s : State) (k : Nat) (a : WinAcc) : State :=
  let x := 32 * k + a.ch
  let ch := s.pch x
  let got := if a.write || ch.unreadable a.word s.plan.geyser then none else some (ch.wordAtPc a.word s.plan.geyser)
  let s := (s.countOpen x).modStk k fun y => { y with
    winLeft := some (if a.write then 150 else 222)
    winGot := got }
  if a.write then s.openWrite x a.word a.data
  else if got.isNone then (if nsHas a.word ch.bad then s.stackUE x a.word ((s.chanOwner x).map (·.1)) else s)
  else match ch.ceDie a.word with
    | some die => s.stackCE x a.word die
    | none => s

/-- The window access completes: GO returns to 0, and a read shows what it took, or ERROR (R209, R210). -/
def Stack.winDone (y : Stack) (a : WinAcc) : Stack :=
  { y with
    winGo := none
    winLeft := none
    winGot := none
    winError := if a.write then y.winError else y.winGot.isNone
    winData := if a.write then y.winData else y.winGot.getD y.winData }

/-- STK_WIN_ACCESS (R191, R210): the waiting access is admitted; when its admission cycles have passed, it completes. -/
def execStkWinAccess (k : StackId) (s : State) : Host.Outcome State Fault Refusal :=
  let y := s.stk k
  match y.winGo, y.winLeft with
  | some a, none =>
    let x := 32 * k.val + a.ch
    if s.sliceScrubs a.ch then .next (s.modStk k fun y => { y with winGo := none, winError := true })
    else if (s.pch x).noBetter 5 && s.openFree x then .next (s.admitWindow k a) else .next s
  | some a, some 0 => .next (s.modStk k fun y => y.winDone a)
  | _, _ => .next s

/-! ### Sealed records (R205) -/

/-- The words of a sealed record's target as (physical pseudo-channel, channel word, tweak), or none outside its region.
The target of an Ember region is the number of a chunk frame (DEDUCED, notes/assumptions/34.md). -/
def State.sealedLocs (s : State) (p : Nat) (i : Image) (r : Region) (target n : Nat) :
    Option (List ((Nat × Nat) × BitVec 128)) :=
  if r.ember then
    if target < r.chunk0 || r.chunk0 + r.words / 1024 ≤ target || 1025 < n then none
    else some ((List.range n).map fun j => (s.chunkLoc p i target j, chunkTweak target j))
  else if target < r.base || r.base + r.words < target + n then none
  else some ((List.range n).map fun j => (s.planLoc p i (target + j), planTweak (target + j)))

/-- The fields of a sealed record. -/
structure SealedRec where
  region : Nat
  target : Nat
  count : Nat
  slot : Nat
  nonce : BitVec 96
  reservedOk : Bool
  aad : List (BitVec 8)
  ct : List (BitVec 8)
  tag : BitVec 128
  deriving DecidableEq, Repr

/-- A sealed record read from its bytes (R205). -/
def sealedOf (b : List (BitVec 8)) : SealedRec :=
  let n := natOfBytes ((b.drop 8).take 2) + 1
  { region := natOfBytes (b.take 4)
    target := natOfBytes ((b.drop 4).take 4)
    count := n
    slot := natOfBytes ((b.drop 10).take 1)
    nonce := BitVec.ofNat 96 (natOfBytes ((b.drop 12).take 12))
    reservedOk := natOfBytes ((b.drop 11).take 1) = 0 && ((b.take 64).drop 24).all (· = 0#8) && n ≤ 1025
      && (b.drop (64 + 64 * n + 16)).all (· = 0#8)
    aad := b.take 64
    ct := (b.drop 64).take (64 * n)
    tag := BitVec.ofNat 128 (natOfBytes ((b.drop (64 + 64 * n)).take 16)) }

/-- The key that a sealed record names (R205). -/
def State.sealKey (s : State) (p : Nat) (r : SealedRec) : Option (BitVec 256) :=
  if r.slot = 1 || r.slot = 2 then vget (s.pt p).keys.gcm r.slot none else none

/-- The plaintext of a record whose every check passes (R205). -/
def State.openSealed (s : State) (p : Nat) (r : SealedRec) (stack : Nat) : Option (List (BitVec 8)) :=
  match s.sealKey p r with
  | none => none
  | some key =>
    if !r.reservedOk || (s.stk stack).nonces.contains (key, r.nonce) then none else Config.gcmOpen key r.nonce r.aad r.ct r.tag

/-- A nonce remembered: the last 4,096 of its key (R205). -/
def Stack.remember (y : Stack) (key : BitVec 256) (nonce : BitVec 96) : Stack :=
  let mine := y.nonces.filter fun x => x.1 = key
  let rest := y.nonces.filter fun x => x.1 ≠ key
  { y with nonces := (key, nonce) :: mine.take 4095 ++ rest }

/-- F-0208: a record discarded; the job runs on (R205). -/
def State.sealFailed (s : State) (p stack region target : Nat) : State :=
  let s := s.modStk stack fun y => { y with sealFail := y.sealFail + 1 }
  let r := s.fault 0x208 6 target (some p)
  s.logFault r (some (r.contWith region))

/-- A sealed record verified and queued as open writes under `tag`; whether it was taken (R205). One whose region does not
exist counts on stack 0 (DESIGN CHOICE, notes/assumptions/64.md). -/
def State.loadSealed (s : State) (p : Nat) (b : List (BitVec 8)) (tag : Option (Nat × Nat × Nat)) : State × Bool :=
  let r := sealedOf b
  match s.img p with
  | none => (s, false)
  | some i =>
    match i.regions[r.region]? with
    | none => (s.sealFailed p 0 r.region r.target, false)
    | some g =>
      match s.sealedLocs p i g r.target r.count with
      | none => (s.sealFailed p ((s.planLoc p i r.target).1 / 32) r.region r.target, false)
      | some locs =>
        let stack := ((locs.headD ((0, 0), 0)).1.1) / 32
        match s.openSealed p r stack with
        | none => (s.sealFailed p stack r.region r.target, false)
        | some pt =>
          let s := s.modStk stack fun y => y.remember ((s.sealKey p r).getD 0) r.nonce
          let ws := locs.zip (linesOfBytes pt)
          (ws.foldl (fun s w =>
            let d := s.atRest p g.slot w.1.2 w.2
            s.modPch w.1.1.1 fun c => { c with
              openQueue := c.openQueue ++ [{ kind := .sealedLoad, word := w.1.1.2, data := some d, tag := tag }] }) s, true)

/-- SEALED_LOAD (R205). -/
def execSealedLoad (p : PartId) (rec : List (BitVec 8)) (s : State) : Host.Outcome State Fault Refusal :=
  .next (s.loadSealed p rec none).1

/-! ### Staging (R207, R208, R440, R441) -/

/-- F-0209 (R208, R440). -/
def State.stagingError (s : State) (p d : Nat) : State := s.faultHold (s.fault 0x209 6 d (some p))

/-- Waiting staging reads of functions that are bus masters are issued in table order while fewer than 1,024 are
outstanding (R435, R441); `k` bounds the number. -/
def issueStaging : Nat → State → State
  | 0, s => s
  | k + 1, s =>
    match s.pcie.stgQueue.find? fun r => (s.fn (r.part.toNat + 1)).bme with
    | none => s
    | some r =>
      let rest := s.pcie.stgQueue.erase r
      let f := s.fn (r.part.toNat + 1)
      if s.pcie.stgReads.length ≥ 1024 then s
      else
        let d := (((s.img r.part.toNat).getD Image.reset).stageTable[r.desc]?).getD StageDesc.reset
        let s : State := { s with pcie := { s.pcie with stgQueue := rest } }
        if f.stgSize.toNat * 4096 < d.hostOffset + 64 * (d.length + 1) then issueStaging k (s.stagingError r.part.toNat r.desc)
        else issueStaging k { s with pcie := { s.pcie with stgReads := s.pcie.stgReads ++ [r] } }

/-- A half begins to fill: its ready flags clear, a staging window written takes effect, and the table is fetched
(R207, R440). -/
def State.fillHalf (s : State) (p h : Nat) : State :=
  let n := ((s.img p).getD Image.reset).stageTable.length
  let s := s.modPt p fun b => { b with stageReady := b.stageReady.filter fun x => x.1 ≠ h }
  let s := s.modFn (p + 1) fun f => match f.stgNext with
    | some w => { f with stgBase := w.1, stgSize := w.2, stgNext := none }
    | none => f
  let rs := (List.range n).map fun d => { StageRead.reset with part := BitVec.ofNat 4 p, half := h, desc := d }
  issueStaging 4096 { s with pcie := { s.pcie with stgQueue := s.pcie.stgQueue ++ rs } }

/-- Frames of a staging epoch (R207). -/
def Image.epochFrames (i : Image) : Nat := if 0 < i.fs then i.fs else i.stageFrames

/-- STAGING_EPOCH (R207): at launch both halves are fetched; at the tick that starts epoch m the half (m + 1) mod 2. -/
def execStagingEpoch (p : PartId) (s : State) : Host.Outcome State Fault Refusal :=
  match s.img p, (s.pt p).launched with
  | some i, some l =>
    let m := (s.plan.geyser - l) / max 1 (s.frameLen p * i.epochFrames)
    let atTick := s.isTick p s.plan.geyser && s.framesSince p s.plan.geyser % max 1 i.epochFrames = 0
    if i.stageTable.isEmpty || !atTick || (s.pt p).epoch ≠ m then .next s
    else
      let s := s.modPt p fun b => { b with epoch := m + 1 }
      if m = 0 then .next ((s.fillHalf p 0).fillHalf p 1) else .next (s.fillHalf p ((m + 1) % 2))
  | _, _ => .next s

/-- Words received for a descriptor are written into its half as open accesses (R207). -/
def State.stageWords (s : State) (p h d first : Nat) (data : List Line) : State :=
  let i := (s.img p).getD Image.reset
  let t := (i.stageTable[d]?).getD StageDesc.reset
  data.zipIdx.foldl (fun s x =>
    let loc := s.planLoc p i (i.stageBase + h * i.halfWords + t.target + first + x.2)
    s.modPch loc.1 fun c => { c with
      openQueue := c.openQueue ++ [{ kind := .staging, word := loc.2, data := some x.1, tag := some (p, h, d) }] }) s

/-- STAGING_COMPLETION (R207, R208, R440). -/
def execStagingCompletion (p : PartId) (half : HalfIx) (desc : DescIx) (data : List (BitVec 512)) (err : Bool) (s : State) :
    Host.Outcome State Fault Refusal :=
  match s.pcie.stgReads.find? fun r => r.part.toNat = p.val && r.half = half.val && r.desc = desc.val with
  | none => .next s
  | some r =>
    let drop (s : State) : State := { s with pcie := { s.pcie with stgReads := s.pcie.stgReads.erase r } }
    if err then
      let s : State := { s with pcie := { s.pcie with cplErr := satInc s.pcie.cplErr } }
      .next (issueStaging 4096 ((drop s).stagingError p desc))
    else
      let t := (((s.img p).getD Image.reset).stageTable[desc.val]?).getD StageDesc.reset
      let total := t.length + 1
      let data := data.take (total - r.done)
      let done := r.done + data.length
      let s := s.modFn (p.val + 1) fun f => { f with stgBytes := f.stgBytes + BitVec.ofNat 64 (64 * data.length) }
      let s := if t.sealed then s else s.stageWords p half desc r.done data
      if done < total then
        let r' := { r with done := done, buf := if t.sealed then r.buf ++ data else r.buf }
        .next { s with pcie := { s.pcie with stgReads := s.pcie.stgReads.map fun x => if x = r then r' else x } }
      else
        let s := drop s
        let s := if t.sealed then
            (s.loadSealed p ((r.buf ++ data).flatMap bytesOfLine) (some (p.val, half.val, desc.val))).1
          else s
        .next (issueStaging 4096 s)

/-! ### Training (R211) -/

/-- STACK_TRAIN (R192, R209, R211, R217): the training of a stack ends; result 0 passes, and any other value is the failure
class, with which the chip is FORWARD_ONLY. -/
def execStackTrain (k : StackId) (result : BitVec 8) (s : State) : Host.Outcome State Fault Refusal :=
  let y := s.stk k
  if !s.alive || 1 < y.state.toNat then .next s
  else if result = 0 then
    .next (s.modStk k fun y => { y with
      state := 2
      trainResult := 0
      ch := y.ch.map fun c => { c with usable := true, debt := 0, debtAt := s.wall + y.tRefi } })
  else
    let s := s.modStk k fun y => { y with
      state := 3
      trainResult := result
      ch := y.ch.map fun c => { c with usable := false } }
    let s : State := { s with map := { s.map with chipState := if s.map.chipState = 2#2 then 2 else 1 } }
    .next (s.logFault (s.fault 0x207 5 result.toNat none k))

end Sys2Proof.Machine
end

