-- ==== Sys2Proof/Machine/Bind.lean ====
section
/-! DEFINITION. Bind and re-bind: the run's phases, the configuration set that it writes, and how a mapped Stage set comes
into the chip's tables and tiles (R58, R65, R216 to R238, R322, R325, R335, R405). -/

namespace Sys2Proof.Machine
open Sys2Proof

/-! ### The health map (R216 to R219) -/

/-- A physical tile is usable (R216). -/
def State.tileUsable (s : State) (t : Nat) : Bool :=
  !s.fuses.disabled.contains t && !s.map.tileFailed.getLsbD t && !s.map.tileRetire.getLsbD t

/-- A port is trained and not declared failed (R216). -/
def State.portUsable (s : State) (n : Nat) : Bool :=
  ((s.link n).state = 5#3 || ((s.link n).retraining && (s.link n).state ≠ 7#3)) && (s.link n).fab.role ≠ 3#2

/-- The state that the chip has from this bind on (R217). -/
def State.bindHealth (s : State) : BitVec 2 :=
  if s.map.chipState = 2#2 then 2
  else if s.map.retire || (List.range 8).any (fun k => (s.stk k).state = 3#2) then 1
  else 0

/-- This chip's health record (R218). -/
def State.ownRecord (s : State) : HealthRec :=
  { addr := s.selfOrigin
    state := s.bindHealth
    ports := ofBits 12 ((List.range 12).filter s.portUsable)
    tiles := ofBits 160 ((List.range 160).filter s.tileUsable)
    channels := Vector.ofFn fun k : Fin 8 => ofBits 32 ((List.range 32).filter fun c => (s.chan k c).usable) }

/-- The 64 bytes of a health record (R218). -/
def HealthRec.bytes (r : HealthRec) : List (BitVec 8) :=
  bytesOf 3 r.addr.toNat ++ [r.state.setWidth 8] ++ bytesOf 2 r.ports.toNat ++ [0, 0] ++ bytesOf 20 r.tiles.toNat
    ++ [0, 0, 0, 0] ++ r.channels.toList.flatMap fun c => bytesOf 4 c.toNat

/-- Degraded pseudo-channels of each stack (R236). -/
def State.degradedMap (s : State) : Vector (BitVec 32) 8 :=
  Vector.ofFn fun k : Fin 8 => ofBits 32 ((List.range 32).filter fun c => (s.chan k c).degraded)

/-- What the mapper of a run works from. The record of a chip that is declared FAILED holds zeros beside its state (DESIGN
CHOICE, notes/assumptions/66.md) (R217, R218). -/
def State.jobCtx (s : State) (r : MapRun) : JobCtx :=
  let b := s.pt r.part.toNat
  let c : JobCtx :=
    { recs := []
      box := r.jobBox
      ex := r.ex
      ey := r.ey
      ez := r.ez
      rows := b.res.rows
      slice := b.res.slice
      img := ((if r.rebind then b.stage.image else b.wings.image).getD Image.reset) }
  { c with recs := c.chips.filterMap fun a =>
      if s.map.declared.contains a then some { HealthRec.reset with addr := a, state := 2 }
      else if a = r.own.addr then some r.own
      else s.map.records.find? fun x => x.addr = a }

/-- The record of every chip of the job's pods has come (R218). -/
def JobCtx.gathered (c : JobCtx) : Bool := c.recs.length = c.chips.length

/-- SHA-512 of the job health map (R219). -/
def JobCtx.digest (c : JobCtx) : BitVec 512 := Config.sha512 (c.recs.flatMap HealthRec.bytes)

/-- The neighbours with which the chip agrees: those of the job on its usable ports that are not FAILED (R219). -/
def JobCtx.peers (c : JobCtx) (self : BitVec 24) : List (BitVec 24) :=
  (((List.range 12).filter fun n => c.hop self n && c.inJob (c.next self n)).map fun n => c.next self n).eraseDups

/-- The neighbours from which no digest has come, or one that differs (R219). -/
def State.disagree (s : State) (c : JobCtx) : List (BitVec 24) :=
  (c.peers s.selfOrigin).filter fun a =>
    let ds := s.map.digests.filter fun d => d.1 = a
    ds.isEmpty || ds.any fun d => d.2 ≠ c.digest

/-! ### Latencies (R37, R235, R358) -/

/-- A port of the given number keeps the limits of R37, in 1/64 ns. -/
def calOk (n : Nat) (x : Nat × Nat × Nat) : Bool :=
  let h := if portLong n then 900 * 64 else 48 * 64
  let d := if portLong n then 960 * 64 else 110 * 64
  decide (x.1 ≤ h) && decide (x.2.1 ≤ d) && decide (x.2.2 ≤ h)

/-- The latencies that a usable port records at bind, with the pad of 8 ns (R358). -/
def Link.bindCal (l : Link) : Nat × Nat × Nat := (l.rawHold + 512, l.rawData + 512, l.rawSym + 512)

/-- Pads set to 8 ns and the latencies recorded on every usable port (R358). -/
def State.recordCal (s : State) (own : HealthRec) : State :=
  (List.range 12).foldl (fun s n =>
    if !own.ports.getLsbD n then s
    else s.modLink n fun l => { l with
      pad := 0x200
      calHold := BitVec.ofNat 20 l.bindCal.1
      calData := BitVec.ofNat 20 l.bindCal.2.1
      calSym := BitVec.ofNat 20 l.bindCal.2.2 }) s

/-- The configuration record of another chip. -/
def State.peerCfg (s : State) (a : BitVec 24) : Option PeerCfg :=
  (s.map.peerConfigs.find? fun x => x.1 = a).map (·.2)

/-- The latencies of a port of a chip of the job. -/
def State.calAt (s : State) (a : BitVec 24) (n : Nat) : Option (Nat × Nat × Nat) :=
  if a = s.selfOrigin then some (s.link n).bindCal else (s.peerCfg a).bind fun p => p.cal[n]?

/-- The chips whose configuration differs from this chip's, ascending (R235, code 0x26). -/
def State.cfgDiffers (s : State) (c : JobCtx) : List (BitVec 24) :=
  (c.recs.filter fun r => r.state ≠ 2#2 && r.addr ≠ s.selfOrigin && (match s.peerCfg r.addr with
    | some p => !(p.rows = c.rows && p.slice = c.slice && p.jobBox = c.box && p.planAbi.toNat = s.fwu.planAbi.toNat)
    | none => true)).map (·.addr)

/-- The chips with a calibrated latency beyond R37, ascending (code 0x25). -/
def State.calExceeds (s : State) (c : JobCtx) : List (BitVec 24) :=
  (c.recs.filter fun r => (List.range 12).any fun n =>
    c.hop r.addr n && c.inJob (c.next r.addr n) && (match s.calAt r.addr n with
      | some x => !calOk n x
      | none => false)).map (·.addr)

/-! ### Tables that bind writes (R317, R322, R325, R335, R356) -/

/-- The table of a port without logical link: OPEN cells and the minimums of S, M and H (R322). -/
def minTable (cells : Nat) : List (BitVec 4) :=
  (List.range cells).map fun i => if i % 32 = 0 then 4 else if i % 64 = 16 then 6 else if i % 256 = 8 then 5 else 0

/-- The chips of every rank in this chip's copy (R379). -/
def planeOf (m : RankMap) (copyB : Bool) : RankMap :=
  if copyB then { m with ranks := m.ranks.map copyBOf } else m

/-- The port by which a chip relays P packets for a rank, where a two-hop link runs through it (R327). -/
def JobCtx.relayPort (c : JobCtx) (m : RankMap) (self : BitVec 24) (r2 : Nat) : Option Nat :=
  (c.links r2).findSome? fun x => (c.links x.2).findSome? fun y =>
    if y.2 ≠ r2 then none
    else match c.pathOf m x.2 y.1 r2 with
      | some [a, b] => if c.next (m.ranks.getD x.2 0) a = self then some b else none
      | _ => none

/-- The rank table of a chip (R317). -/
def JobCtx.rankTable (c : JobCtx) (m : RankMap) (self : BitVec 24) : List (Nat × BitVec 32) :=
  m.ranks.zipIdx.map fun x =>
    let relay := c.relayPort m self x.2
    (x.2, pack32 [((coordOf x.1).toNat, 0), (relay.getD 0, 14), (bn relay.isSome, 18), (bn (x.1 = self), 19), (1, 31)])

/-- The logical links of a rank with the port each takes, and whether it is spliced (R325, R327). -/
def JobCtx.linkPorts (c : JobCtx) (m : RankMap) (r : Nat) : List (Nat × Nat × Bool × Bool) :=
  (c.links r).filterMap fun x =>
    let nom := (c.nominalPort m.us r x.1).getD 0
    match c.pathOf m r x.1 x.2 with
    | some (a :: rest) => some (x.1, a, a ≠ nom || !rest.isEmpty, !rest.isEmpty)
    | _ => none

/-- The link map (R325, R339). -/
def linkMapOf (ls : List (Nat × Nat × Bool × Bool)) : Vector (BitVec 6) 12 :=
  ls.foldl (fun v x => vset v x.1 (BitVec.ofNat 6 (x.2.1 + bn x.2.2.1 * 16 + 32))) (Vector.replicate 12 0)

/-- ROLE of a port (R313, R335). -/
def State.portRole (s : State) (c : JobCtx) (own : HealthRec) (n : Nat) : BitVec 2 :=
  if (s.link n).fab.role = 3#2 then 3
  else if !own.ports.getLsbD n then 0
  else if c.inJob (c.next s.selfOrigin n) then 1
  else 2

/-- The nominal logical link of a port of this chip. -/
def JobCtx.linkAt (c : JobCtx) (m : RankMap) (rank : Option Nat) (n : Nat) : Option Nat :=
  rank.bind fun r => ((c.links r).find? fun x => c.nominalPort m.us r x.1 = some n).map (·.1)

/-- The slot table of a port (R322). -/
def JobCtx.cellsAt (c : JobCtx) (m : RankMap) (rank : Option Nat) (role : BitVec 2) (n : Nat) : List (BitVec 4) :=
  if role = 2#2 then List.replicate c.img.cells 5
  else match c.linkAt m rank n with
    | some l => (alGet l c.img.slotTables).getD []
    | none => if role = 1#2 && c.img.spliceable then c.img.relayTable else minTable c.img.cells

/-- The P area of a port: its link's peak with the reservation, and the two-hop reservation on a job port of a spliceable
plan that carries no link (R229, R356). -/
def JobCtx.pAreaAt (c : JobCtx) (m : RankMap) (rank : Option Nat) (role : BitVec 2) (n : Nat) : Nat :=
  match c.linkAt m rank n with
  | some l => (alGet l c.img.pPeak).getD 0 + (alGet l c.img.reserve).getD 0
  | none => if role = 1#2 && c.img.spliceable then reserveOf true (portLong n) else 0

/-- The rank that a chip holds: as copy A, or as copy B of a mirrored plan (R379). -/
def JobCtx.rankOf (c : JobCtx) (m : RankMap) (self : BitVec 24) : Option (Nat × Bool) :=
  match m.ranks.findIdx? (· = self) with
  | some r => some (r, false)
  | none => if c.img.mirror then (m.ranks.findIdx? fun a => copyBOf a = self).map fun r => (r, true) else none

/-- The set with the mapping and tables that a run writes into it (R235 phase 5). -/
def State.mapSet (s : State) (r : MapRun) (c : JobCtx) (m : RankMap) (det : Bool) (prev : Option CfgSet) (b : CfgSet) : CfgSet :=
  let self := s.selfOrigin
  let held := c.rankOf m self
  let copyB := (held.map (·.2)).getD false
  let mp := planeOf m copyB
  let rank := held.map (·.1)
  let root := m.ranks.getD 0 0
  let lp := (rank.map fun k => c.linkPorts mp k).getD []
  let role (n : Nat) : BitVec 2 := s.portRole c r.own n
  let holds := rank.isSome
  { b with
    mapped := true
    tiles := if holds then (c.tiles r.own (prev.map (·.tiles))).getD [] else []
    chans := if holds then (c.chans r.own r.degraded (prev.map (·.chans))).getD [] else []
    ranks := m.ranks
    offs := m.offs
    copyB := copyB
    rankTable := c.rankTable mp self
    linkMap := linkMapOf lp
    cells := Vector.ofFn fun n : Fin 12 => c.cellsAt mp rank (role n) n
    pAreas := Vector.ofFn fun n : Fin 12 => c.pAreaAt mp rank (role n) n
    roles := Vector.ofFn fun n : Fin 12 => role n
    rank := BitVec.ofNat 16 (rank.getD 0)
    rankValid := holds
    rankMoved := (rank.map fun k => decide (m.ranks.getD k 0 ≠ c.placeOf m.us m.offs k)).getD false
    upPort := BitVec.ofNat 4 (((c.upstream root self).getD 0) % 12)
    upRoot := decide (root = self)
    splices := m.splices
    chain := m.chain
    stretched := (lp.filter fun x => x.2.2.2).length
    det := det
    dist := (c.distances (fun a n => (s.calAt a n).map (·.1)) self).map fun x => (coordOf x.1, tu64 x.2) }

/-! ### A run (R235, R236) -/

/-- A run that cannot begin or go on yet: a partition of the chip is being scrubbed (R336; DEDUCED, notes/assumptions/37.md), or a
tile of the rows has not been scrubbed since reset (R59). -/
def State.bindWaits (s : State) (p : Nat) : Bool :=
  s.parts.toList.any (fun b => b.state = 2#3 || b.state = 3#3)
    || (rowTiles (s.pt p).res.rows).any fun t => s.tileUsable t && !(s.tile t).scrubbed

/-- A run that ends with a code: Wings returns to LOADED, and a re-bind of a code of phase 4 raises F-030D (R235, R237,
R238, R405). -/
def State.failRun (s : State) (r : MapRun) (code : Nat) (loc : CheckLoc) (obj : Nat) : State :=
  let s : State := { s with map := { s.map with
    state := 5
    code := BitVec.ofNat 8 code
    failLtile := BitVec.ofNat 8 loc.ltile
    failStream := BitVec.ofNat 2 loc.stream
    failObj := BitVec.ofNat 32 obj
    restart := false
    run := none } }
  let s := s.signal 0 2
  let p := r.part.toNat
  if r.rebind then
    if 0x20 ≤ code && code ≤ 0x23 then s.logFault (s.fault 0x30D 0x10 (obj % 2 ^ 24 + code * 2 ^ 24) (some p)) else s
  else (s.modPt p fun b => { b with wings := { b.wings with mapped := false } }).setWings p 2

/-- The P cells of a set overlap those of the Stage or Wings of another partition on some port (R402). -/
def State.cellClash (s : State) (p : Nat) (x : CfgSet) : Bool :=
  (List.range 16).any fun q => q ≠ p && [(s.pt q).stage, (s.pt q).wings].any fun y =>
    y.mapped && (List.range 12).any fun n => cellsMeet (vget x.cells n []) (vget y.cells n [])

/-- The embedding that a run makes: afresh, or from the Stage mapping (R224, R232). -/
def State.runEmbed (s : State) (r : MapRun) (c : JobCtx) : Embedded :=
  let x := (s.pt r.part.toNat).stage
  if r.rebind then c.reembed x.ranks x.offs x.splices x.chain else c.embed

/-- DETERMINE as a run takes it: a re-bind keeps the value of the job's fresh bind (R374). -/
def State.runDet (s : State) (r : MapRun) : Bool := if r.rebind then (s.pt r.part.toNat).stage.det else s.top.determine

/-- The set that a run writes, where the embedding succeeds (R235 phase 5). -/
def State.runSet (s : State) (r : MapRun) (c : JobCtx) : Option CfgSet :=
  let b := s.pt r.part.toNat
  let prev := if r.rebind || (b.launched.isSome && b.stage.mapped) then some b.stage else none
  match s.runEmbed r c with
  | .inl m => some (s.mapSet r c m (s.runDet r) prev (if r.rebind then b.stage else b.wings))
  | .inr _ => none

/-- A run enters a phase: 1 AGREEING, 2 CHECKING, 3 MAPPING (R235, R236). -/
def State.enterPhase (s : State) (n : BitVec 3) : State := { s with map := { s.map with state := n } }

/-- Phases 1 and 2: the records gathered, and the digests agreed (R218, R219, R235). -/
def State.agreeRun (s : State) (r : MapRun) (c : JobCtx) : State :=
  if !c.gathered then s
  else
    let s : State := { s with map := { s.map with run := some { r with gatheredAt := some (r.gatheredAt.getD s.wall) } } }
    if (s.disagree c).isEmpty then ({ s with map := { s.map with jhmDigest := c.digest } } : State).enterPhase 2 else s

/-- Phase 3: the checks of R149, the comparison with the chips of the job, and the calibrated latencies (R235). -/
def State.checkRun (s : State) (r : MapRun) (c : JobCtx) : State :=
  let p := r.part.toNat
  let b := s.pt p
  let set := s.runSet r c
  let clash := (set.map fun x => s.cellClash p x).getD false
  let rank := set.bind fun x => if x.rankValid then some x.rank.toNat else none
  match c.img.check s.clk.stepCur.toNat b.res.poolPages.toNat b.res.devArea.toNat rank clash (s.runDet r) with
  | some (code, loc) => s.failRun r code loc loc.pc
  | none =>
    match s.cfgDiffers c with
    | a :: _ => s.failRun r 0x26 noLoc a.toNat
    | [] =>
      let s := s.recordCal r.own
      match s.calExceeds c with
      | a :: _ => s.failRun r 0x25 noLoc a.toNat
      | [] => s.enterPhase 3

/-- Phases 4 and 5: the mapping, and the set written into Wings; a re-bind's set waits to come into force as the Stage set
(R20, R235, R405; DESIGN CHOICE, notes/assumptions/65.md). -/
def State.placeRun (s : State) (r : MapRun) (c : JobCtx) : State :=
  let p := r.part.toNat
  match s.runEmbed r c, s.runSet r c with
  | .inr (code, a), _ => s.failRun r code noLoc a.toNat
  | _, none => s
  | _, some x =>
    let s : State := { s with map := { s.map with state := 4, restart := false, run := none } }
    let s := s.signal 0 2
    if r.rebind then s.modPt p fun b => { b with rebound := some x }
    else (s.modPt p fun b => { b with wings := x }).setWings p 4

/-! ### A mapped Stage set in force (R65, R317, R322, R338, R339) -/

/-- The active partitions with a mapped Stage set. -/
def State.mappedParts (s : State) : List Nat := s.activeParts.filter fun p => (s.pt p).stage.mapped

/-- The cells of a port: the P and FWD cells of every set, and the first set's others (R322, R402). -/
def mergeCells (ts : List (List (BitVec 4))) : List (BitVec 4) :=
  let n := ts.foldl (fun m t => max m t.length) 0
  (List.range n).map fun i =>
    let cs := ts.filterMap fun t => if t.isEmpty then none else t[i % t.length]?
    (cs.find? fun c => isP c || c = 3#4).getD (cs.headD 0)

/-- The chip-wide copies of the Stage tables of every mapped partition (R236, R317, R338, R339, R397). -/
def State.refreshFabric (s : State) : State :=
  let ps := s.mappedParts
  match ps with
  | [] => { s with fab := { s.fab with jobValid := false } }
  | p :: _ =>
    let x := (s.pt p).stage
    let img := x.image.getD Image.reset
    let sets := ps.map fun q => (s.pt q).stage
    let s : State := { s with
      fab := { s.fab with
        job := (s.pt p).res.job
        jobValid := true
        cellBytes := BitVec.ofNat 16 (12800 * clkPeriod (ps.foldl (fun (m : BitVec 3) q =>
          let f := ((s.img q).map (·.fMax)).getD 0
          if m.toNat < f.toNat then f else m) img.fMax) / tuNs)
        linkMap := x.linkMap }
      map := { s.map with
        rank := x.rank
        rankValid := x.rankValid
        rankMoved := x.rankMoved
        upPort := x.upPort
        upRoot := x.upRoot
        splices := BitVec.ofNat 16 x.splices
        chain := BitVec.ofNat 8 x.chain
        stretched := satNat 8 x.stretched }
      dig := { s.dig with
        det := sets.any (·.det)
        mirror := sets.any fun y => (y.image.map (·.mirror)).getD false
        role := x.copyB
        restartable := sets.all fun y => (y.image.map (·.restartable)).getD false } }
    (List.range 12).foldl (fun s n => s.modLink n fun l => { l with fab := { l.fab with
      role := if l.fab.role = 3#2 then 3 else vget x.roles n 0
      cells := mergeCells (sets.map fun y => vget y.cells n [])
      rankTable := x.rankTable
      pArea := sets.foldl (fun a y => a + vget y.pAreas n 0) 0 } }) s

/-- The tiles of a partition bound as its Stage mapping says; others of its tiles are free (R84, R221). -/
def State.bindTiles (s : State) (p : Nat) : State :=
  let ts := (s.pt p).stage.tiles
  (List.range 160).foldl (fun s t =>
    match ts.findIdx? (· = t) with
    | some i => s.modTile t fun x => { x with logical := BitVec.ofNat 8 i, part := BitVec.ofNat 4 p, bound := true, state := 2 }
    | none =>
      let x := s.tile t
      if x.bound && x.part.toNat = p then
        s.modTile t fun x => { x with logical := 0xFF, part := 0, bound := false, state := 1 }
      else s) s

/-- A tile without streams, unbound; its registers stay. -/
def Tile.stop (t : Tile) : Tile :=
  { t with
    state := if t.state = 0#3 then 0 else 5
    scrubbed := false
    bound := false
    logical := 0xFF
    part := 0
    mx := Stream.reset
    vx := Stream.reset
    mv := Stream.reset
    slot0 := WSlot.reset
    slot1 := WSlot.reset
    writeBacks := []
    sideSets := []
    seqBeats := []
    windows := []
    digest := digestInit
    foldWait := []
    erFlag := false
    parityFails := []
    winQueue := []
    winAt := none
    winActive := none
    winBuf := none }

/-- Tiles that a running plan keeps run on (R222, R407). -/
def State.keepRunning (s old : State) (p : Nat) : State :=
  (s.tilesOf p).foldl (fun s t =>
    let x := old.tile t
    if x.bound && x.part.toNat = p then s.modTile t fun y => { y with state := x.state } else s) s

/-- The stream of an engine of a logical tile as an image loads it. -/
def Image.stream (i : Image) (l : Nat) (e : Eng) : Stream :=
  match i.streams.find? fun c => c.ltile = l && c.engine = e.num with
  | none => Stream.reset
  | some c => c.loaded c.load

/-- A tile as a plan begins: every word zero and empty but the preloads, streams and queues as the image gives them (R58,
R408). -/
def Image.loadTile (i : Image) (l : Nat) (t : Tile) : Tile :=
  let ps := i.preloads.filter fun x => x.ltile = l
  { t with
    mem := ps.foldl (fun m x => Memory.writeLine m x.word x.data) []
    full := (ps.filter (·.full)).foldl (fun f x => nsIns x.word f) []
    poison := []
    bad := []
    correctable := []
    mx := i.stream l .mx
    vx := i.stream l .vx
    mv := i.stream l .mv
    slot0 := WSlot.reset
    slot1 := WSlot.reset
    writeBacks := []
    sideSets := []
    seqBeats := []
    windows := []
    digest := digestInit
    foldWait := []
    parityFails := []
    erFlag := false }

/-- The tiles of a partition loaded from its Stage image, with its sync objects, watches and rounds empty (R58, R408). -/
def State.loadTiles (s : State) (p : Nat) : State :=
  match s.img p with
  | none => s
  | some i =>
    let s := (s.pt p).stage.tiles.zipIdx.foldl (fun s x =>
      (s.modTile x.1 fun t => i.loadTile x.2 t).modTs x.1 fun _ => TileSync.reset) s
    s.modSy p fun y => { y with barriers := Vector.replicate 32 Barrier.reset }

/-- The Stage set of a partition in force: tables and tile mapping. -/
def State.installMapping (s : State) (p : Nat) : State := (s.bindTiles p).refreshFabric

/-- A run goes on by one phase (R235); a wait before its start counts to no phase. -/
def State.continueRun (s : State) : State :=
  match s.map.run with
  | none => s
  | some r =>
    if s.bindWaits r.part.toNat then s
    else
      let r := { r with since := some (r.since.getD s.wall) }
      let s : State := { s with map := { s.map with run := some r } }
      let c := s.jobCtx r
      if s.map.state = 2#3 then s.checkRun r c
      else if s.map.state = 3#3 then s.placeRun r c
      else s.agreeRun r c

/-- What a run takes at its start (R220, R236). -/
def State.mapRun (s : State) (p : Nat) (rebind : Bool) : MapRun :=
  { part := BitVec.ofNat 4 p
    rebind := rebind
    own := s.ownRecord
    degraded := s.degradedMap
    jobBox := s.map.jobBox
    ex := s.map.ex.toNat
    ey := s.map.ey.toNat
    ez := s.map.ez.toNat
    since := none
    gatheredAt := none }

/-- The set that a run of partition `p` works on is there: a loaded Wings set, or a Stage plan (R236, R405). -/
def State.mayBind (s : State) (p : Nat) (rebind : Bool) : Bool :=
  let b := s.pt p
  b.state = 1#3 && (if rebind then b.stage.image.isSome
    else b.wings.image.isSome && (b.wingsState = 2#3 || b.wingsState = 3#3 || b.wingsState = 4#3))

/-- MAP.CTRL.BIND or REBIND written with 1: a run starts, or the run in progress starts again as a chained action. A
re-bind returns a BOUND or ARMED Wings set to LOADED and cancels its arm (R236, R405). -/
def State.startRun (s : State) (p : Nat) (rebind : Bool) (env : BindEnv) : State :=
  let s : State := { s with map := { s.map with part := BitVec.ofNat 4 p } }
  if !s.mayBind p rebind then s
  else
    let chained := s.map.run.isSome
    let health := s.bindHealth
    let s := match s.map.run with
      | some r => if r.rebind then s else s.setWings r.part.toNat 2
      | none => s
    let r := s.mapRun p rebind
    let s : State := { s with map := { s.map with
      chipState := health
      state := 1
      restart := chained
      code := 0
      failLtile := 0
      failStream := 0
      failObj := 0
      records := env.records
      digests := env.digests
      peerConfigs := env.peers
      run := some r } }
    let w := (s.pt p).wingsState
    if !rebind then (s.modPt p fun b => { b with wings := { b.wings with mapped := false } }).setWings p 3
    else
      let s := s.modPt p fun b => { b with rebound := none }
      if w = 4#3 || w = 5#3 || w = 6#3 then
        (s.modPt p fun b => { b with wings := { b.wings with mapped := false }, curtainArm := none }).setWings p
          (if w = 6#3 then 1 else 2)
      else s

/-- A run in progress restarted from agreement, for a chip declared FAILED. The declaration has reached the neighbours too:
one that agreed with this chip's map before agrees with it now (R217, R219, R220; DESIGN CHOICE, notes/assumptions/66.md).
`old` is the digest of this chip's map before the declaration. -/
def State.restartRun (s : State) (old : BitVec 512) : State :=
  match s.map.run with
  | none => s
  | some r =>
    let new := (s.jobCtx r).digest
    { s with map := { s.map with
      state := 1
      restart := true
      run := some { r with gatheredAt := none }
      digests := s.map.digests.map fun d => if d.2 = old then (d.1, new) else d } }

/-- Digest of the job health map of the run in progress. -/
def State.runDigest (s : State) : BitVec 512 := match s.map.run with
  | some r => (s.jobCtx r).digest
  | none => 0

/-- BIND (R220, R235, R236, R405): a fresh bind of the Wings set. -/
def execBind (p : PartId) (env : BindEnv) (s : State) : Host.Outcome State Fault Refusal :=
  .next (s.ifReady fun s => s.startRun p false env)

/-- REBIND (R222, R235, R236, R405): a re-bind of the Stage set. -/
def execRebind (p : PartId) (env : BindEnv) (s : State) : Host.Outcome State Fault Refusal :=
  .next (s.ifReady fun s => s.startRun p true env)

/-- HEALTH_RECORD_TIMEOUT (R218, R235): a chip of the job's pods that has sent no record within 2 s is recorded as FAILED. -/
def execHealthRecordTimeout (chip : BitVec 24) (s : State) : Host.Outcome State Fault Refusal :=
  match s.map.run with
  | none => .next s
  | some r =>
    let c := s.jobCtx r
    let late := (r.since.map fun a => decide (a + 2000 * tuMs ≤ s.wall)).getD false
    if s.map.state ≠ 1#3 || !late || !c.chips.contains chip || c.recs.any (fun x => x.addr = chip) then .next s
    else
      let rec' : HealthRec := { HealthRec.reset with addr := chip, state := 2 }
      .next { s with map := { s.map with
        records := insertBy (fun a b => a.addr.toNat < b.addr.toNat) rec' s.map.records } }

/-- HEALTH_DISAGREE (R219, R235): a neighbour's digest has not come in 5 s, or differs. -/
def execHealthDisagree (s : State) : Host.Outcome State Fault Refusal :=
  match s.map.run with
  | none => .next s
  | some r =>
    let c := s.jobCtx r
    let late := (r.gatheredAt.map fun a => decide (a + 5000 * tuMs ≤ s.wall)).getD false
    if s.map.state ≠ 1#3 || !late then .next s
    else match lowest (s.disagree c) with
      | some a => .next (s.failRun r 0x24 noLoc a.toNat)
      | none => .next s

end Sys2Proof.Machine
end

