-- ==== Sys2Proof/Machine/Budget.lean ====
section
/-! DEFINITION. The budget ledger and its operations (R270 to R281, R288, R289). -/

namespace Sys2Proof.Machine
open Sys2Proof

/-- The parameters as last written (R288, R478). -/
def BudBank.cfgWritten (b : BudBank) : BudCfg :=
  { chargePrompt := (b.cfgNext.map (·.1)).getD b.cfg.chargePrompt
    specEn := (b.cfgNext.map (·.2)).getD b.cfg.specEn
    admitReserve := b.reserveNext.getD b.cfg.admitReserve
    pageQuota := b.quotaNext.getD b.cfg.pageQuota }

/-- BUD.STATUS.CFG_PENDING (R288). -/
def BudBank.cfgPending (b : BudBank) : Bool := b.cfgNext.isSome || b.reserveNext.isSome || b.quotaNext.isSome

/-- What waits to be written takes effect (R288). -/
def BudBank.takeWritten (b : BudBank) : BudBank :=
  { b with
    cfg := b.cfgWritten
    cfgNext := none
    reserveNext := none
    quotaNext := none }

/-- A bucket; those not listed are all zero (R270). -/
def State.bkt (s : State) (c : Nat) : Bucket := (alGet c s.bud.buckets).getD Bucket.reset

/-- A bucket written. -/
def State.setBkt (s : State) (c : Nat) (b : Bucket) : State :=
  { s with bud := { s.bud with buckets := if b = Bucket.reset then alDel c s.bud.buckets else alSet c b s.bud.buckets } }

/-- The identity of R272. -/
def Bucket.conserved (b : Bucket) : Bool := decide (b.granted = (b.charged : Int) + b.balance)

/-- A grant, which may be negative (R272). -/
def Bucket.grant (b : Bucket) (g : Int) : Bucket :=
  { b with
    granted := b.granted + g
    balance := b.balance + g }

/-- A charge (R272). -/
def Bucket.charge (b : Bucket) (c : Nat) : Bucket :=
  { b with
    charged := b.charged + c
    balance := b.balance - (c : Int) }

/-- What Spring adds (R275). -/
def Bucket.springNow (b : Bucket) : Int := min (b.spring.toNat : Int) (max 0 ((b.cap.toNat : Int) - b.balance))

/-- F-0704 for a bucket that breaks the identity (R289). -/
def State.ledgerFault (s : State) (p c : Nat) : State := s.faultHold (s.fault 0x704 0xF (p + (c % 65536) * 256) (some p))

/-- A bucket changed, with the check of R289. -/
def State.changeBkt (s : State) (p c : Nat) (f : Bucket → Bucket) : State :=
  let b := f (s.bkt c)
  let s := s.setBkt c b
  if b.conserved then s else s.ledgerFault p c

/-- A customer lies in the partition's range (R270). -/
def State.ownsBkt (s : State) (p c : Nat) : Bool :=
  let r := (s.pt p).res
  decide (r.bktBase.toNat ≤ c) && decide (c < r.bktBase.toNat + r.bktCount.toNat)

/-- 2^62, the bound of balances (R276). -/
def bal62 : Int := 4611686018427387904

/-- A budget record or operator operation: OP, customer and VALUE. Answers the state with the grant it made, or none where a
range is broken (R276). -/
def State.budgetOp (s : State) (p op cust : Nat) (val : Int) : Option (State × Int) :=
  let b := s.bkt cust
  let grant (g : Int) : Option (State × Int) := some (s.changeBkt p cust fun x => x.grant g, g)
  let small := decide (0 ≤ val) && decide (val < 4294967296)
  let word : BitVec 32 := BitVec.ofInt 32 val
  match op with
  | 0 => if s.ownsBkt p cust && decide (-bal62 ≤ b.balance + val) && decide (b.balance + val ≤ bal62) then grant val else none
  | 1 => if s.ownsBkt p cust && decide (-bal62 ≤ val) && decide (val ≤ bal62) then grant (val - b.balance) else none
  | 2 => if s.ownsBkt p cust && small then some (s.changeBkt p cust fun x => { x with spring := word }, 0) else none
  | 3 => if s.ownsBkt p cust && small then some (s.changeBkt p cust fun x => { x with cap := word }, 0) else none
  | 4 =>
    if cust = 0 && decide (0 ≤ val) && decide (val ≤ ((s.pt p).res.poolPages.toNat : Int)) then
      some (s.modBd p fun x => { x with cfg := { x.cfg with pageQuota := BitVec.ofInt 24 val } }, 0)
    else none
  | 5 => if cust = 0 && small then some (s.modBd p fun x => { x with cfg := { x.cfg with admitReserve := word } }, 0) else none
  | _ => none

/-- BUD.OP_CTRL.GO written with 1: the operation is armed with the values as they stand (R288, R478). -/
def State.budGo (s : State) (p : Nat) : State :=
  s.modBd p fun b => if b.opArmed.isSome then b else { b with
    opArmed := some { op := b.opCode, cust := b.opCust, val := b.opVal } }

/-- BUD.OP_CTRL written with OP and GO. -/
def State.budOp (s : State) (op : Nat) : State :=
  let p := s.bud.psel.toNat
  (s.modBd p fun b => { b with opCode := BitVec.ofNat 3 op }).budGo p

/-- BUD_OP_GRANT (R276, R288): OP 0 armed for the next boundary. -/
def execBudOpGrant (s : State) : Host.Outcome State Fault Refusal := .next (s.ifReady fun s => s.budOp 0)
/-- BUD_OP_SET_BALANCE (R276, R288). -/
def execBudOpSetBalance (s : State) : Host.Outcome State Fault Refusal := .next (s.ifReady fun s => s.budOp 1)
/-- BUD_OP_SET_SPRING (R276, R288). -/
def execBudOpSetSpring (s : State) : Host.Outcome State Fault Refusal := .next (s.ifReady fun s => s.budOp 2)
/-- BUD_OP_SET_CAP (R276, R288). -/
def execBudOpSetCap (s : State) : Host.Outcome State Fault Refusal := .next (s.ifReady fun s => s.budOp 3)
/-- BUD_OP_SET_PAGE_QUOTA (R276, R288). -/
def execBudOpSetPageQuota (s : State) : Host.Outcome State Fault Refusal := .next (s.ifReady fun s => s.budOp 4)
/-- BUD_OP_SET_RESERVE (R276, R288). -/
def execBudOpSetReserve (s : State) : Host.Outcome State Fault Refusal := .next (s.ifReady fun s => s.budOp 5)

/-- The 32 bytes of a bucket (R271). -/
def Bucket.bytes (b : Bucket) : List (BitVec 8) :=
  bytesOf 8 (BitVec.ofInt 64 b.granted).toNat ++ bytesOf 8 b.charged ++ bytesOf 8 (BitVec.ofInt 64 b.balance).toNat
    ++ bytesOf 4 b.spring.toNat ++ bytesOf 4 b.cap.toNat

/-- BUD.BKT_SEL written: the bucket is copied (R288). -/
def State.bktSel (s : State) (v : BitVec 32) : State :=
  let c := v.toNat % 65536
  let bs := (s.bkt c).bytes
  s.modBd s.bud.psel.toNat fun b => { b with
    bktSel := BitVec.ofNat 16 c
    bktCopy := Vector.ofFn fun i : Fin 8 => BitVec.ofNat 32 (natOfBytes ((bs.drop (4 * i.val)).take 4)) }

/-- BUD_BKT_SEL (R288). -/
def execBudBktSel (val : BitVec 32) (s : State) : Host.Outcome State Fault Refusal :=
  .next (s.ifReady fun s => s.bktSel val)

end Sys2Proof.Machine
end

