-- ==== Sys2Proof/Machine/Serve.lean ====
section
/-! DEFINITION. The parts of SEQ's boundary work: intake, control records, return records, outcomes, the depth rule and
Spring (R239 to R264, R273 to R286). -/

namespace Sys2Proof.Machine
open Sys2Proof

/-! ### Records and entries -/

/-- A little-endian field of a record. -/
def fieldN (r : List (BitVec 8)) (o n : Nat) : Nat := natOfBytes ((r.drop o).take n)

/-- A field of a record is zero. -/
def zeroN (r : List (BitVec 8)) (o n : Nat) : Bool := fieldN r o n = 0

/-- An entry of the request table; those not listed are all zero (R247). -/
def State.ent (s : State) (i : Nat) : Entry := (alGet i s.seq.table).getD Entry.reset

/-- An entry written. -/
def State.setEnt (s : State) (i : Nat) (e : Entry) : State :=
  { s with seq := { s.seq with table := if e = Entry.reset then alDel i s.seq.table else alSet i e s.seq.table } }

/-- The entries of a partition's range that are not FREE, by ascending table index (R247). -/
def State.entries (s : State) (p : Nat) : List (Nat × Entry) :=
  let r := (s.pt p).res
  s.seq.table.filter fun x => r.tableBase.toNat ≤ x.1 && x.1 < r.tableBase.toNat + r.tableCount.toNat && x.2.st ≠ 0#3

/-- A live entry: PREFILL or DECODE. -/
def Entry.live (e : Entry) : Bool := e.st = 1#3 || e.st = 2#3

/-- SPEC_STATE of an entry (R286). -/
def Entry.specState (e : Entry) : Nat := e.zeroRun.toNat + e.probeWait.toNat * 16 + bn e.off * 2048 + bn e.probing * 4096

/-- The 64 bytes of an entry (R247). -/
def Entry.bytes (e : Entry) : List (BitVec 8) :=
  bytesOf 8 e.reqId.toNat ++ bytesOf 8 e.seed.toNat ++ bytesOf 8 e.deadline.toNat ++ bytesOf 4 e.stringSet.toNat
    ++ bytesOf 4 e.promptLen.toNat ++ bytesOf 4 e.prefillDone.toNat ++ bytesOf 4 e.gen.toNat ++ bytesOf 4 e.maxNew.toNat
    ++ bytesOf 4 e.lastToken.toNat ++ bytesOf 4 e.age.toNat ++ bytesOf 4 e.pages.toNat ++ bytesOf 2 e.customer.toNat
    ++ bytesOf 2 e.wait.toNat
    ++ [BitVec.ofNat 8 (e.st.toNat + bn e.overdue * 8 + bn e.cancel * 16 + bn e.spec * 32 + bn e.parked * 64)]
    ++ [BitVec.ofNat 8 (e.sampler.toNat + e.specDepth.toNat * 16)] ++ bytesOf 2 e.specState

/-- SEQ.ENTRY_SEL written: the entry is copied (R268). -/
def State.entrySel (s : State) (v : BitVec 32) : State :=
  let i := v.toNat % 16384
  let bs := (s.ent i).bytes
  { s with seq := { s.seq with
    entrySel := BitVec.ofNat 14 i
    entryCopy := Vector.ofFn fun k : Fin 16 => BitVec.ofNat 32 (fieldN bs (4 * k.val) 4) } }

/-- SEQ_ENTRY_SEL (R268). -/
def execSeqEntrySel (val : BitVec 32) (s : State) : Host.Outcome State Fault Refusal :=
  .next (s.ifReady fun s => s.entrySel val)

/-! ### The boundary in progress -/

/-- Boundary work in progress: the state, what it decides from, and what it will write. -/
structure Bnd where
  s : State
  p : Nat
  /-- The boundary tick. -/
  tick : Nat
  i : Image
  sv : Serving
  t : BitVec 64
  n : Nat
  /-- Records of the Ash log, in the order produced (R384). -/
  units : List Line
  /-- Outcome records with their table index. -/
  outs : List (Nat × ResultRec)
  /-- Replies to control records. -/
  reps : List ResultRec
  /-- Replies to submits. -/
  subs : List ResultRec
  /-- Grants, charge and Spring of each bucket changed (R384). -/
  led : List (Nat × (Int × Nat × Int))
  /-- Plan-space words to write. -/
  writes : List (Nat × Line)
  /-- Page-table words among them, and prompt words (R266). -/
  pageWrites : List (Nat × Line)
  prompts : List (Nat × Line)
  fetches : List (Nat × Nat)
  slots : List Slot
  tl : Nat
  /-- The produced counts read at the tick, equal to the consumed count for a ring that is ignored (R243). -/
  ctl : Nat
  sub : Nat
  prompt : Nat
  /-- Ring space left for records. -/
  space : Nat
  /-- In log replay, the logged entry: nothing is sent to the host (R391). -/
  logged : Option AshEntry

/-- A record unit of the Ash log (R384). -/
def ashUnit (ty more ix : Nat) (content : List (BitVec 8)) : Line :=
  lineOfBytes ([BitVec.ofNat 8 ty] ++ bytesOf 3 more ++ bytesOf 4 ix ++ content)

/-- Units appended. -/
def Bnd.log (b : Bnd) (us : List Line) : Bnd := { b with units := b.units ++ us }

/-- The partition's resource fields. -/
def Bnd.res (b : Bnd) : PartRes := (b.s.pt b.p).res

/-- A reply (R260, R261). -/
def replyRec (id : Nat) (status : Nat) : ResultRec :=
  { ResultRec.reset with
    reqId := BitVec.ofNat 64 id
    status := BitVec.ofNat 8 status
    final := 1 ≤ status && status ≤ 7 }

/-- A reply to a control record. -/
def Bnd.reply (b : Bnd) (id status : Nat) : Bnd :=
  let s := if status = 6 then b.s.modSq b.p fun q => { q with rejected := satInc q.rejected } else b.s
  { b with
    s := s
    reps := b.reps ++ [replyRec id status] }

/-- A reply to a submit. -/
def Bnd.replySub (b : Bnd) (id status : Nat) : Bnd :=
  let s := if status = 5 || status = 6 then b.s.modSq b.p fun q => { q with rejected := satInc q.rejected } else b.s
  { b with
    s := s
    subs := b.subs ++ [replyRec id status] }

/-- A change to a bucket noted for the LEDGER record. -/
def Bnd.note (b : Bnd) (c : Nat) (g : Int) (ch : Nat) (sp : Int) : Bnd :=
  let o := (alGet c b.led).getD (0, 0, 0)
  { b with led := alSet c (o.1 + g, o.2.1 + ch, o.2.2 + sp) b.led }

/-- The live entry of a REQ_ID. -/
def Bnd.liveOf (b : Bnd) (id : Nat) : Option (Nat × Entry) :=
  (b.s.entries b.p).find? fun x => x.2.live && x.2.reqId.toNat = id

/-! ### Intake (R241 to R246, R276) -/

/-- The intake window of the partition. -/
def Bnd.intake (b : Bnd) : List Host.Cell := (b.s.sq b.p).intake

/-- Control record `k`, a 32-bit count (R242). -/
def Bnd.ctlRec (b : Bnd) (k : Nat) : List (BitVec 8) := Memory.readBytes b.intake (0x1000 + 64 * (k % 2 ^ 32 % 192)) 64

/-- Submit record `k`, a 32-bit count (R242). -/
def Bnd.subRec (b : Bnd) (k : Nat) : List (BitVec 8) := Memory.readBytes b.intake (0x4000 + 64 * (k % 2 ^ 32 % 3840)) 64

/-- `n` prompt bytes from byte count `o` of the prompt ring. -/
def Bnd.promptBytes (b : Bnd) (o n : Nat) : List (BitVec 8) :=
  (List.range n).map fun k => Memory.read b.intake (0x40000 + (o + k) % 2 ^ 32 % 786432)

/-- Records a produced count has ahead of a consumed one; both run free in 32 bits (R242). -/
def ahead (produced consumed : Nat) : Nat := (produced + 2 ^ 32 - consumed % 2 ^ 32) % 2 ^ 32

/-- The unconsumed submits up to the produced count: record count and REQ_ID. A replayed boundary reads none (R244, R258). -/
def Bnd.waiting (b : Bnd) : List (BitVec 32 × BitVec 64) :=
  if b.logged.isSome then []
  else
    let c := (b.s.sq b.p).hdr.subConsumed.toNat
    (List.range (ahead b.sub c)).map fun k => (BitVec.ofNat 32 (c + k), BitVec.ofNat 64 (fieldN (b.subRec (c + k)) 0 8))

/-- Marks that a log replay left without a record find theirs in the intake at the first live boundary, or are dropped
(R258, R391; DESIGN CHOICE, notes/assumptions/76.md). -/
def Bnd.findMarks (b : Bnd) : Bnd :=
  if b.logged.isSome then b
  else
    let w := b.waiting
    { b with s := b.s.modSq b.p fun q => { q with marked := q.marked.filterMap fun m => match m.2 with
        | some _ => some m
        | none => (w.find? fun x => x.2 = m.1).map fun x => (m.1, some x.1) } }

/-- CANCEL (R244): a live request is marked, or the first unconsumed submit with the REQ_ID. -/
def Bnd.cancel (b : Bnd) (id : Nat) (waiting : List (BitVec 32 × BitVec 64)) : Bnd :=
  let bid : BitVec 64 := BitVec.ofNat 64 id
  let mark (c : Option (BitVec 32)) : Bnd := { b with s := b.s.modSq b.p fun q => { q with marked := q.marked ++ [(bid, c)] } }
  match b.liveOf id with
  | some (i, e) => { b with s := b.s.setEnt i { e with cancel := true } }
  | none =>
    if (b.s.sq b.p).marked.any fun m => m.1 = bid then b
    else if b.logged.isSome then mark none
    else match waiting.find? fun x => x.2 = bid with
      | some x => mark (some x.1)
      | none => b.reply id 8

/-- DEADLINE (R244). -/
def Bnd.deadline (b : Bnd) (id dl : Nat) : Bnd :=
  match b.liveOf id with
  | some (i, e) => { b with s := b.s.setEnt i { e with deadline := BitVec.ofNat 64 dl } }
  | none => b.reply id 8

/-- A budget operation applied, with its LEDGER note; none where it is out of range. -/
def Bnd.budget (b : Bnd) (op cust : Nat) (val : Int) : Option Bnd :=
  (b.s.budgetOp b.p op cust val).map fun r =>
    let b : Bnd := { b with s := r.1 }
    if r.2 = 0 then b else b.note cust r.2 0 0

/-- One control record applied (R244, R276). `waiting` are the unconsumed submits. -/
def Bnd.control (b : Bnd) (r : List (BitVec 8)) (waiting : List (BitVec 32 × BitVec 64)) : Bnd :=
  let ty := fieldN r 0 1
  let id := fieldN r 8 8
  let logged (b : Bnd) : Bnd := b.log [ashUnit 2 1 0 [], lineOfBytes r]
  if 0x10 ≤ ty && ty ≤ 0x15 then
    let ok := zeroN r 1 7 && zeroN r 10 6 && zeroN r 32 32
    match (if ok then b.budget (ty - 0x10) (fieldN r 8 2) (sext 64 (fieldN r 16 8)) else none) with
    | some b => logged b
    | none => b.reply (fieldN r 24 8) 6
  else if 0x16 ≤ ty && ty ≤ 0x1F then b.reply (fieldN r 24 8) 6
  else if 2 < ty || !zeroN r 1 7 then b.reply id 6
  else if ty = 0 then logged b
  else if ty = 1 then logged (b.cancel id waiting)
  else logged (b.deadline id (fieldN r 16 8))

/-- The CONTROL record of an operation made through registers: that of the budget record of its name (R276, R384). -/
def Bnd.logOp (b : Bnd) (op cust val : Nat) : Bnd :=
  b.log [ashUnit 2 1 0 [], lineOfBytes (bytesOf 8 (0x10 + op) ++ bytesOf 8 cust ++ bytesOf 8 val)]

/-- The operator operation armed, applied at step 2 (R274, R288); it is logged as the budget record of its name. A replayed
boundary takes it from the log (R281, R391). -/
def Bnd.operator (b : Bnd) : Bnd :=
  match (b.s.bd b.p).opArmed with
  | none => b
  | some o =>
    if b.logged.isSome then b
    else
      let b : Bnd := { b with s := b.s.modBd b.p fun x => { x with opArmed := none } }
      match b.budget o.op.toNat o.cust.toNat o.val.toInt with
      | some b => b.logOp o.op.toNat o.cust.toNat o.val.toNat
      | none => { b with s := b.s.modBd b.p fun x => { x with opRejected := true } }

/-- Partition parameters written through registers take effect, and the log holds those that a budget record can carry
(R280, R288; DESIGN CHOICE, notes/assumptions/77.md). In a replayed boundary they wait (R281, R391). -/
def Bnd.params (b : Bnd) : Bnd :=
  if b.logged.isSome then b
  else
    let x := b.s.bd b.p
    let b := match x.quotaNext with
      | some v => b.logOp 4 0 v.toNat
      | none => b
    let b := match x.reserveNext with
      | some v => b.logOp 5 0 v.toNat
      | none => b
    { b with s := b.s.modBd b.p BudBank.takeWritten }

/-! ### Return records and outcomes (R252, R253, R273) -/

/-- A return record. -/
structure Ret where
  table : Nat
  kind : Nat
  nemit : Nat
  stopAt : Nat
  accepted : Nat
  tokens : List Nat
  computed : Nat
  clean : Bool
  deriving DecidableEq, Repr

/-- A return record read from its word (R252). -/
def retOf (w : Line) : Ret :=
  let r := bytesOfLine w
  let ne := fieldN r 3 1
  { table := fieldN r 0 2
    kind := fieldN r 2 1
    nemit := ne
    stopAt := fieldN r 4 1
    accepted := fieldN r 5 1
    tokens := (List.range 5).map fun k => fieldN r (8 + 4 * k) 4
    computed := fieldN r 28 4
    clean := zeroN r 6 2 && zeroN r 32 32 && (List.range 5).all fun k => k < ne || zeroN r (8 + 4 * k) 4 }

/-- The checks of R252. -/
def Ret.ok (r : Ret) (x : Slot) : Bool :=
  let k := x.kind.toNat
  r.table = x.table && r.kind = k && r.computed = x.npos && r.stopAt ≤ r.nemit && r.clean && r.nemit ≤ 5
    && (if k = 1 then 1 ≤ r.nemit && r.nemit ≤ 1 + x.depth && r.accepted + 1 = r.nemit
        else if k = 3 then r.nemit = 1 && r.accepted = 0
        else r.nemit = 0 && r.accepted = 0 && r.stopAt = 0)

/-- A plan-space word as it stands now, in plain. -/
def State.planRead (s : State) (p : Nat) (i : Image) (w : Nat) : Line :=
  let loc := s.planLoc p i w
  s.fromRest p ((i.regionOf false w).bind Region.slot) (planTweak w) ((s.pch loc.1).wordAtPc loc.2 s.plan.geyser)

/-- The batch slots of the ended step, with EMPTY ones up to its W. -/
def Bnd.ended (b : Bnd) : List Slot :=
  let q := b.s.sq b.p
  let w := if q.oldReturns.isEmpty then b.sv.w else q.oldReturns.length
  q.slots ++ List.replicate (w - q.slots.length) Slot.reset

/-- The ended step's slots with their return records; those of a step that an image Curtain ended are the old plan's. -/
def Bnd.returns (b : Bnd) : List (Slot × Ret) :=
  let old := (b.s.sq b.p).oldReturns
  b.ended.zipIdx.map fun x => (x.1, retOf (if old.isEmpty then b.s.planRead b.p b.i (b.sv.returnBase + x.2) else old.getD x.2 0))

/-- Pages that SEQ commits to a request (R257). -/
def pagesFor (sv : Serving) (promptLen maxNew : Nat) : Nat := ceilDiv (promptLen + maxNew + sv.dMax) (max 1 sv.p)

/-- The pages of an entry go back to the pool, and what was committed to it at admission is released (R253, R257). -/
def Bnd.freePages (b : Bnd) (i : Nat) : Bnd :=
  let mine := (alGet i (b.s.sq b.p).pageOf).getD []
  let r := (alGet i (b.s.sq b.p).commits).getD 0
  let s := b.s.modSq b.p fun q => { q with
    usedPages := q.usedPages.filter fun x => !mine.contains x
    pageOf := alDel i q.pageOf
    commits := alDel i q.commits }
  { b with s := s.modBd b.p fun x => { x with
    committed := BitVec.ofNat 24 (x.committed.toNat - r)
    allocated := BitVec.ofNat 24 (x.allocated.toNat - mine.length) } }

/-- The deadline of an entry has passed. -/
def Entry.pastDeadline (e : Entry) (t : BitVec 64) : Bool := e.deadline ≠ 0 && decide (e.deadline.toNat ≤ t.toNat)

/-- What R253 gives an entry: status, the tokens of its record, LATE; none where there is no record. -/
def Entry.outcome (e : Entry) (t : BitVec 64) (ret : Option (Slot × Ret)) : Option (Nat × List Nat × Bool) :=
  let emitted := match ret with
    | some x => x.2.tokens.take x.2.nemit
    | none => []
  let stop := (ret.map fun x => x.2.stopAt).getD 0
  let left := e.maxNew.toNat - e.gen.toNat
  let cut := (if stop = 0 then emitted else emitted.take stop).take left
  let late := e.pastDeadline t
  if e.cancel then some (3, [], false)
  else if stop ≠ 0 && stop ≤ cut.length then some (1, cut, late)
  else if !cut.isEmpty && e.maxNew.toNat ≤ e.gen.toNat + cut.length then some (2, cut, late)
  else if late then some (4, cut, !cut.isEmpty)
  else if !cut.isEmpty then some (0, cut, false)
  else none

/-- What a slot is charged (R273). -/
def chargeOf (prompt : Bool) (x : Slot) (r : Ret) : Nat :=
  match x.kind.toNat with
  | 1 => r.nemit
  | 2 => if prompt then x.npos else 0
  | 3 => r.nemit + (if prompt then x.npos else 0)
  | _ => 0

/-- The outcome and the charge of one live entry at the boundary (R253, R273, R274 step 3); RESET where a Curtain retires
every live entry, whose slots are charged all the same (R267). -/
def Bnd.settle (b : Bnd) (rets : List (Slot × Ret)) (i : Nat) (e : Entry) : Bnd :=
  let l := i - b.res.tableBase.toNat
  let ret := rets.find? fun x => x.1.kind ≠ 0 && x.1.table = l
  let ch := (ret.map fun x => chargeOf (b.s.bd b.p).cfg.chargePrompt x.1 x.2).getD 0
  let c := e.customer.toNat
  let b : Bnd := if ch = 0 then b else
    ({ b with s := (b.s.changeBkt b.p c fun x => x.charge ch).modBd b.p fun x => { x with
        lastCharge := x.lastCharge + BitVec.ofNat 32 ch } } : Bnd).note c 0 ch 0
  let toDecode : Bool := (ret.map fun x => decide (x.1.kind = 3#8)).getD false
  let e := if toDecode then { e with st := 2#3 } else e
  match (if (b.s.sq b.p).resetAll then some (7, [], false) else e.outcome b.t ret) with
  | none => { b with s := b.s.setEnt i e }
  | some (st, toks, late) =>
    let e := { e with
      gen := e.gen + BitVec.ofNat 32 toks.length
      lastToken := (toks.getLast?.map (BitVec.ofNat 32)).getD e.lastToken }
    let rec' : ResultRec := { ResultRec.reset with
      reqId := e.reqId
      table := BitVec.ofNat 16 i
      status := BitVec.ofNat 8 st
      late := late
      final := st ≠ 0
      accepted := BitVec.ofNat 8 ((ret.map fun x => x.2.accepted).getD 0)
      tokens := toks.map (BitVec.ofNat 32)
      gen := e.gen
      computed := BitVec.ofNat 32 ((ret.map fun x => x.1.npos).getD 0) }
    let unit := ashUnit 3 0 i ([BitVec.ofNat 8 st, BitVec.ofNat 8 toks.length, BitVec.ofNat 8 (bn late + 2 * bn (st ≠ 0)), 0]
      ++ (List.range 5).flatMap (fun k => bytesOf 4 (toks.getD k 0)) ++ bytesOf 4 e.gen.toNat ++ bytesOf 4 ch)
    let b := b.log [unit]
    let b : Bnd := { b with outs := b.outs ++ [(i, rec')] }
    if st = 0 then { b with s := b.s.setEnt i e }
    else
      let b := b.freePages i
      { b with s := b.s.setEnt i { e with st := 3#3, pages := 0 } }

/-- Outcomes of the ended step, in ascending table index (R253). Records that wait in RETIRING come before them by their
own index. -/
def Bnd.outcomes (b : Bnd) : Bnd :=
  let rets := if (b.s.sq b.p).inStep then b.returns else []
  let b : Bnd := { b with
    s := b.s.modBd b.p fun x => { x with lastCharge := 0 }
    outs := (b.s.sq b.p).retiring }
  let b : Bnd := { b with s := b.s.modSq b.p fun q => { q with retiring := [] } }
  let b := ((b.s.entries b.p).filter fun x => x.2.live).foldl (fun b x => b.settle rets x.1 x.2) b
  { b with
    s := b.s.modSq b.p fun q => { q with resetAll := false }
    outs := sortBy (fun x y => x.1 < y.1) b.outs }

/-! ### Depth rule and Spring (R275, R286) -/

/-- The rule of R286 on one entry; `ver` is ACCEPTED where the ended step was a verifying step for it. -/
def Entry.depthRule (e : Entry) (dMax : Nat) (ver : Option Nat) : Entry :=
  match ver with
  | some acc =>
    if e.probing then
      if 1 ≤ acc then { e with probing := false, off := false, zeroRun := 0, specDepth := BitVec.ofNat 3 dMax }
      else { e with probing := false, specDepth := 0, probeWait := 1 }
    else if acc = 0 then
      let z := min (e.zeroRun.toNat + 1) 8
      if z = 8 then { e with zeroRun := 8, off := true, specDepth := 0, probeWait := 0 }
      else { e with zeroRun := BitVec.ofNat 4 z }
    else { e with zeroRun := 0 }
  | none =>
    if e.off && !e.probing then
      let w := e.probeWait.toNat + 1
      if w = 64 then { e with probeWait := 64, probing := true, specDepth := 1 } else { e with probeWait := BitVec.ofNat 7 w }
    else e

/-- The depth rule on every live entry with SPEC set (R286), with the counts of R288. -/
def Bnd.depths (b : Bnd) : Bnd :=
  let rets := if (b.s.sq b.p).inStep then b.returns else []
  let ver (i : Nat) : Option (Slot × Ret) :=
    rets.find? fun x => x.1.kind = 1#8 && x.1.table = i - b.res.tableBase.toNat && 1 ≤ x.1.depth
  let seen := rets.filter fun x => x.1.kind = 1#8 && 1 ≤ x.1.depth
  let b : Bnd := { b with s := b.s.modBd b.p fun x => { x with
    specGuessed := satAdd x.specGuessed (seen.foldl (fun a y => a + y.1.depth) 0)
    specAccepted := satAdd x.specAccepted (seen.foldl (fun a y => a + y.2.accepted) 0) } }
  if !(b.s.bd b.p).cfg.specEn then b
  else ((b.s.entries b.p).filter fun x => x.2.live && x.2.spec).foldl (fun b x =>
    let e := x.2.depthRule b.sv.dMax ((ver x.1).map fun y => y.2.accepted)
    if e = x.2 then b
    else
      let b : Bnd := { b with s := b.s.setEnt x.1 e }
      b.log [ashUnit 8 0 x.1 (bytesOf 2 e.specState ++ bytesOf 1 e.specDepth.toNat)]) b

/-- Spring on every bucket of the range (R275). -/
def Bnd.spring (b : Bnd) : Bnd :=
  (b.s.bud.buckets.filter fun x => b.s.ownsBkt b.p x.1).foldl (fun b x =>
    let g := (b.s.bkt x.1).springNow
    if g = 0 then b else ({ b with s := b.s.changeBkt b.p x.1 fun y => y.grant g } : Bnd).note x.1 0 0 g) b

/-- The LEDGER records of the buckets changed at this boundary (R384). -/
def Bnd.ledger (b : Bnd) : Bnd :=
  b.log (b.led.map fun x => ashUnit 7 0 x.1 (bytesOf 8 (BitVec.ofInt 64 x.2.1).toNat ++ bytesOf 8 x.2.2.1
    ++ bytesOf 8 (BitVec.ofInt 64 x.2.2.2).toNat))

/-! ### Admission (R245, R246, R254, R257) -/

/-- A submit that enters: its record and prompt tokens as bytes, and where its prompt lies (the end count to consume). -/
structure Submit where
  r : List (BitVec 8)
  prompt : List (BitVec 8)
  endsAt : Option Nat
  deriving DecidableEq, Repr

/-- R246: the submit is invalid. `room` says that its prompt bytes lie between PROMPT_CONSUMED and PROMPT_PRODUCED. -/
def Bnd.invalid (b : Bnd) (r : List (BitVec 8)) (earlier : List Nat) (room : Bool) : Bool :=
  let id := fieldN r 0 8
  let len := fieldN r 20 4
  let mx := fieldN r 24 4
  let set := fieldN r 12 4
  let strings := (((b.s.pt b.p).stage.params).map (·.stringCount)).getD 0
  15 < fieldN r 10 1 || 1 < fieldN r 11 1 || !zeroN r 28 4 || !zeroN r 48 16
    || (b.liveOf id).isSome || earlier.contains id
    || !b.s.ownsBkt b.p (fieldN r 8 2) || (set ≠ 0 && strings ≤ set)
    || len = 0 || b.sv.promptMax < len || mx = 0 || b.sv.p * b.sv.eMax < len + mx + b.sv.dMax || !room

/-- The lowest free index of the partition's range (R248). -/
def Bnd.freeIndex (b : Bnd) : Option Nat :=
  let r := b.res
  ((List.range r.tableCount.toNat).find? fun k => (b.s.ent (r.tableBase.toNat + k)).st = 0#3).map (r.tableBase.toNat + ·)

/-- Words of the prompt store of one entry. -/
def Serving.promptWords (sv : Serving) : Nat := ceilDiv sv.promptMax 16

/-- Words of one entry's page table (R248). -/
def Serving.tableWords (sv : Serving) : Nat := 1 + ceilDiv sv.eMax 16

/-- First word of the page table of a local index (R248). -/
def Serving.tableAt (sv : Serving) (l : Nat) : Nat := sv.ptBase + l * sv.tableWords

/-- The header word of a page table (R201, R248). -/
def Serving.tableHeader (sv : Serving) (pages : Nat) : Line :=
  lineOfBytes (bytesOf 2 sv.p ++ bytesOf 2 sv.v ++ bytesOf 4 pages)

/-- A submit admitted at an index: the entry, its commitment, and its prompt in the prompt store (R248, R254). -/
def Bnd.admitOne (b : Bnd) (i : Nat) (x : Submit) : Bnd :=
  let r := x.r
  let q := b.s.sq b.p
  let spec := fieldN r 11 1 = 1 && (b.s.bd b.p).cfg.specEn && 1 ≤ b.sv.dMax
  let e : Entry := { Entry.reset with
    reqId := BitVec.ofNat 64 (fieldN r 0 8)
    seed := BitVec.ofNat 64 (fieldN r 40 8)
    deadline := BitVec.ofNat 64 (fieldN r 32 8)
    stringSet := BitVec.ofNat 32 (fieldN r 12 4)
    promptLen := BitVec.ofNat 32 (fieldN r 20 4)
    maxNew := BitVec.ofNat 32 (fieldN r 24 4)
    age := q.nextAge
    customer := BitVec.ofNat 16 (fieldN r 8 2)
    st := 1
    spec := spec
    sampler := BitVec.ofNat 4 (fieldN r 10 1)
    specDepth := if spec then BitVec.ofNat 3 b.sv.dMax else 0 }
  let l := i - b.res.tableBase.toNat
  let lines := linesOfBytes x.prompt
  let base := b.sv.promptBase + l * b.sv.promptWords
  let ws := lines.zipIdx.map fun y => (base + y.2, y.1)
  let s := (b.s.setEnt i e).modSq b.p fun q => { q with
    nextAge := q.nextAge + 1
    admitted := satInc q.admitted
    hdr := { q.hdr with promptConsumed := (x.endsAt.map (BitVec.ofNat 32)).getD q.hdr.promptConsumed } }
  let n := pagesFor b.sv e.promptLen.toNat e.maxNew.toNat
  let s := s.modSq b.p fun q => { q with commits := alSet i n q.commits }
  let s := s.modBd b.p fun y => { y with committed := y.committed + BitVec.ofNat 24 n }
  ({ b with
    s := s
    writes := b.writes ++ ws ++ [(b.sv.tableAt l, b.sv.tableHeader 0)]
    pageWrites := b.pageWrites ++ [(b.sv.tableAt l, b.sv.tableHeader 0)]
    prompts := b.prompts ++ ws } : Bnd).log ([ashUnit 1 (1 + lines.length) i [], lineOfBytes r] ++ lines)

/-- Step 2 of R254: submits in ring order. `log` marks submits taken from the Ash log. -/
def Bnd.admitAll : List Submit → List Nat → Bnd → Bnd
  | [], _, b => b
  | x :: rest, earlier, b =>
    let id := fieldN x.r 0 8
    let take (b : Bnd) : Bnd := { b with s := b.s.modSq b.p fun q => { q with hdr := { q.hdr with subConsumed := q.hdr.subConsumed + 1 } } }
    let q := b.s.sq b.p
    let mark : BitVec 64 × Option (BitVec 32) := (BitVec.ofNat 64 id, some q.hdr.subConsumed)
    if b.logged.isNone && q.marked.contains mark then
      let b := take (b.replySub id 3)
      Bnd.admitAll rest (earlier ++ [id]) { b with s := b.s.modSq b.p fun q => { q with marked := q.marked.erase mark } }
    else
      let len := fieldN x.r 20 4
      let room := match x.endsAt with
        | none => true
        | some e =>
          let c := q.hdr.promptConsumed.toNat
          let prod := b.prompt
          let o := fieldN x.r 16 4
          ahead o c ≤ ahead prod c && ahead o c + 4 * len ≤ ahead prod c && e = (o + 4 * len) % 2 ^ 32
      if b.invalid x.r earlier room then Bnd.admitAll rest (earlier ++ [id]) (take (b.replySub id 6))
      else match b.freeIndex with
        | none => b
        | some i =>
          let y := b.s.bd b.p
          if y.cfg.pageQuota.toNat < y.committed.toNat + pagesFor b.sv len (fieldN x.r 24 4) then b
          else if (b.s.bkt (fieldN x.r 8 2)).balance < (y.cfg.admitReserve.toNat : Int) then
            Bnd.admitAll rest (earlier ++ [id]) (take (b.replySub id 5))
          else Bnd.admitAll rest (earlier ++ [id]) (take (b.admitOne i x))

end Sys2Proof.Machine
end

