-- ==== Sys2Proof/Machine/Batch.lean ====
section
/-! DEFINITION. The batch rule of SEQ: Strings, pages, deficits and the choice of the active set (R251, R254 to R259). -/

namespace Sys2Proof.Machine
open Sys2Proof

/-! ### Words that the plan reads -/

/-- The word of a batch slot (R251). -/
def Slot.line (x : Slot) : Line :=
  lineOfBytes (bytesOf 2 x.table ++ [x.kind] ++ bytesOf 1 x.depth ++ bytesOf 4 x.pos0 ++ bytesOf 4 x.npos
    ++ bytesOf 4 x.input.toNat ++ bytesOf 2 x.strSlot ++ bytesOf 1 x.sampler.toNat ++ [0] ++ bytesOf 4 x.gen.toNat
    ++ bytesOf 8 x.seed.toNat ++ bytesOf 4 x.ptable)

/-- Entry word `k` of a page table whose pages are listed in entry order (R201). -/
def tableWord (pages : List Nat) (k : Nat) : Line :=
  lineOfBytes (((pages.drop (16 * k)).take 16).flatMap fun n => bytesOf 4 (n % 2 ^ 24 + 2 ^ 31))

/-- The fetch list as words; unused entries are zero (R147, R259). -/
def fetchLines (fMax : Nat) (fs : List (Nat × Nat)) : List Line :=
  (List.range (ceilDiv fMax 8)).map fun k =>
    lineOfBytes (((fs.drop (8 * k)).take 8).flatMap fun x => bytesOf 8 (x.1 % 2 ^ 16 + x.2 % 2 ^ 32 * 2 ^ 16 + 2 ^ 63))

/-! ### String cache slots (R259) -/

/-- strings_fit: the slot of the set, with the map, the fetch list and the last use updated. -/
def Bnd.stringsFit (b : Bnd) (set : BitVec 32) : Option (Nat × Bnd) :=
  if set = 0 then some (0, b)
  else
    let m := (b.s.sq b.p).strMap
    let now : BitVec 64 := BitVec.ofNat 64 b.n
    let put (v : Nat) (b : Bnd) : Bnd :=
      { b with s := b.s.modSq b.p fun q => { q with strMap := alSet v (set, now) q.strMap } }
    match m.find? fun x => x.2.1 = set with
    | some x => some (x.1, put x.1 b)
    | none =>
      if b.fetches.length = b.sv.fMax then none
      else
        let free := ((List.range (b.sv.c - 1)).map (· + 1)).find? fun v => (alGet v m).isNone
        let old := minBy (fun (x : Nat × BitVec 32 × BitVec 64) => x.2.2.toNat)
          (m.filter fun x => b.slots.all fun y => y.strSlot ≠ x.1)
        match free.or (old.map (·.1)) with
        | none => none
        | some v => some (v, { put v b with fetches := b.fetches ++ [(v, set.toNat)] })

/-! ### Pages (R257, R279) -/

/-- The `n` lowest free pages of the pool. -/
def Bnd.lowestFree (b : Bnd) (n : Nat) : List Nat :=
  let used := (b.s.sq b.p).usedPages
  ((List.range (min b.res.poolPages.toNat (used.length + n))).filter fun k => !nsHas k used).take n

/-- pages_fit: positions up to `upto` are mapped, or the entry is PARKED. -/
def Bnd.pagesFit (b : Bnd) (i upto : Nat) : Bool × Bnd :=
  let e := b.s.ent i
  let need := ceilDiv upto (max 1 b.sv.p) - e.pages.toNat
  let pages := b.lowestFree need
  let y := b.s.bd b.p
  if need = 0 then (true, { b with s := b.s.setEnt i { e with parked := false } })
  else if pages.length < need || y.cfg.pageQuota.toNat < y.allocated.toNat + need then
    (false, { b with s := b.s.setEnt i { e with parked := true } })
  else
    let had := (alGet i (b.s.sq b.p).pageOf).getD []
    let mine := had ++ pages
    let s := b.s.setEnt i { e with
      parked := false
      pages := BitVec.ofNat 24 mine.length }
    let s := s.modSq b.p fun q => { q with
      usedPages := pages.foldl (fun l k => nsIns k l) q.usedPages
      pageOf := alSet i mine q.pageOf }
    let s := s.modBd b.p fun x => { x with allocated := BitVec.ofNat 24 (x.allocated.toNat + need) }
    let base := b.sv.tableAt (i - b.res.tableBase.toNat)
    let first := had.length / 16
    let ws := (base, b.sv.tableHeader mine.length) ::
      ((List.range (ceilDiv mine.length 16 - first)).map fun k => (base + 1 + first + k, tableWord mine (first + k)))
    let units := (List.range (ceilDiv need 12)).map fun k =>
      let part := (pages.drop (12 * k)).take 12
      ashUnit 4 0 i (bytesOf 4 (had.length + 12 * k) ++ bytesOf 1 part.length ++ bytesOf 3 0 ++ part.flatMap (bytesOf 4))
    (true, ({ b with
      s := s
      writes := b.writes ++ ws
      pageWrites := b.pageWrites ++ ws } : Bnd).log units)

/-! ### The choice (R254 to R256) -/

/-- DEF of a customer (R255). -/
def State.deficit (s : State) (c : Nat) : Int := (alGet c s.seq.deficit).getD 0

/-- DEF written; a deficit of 0 is not listed. -/
def State.setDeficit (s : State) (c : Nat) (d : Int) : State :=
  { s with seq := { s.seq with deficit := if d = 0 then alDel c s.seq.deficit else alSet c d s.seq.deficit } }

/-- The entries that may be selected, in the order of R254. -/
def Bnd.candidates (b : Bnd) : List (Nat × Entry) :=
  (b.s.entries b.p).filter fun x =>
    x.2.live && !x.2.cancel && decide (0 ≤ (b.s.bkt x.2.customer.toNat).balance)

/-- The order of R254: OVERDUE first, then DEF, then AGE, then table index. -/
def State.before (s : State) (x y : Nat × Entry) : Bool :=
  let dx := s.deficit x.2.customer.toNat
  let dy := s.deficit y.2.customer.toNat
  if x.2.overdue ≠ y.2.overdue then x.2.overdue
  else if dx ≠ dy then decide (dy < dx)
  else if x.2.age ≠ y.2.age then decide (x.2.age.toNat < y.2.age.toNat)
  else decide (x.1 < y.1)

/-- try(e) of R254. -/
def Bnd.tryEntry (b : Bnd) (i : Nat) : Bnd :=
  let e := b.s.ent i
  let l := i - b.res.tableBase.toNat
  let decoding : Bool := decide (e.st = 2#3)
  let depth := if (b.s.bd b.p).cfg.specEn then e.specDepth.toNat else 0
  let d := min (min depth b.sv.dMax) (b.tl - 1)
  let left := e.promptLen.toNat - e.prefillDone.toNat
  let n := if decoding then 1 + d else min (min left b.sv.chunkMax) b.tl
  let pos0 := if decoding then e.promptLen.toNat + e.gen.toNat - 1 else e.prefillDone.toNat
  match b.stringsFit e.stringSet with
  | none => b
  | some (slot, b) =>
    let r := b.pagesFit i (pos0 + n)
    if !r.1 then r.2
    else
      let b := r.2
      let x : Slot := {
        table := l
        kind := if decoding then 1 else if left = n then 3 else 2
        depth := if decoding then d else 0
        pos0 := pos0
        npos := n
        input := if decoding then e.lastToken else BitVec.ofNat 32 (b.sv.promptBase + l * b.sv.promptWords + pos0 / 16)
        strSlot := slot
        sampler := e.sampler
        gen := e.gen
        seed := e.seed
        ptable := b.sv.tableAt l }
      { b with
        slots := b.slots ++ [x]
        tl := b.tl - n }

/-- A pass of R254 over some candidates. -/
def Bnd.pass (b : Bnd) (xs : List (Nat × Entry)) : Bnd :=
  xs.foldl (fun b x => if b.slots.length = b.sv.w || b.tl = 0 then b else b.tryEntry x.1) b

/-- PREFILL_DONE, WAIT and OVERDUE of a candidate after the choice (R254, R258). -/
def Entry.chosen (e : Entry) (slot : Option Slot) (overdueSteps : Nat) : Entry :=
  match slot with
  | some x =>
    { e with
      wait := 0
      overdue := false
      prefillDone := if x.kind = 1#8 then e.prefillDone else e.prefillDone + BitVec.ofNat 32 x.npos }
  | none =>
    let w := satInc e.wait
    { e with
      wait := w
      overdue := e.overdue || decide (overdueSteps ≤ w.toNat) }

/-- Steps 3 and 4 of R254, with the layout of R251. -/
def Bnd.batch (b : Bnd) (isOpen : Bool) : Bnd :=
  let q := b.s.sq b.p
  let cand := if isOpen then b.candidates else []
  let custs := (cand.map fun x => x.2.customer.toNat).eraseDups
  let s := custs.foldl (fun s c => s.setDeficit c (min (s.deficit c + (q.quantum.toNat : Int)) 1073741824)) b.s
  let cand := sortBy s.before cand
  let b : Bnd := { b with
    s := s
    slots := []
    fetches := []
    tl := b.sv.t }
  let b := b.pass (cand.filter fun x => x.2.overdue)
  let b := b.pass (cand.filter fun x => !x.2.overdue && decide (x.2.st = 2#3))
  let b := b.pass (cand.filter fun x => !x.2.overdue && decide (x.2.st = 1#3))
  let base := b.res.tableBase.toNat
  let s := b.slots.foldl (fun s x =>
    let c := (s.ent (base + x.table)).customer.toNat
    s.setDeficit c (max (s.deficit c - (x.npos : Int)) (-1073741824))) b.s
  let s := cand.foldl (fun s x =>
    s.setEnt x.1 ((s.ent x.1).chosen (b.slots.find? fun y => base + y.table = x.1) q.overdueSteps.toNat)) s
  { b with
    s := s
    slots := b.slots.filter (fun x => decide (x.kind = 1#8)) ++ b.slots.filter (fun x => decide (x.kind ≠ 1#8)) }

/-- The SLOTS and FETCH records of the boundary (R384). -/
def Bnd.logBatch (b : Bnd) : Bnd :=
  let f := fetchLines b.sv.fMax b.fetches
  b.log (ashUnit 5 b.slots.length 0 [] :: (b.slots.map Slot.line ++ ashUnit 6 f.length 0 [] :: f))

end Sys2Proof.Machine
end

