-- ==== Sys2Proof/Machine/Boundary.lean ====
section
/-! DEFINITION. SEQ's boundary work, the group message and the Ash log (R239 to R266, R274, R379, R383 to R385, R391,
R392). -/

namespace Sys2Proof.Machine
open Sys2Proof

/-! ### Units of a plan (R28, R382) -/

/-- Length of a unit in pc. -/
def State.unitLen (s : State) (p : Nat) : Nat := s.frameLen p * s.unitFrames p

/-- First tick of the unit in progress. -/
def State.unitTick (s : State) (p : Nat) : Option Nat :=
  match (s.pt p).launched with
  | none => none
  | some l =>
    if s.plan.geyser < l || s.unitLen p = 0 then none
    else some (l + (s.plan.geyser - l) / s.unitLen p * s.unitLen p)

/-- Number of the unit in progress (R28). -/
def State.unitNo (s : State) (p : Nat) : Nat := (s.pt p).stepBase + s.framesSince p s.plan.geyser / s.unitFrames p

/-- The chip leads the model of a serving plan (R265, R379). -/
def State.leads (s : State) (p : Nat) (sv : Serving) : Bool :=
  let x := (s.pt p).stage
  x.rankValid && decide (x.rank.toNat = sv.group.headD x.rank.toNat)

/-- The partition's plan serves, and this chip leads its model (R265, R268, R281). -/
def State.leadsPart (s : State) (p : Nat) : Bool := match (s.img p).bind (·.serving) with
  | some sv => s.leads p sv
  | none => false

/-! ### Declarations (R239, R240) -/

/-- The regions of plan space that the declarations name: first word and length (R248, R250 to R252, R259, R282). -/
def Serving.regions (sv : Serving) : List (Nat × Nat) :=
  [(sv.header, 1), (sv.batchBase, sv.w), (sv.fetchBase, ceilDiv sv.fMax 8), (sv.ptBase, sv.entries * sv.tableWords),
    (sv.promptBase, sv.entries * sv.promptWords), (sv.returnBase, sv.w), (sv.guessBase, if sv.dMax = 0 then 0 else sv.entries)]

/-- The first declaration, by its row in R239, that does not stand; `count` is TABLE.COUNT, `len` the step in pc and `words`
the length of plan space. -/
def Serving.bad (sv : Serving) (count len words : Nat) : Option Nat :=
  let out (lo hi x : Nat) : Bool := decide (x < lo) || decide (hi < x)
  [out 1 16384 sv.w, out 1 16777215 sv.t, out 1 sv.t sv.chunkMax, out 0 4 sv.dMax, out 1 65536 sv.promptMax,
    out 1 1024 sv.p || out 1 1024 sv.v || out 0 2 sv.code || (sv.code ≠ 0 && sv.v % 8 ≠ 0), out 1 65536 sv.eMax,
    out 1 65535 sv.c, out 0 64 sv.fMax,
    decide (sv.cacheWords < sv.c * sv.slotWords) || decide (65536 < sv.cacheBase + sv.cacheWords),
    decide (65535 < sv.mbox) || decide (len ≤ sv.mboxPc) || (decide (sv.group.length ≤ 1) && decide (sv.mboxPc < 40984)),
    decide (sv.entries < count) || sv.regions.any fun x => decide (words < x.1 + x.2)].zipIdx.findSome? fun x => if x.1 then some x.2 else none

/-! ### Result records (R260 to R263, R432 to R435) -/

/-- The 64 bytes of a result record (R260). -/
def ResultRec.bytes (r : ResultRec) : List (BitVec 8) :=
  bytesOf 8 r.reqId.toNat ++ bytesOf 2 r.table.toNat
    ++ [r.status, BitVec.ofNat 8 (bn r.late + 2 * bn r.final + 128 * bn r.phase), BitVec.ofNat 8 r.tokens.length, r.accepted, 0, 0]
    ++ (List.range 5).flatMap (fun k => bytesOf 4 (r.tokens.getD k 0).toNat) ++ bytesOf 4 r.gen.toNat
    ++ bytesOf 8 r.stepNo.toNat ++ bytesOf 8 r.time.toNat ++ bytesOf 4 r.computed.toNat ++ bytesOf 4 0

/-- The function may take records: it is a bus master and holds no write of an earlier boundary (R433, R435). -/
def State.queueClear (s : State) (f : Nat) : Bool :=
  (s.fn f).bme && !s.pcie.outq.any fun w => w.fn = f && (w.kind ≠ 2 || w.vector = 0)

/-- One record into the ring; in log replay it is only counted (R260, R391). -/
def Bnd.emit (b : Bnd) (r : ResultRec) : Bnd :=
  let h := (b.s.sq b.p).hdr
  let n := h.resultProduced.toNat
  let r := { r with
    phase := decide (n / 2 ^ h.log2.toNat % 2 = 1)
    stepNo := BitVec.ofNat 64 b.n
    time := b.t }
  let s := b.s.modSq b.p fun q => { q with
    hdr := { q.hdr with resultProduced := q.hdr.resultProduced + 1 }
    records := if b.logged.isSome then q.records else satInc q.records }
  let s := if b.logged.isSome then s else { s with pcie := { s.pcie with outq := s.pcie.outq ++ [{ OutWrite.reset with
    fn := b.p + 1
    kind := 0
    addr := h.base + BitVec.ofNat 64 (64 * (n % 2 ^ h.log2.toNat))
    data := r.bytes
    relaxed := s.pcie.relaxed
    boundary := BitVec.ofNat 64 b.n }] } }
  { b with
    s := s
    space := b.space - 1 }

/-- Outcomes in table order while there is space, final ones first where it is scarce; an entry is free once its final record
is written, and what finds no space waits (R248, R262). -/
def Bnd.writeOuts (b : Bnd) : Bnd :=
  let outs := if b.outs.length ≤ b.space then b.outs else b.outs.filter (·.2.final) ++ b.outs.filter (!·.2.final)
  outs.foldl (fun b x =>
    if b.space = 0 then { b with s := b.s.modSq b.p fun q => { q with retiring := q.retiring ++ [x] } }
    else
      let b := b.emit x.2
      if x.2.final then { b with s := b.s.setEnt x.1 Entry.reset } else b) { b with outs := [] }

/-- Replies in order while there is space; others are counted (R262). -/
def Bnd.writeReplies (b : Bnd) (rs : List ResultRec) : Bnd :=
  rs.foldl (fun b r =>
    if b.space = 0 then { b with s := b.s.modSq b.p fun q => { q with repliesLost := satInc q.repliesLost } } else b.emit r) b

/-- The step sequence word, in place of an unsent one, with the step-end interrupt (R262, R263, R433). -/
def Bnd.seqWord (b : Bnd) (wrote : Bool) : Bnd :=
  let h := (b.s.sq b.p).hdr
  if h.log2 = 0 || b.logged.isSome then b
  else
    let f := b.p + 1
    let w : OutWrite := { OutWrite.reset with
      fn := f
      kind := 1
      addr := h.seqword
      data := bytesOf 4 h.resultProduced.toNat ++ bytesOf 4 b.n
      boundary := BitVec.ofNat 64 b.n }
    let old (x : OutWrite) : Bool := x.fn = f && x.kind = 1
    let q := b.s.pcie.outq
    let q := if q.any old then q.map fun x => if old x then w else x else q ++ [w]
    let s : State := { b.s with pcie := { b.s.pcie with outq := q } }
    let s := (s.modSq b.p fun x => { x with hdr := { x.hdr with stepNo := BitVec.ofNat 64 b.n } }).logEvent 3 f
    { b with s := if h.irq && wrote then s.signal f 0 else s }

/-! ### Ring configuration and the produced counts (R242, R243, R264) -/

/-- A header word as the host wrote it. -/
def Bnd.hdrN (b : Bnd) (o n : Nat) : Nat := Memory.readNat b.intake o n

/-- A requested ring configuration is applied or refused once no record can be half-read (R264). -/
def Bnd.config (b : Bnd) : Bnd :=
  let h := (b.s.sq b.p).hdr
  let req := b.hdrN 0x9C 4
  let log2 := b.hdrN 0x88 4 % 32
  let base := b.hdrN 0x80 8
  let sw := b.hdrN 0x90 8
  if b.logged.isSome || req = h.cfgDone.toNat then b
  else if h.log2 ≠ 0 && b.hdrN 0xC 4 ≠ h.resultProduced.toNat then b
  else
    let bad := (log2 ≠ 0 && (log2 < 13 || 20 < log2)) || base % 64 ≠ 0 || sw % 8 ≠ 0 || (log2 ≠ 0 && sw = 0)
    let h : IntakeHdr := { h with
      cfgDone := BitVec.ofNat 32 req
      cfgErr := bad }
    let h := if bad then h else { h with
      base := BitVec.ofNat 64 base
      log2 := BitVec.ofNat 5 log2
      seqword := BitVec.ofNat 64 sw
      irq := b.hdrN 0x98 4 % 2 = 1 }
    { b with s := b.s.modSq b.p fun q => { q with hdr := h } }

/-- F-0502: the ring is ignored at this boundary (R243). -/
def Bnd.overrun (b : Bnd) (ring : Nat) : Bnd :=
  { b with s := (b.s.modSq b.p fun q => { q with intakeErr := true }).logFault (b.s.fault 0x502 0xE (b.p + ring * 256) (some b.p)) }

/-- A produced count lies further ahead than its ring holds (R243). -/
def ringOver (x : Nat) (y : BitVec 32) (cap : Nat) : Bool := decide (cap < ahead x y.toNat)

/-- F-0502 where a ring's produced count overruns it (R243). -/
def Bnd.checkRing (b : Bnd) (beyond : Bool) (ring : Nat) : Bnd := if beyond then b.overrun ring else b

/-- The produced counts that this boundary goes by. -/
def Bnd.useCounts (b : Bnd) (ctl sub prompt : Nat) : Bnd :=
  { b with
    ctl := ctl
    sub := sub
    prompt := prompt }

/-- The produced counts as SEQ uses them (R243); in log replay what the entry consumed (R391). -/
def Bnd.readCounts (b : Bnd) : Bnd :=
  let h := (b.s.sq b.p).hdr
  match b.logged with
  | some _ => b
  | none =>
    let c := b.hdrN 0 4
    let u := b.hdrN 4 4
    let m := b.hdrN 8 4
    let oc := ringOver c h.ctlConsumed 192
    let ou := ringOver u h.subConsumed 3840
    let om := ringOver m h.promptConsumed 786432
    (((b.checkRing oc 0).checkRing ou 1).checkRing om 2).useCounts (if oc then h.ctlConsumed.toNat else c)
      (if ou then h.subConsumed.toNat else u) (if om then h.promptConsumed.toNat else m)

/-! ### Inputs of the boundary -/

/-- The records of an Ash log entry: TYPE and units (R384). -/
def ashRecords : Nat → List Line → List (Nat × List Line)
  | 0, _ => []
  | _ + 1, [] => []
  | k + 1, u :: r => (field u 7 0, u :: r.take (field u 31 8)) :: ashRecords k (r.drop (field u 31 8))

/-- The records of an entry. -/
def AshEntry.records (e : AshEntry) : List (Nat × List Line) := ashRecords e.units.length e.units

/-- Control records to apply: of the ring up to the produced count, or of the log (R244, R391). -/
def Bnd.controls (b : Bnd) : List (List (BitVec 8)) :=
  match b.logged with
  | some e => (e.records.filter fun x => x.1 = 2).map fun x => bytesOfLine (x.2.getD 1 0)
  | none =>
    let c := (b.s.sq b.p).hdr.ctlConsumed.toNat
    (List.range (ahead b.ctl c)).map fun k => b.ctlRec (c + k)

/-- Submits to consider: unconsumed ones up to the produced count, or the admitted ones of the log (R254, R391). -/
def Bnd.submits (b : Bnd) : List Submit :=
  match b.logged with
  | some e => (e.records.filter fun x => x.1 = 1).map fun x =>
      let r := bytesOfLine (x.2.getD 1 0)
      { r := r
        prompt := ((x.2.drop 2).flatMap bytesOfLine).take (4 * fieldN r 20 4)
        endsAt := none }
  | none =>
    let c := (b.s.sq b.p).hdr.subConsumed.toNat
    (List.range (ahead b.sub c)).map fun k =>
      let r := b.subRec (c + k)
      let n := min (fieldN r 20 4) 65536
      { r := r
        prompt := b.promptBytes (fieldN r 16 4) (4 * n)
        endsAt := some ((fieldN r 16 4 + 4 * n) % 2 ^ 32) }

/-- The batch may be chosen: the ring has the reserve, and no earlier write is queued (R254, R433). In log replay the
logged choice says so (DEDUCED, notes/assumptions/39.md). -/
def Bnd.isOpen (b : Bnd) (clear : Bool) : Bool :=
  match b.logged with
  | some e => e.records.any fun x => x.1 = 1 || x.1 = 4 || (x.1 = 5 && 1 < x.2.length)
  | none => (b.s.sq b.p).hdr.log2 ≠ 0 && clear && b.res.tableCount.toNat + 4032 ≤ b.space

/-! ### The region and the mailbox (R249 to R251) -/

/-- The step header word, which is also the mailbox word (R250). -/
def Bnd.header (b : Bnd) : Line :=
  let dec := b.slots.countP fun x => decide (x.kind = 1#8)
  lineOfBytes (bytesOf 8 b.n ++ bytesOf 2 dec ++ bytesOf 2 (b.slots.length - dec)
    ++ bytesOf 4 (b.slots.foldl (fun a x => a + x.npos) 0))

/-- The words of the batch: step header, the W slots, the fetch list (R250, R251, R259). -/
def Serving.batchWords (sv : Serving) (header : Line) (slots fetch : List Line) : List (Nat × Line) :=
  (sv.header, header) :: ((List.range sv.w).map fun k => (sv.batchBase + k, slots.getD k 0))
    ++ (List.range (ceilDiv sv.fMax 8)).map fun k => (sv.fetchBase + k, fetch.getD k 0)

/-- pcs at which the arrivals that the slot table declares as SEQ's on a logical channel can still complete (R188, R249). -/
def State.seqArrivals (s : State) (i : Image) (tick c : Nat) : List Nat :=
  ((i.lch.getD c LchDecl.reset).seq.map fun o => tick + o + 150).filter fun q => s.plan.geyser < q

/-- Plan-space words that SEQ writes. The words of a channel take arrivals that the slot table declares as SEQ's, in order and
from a free one on; past those, one a pc up to pc `q` (R249; DESIGN CHOICE, notes/assumptions/40.md). -/
def State.regionWrite (s : State) (p : Nat) (i : Image) (tick q : Nat) (ws : List (Nat × Line)) : State :=
  let r := s.draw 16
  let chan (w : Nat) : Nat := w % max 1 i.nch
  ws.zipIdx.foldl (fun s x =>
    let loc := s.planLoc p i x.1.1
    let c := chan x.1.1
    let ds := r.2.seqArrivals i tick c
    let spare := ds.length - ws.countP fun y => chan y.1 = c
    let k := r.1.toNat % (spare + 1) + (ws.take x.2).countP fun y => chan y.1 = c
    s.admitWrite loc.1 { PendWrite.reset with
      due := (ds[k]?).getD (max (s.plan.geyser + 1) (q - (ws.length - 1 - x.2)))
      word := loc.2
      data := some (s.atRest p ((i.regionOf false x.1.1).bind Region.slot) (planTweak x.1.1) x.1.2)
      unit := 6 }) r.2

/-- The mailbox beat to every logical tile of the plan, with mode WS, in pc `q` (R249, R250). -/
def State.mailboxes (s : State) (p : Nat) (word : Nat) (data : Line) (q : Nat) : State :=
  (s.pt p).stage.tiles.foldl (fun s d => s.modTile d fun x => { x with seqBeats := x.seqBeats ++ [(q, word, data)] }) s

/-- pc after the tick at which boundary work is done: free from the present one up to a bound of R249 (DESIGN CHOICE,
notes/assumptions/40.md). -/
def State.drawDone (s : State) (tick bound : Nat) : Nat × State :=
  let r := s.draw 16
  let now := s.plan.geyser - tick
  (now + r.1.toNat % (bound - now + 1), r.2)

/-! ### Group messages (R266, R379) -/

/-- The units of a group message: a head with the counts, then its words, then each plan-space word with its index. -/
def GroupMsg.units (m : GroupMsg) : List Line :=
  let pair (x : Nat × Line) : List Line := [lineOfBytes (bytesOf 8 x.1), x.2]
  lineOfBytes (bytesOf 8 m.stepNo.toNat ++ bytesOf 4 m.slots.length ++ bytesOf 4 m.fetch.length ++ bytesOf 4 m.pageWrites.length
    ++ bytesOf 4 m.prompts.length) :: m.header :: m.slots ++ m.fetch ++ m.pageWrites.flatMap pair ++ m.prompts.flatMap pair

/-- Units cut into packet payloads of at most 128 (R318). -/
def payloads (us : List Line) : List (List Line) := chunksOf 128 (us.length / 128 + 1) us

/-- Sends a packet to the mirror partner: copy A by CK0, copy B by CK1 (R379). -/
def State.toPartner (s : State) (copyB : Bool) (p : Packet) : State :=
  let n := if copyB then 1 else 0
  let o : OQueued := { OQueued.reset with
    pkt := p
    readyAt := s.wall }
  (s.modLink n fun l => { l with fab := { l.fab with openQ := l.fab.openQ ++ [o] } }).admitOpen n

/-- The group message to every other chip of the model's group, and from copy A's lead to copy B's (R266, R379). -/
def State.sendGroup (s : State) (p : Nat) (i : Image) (sv : Serving) (m : GroupMsg) : State :=
  let x := (s.pt p).stage
  let us := payloads m.units
  let s := sv.group.tail.foldl (fun s r => us.foldl (fun s u => s.inject (s.sPacket 2 r u)) s) s
  if i.mirror && !x.copyB then us.foldl (fun s u => s.toPartner false (s.sPacket 2 x.rank.toNat u)) s else s

/-! ### The Ash log (R383 to R385) -/

/-- The buddy of the chip: the +x neighbour, where CK0 carries the job's traffic (R390). -/
def State.buddyChip (s : State) : Option (BitVec 24) :=
  if s.jobPort 0 && (s.link 0).neighbourValid then some (s.link 0).neighbour else none

/-- The words of an entry: its header and record units (R384). -/
def AshEntry.lines (e : AshEntry) : List Line :=
  let h := bytesOf 8 e.stepNo.toNat ++ bytesOf 8 e.t.toNat ++ bytesOf 8 e.geyser.toNat ++ bytesOf 4 e.units.length
    ++ bytesOf 4 (crc32c (e.units.flatMap bytesOfLine)).toNat ++ bytesOf 4 e.ctl.toNat ++ bytesOf 4 e.sub.toNat
    ++ bytesOf 4 e.prompt.toNat ++ bytesOf 4 e.result.toNat ++ bytesOf 8 e.base.toNat ++ bytesOf 8 e.seqword.toNat
  lineOfBytes h :: lineOfBytes ([BitVec.ofNat 8 e.log2.toNat, BitVec.ofNat 8 (bn e.irq)]) :: e.units

/-- Units that an entry takes. -/
def AshEntry.size (e : AshEntry) : Nat := 2 + e.units.length

/-- Units of the Ash log that entries of a partition at or above the floor hold (R385). -/
def State.ashUsed (s : State) (p : Nat) : Nat :=
  (s.dig.ash.filter fun e => e.part.toNat = p && s.dig.ashFloor.toNat ≤ e.stepNo.toNat).foldl (fun a e => a + e.size) 0

/-- Units of a partition's Ash log. -/
def State.ashCap (s : State) (p : Nat) : Nat :=
  Config.ashUnits (s.pt p).res.devArea.toNat (8 * (bitsOf (s.pt p).res.slice).length)

/-- DIG.ASH_FREE shows the free units of the log that took the newest entry (R397; DESIGN CHOICE, notes/assumptions/41.md). -/
def State.showAshFree (s : State) : State :=
  match s.dig.ash.getLast? with
  | none => s
  | some e => { s with dig := { s.dig with ashFree := BitVec.ofNat 32 (s.ashCap e.part.toNat - s.ashUsed e.part.toNat) } }

/-- The oldest entries of a partition below the floor give way until a new one fits (R385). -/
def ashTrim (p floor cap : Nat) : Nat → List AshEntry → List AshEntry
  | 0, l => l
  | k + 1, l =>
    if ((l.filter fun e => e.part.toNat = p).foldl (fun a e => a + e.size) 0) ≤ cap then l
    else match l.find? fun e => e.part.toNat = p && e.stepNo.toNat < floor with
      | none => l
      | some e => ashTrim p floor cap k (l.erase e)

/-- Sends checkpoint data to the buddy: a head unit that names it, and its units (R383, R390; DESIGN CHOICE, notes/assumptions/41.md). -/
def State.sendBuddy (s : State) (kind p : Nat) (tag : Nat) (us : List Line) : State :=
  match s.buddyChip with
  | none => s
  | some a =>
    (chunksOf 127 (us.length / 127 + 1) us).zipIdx.foldl (fun s x =>
      let head := lineOfBytes (bytesOf 1 kind ++ bytesOf 1 p ++ bytesOf 2 x.1.length ++ bytesOf 4 (127 * x.2) ++ bytesOf 8 tag
        ++ bytesOf 4 us.length)
      s.inject (s.flatPacket 3 0 a (head :: x.1))) s

/-- An entry appended and copied to the buddy, or F-0505 where it finds no room (R383, R385). -/
def State.appendAsh (s : State) (e : AshEntry) : State :=
  let p := e.part.toNat
  let cap := s.ashCap p
  if cap < s.ashUsed p + e.size then
    let s := s.logFault (s.fault 0x505 0x11 (e.stepNo.toNat % 2 ^ 32) (some p))
    { s with dig := { s.dig with recReason := 3 } }
  else
    let e := { e with confirmed := s.buddyChip.isNone }
    let log := ashTrim p s.dig.ashFloor.toNat (cap - e.size) s.dig.ash.length s.dig.ash ++ [e]
    let s : State := { s with dig := { s.dig with
      ash := log
      ashConfirmed := if e.confirmed then e.stepNo else s.dig.ashConfirmed } }
    s.showAshFree.sendBuddy 0 p e.stepNo.toNat e.lines

/-- The entry of this boundary (R384). -/
def Bnd.entry (b : Bnd) : AshEntry :=
  let h := (b.s.sq b.p).hdr
  { stepNo := BitVec.ofNat 64 b.n
    part := BitVec.ofNat 4 b.p
    t := b.t
    geyser := BitVec.ofNat 64 b.s.plan.geyser
    ctl := h.ctlConsumed
    sub := h.subConsumed
    prompt := h.promptConsumed
    result := h.resultProduced
    base := h.base
    seqword := h.seqword
    log2 := h.log2
    irq := h.irq
    units := b.units
    confirmed := false }

/-- An entry of the partition that the buddy has not confirmed (R383). -/
def State.ashPending (s : State) (p : Nat) : Bool := s.dig.ash.any fun e => e.part.toNat = p && !e.confirmed

/-- ASH_CONFIRM (R383): the buddy has acknowledged an entry. -/
def execAshConfirm (p : PartId) (stepNo : BitVec 64) (s : State) : Host.Outcome State Fault Refusal :=
  if s.dig.ash.any fun e => e.part.toNat = p.val && e.stepNo = stepNo && !e.confirmed then
    let s : State := { s with dig := { s.dig with
      ash := s.dig.ash.map fun e => if e.part.toNat = p.val && e.stepNo = stepNo then { e with confirmed := true } else e
      ashConfirmed := stepNo } }
    .next (if s.ashPending p then s else s.clearCause (.ashWait p))
  else .next s

/-! ### Log replay (R391, R392) -/

/-- The first record that SEQ recomputes otherwise than logged: OUTCOME, PAGES, SLOTS, LEDGER and SPEC (R392). -/
def ashDiverges (logged mine : List (Nat × List Line)) : Option Nat :=
  let f (l : List (Nat × List Line)) := l.filter fun x => [3, 4, 5, 7, 8].contains x.1
  let a := f logged
  let b := f mine
  ((List.range (max a.length b.length)).find? fun k => a[k]? ≠ b[k]?).map fun k => ((a[k]?.or b[k]?).getD (0, [])).1

/-- The logged entry that gives this boundary its inputs. -/
def State.replayEntry (s : State) (p n : Nat) : Option (Option AshEntry) :=
  match alGet p s.dig.logReplayTo with
  | some k => if n ≤ k.toNat then some (s.dig.ash.find? fun e => e.part.toNat = p && e.stepNo.toNat = n) else none
  | none => none

/-- F-0211 with a reason: no recovery is possible (R385, R386, R391). -/
def State.recoveryFail (s : State) (reason : Nat) : State :=
  let s : State := { s with dig := { s.dig with
    recState := 5
    recReason := BitVec.ofNat 8 reason } }
  s.faultHold (s.fault 0x211 0x12 reason)

/-- Log replay has reached its last entry: SEQ goes on live (R391). -/
def Bnd.endReplay (b : Bnd) (e : AshEntry) : Bnd :=
  let s := b.s.modSq b.p fun q => { q with hdr := { q.hdr with
    ctlConsumed := e.ctl
    subConsumed := e.sub
    promptConsumed := e.prompt
    resultProduced := e.result } }
  let s := match ashDiverges e.records (ashRecords b.units.length b.units) with
    | some ty => s.faultHold (s.fault 0x504 0x11 (b.n % 2 ^ 32) (some b.p) ty)
    | none => s
  { b with s := if alGet b.p s.dig.logReplayTo = some (BitVec.ofNat 64 b.n) then
      let rest := alDel b.p s.dig.logReplayTo
      { s with dig := { s.dig with
        logReplayTo := rest
        recState := if s.dig.recState = 4 && rest.isEmpty then 0 else s.dig.recState } }
    else s }

/-! ### The boundary (R249, R254, R262, R274) -/

/-- A host write to the intake window; a device-written header field ignores it (R242, R430). -/
def hostWrite (l : List Host.Cell) (x : Nat × BitVec 8) : List Host.Cell :=
  if 0x100000 ≤ x.1 || (0x40 ≤ x.1 && x.1 < 0x5C) || (0xA0 ≤ x.1 && x.1 < 0xA4) then l else Memory.write l x.1 x.2

/-- Register writes that arrived during the last boundary work take effect (R268, R478). -/
def SeqBank.takeChained (q : SeqBank) : SeqBank :=
  match q.chained with
  | none => q
  | some (a, d, o, u) =>
    { q with
      pauseAdmit := a
      tdom := d
      overdueSteps := o
      quantum := u
      chained := none }

/-- F-0501: a return record does not fit its slot (R252). -/
def Bnd.mismatch (b : Bnd) : Option State :=
  if !(b.s.sq b.p).inStep then none
  else (b.returns.zipIdx.find? fun x => !x.1.2.ok x.1.1).map fun x =>
    let i := b.res.tableBase.toNat + x.1.1.table
    b.s.faultHold (b.s.fault 0x501 0xD (i % 16384 + x.2 * 16384) (some b.p))

/-- An uncorrectable error in the return area: the job is held for its recovery (R184, R386). -/
def Bnd.unreadable (b : Bnd) : Option State :=
  if !(b.s.sq b.p).inStep || !(b.s.sq b.p).oldReturns.isEmpty then none
  else ((List.range b.sv.w).findSome? fun k =>
    let loc := b.s.planLoc b.p b.i (b.sv.returnBase + k)
    if (b.s.pch loc.1).unreadable loc.2 b.s.plan.geyser then some loc else none).map fun loc =>
      (b.s.stackUE loc.1 loc.2 (some b.p)).raiseCause 1 (.memErr b.p loc.1 loc.2)

/-- Steps 1 to 5 of R274, and the records of outcomes and control replies (R244, R253, R262). -/
def Bnd.settleAll (b : Bnd) : Bnd :=
  let b := b.config.readCounts.findMarks
  let waiting := b.waiting
  let b := b.controls.foldl (fun b r => b.control r waiting) b
  let b : Bnd := { b with s := b.s.modSq b.p fun q => { q with hdr := { q.hdr with ctlConsumed := BitVec.ofNat 32 b.ctl } } }
  b.params.operator.outcomes.depths.spring.ledger

/-- Ring space for the records of this boundary; none while earlier writes are queued (R262, R433). -/
def Bnd.measure (b : Bnd) (clear : Bool) : Bnd :=
  let h := (b.s.sq b.p).hdr
  let n := match b.logged with
    | some e => ahead e.result.toNat h.resultProduced.toNat
    | none => if h.log2 = 0 || !clear then 0 else 2 ^ h.log2.toNat - ahead h.resultProduced.toNat (b.hdrN 0xC 4)
  { b with space := n }

/-- What the lead chip does at a boundary (R249, R254, R262, R266, R274). -/
def Bnd.lead (b : Bnd) : State :=
  let clear := b.s.queueClear (b.p + 1)
  let before := (b.s.sq b.p).hdr.resultProduced
  let b := (b.settleAll.measure clear).writeOuts
  let b := b.writeReplies b.reps
  let ok := b.isOpen clear
  let b := if ok && (!(b.s.sq b.p).pauseAdmit || b.logged.isSome) then Bnd.admitAll b.submits [] b else b
  let b := b.writeReplies b.subs
  let b := (b.batch ok).logBatch
  let dec := b.slots.countP fun x => decide (x.kind = 1#8)
  let b : Bnd := { b with s := b.s.modSq b.p fun q => { q with
    slots := b.slots
    inStep := true
    oldReturns := []
    resultFull := !ok
    lastDecode := BitVec.ofNat 15 dec
    lastPrefill := BitVec.ofNat 15 (b.slots.length - dec)
    lastTokens := BitVec.ofNat 24 (b.slots.foldl (fun a x => a + x.npos) 0) } }
  let b := b.seqWord ((b.s.sq b.p).hdr.resultProduced ≠ before)
  let b := match b.logged with
    | some e => b.endReplay e
    | none => { b with s := b.s.appendAsh b.entry }
  let m : GroupMsg := {
    stepNo := BitVec.ofNat 64 b.n
    header := b.header
    slots := (List.range b.sv.w).map fun k => (b.slots.map Slot.line).getD k 0
    fetch := fetchLines b.sv.fMax b.fetches
    pageWrites := b.pageWrites
    prompts := b.prompts }
  let s := b.s.sendGroup b.p b.i b.sv m
  let r := s.drawDone b.tick 40960
  let q := b.tick + r.1
  let s := (r.2.regionWrite b.p b.i b.tick q (b.writes ++ b.sv.batchWords m.header m.slots m.fetch)).mailboxes b.p b.sv.mbox
    m.header q
  s.modSq b.p fun x => { x with
    busyUntil := q
    boundaryPc := BitVec.ofNat 32 r.1 }

/-- The boundary of a serving plan. -/
def State.serveBoundary (s : State) (p n : Nat) (i : Image) (sv : Serving) (tick : Nat) (posted : List (Nat × BitVec 8)) : State :=
  let lead := s.leads p sv
  let s := s.modSq p fun q => { q.takeChained with
    stepNo := BitVec.ofNat 64 n
    intake := posted.foldl hostWrite q.intake }
  let t := if (s.sq p).tdom then s.time.b.ns else s.time.a.ns
  let bad := if (s.sq p).declChecked then none else sv.bad (s.pt p).res.tableCount.toNat (s.unitLen p) i.planWords
  let s := s.modSq p fun q => { q with declChecked := true }
  match bad with
  | some d => s.faultHold (s.fault 0x503 0xE (p + d * 256) (some p))
  | none =>
    let s := s.logEvent 2 (p + n % 2 ^ 32 * 256)
    if !lead || (s.pt p).stage.copyB then s.modSq p fun q => { q with doneTick := some tick }
    else match s.replayEntry p n with
      | some none => s.recoveryFail 3
      | r =>
        let logged : Option AshEntry := r.getD none
        let b : Bnd := {
          s := s
          p := p
          tick := tick
          i := i
          sv := sv
          t := (logged.map AshEntry.t).getD t
          n := n
          units := []
          outs := []
          reps := []
          subs := []
          led := []
          writes := []
          pageWrites := []
          prompts := []
          fetches := []
          slots := []
          tl := 0
          ctl := (logged.getD AshEntry.reset).ctl.toNat
          sub := (logged.getD AshEntry.reset).sub.toNat
          prompt := (logged.getD AshEntry.reset).prompt.toNat
          space := 0
          logged := logged }
        match b.unreadable with
        | some s => s
        | none =>
          match b.mismatch with
          | some s => s
          | none => { b with s := s.modSq p fun q => { q with doneTick := some tick } }.lead

/-- SEQ may begin the boundary of partition `p`, whose tick it answers (R30, R249, R254, R383). -/
def State.mayBoundary (s : State) (p : Nat) : Option Nat :=
  match s.unitTick p with
  | none => none
  | some k =>
    let x := s.pt p
    if s.alive && x.state = 1#3 && !x.faultStop && s.plan.launchBarrier.isNone && x.relaunchAt.isNone && !s.paused
      && !s.recordLeft s.plan.geyser && !s.curtainLeft s.plan.geyser && !s.stepLeft s.plan.geyser
      && (s.plan.geyser = k || s.dig.ashWait.contains p) && (s.sq p).doneTick ≠ some k then some k else none

/-- BOUNDARY_WORK (R249, R254, R383): SEQ's work at a boundary tick, or the Ash entry of a unit tick of a plan without
serving. `posted` is what the host wrote into the intake window before the tick, in order. -/
def execBoundaryWork (p : PartId) (posted : List (Nat × BitVec 8)) (s : State) : Host.Outcome State Fault Refusal :=
  match s.mayBoundary p, s.img p with
  | some k, some i =>
    if (alGet p.val s.dig.logReplayTo).isNone && s.ashPending p then
      .next { s.raiseCause 1 (.ashWait p) with dig := { s.dig with ashWait := nsIns p.val s.dig.ashWait } }
    else
      let s : State := { s with dig := { s.dig with ashWait := nsDel p.val s.dig.ashWait } }
      let n := s.unitNo p
      match i.serving with
      | some sv => .next (s.serveBoundary p n i sv k posted)
      | none =>
        let e : AshEntry := { AshEntry.reset with
          stepNo := BitVec.ofNat 64 n
          part := BitVec.ofNat 4 p.val
          t := if (s.sq p).tdom then s.time.b.ns else s.time.a.ns
          geyser := BitVec.ofNat 64 k }
        let s := s.modSq p fun q => { q with doneTick := some k }
        .next (match alGet p.val s.dig.logReplayTo with
          | none => s.appendAsh e
          | some m => if m.toNat ≤ n then { s with dig := { s.dig with logReplayTo := alDel p.val s.dig.logReplayTo } } else s)
  | _, _ => .next s

/-- GROUP_MESSAGE (R266, R379): the lead's message of this step, whole. Its words go into the region and its mailbox beats
land within 16,384 pc. -/
def execGroupMessage (p : PartId) (msg : GroupMsg) (s : State) : Host.Outcome State Fault Refusal :=
  match s.unitTick p, (s.img p).bind fun i => i.serving.map fun sv => (i, sv) with
  | some _, some (i, sv) =>
    let lead := s.leads p sv
    let copyB := (s.pt p).stage.copyB
    if s.alive && (s.pt p).state = 1#3 && !(s.pt p).faultStop && (!lead || copyB)
        && decide (msg.stepNo = BitVec.ofNat 64 (s.unitNo p)) then
      let s : State := { s with fab := { s.fab with delivered := s.fab.delivered.filter fun k => !(k.clsN = 1 && k.type = 2) } }
      let s := if lead then s.sendGroup p i sv msg else s
      let tick := (s.unitTick p).getD 0
      let now := s.plan.geyser - tick
      let r := s.drawDone tick (now + 16384)
      let q := tick + r.1
      let s := (r.2.regionWrite p i tick q (msg.pageWrites ++ msg.prompts ++ sv.batchWords msg.header msg.slots msg.fetch)).mailboxes
        p sv.mbox msg.header q
      .next (s.modSq p fun x => { x with
        busyUntil := q
        boundaryPc := BitVec.ofNat 32 r.1 })
    else .next s
  | _, _ => .next s

end Sys2Proof.Machine
end

