-- ==== Sys2Proof/Machine/Recover.lean ====
section
/-! DEFINITION. Step replay: what a poisoned word calls for, the reset of a partition's unit, its relaunch, and RO_DONE
(R382, R386 to R388, R394). -/

namespace Sys2Proof.Machine
open Sys2Proof

/-! ### What a poisoned word calls for (R386) -/

/-- How a poisoned word is recovered (R386). -/
inductive Recovery where
  | replay
  | reload
  | rollback
  deriving DecidableEq, Repr

/-- The recovery of a region's word by the region's kind (R382, R386). -/
def Region.recovery (r : Region) : Recovery :=
  match r.kind with
  | 0 => .reload
  | 1 => .rollback
  | _ => .replay

/-- The Ember region that a chunk frame belongs to (R197). -/
def Image.regionOfChunk (i : Image) (c : Nat) : Option Region :=
  minBy (fun r => i.chunks - r.chunk0) (i.regions.filter fun r => r.ember && r.chunk0 ≤ c)

/-- Stored words of one position (R202). -/
def Serving.posWords (sv : Serving) : Nat :=
  match sv.code with
  | 0 => max 1 sv.v
  | 1 => max 1 (sv.v * 3 / 8)
  | _ => max 1 (sv.v * 5 / 8)

/-- The slots of the unit in progress: those of its Ash log entry (R386), whose record words hold them (R384). -/
def AshEntry.slotLines (e : AshEntry) : List Line := ((e.records.find? fun x => x.1 = 5).map fun x => x.2.drop 1).getD []

/-- A page-pool word belongs to a position that the current unit computes (R386). -/
def State.computesPage (s : State) (p : Nat) (sv : Serving) (page j : Nat) : Bool :=
  match s.dig.ash.find? fun e => e.part.toNat = p && e.stepNo.toNat = s.unitNo p with
  | none => false
  | some e => (s.sq p).pageOf.any fun x =>
      match x.2.findIdx? (· = page) with
      | none => false
      | some k =>
        let pos := k * sv.p + j / sv.posWords
        let l := x.1 - (s.pt p).res.tableBase.toNat
        e.slotLines.any fun u => field u 15 0 = l && field u 63 32 ≤ pos && pos < field u 63 32 + field u 95 64

/-- The recovery of a channel word of a partition (R186, R386). -/
def State.recoveryOf (s : State) (p : Nat) (i : Image) (x w : Nat) : Recovery :=
  match (s.pt p).stage.chans.findIdx? (· = x) with
  | none => .rollback
  | some l =>
    let k := max 1 i.kp
    if w < i.bEmb then ((i.regionOf false (w * max 1 i.nch + l)).map Region.recovery).getD .replay
    else if w < i.bPool then
      ((i.regionOfChunk (8 * ((w - i.bEmb) / ceilDiv 1025 k) + l % 8)).map Region.recovery).getD .replay
    else if w < i.bDev (s.pt p).res.poolPages.toNat then
      let o := w - i.bPool
      let page := 8 * (o / ceilDiv 1024 k) + l % 8
      let j := o % ceilDiv 1024 k * k + l / 8
      let sv := i.serving.getD Serving.reset
      if !nsHas page (s.sq p).usedPages || s.computesPage p sv page j then .replay else .rollback
    else .rollback

/-- The words that planned reads of a partition have met (R386). -/
def State.poisonMet (s : State) (p : Nat) : List (Nat × Nat) :=
  s.plan.localCauses.filterMap fun c => match c.src with
    | .memErr q x w => if q = p then some (x, w) else none
    | _ => none

/-- What the words met call for together: rollback before reload before replay. -/
def State.recoveryNeeded (s : State) (p : Nat) (i : Image) : Recovery :=
  let rs := (s.poisonMet p).map fun x => if 256 ≤ x.1 then Recovery.replay else s.recoveryOf p i x.1 x.2
  if rs.contains .rollback then .rollback else if rs.contains .reload then .reload else .replay

/-! ### The reset of a unit (R387) -/

/-- A tile word lies in a CONST range (R382). -/
def Image.isConst (i : Image) (l w : Nat) : Bool := i.constRanges.any fun r => r.1 = l && r.2.1 ≤ w && w ≤ r.2.2

/-- A stream with its queue emptied, at its unit entry (R387 step 1). -/
def Stream.drain (x : Stream) : Stream :=
  { x with
    queue := []
    fetchPc := ((x.queue.head?).map (·.pc)).getD x.fetchPc
    fetchSeq := 0
    fetchStop := false }

/-- Steps 1 and 2 of R387 on a tile: streams at their unit entry, words zero and empty outside the CONST ranges. -/
def Image.resetTile (i : Image) (l : Nat) (t : Tile) : Tile :=
  let t := ({ i with preloads := i.preloads.filter fun x => i.isConst l x.word } : Image).loadTile l t
  { t with
    mx := t.mx.drain
    vx := t.vx.drain
    mv := t.mv.drain }

/-- A packet is stored under a key of the partition's image (R353). -/
def Image.ownsKey (i : Image) (ltile tag : Nat) : Bool := i.recvKeys.any fun k => k.ltile = ltile && k.tag = tag

/-- Steps 1 to 3 of R387 on a partition, whose streams then wait for `g`. What the abandoned unit still had queued at the
ports goes with it (DEDUCED, notes/assumptions/42.md). -/
def State.resetUnit (s : State) (p g : Nat) (i : Image) : State :=
  let s := (s.pt p).stage.tiles.zipIdx.foldl (fun s x =>
    (s.modTile x.1 fun t => ({ i.resetTile x.2 t with state := t.state } : Tile).prime g).modTs x.1 fun _ => TileSync.reset) s
  let s := s.modSy p fun y => { y with barriers := Vector.replicate 32 Barrier.reset }
  { s with
    links := s.links.map fun l => { l with fab := { l.fab with
      pool := l.fab.pool.filter fun q => !(q.pkt.clsN = 0 && q.relayPort.isNone && i.ownsKey q.pkt.ltile.toNat q.pkt.tag.toNat)
      pQueue := l.fab.pQueue.filter fun q => q.relay || q.part ≠ p } }
    recvDir := s.recvDir.filter fun d => !i.ownsKey d.ltile.toNat d.tag.toNat }

/-- Digest log entries of frames from `f` on are discarded, and their comparisons with them (R387, R394). -/
def State.discardDigests (s : State) (p f : Nat) : State :=
  { s with dig := { s.dig with
    log := s.dig.log.filter fun e => !(e.2.part.toNat = p && f ≤ e.2.frame.toNat)
    mirrorEnds := s.dig.mirrorEnds.filter fun e => e.1.toNat < f } }

/-- Words of the sequencer region written while the counter stands still (R386, R387). -/
def State.regionNow (s : State) (p : Nat) (i : Image) (ws : List (Nat × Line)) : State :=
  ws.foldl (fun s x =>
    let loc := s.planLoc p i x.1
    s.openWrite loc.1 loc.2 (s.atRest p ((i.regionOf false x.1).bind Region.slot) (planTweak x.1) x.2)) s

/-- The header word that slots give (R250). -/
def headerOf (n : Nat) (slots : List Line) : Line :=
  let dec := slots.countP fun u => decide (field u 23 16 = 1)
  lineOfBytes (bytesOf 8 n ++ bytesOf 2 dec ++ bytesOf 2 (slots.length - dec)
    ++ bytesOf 4 (slots.foldl (fun a u => a + field u 95 64) 0))

/-- The words of the sequencer region that an Ash log entry gives: the batch, and the prompts and page tables of that
boundary (R387 step 4). -/
def State.regionOfEntry (s : State) (p : Nat) (sv : Serving) (e : AshEntry) : List (Nat × Line) :=
  let base := (s.pt p).res.tableBase.toNat
  let slots := e.slotLines
  let fetch := ((e.records.find? fun x => x.1 = 6).map fun x => x.2.drop 1).getD []
  let one (x : Nat × List Line) : List (Nat × Line) :=
    let ix := field (x.2.headD 0) 63 32
    let l := ix - base
    match x.1 with
    | 1 => (x.2.drop 2).zipIdx.map fun y => (sv.promptBase + l * sv.promptWords + y.2, y.1)
    | 4 =>
      let pages := (alGet ix (s.sq p).pageOf).getD []
      (sv.tableAt l, sv.tableHeader pages.length)
        :: (List.range (ceilDiv pages.length 16)).map fun k => (sv.tableAt l + 1 + k, tableWord pages k)
    | _ => []
  sv.batchWords (headerOf e.stepNo.toNat slots) slots fetch ++ e.records.flatMap one

/-- The first frame tick of a partition at or after a count (R27). -/
def State.tickFrom (s : State) (p g : Nat) : Nat :=
  let l := ((s.pt p).launched).getD 0
  let n := max 1 (s.frameLen p)
  l + ceilDiv (g - l) n * n

/-- The restore of R387 done: the partition waits for LAUNCH_AT', and its causes of hold are gone. -/
def State.replayUnit (s : State) (p : Nat) (i : Image) : State :=
  let n := s.unitNo p
  let entry := s.dig.ash.find? fun e => e.part.toNat = p && e.stepNo.toNat = n
  let leads : Bool := match i.serving with
    | some sv => s.leads p sv && !(s.pt p).stage.copyB
    | none => false
  if leads && entry.isNone then s.recoveryFail 3
  else
    let g := s.tickFrom p (s.plan.geyser + s.plan.armLead.toNat)
    let first := (s.pt p).frameBase + s.framesSince p s.plan.geyser / max 1 (s.unitFrames p) * s.unitFrames p
    let s := (s.resetUnit p g i).discardDigests p first
    let s := match i.serving, entry with
      | some sv, some e => s.regionNow p i (s.regionOfEntry p sv e)
      | _, _ => s
    let same := s.dig.recPart.toNat = p && s.dig.recUnit = n
    let s : State := { s with
      dig := { s.dig with
        recState := 1
        recPart := BitVec.ofNat 4 p
        recUnit := n
        recAttempt := if same then s.dig.recAttempt + 1 else 1
        roNeeded := false
        stepReplays := satInc s.dig.stepReplays }
      plan := { s.plan with localCauses := s.plan.localCauses.filter fun c => match c.src with
        | .memErr q _ _ => decide (q ≠ p)
        | _ => true } }
    s.modPt p fun b => { b with
      relaunchAt := some g
      resumeUnit := some n }

/-- Rollback is called for: firmware starts it (R386, R388, R391). -/
def State.wantRollback (s : State) (p : Nat) : State :=
  { s with dig := { s.dig with
    recState := 3
    recPart := BitVec.ofNat 4 p
    roNeeded := false } }

/-- Replays of the unit in progress so far (R388). -/
def State.attempts (s : State) (p : Nat) : Nat :=
  if s.dig.recPart.toNat = p && s.dig.recUnit = s.unitNo p then s.dig.recAttempt.toNat else 0

/-- STEP_REPLAY (R386 to R388): inside the hold, the current unit is restored, or the recovery that the words met call for
is begun. -/
def execStepReplay (p : PartId) (s : State) : Host.Outcome State Fault Refusal :=
  let b := s.pt p
  match b.stage.image with
  | none => .next s
  | some i =>
    if !s.alive || s.depth = 0 || b.state ≠ 1#3 || b.launched.isNone || b.faultStop || !s.dig.cfgAuto || s.dig.recState = 3#3 then
      .next s
    else if !i.restartable then .next (if (s.poisonMet p).isEmpty then s else s.recoveryFail 4)
    else match s.recoveryNeeded p i with
      | .rollback => .next (s.wantRollback p)
      | .reload =>
        .next { s with dig := { s.dig with
          recState := 2
          recPart := BitVec.ofNat 4 p.val
          roNeeded := true
          roDone := false } }
      | .replay => .next (if 2 ≤ s.attempts p then s.wantRollback p else s.replayUnit p i)

/-- The unit of a partition begins again at the present count; its boundary is done, and the mailbox holds what the region's
header holds (R250, R387). -/
def State.relaunch (s : State) (p g : Nat) (i : Image) : State :=
  let s := s.startPart g p
  let s := s.modSq p fun q => { q with doneTick := some g }
  match i.serving with
  | none => s
  | some sv =>
    let h := s.planRead p i sv.header
    let r := s.drawDone g 40960
    r.2.mailboxes p sv.mbox h (g + r.1)

/-- RELAUNCH (R387, R391): the replayed unit restarts at LAUNCH_AT', or rolled-back plans at the agreed LAUNCH_AT. -/
def execRelaunch (p : PartId) (s : State) : Host.Outcome State Fault Refusal :=
  let b := s.pt p
  match b.relaunchAt, b.stage.image with
  | some g, some i => if s.alive && s.plan.geyser = g && !b.faultStop then .next (s.relaunch p g i) else .next s
  | _, _ =>
    if b.resumeUnit.isSome && s.plan.armed = some s.plan.geyser && !s.mirrorLaunch then .next (s.startAll s.plan.geyser)
    else .next s

end Sys2Proof.Machine
end

