-- ==== Sys2Proof/Machine/Ckpt.lean ====
section
/-! DEFINITION. Buddy checkpoints: arming, the pause, the generation and its copies, and the H packets that carry them
(R320, R389, R390, R394). -/

namespace Sys2Proof.Machine
open Sys2Proof

/-! ### Arming (R31, R389) -/

/-- Count `g` is the first tick of a unit of partition `p` (R382). -/
def State.isUnitTick (s : State) (p g : Nat) : Bool :=
  match (s.pt p).launched with
  | none => false
  | some l => decide (l ≤ g) && decide (0 < s.unitLen p) && decide ((g - l) % max 1 (s.unitLen p) = 0)

/-- The launched partitions whose plans are restartable (R382). -/
def State.restartParts (s : State) : List Nat := s.launchedParts.filter fun p => ((s.img p).map (·.restartable)).getD false

/-- DIG.CKPT_CTRL.ARM written with 1 (R389). F-0304 has no EXT for a checkpoint, so that value is free. -/
def State.ckptArm (s : State) : State :=
  let g := s.dig.ckptAt.toNat
  if s.dig.ckptArmed.isSome then s
  else if s.restartParts.isEmpty || !s.restartParts.all fun p => s.isUnitTick p g then
    { s with dig := { s.dig with ckptRejected := true } }
  else if g < s.plan.geyser then
    let r := s.draw 3
    r.2.tickPassed g r.1.toNat
  else { s with dig := { s.dig with ckptArmed := some (g, s.dig.ckptPause.toNat, s.dig.ckptSlot) } }

/-- CKPT_ARM (R389). -/
def execCkptArm (s : State) : Host.Outcome State Fault Refusal := .next (s.ifReady (·.ckptArm))

/-! ### What a generation holds (R390) -/

/-- A channel word of a logical channel is kept: a STATE region, or an allocated page. -/
def State.isKept (s : State) (p : Nat) (i : Image) (l w : Nat) : Bool :=
  if w < i.bEmb then ((i.regionOf false (w * max 1 i.nch + l)).map fun r => decide (r.kind = 1)).getD false
  else if i.bPool ≤ w && w < i.bDev (s.pt p).res.poolPages.toNat then
    nsHas (8 * ((w - i.bPool) / ceilDiv 1024 (max 1 i.kp)) + l % 8) (s.sq p).usedPages
  else false

/-- The kept words of a partition that are not zero, with the logical channel and partition as the key. -/
def State.keptWords (s : State) (p : Nat) (i : Image) : List (Nat × Nat × Line) :=
  (s.pt p).stage.chans.zipIdx.flatMap fun (x : Nat × Nat) =>
    let c : Channel := s.pch x.1
    let ws := (c.mem.map (fun (y : Host.Cell) => y.1 / 64) ++ c.pend.map (fun (y : PendWrite) => y.word)).eraseDups
    (ws.filter fun w => s.isKept p i x.2 w).filterMap fun w =>
      let d := c.wordAtPc w s.plan.geyser
      if d = 0 then none else some (p * 2 ^ 16 + x.2, w, d)

/-- SEQ's and the budget unit's state of a partition. -/
def State.ckptSeq (s : State) (p : Nat) : CkptSeq :=
  let q := s.sq p
  let r := (s.pt p).res
  { part := BitVec.ofNat 4 p
    entries := s.seq.table.filter fun x => r.tableBase.toNat ≤ x.1 && x.1 < r.tableBase.toNat + r.tableCount.toNat
    buckets := s.bud.buckets.filter fun x => s.ownsBkt p x.1
    deficit := s.seq.deficit.filter fun x => s.ownsBkt p x.1
    strMap := q.strMap
    pageOf := q.pageOf
    commits := q.commits
    marked := q.marked
    cfg := (s.bd p).cfg
    nextAge := q.nextAge
    slots := if q.inStep then q.slots else []
    retiring := q.retiring }

/-- Generation `g` of this chip at the checkpoint tick. STEP is the unit that the tick ends (DEDUCED, notes/assumptions/43.md). -/
def State.generation (s : State) (g : BitVec 32) : CkptGen :=
  let ps := s.restartParts
  let p := ps.headD 0
  { gen := g
    stepNo := BitVec.ofInt 64 ((s.unitNo p : Int) - 1)
    steps := ps.map fun q => (q, BitVec.ofInt 64 ((s.unitNo q : Int) - 1))
    rank := (s.pt p).stage.rank
    words := ps.flatMap fun q => s.keptWords q ((s.img q).getD Image.reset)
    seqs := (ps.filter s.leadsPart).map s.ckptSeq
    complete := false
    digest := ((s.img p).getD Image.reset).digest
    crcs := [] }

/-! ### A generation as units (DESIGN CHOICE, notes/assumptions/41.md) -/

/-- The entry that 64 bytes spell (R247). -/
def entryOf (b : List (BitVec 8)) : Entry :=
  let st := fieldN b 60 1
  let sm := fieldN b 61 1
  let sp := fieldN b 62 2
  { reqId := BitVec.ofNat 64 (fieldN b 0 8)
    seed := BitVec.ofNat 64 (fieldN b 8 8)
    deadline := BitVec.ofNat 64 (fieldN b 16 8)
    stringSet := BitVec.ofNat 32 (fieldN b 24 4)
    promptLen := BitVec.ofNat 32 (fieldN b 28 4)
    prefillDone := BitVec.ofNat 32 (fieldN b 32 4)
    gen := BitVec.ofNat 32 (fieldN b 36 4)
    maxNew := BitVec.ofNat 32 (fieldN b 40 4)
    lastToken := BitVec.ofNat 32 (fieldN b 44 4)
    age := BitVec.ofNat 32 (fieldN b 48 4)
    pages := BitVec.ofNat 24 (fieldN b 52 4)
    customer := BitVec.ofNat 16 (fieldN b 56 2)
    wait := BitVec.ofNat 16 (fieldN b 58 2)
    st := BitVec.ofNat 3 st
    overdue := st.testBit 3
    cancel := st.testBit 4
    spec := st.testBit 5
    parked := st.testBit 6
    sampler := BitVec.ofNat 4 sm
    specDepth := BitVec.ofNat 3 (sm / 16)
    zeroRun := BitVec.ofNat 4 sp
    probeWait := BitVec.ofNat 7 (sp / 16)
    off := sp.testBit 11
    probing := sp.testBit 12 }

/-- The slot that a batch slot word spells (R251). -/
def slotOf (u : Line) : Slot :=
  let b := bytesOfLine u
  { table := fieldN b 0 2
    kind := BitVec.ofNat 8 (fieldN b 2 1)
    depth := fieldN b 3 1
    pos0 := fieldN b 4 4
    npos := fieldN b 8 4
    input := BitVec.ofNat 32 (fieldN b 12 4)
    strSlot := fieldN b 16 2
    sampler := BitVec.ofNat 4 (fieldN b 18 1)
    gen := BitVec.ofNat 32 (fieldN b 20 4)
    seed := BitVec.ofNat 64 (fieldN b 24 8)
    ptable := fieldN b 32 4 }

/-- The bucket that 32 bytes spell (R271). -/
def bucketOf (b : List (BitVec 8)) : Bucket :=
  { granted := sext 64 (fieldN b 0 8)
    charged := fieldN b 8 8
    balance := sext 64 (fieldN b 16 8)
    spring := BitVec.ofNat 32 (fieldN b 24 4)
    cap := BitVec.ofNat 32 (fieldN b 28 4) }

/-- The result record that 64 bytes spell (R260). -/
def recOf (b : List (BitVec 8)) : ResultRec :=
  let f := fieldN b 11 1
  { reqId := BitVec.ofNat 64 (fieldN b 0 8)
    table := BitVec.ofNat 16 (fieldN b 8 2)
    status := BitVec.ofNat 8 (fieldN b 10 1)
    late := f.testBit 0
    final := f.testBit 1
    phase := f.testBit 7
    accepted := BitVec.ofNat 8 (fieldN b 13 1)
    tokens := (List.range (min 5 (fieldN b 12 1))).map fun k => BitVec.ofNat 32 (fieldN b (16 + 4 * k) 4)
    gen := BitVec.ofNat 32 (fieldN b 36 4)
    stepNo := BitVec.ofNat 64 (fieldN b 40 8)
    time := BitVec.ofNat 64 (fieldN b 48 8)
    computed := BitVec.ofNat 32 (fieldN b 56 4) }

/-- A unit of 8-byte fields. -/
def unit8 (xs : List Nat) : Line := lineOfBytes (xs.flatMap (bytesOf 8))

/-- Field `k` of such a unit. -/
def u8 (u : Line) (k : Nat) : Nat := field u (64 * k + 63) (64 * k)

/-- The units of SEQ's state. -/
def CkptSeq.units (q : CkptSeq) : List Line :=
  [unit8 [q.part.toNat, q.entries.length, q.buckets.length, q.deficit.length, q.strMap.length, q.pageOf.length, q.slots.length,
      q.retiring.length],
    unit8 [q.commits.length, bn q.cfg.chargePrompt, bn q.cfg.specEn, q.cfg.admitReserve.toNat, q.cfg.pageQuota.toNat,
      q.nextAge.toNat, q.marked.length]]
    ++ q.entries.flatMap (fun x => [unit8 [x.1], lineOfBytes x.2.bytes])
    ++ q.buckets.map (fun x => lineOfBytes (bytesOf 8 x.1 ++ x.2.bytes))
    ++ q.deficit.map (fun x => unit8 [x.1, (BitVec.ofInt 64 x.2).toNat])
    ++ q.strMap.map (fun x => unit8 [x.1, x.2.1.toNat, x.2.2.toNat])
    ++ q.slots.map Slot.line
    ++ q.commits.map (fun x => unit8 [x.1, x.2])
    ++ q.marked.map (fun x => unit8 [x.1.toNat, bn x.2.isSome, (x.2.getD 0).toNat])
    ++ q.retiring.flatMap (fun x => [unit8 [x.1], lineOfBytes x.2.bytes])
    ++ q.pageOf.flatMap fun x => unit8 [x.1, x.2.length] :: linesOfBytes (x.2.flatMap (bytesOf 4))

/-- `n` records of `k` units each, and the rest. -/
def readUnits {α : Type} (k n : Nat) (f : List Line → α) (us : List Line) : List α × List Line :=
  ((List.range n).map fun i => f ((us.drop (k * i)).take k), us.drop (k * n))

/-- `n` page lists. -/
def readPages : Nat → List Line → List (Nat × List Nat) × List Line
  | 0, us => ([], us)
  | n + 1, us =>
    let h := us.headD 0
    let m := u8 h 1
    let k := ceilDiv m 16
    let pages := (List.range m).map fun j => field ((us.drop 1).getD (j / 16) 0) (32 * (j % 16) + 31) (32 * (j % 16))
    let r := readPages n (us.drop (1 + k))
    ((u8 h 0, pages) :: r.1, r.2)

/-- SEQ's state read from units. -/
def readSeq (us : List Line) : CkptSeq × List Line :=
  let h := us.headD 0
  let g := us.getD 1 0
  let e := readUnits 2 (u8 h 1) (fun l => (u8 (l.headD 0) 0, entryOf (bytesOfLine (l.getD 1 0)))) (us.drop 2)
  let b := readUnits 1 (u8 h 2) (fun l => (u8 (l.headD 0) 0, bucketOf ((bytesOfLine (l.headD 0)).drop 8))) e.2
  let d := readUnits 1 (u8 h 3) (fun l => (u8 (l.headD 0) 0, sext 64 (u8 (l.headD 0) 1))) b.2
  let m := readUnits 1 (u8 h 4) (fun l => (u8 (l.headD 0) 0, BitVec.ofNat 32 (u8 (l.headD 0) 1), BitVec.ofNat 64 (u8 (l.headD 0) 2))) d.2
  let x := readUnits 1 (u8 h 6) (fun l => slotOf (l.headD 0)) m.2
  let c := readUnits 1 (u8 g 0) (fun l => (u8 (l.headD 0) 0, u8 (l.headD 0) 1)) x.2
  let k := readUnits 1 (u8 g 6) (fun l => (BitVec.ofNat 64 (u8 (l.headD 0) 0),
    if u8 (l.headD 0) 1 = 1 then some (BitVec.ofNat 32 (u8 (l.headD 0) 2)) else none)) c.2
  let y := readUnits 2 (u8 h 7) (fun l => (u8 (l.headD 0) 0, recOf (bytesOfLine (l.getD 1 0)))) k.2
  let p := readPages (u8 h 5) y.2
  ({ part := BitVec.ofNat 4 (u8 h 0)
     entries := e.1
     buckets := b.1
     deficit := d.1
     strMap := m.1
     pageOf := p.1
     commits := c.1
     marked := k.1
     cfg := {
      chargePrompt := decide (u8 g 1 = 1)
      specEn := decide (u8 g 2 = 1)
      admitReserve := BitVec.ofNat 32 (u8 g 3)
      pageQuota := BitVec.ofNat 24 (u8 g 4) }
     nextAge := BitVec.ofNat 32 (u8 g 5)
     slots := x.1
     retiring := y.1 }, p.2)

/-- `n` partitions' states. -/
def readSeqs : Nat → List Line → List CkptSeq
  | 0, _ => []
  | n + 1, us => (readSeq us).1 :: readSeqs n (readSeq us).2

/-- The units of a generation. -/
def CkptGen.units (g : CkptGen) : List Line :=
  unit8 [g.gen.toNat, g.stepNo.toNat, g.rank.toNat, g.words.length, g.seqs.length, g.steps.length] :: g.digest
    :: (g.steps.map fun x => unit8 [x.1, x.2.toNat]) ++ (g.words.flatMap fun x => [unit8 [x.1, x.2.1], x.2.2]) ++ g.seqs.flatMap CkptSeq.units

/-- A generation with the CRC-32C of every 64 KiB of it (R390). -/
def CkptGen.sealed (g : CkptGen) : CkptGen :=
  let us := g.units
  { g with crcs := (chunksOf 1024 (us.length / 1024 + 1) us).map fun c => crc32c (c.flatMap bytesOfLine) }

/-- A generation read from units. -/
def readGen (us : List Line) : CkptGen :=
  let h := us.headD 0
  let t := readUnits 1 (u8 h 5) (fun l => (u8 (l.headD 0) 0, BitVec.ofNat 64 (u8 (l.headD 0) 1))) (us.drop 2)
  let w := readUnits 2 (u8 h 3) (fun l => (u8 (l.headD 0) 0, u8 (l.headD 0) 1, l.getD 1 0)) t.2
  ({ gen := BitVec.ofNat 32 (u8 h 0)
     stepNo := BitVec.ofNat 64 (u8 h 1)
     steps := t.1
     rank := BitVec.ofNat 16 (u8 h 2)
     words := w.1
     seqs := readSeqs (u8 h 4) w.2
     complete := true
     digest := us.getD 1 0
     crcs := [] } : CkptGen).sealed

/-- An Ash log entry read from its words (R384). -/
def readAsh (p : Nat) (us : List Line) : AshEntry :=
  let b := bytesOfLine (us.headD 0)
  let c := bytesOfLine (us.getD 1 0)
  { stepNo := BitVec.ofNat 64 (fieldN b 0 8)
    part := BitVec.ofNat 4 p
    t := BitVec.ofNat 64 (fieldN b 8 8)
    geyser := BitVec.ofNat 64 (fieldN b 16 8)
    ctl := BitVec.ofNat 32 (fieldN b 32 4)
    sub := BitVec.ofNat 32 (fieldN b 36 4)
    prompt := BitVec.ofNat 32 (fieldN b 40 4)
    result := BitVec.ofNat 32 (fieldN b 44 4)
    base := BitVec.ofNat 64 (fieldN b 48 8)
    seqword := BitVec.ofNat 64 (fieldN b 56 8)
    log2 := BitVec.ofNat 5 (fieldN c 0 1)
    irq := decide (fieldN c 1 1 = 1)
    units := us.drop 2
    confirmed := true }

/-! ### The pause (R389, R390, R394) -/

/-- CHECKPOINT_PAUSE (R30, R389, R390): at the tick the counter stops, and the generation is written to this chip and its
buddy. -/
def execCheckpointPause (s : State) : Host.Outcome State Fault Refusal :=
  match s.dig.ckptArmed with
  | none => .next s
  | some (g, us, slot) =>
    if s.plan.geyser ≠ g || !s.alive || s.dig.ckptPausing.isSome then .next s
    else
      let x := (s.generation (s.dig.ckptNext + 1)).sealed
      let s : State := { s with
        plan := { s.plan with counterWasStopped := true }
        dig := { s.dig with
          ckptPausing := some (s.wall + ceilDiv (us * 625) 4 * tuLinkRef, slot)
          ckptNext := x.gen
          ckptWriting := some x
          buddyAcked := false
          ckptAbort := false
          slots := vset s.dig.slots (bn slot) none } }
      .next (s.sendBuddy 1 (bn slot) x.gen.toNat x.units)

/-- CHECKPOINT_PAUSE_END (R389, R390, R394): the generation is complete where the buddy has acknowledged it and neither a
fault nor a declared chip fell in the pause; else F-0210. -/
def execCheckpointPauseEnd (s : State) : Host.Outcome State Fault Refusal :=
  match s.dig.ckptPausing, s.dig.ckptWriting with
  | some (e, slot), some x =>
    if s.wall < e then .next s
    else
      let s' : State := { s with dig := { s.dig with
        ckptArmed := none
        ckptPausing := none
        ckptWriting := none
        buddyAcked := false
        ckptAbort := false } }
      if s.dig.buddyAcked && !s.dig.ckptAbort && !s.faultHeld then
        .next { s' with dig := { s'.dig with
          slots := vset s'.dig.slots (bn slot) (some { x with complete := true })
          ckptGen := x.gen
          ckptStep := x.stepNo } }
      else
        .next (({ s' with dig := { s'.dig with ckptIncomplete := true } } : State).logFault (s'.fault 0x210 0x12 x.gen.toNat none (bn slot)))
  | _, _ => .next s

/-! ### Packets between buddies (R320, R383, R390, R391) -/

/-- The head unit of such a packet: kind, partition or slot, units in the packet, offset, tag, units in all. -/
def buddyHead (u : Line) : Nat × Nat × Nat × Nat × Nat × Nat :=
  (field u 7 0, field u 15 8, field u 31 16, field u 63 32, field u 127 64, field u 159 128)

/-- An item with a packet's units added in order. -/
def addUnits (items : List BuddyItem) (h : Nat × Nat × Nat × Nat × Nat × Nat) (us : List Line) : List BuddyItem :=
  let is (x : BuddyItem) : Bool := x.kind = h.1 && x.part = h.2.1 && x.tag = h.2.2.2.2.1
  if items.any is then
    items.map fun x => if is x && x.units.length = h.2.2.2.1 then { x with units := x.units ++ us.take h.2.2.1 } else x
  else if h.2.2.2.1 = 0 then
    items ++ [{ kind := h.1, part := h.2.1, tag := h.2.2.2.2.1, total := h.2.2.2.2.2, units := us.take h.2.2.1 }]
  else items

/-- The item is whole. -/
def BuddyItem.whole (x : BuddyItem) : Bool := decide (x.units.length = x.total)

/-- An acknowledgement: kind 2 of an Ash log entry, 3 of a generation. -/
def State.ackBuddy (s : State) (dest : BitVec 24) (kind part tag : Nat) : State :=
  s.inject (s.flatPacket 3 0 dest [lineOfBytes (bytesOf 1 (kind + 2) ++ bytesOf 1 part ++ bytesOf 2 0 ++ bytesOf 4 0 ++ bytesOf 8 tag)])

/-- The oldest delivered H packet of a TYPE that satisfies a test on its head (R320). -/
def State.hPacket (s : State) (type : Nat) (f : Nat → Bool) : Option Packet :=
  s.deliveredOf fun p => p.clsN = 3 && p.type.toNat = type && f (buddyHead (p.payload.headD 0)).1

/-- CKPT_WRITE (R383, R390): buddy data is stored and acknowledged once whole, or the buddy's acknowledgement of this chip's
generation arrives. -/
def execCkptWrite (s : State) : Host.Outcome State Fault Refusal :=
  match s.hPacket 0 (· ≠ 2) with
  | none => .next s
  | some p =>
    let s := s.consume p
    let h := buddyHead (p.payload.headD 0)
    if h.1 = 3 then
      .next { s with dig := { s.dig with
        buddyAcked := s.dig.buddyAcked || (s.dig.ckptPausing.isSome && (s.dig.ckptWriting.map fun (x : CkptGen) => decide (x.gen.toNat = h.2.2.2.2.1)).getD false) } }
    else
      let keep (x : BuddyItem) : Bool :=
        if h.1 = 1 then !(x.kind = 1 && x.part = h.2.1 && x.tag ≠ h.2.2.2.2.1) else !(x.kind = 0 && x.tag < s.dig.ashFloor.toNat)
      let items := addUnits (s.dig.buddy.filter keep) h (p.payload.drop 1)
      let s : State := { s with dig := { s.dig with buddy := items } }
      let whole := items.any fun x => x.kind = h.1 && x.part = h.2.1 && x.tag = h.2.2.2.2.1 && x.whole
      .next (if whole then s.ackBuddy p.src h.1 h.2.1 h.2.2.2.2.1 else s)

/-- Sends an item to a chip in packets of a TYPE: none held answers a head with no units. -/
def State.sendItem (s : State) (type : Nat) (dest : BitVec 24) (kind part tag : Nat) (us : List Line) : State :=
  let cuts := if us.isEmpty then [[]] else chunksOf 127 (us.length / 127 + 1) us
  cuts.zipIdx.foldl (fun s x =>
    s.inject (s.flatPacket 3 type dest (lineOfBytes (bytesOf 1 kind ++ bytesOf 1 part ++ bytesOf 2 x.1.length
      ++ bytesOf 4 (127 * x.2) ++ bytesOf 8 tag ++ bytesOf 4 us.length) :: x.1))) s

/-- CKPT_READ (R320, R391): the buddy data asked for goes back as CKPT_DATA; an entry asked for with tag 0 means every entry
of the partition. -/
def execCkptRead (s : State) : Host.Outcome State Fault Refusal :=
  match s.hPacket 1 (fun _ => true) with
  | none => .next s
  | some p =>
    let s := s.consume p
    let h := buddyHead (p.payload.headD 0)
    if h.1 = 1 then
      let x := s.dig.buddy.find? fun x => x.kind = 1 && x.tag = h.2.2.2.2.1 && x.whole
      .next (s.sendItem 2 p.src 1 h.2.1 h.2.2.2.2.1 ((x.map (·.units)).getD []))
    else
      let xs := s.dig.buddy.filter fun x => x.kind = 0 && x.whole
      .next (xs.foldl (fun s x => s.sendItem 2 p.src 0 x.part x.tag x.units) s)

/-- BULK (R320): a bulk copy for the firmware. -/
def execBulk (s : State) : Host.Outcome State Fault Refusal :=
  match s.hPacket 3 (fun _ => true) with
  | none => .next s
  | some p =>
    let s := s.consume p
    .next { s with fab := { s.fab with bulk := s.fab.bulk ++ [p] } }

end Sys2Proof.Machine
end

