-- ==== Sys2Proof/Machine/Rollback.lean ====
section
/-! DEFINITION. Chip loss and rollback: the phases of R391, the restore of a generation, log replay begun, and the
declaration of a failed chip (R217, R220, R391 to R394, R397). -/

namespace Sys2Proof.Machine
open Sys2Proof

/-! ### Phases 1 and 2: the fault hold ends, and the plans are reset (R391) -/

/-- The buddy of a chip: its +x neighbour in the pod (R390). -/
def buddyOf (a : BitVec 24) : BitVec 24 := setCoord a 0 (coordDim a 0 + 1)

/-- The job's hold for faults and memory errors ends on this chip; episodes of chips declared failed are forgotten (R391
phase 1; DEDUCED, notes/assumptions/44.md). -/
def State.endFaultHold (s : State) : State :=
  let s := (List.range 16).foldl (fun s p =>
    if (s.pt p).faultStop then (s.modPt p fun b => { b with faultStop := false }).partEvent p else s) s
  let s : State := { s with plan := { s.plan with
    state := 0
    armed := none
    launchBarrier := none
    localCauses := s.plan.localCauses.filter fun c => match c.src with
      | .fault _ => false
      | .memErr _ _ _ => false
      | .mirrorLate _ => false
      | .ashWait _ => false
      | _ => true
    episodes := s.plan.episodes.filter fun e => !s.map.declared.contains e.origin } }
  if s.plan.localCauses.isEmpty then s.releaseOwn else s

/-- Writes still on their way to the stacks are complete (R391 phase 2: every word is left as it stands). -/
def Channel.drain (c : Channel) : Channel :=
  c.pend.foldl (fun c x => match x.data with
    | some d => c.store x.word d
    | none => c) { c with pend := [] }

/-- A partition's plan stopped and reset for its rollback (R391 phase 2). -/
def State.rollPart (s : State) (p : Nat) (i : Image) : State :=
  let s := (s.pt p).stage.chans.foldl (fun s x => s.modPch x Channel.drain) s
  let s := (s.resetUnit p 0 i).discardDigests p 0
  let s := (s.tilesOf p).foldl (fun s t => s.modTile t fun x => { x with state := 2 }) s
  let s := s.modSq p fun q => { q with doneTick := none }
  s.modPt p fun b => { b with
    launched := none
    relaunchAt := none
    resumeUnit := none }

/-- The launched partitions that a rollback re-binds and resets. -/
def State.rollParts (s : State) : List Nat := s.activeParts.filter fun p => ((s.img p).map (·.restartable)).getD false

/-- A re-bound Stage set comes into force: tables and tiles as it maps them. A tile that keeps its logical tile runs on, and one
that loses it stops (R20, R222). -/
def State.takeRebound (s : State) (p : Nat) : State :=
  match (s.pt p).rebound with
  | none => s
  | some x =>
    let old := s
    let gone := (s.tilesOf p).filter fun t => !x.tiles.contains t
    let s := gone.foldl (fun s t => s.modTile t Tile.stop) s
    ((s.modPt p fun b => { b with stage := x, rebound := none }).installMapping p).keepRunning old p

/-- A re-bound set of a partition that stands in a fault hold: the set comes into force, the plan is reset as R391 phase 2 has
it, and once every partition of the job is re-bound the fault hold ends (R43, R235; DESIGN CHOICE, notes/assumptions/65.md). -/
def State.endByRebind (s : State) (p : Nat) : State :=
  let s := s.takeRebound p
  let s := (s.rollPart p ((s.img p).getD Image.reset)).modPt p fun b => { b with faultStop := false }
  let s := s.partEvent p
  if s.activeParts.any fun q => (s.pt q).faultStop then s else s.endFaultHold

/-- Re-bound sets come into force: at once where no plan is launched or the job stands in a fault hold, and else at the
partition's next frame tick (R20, R235). -/
def State.settleRebound (s : State) : State :=
  if s.dig.recPhase = 1 then s
  else (List.range 16).foldl (fun s p =>
    let b := s.pt p
    if b.rebound.isNone then s
    else if b.faultStop then s.endByRebind p
    else if b.launched.isNone || s.isTick p s.plan.geyser then s.takeRebound p
    else s) s

/-- Goes on from phase 1 once the re-bind of every partition of the plan has ended: phases 2 and 3. A re-bind that failed leaves
the rollback to be started again (R236, R391). -/
def State.rollAdvance (s : State) : State :=
  let s := s.settleRebound
  let ps := s.rollParts
  if s.dig.recPhase ≠ 1 || s.map.run.isSome then s
  else if s.map.state ≠ 4#3 then { s with
    dig := { s.dig with recPhase := 0 }
    parts := s.parts.map fun b => { b with rebound := none } }
  else if ps.any fun p => (s.pt p).rebound.isNone then s
  else
    let s := ps.foldl (fun s p => s.takeRebound p) s
    let s := ps.foldl (fun s p => s.rollPart p ((s.img p).getD Image.reset)) s.endFaultHold
    let moved := (s.pt s.dig.recPart.toNat).stage.rankMoved
    { s with dig := { s.dig with
      recPhase := if moved then 3 else 4
      roNeeded := moved
      roDone := false } }

/-- ROLLBACK (R391): firmware starts the rollback of the job that runs on partition `p`, from the held job, with what the
re-bind gathers; in a phase 1 in progress it re-binds a further partition, or the same one again (R220, R236, R394). -/
def execRollback (p : PartId) (env : BindEnv) (s : State) : Host.Outcome State Fault Refusal :=
  let b := s.pt p
  match b.stage.image with
  | none => .next s
  | some i =>
    let called := s.dig.recState = 3#3 || !s.map.declared.isEmpty || (b.faultStop && s.dig.cfgRollback)
    if !s.alive || b.state ≠ 1#3 || b.launched.isNone || !called || 1 < s.dig.recPhase || s.dig.ckptPausing.isSome then
      .next s.rollAdvance
    else if !i.restartable then .next (s.recoveryFail 4)
    else
      let again := s.dig.recPhase = 1
      let s : State := { s with dig := { s.dig with
        recState := 3
        recPhase := 1
        recPart := if again then s.dig.recPart else BitVec.ofNat 4 p.val
        recRanks := if again then s.dig.recRanks else b.stage.ranks
        fetched := []
        logReplayTo := []
        rollbacks := if again then s.dig.rollbacks else satInc s.dig.rollbacks } }
      .next (s.startRun p true env)

/-! ### Phase 4: the restore (R391, R393) -/

/-- Channel contents of a partition replaced by a generation's: what is kept becomes zero, then its words are written. -/
def State.restoreWords (s : State) (p : Nat) (i : Image) (ws : List (Nat × Nat × Line)) : State :=
  let s := (s.pt p).stage.chans.zipIdx.foldl (fun s (x : Nat × Nat) =>
    s.modPch x.1 fun c =>
      let kept := (c.mem.map (fun (y : Host.Cell) => y.1 / 64)).eraseDups.filter fun w => s.isKept p i x.2 w
      kept.foldl (fun c w => c.store w 0) c) s
  (ws.filter fun x => x.1 / 2 ^ 16 = p).foldl (fun s x =>
    match (s.pt p).stage.chans[x.1 % 2 ^ 16]? with
    | some c => s.modPch c fun y => y.store x.2.1 x.2.2
    | none => s) s

/-- SEQ's and the budget unit's state restored (R390, R391). -/
def State.restoreSeq (s : State) (q : CkptSeq) : State :=
  let p := q.part.toNat
  let r := (s.pt p).res
  let mineE (k : Nat) : Bool := r.tableBase.toNat ≤ k && k < r.tableBase.toNat + r.tableCount.toNat
  let table := (s.seq.table.filter fun x => !mineE x.1)
  let deficit := s.seq.deficit.filter fun x => !s.ownsBkt p x.1
  let buckets := s.bud.buckets.filter fun x => !s.ownsBkt p x.1
  let used := q.pageOf.foldl (fun l x => x.2.foldl (fun l k => nsIns k l) l) []
  let s : State := { s with
    seq := { s.seq with
      table := q.entries.foldl (fun l x => alSet x.1 x.2 l) table
      deficit := q.deficit.foldl (fun l x => alSet x.1 x.2 l) deficit }
    bud := { s.bud with buckets := q.buckets.foldl (fun l x => alSet x.1 x.2 l) buckets } }
  let s := s.modSq p fun x => { x with
    usedPages := used
    pageOf := q.pageOf
    strMap := q.strMap
    nextAge := q.nextAge
    slots := q.slots
    inStep := !q.slots.isEmpty
    retiring := q.retiring
    commits := q.commits
    marked := q.marked
    resetAll := false }
  s.modBd p fun x => { x with
    committed := BitVec.ofNat 24 (q.commits.foldl (fun a x => a + x.2) 0)
    allocated := BitVec.ofNat 24 used.length
    cfg := q.cfg }

/-- The intake header as an Ash log entry gives it (R393). -/
def IntakeHdr.ofEntry (h : IntakeHdr) (e : AshEntry) : IntakeHdr :=
  { h with
    ctlConsumed := e.ctl
    subConsumed := e.sub
    promptConsumed := e.prompt
    resultProduced := e.result
    stepNo := e.stepNo
    base := e.base
    log2 := e.log2
    seqword := e.seqword
    irq := e.irq }

/-- The window of a new lead: the host-written ring fields of the entry, and empty otherwise (R393). -/
def windowOf (e : AshEntry) : List Host.Cell :=
  let put (l : List Host.Cell) (o n v : Nat) := (bytesOf n v).zipIdx.foldl (fun l x => Memory.write l (o + x.2) x.1) l
  put (put (put (put [] 0x80 8 e.base.toNat) 0x88 4 e.log2.toNat) 0x90 8 e.seqword.toNat) 0x98 4 (bn e.irq)

/-- The logged entry of a partition's unit. -/
def State.ashAt (s : State) (p n : Nat) : Option AshEntry := s.dig.ash.find? fun e => e.part.toNat = p && e.stepNo.toNat = n

/-- The last confirmed entry of a partition. -/
def State.lastConfirmed (s : State) (p : Nat) : Option AshEntry :=
  (s.dig.ash.filter fun e => e.part.toNat = p && e.confirmed).getLast?

/-- A partition made ready to resume at the unit after `st`, in log replay where its entries go further; none where the log
has a gap (R385, R391, R393). -/
def State.resumePart (s : State) (p : Nat) (st : BitVec 64) : Option State :=
  let m := (st + 1).toNat
  let s := s.modPt p fun b => { b with resumeUnit := some m }
  if !s.leadsPart p then some s
  else match s.lastConfirmed p with
    | none => some s
    | some e =>
      let k := e.stepNo.toNat
      if k < m then some s
      else if (List.range (k + 1 - m)).any fun j => (s.ashAt p (m + j)).isNone then none
      else
        let moved := (s.pt p).stage.rankMoved
        let s := s.modSq p fun q => { q with
          hdr := match s.ashAt p (m - 1) with
            | some h => if m = 0 then q.hdr else q.hdr.ofEntry h
            | none => q.hdr
          intake := if moved then windowOf e else q.intake }
        some { s with dig := { s.dig with logReplayTo := alSet p e.stepNo s.dig.logReplayTo } }

/-- A generation restored, and every plan ready for its launch at the unit after (R391 phases 4 and 5). -/
def State.restoreGen (s : State) (g : CkptGen) : State :=
  let s := g.seqs.foldl (fun s q => s.restoreSeq q) s
  let s := g.steps.foldl (fun s x => s.restoreWords x.1 ((s.img x.1).getD Image.reset) g.words) s
  match g.steps.foldl (fun (s : Option State) x => s.bind fun s => s.resumePart x.1 x.2) (some s) with
  | none => s.recoveryFail 3
  | some s => { s with dig := { s.dig with
      recPhase := 5
      fetched := [] } }

/-- The Ash log taken over from the chip that kept the rank's copy. -/
def State.adoptAsh (s : State) (items : List BuddyItem) : State :=
  let es := (items.filter fun x => x.kind = 0 && x.whole).map fun x => readAsh x.part x.units
  { s with dig := { s.dig with
    ash := s.dig.ash.filter (fun e => !es.any fun f => f.part = e.part) ++ sortBy (fun a b => a.stepNo.toNat < b.stepNo.toNat) es } }

/-- Phase 4 with the generation that RESTORE_GEN names: from this chip's own copy where the rank did not move, else from the
chip that holds the rank's buddy copy (R391). -/
def State.phase4 (s : State) : State :=
  let g := s.dig.restoreGen
  let x := (s.pt s.dig.recPart.toNat).stage
  if !x.rankMoved then
    match s.dig.slots.toList.findSome? fun y => y.bind fun z => if z.gen = g && z.complete then some z else none with
    | some z => s.restoreGen z
    | none => s.recoveryFail 1
  else
    let old := s.dig.recRanks.getD x.rank.toNat 0
    let holder := buddyOf old
    if s.map.declared.contains holder then s.recoveryFail (if s.map.declared.contains old then 2 else 1)
    else if holder = s.selfOrigin then
      match s.dig.buddy.find? fun y => y.kind = 1 && y.tag = g.toNat && y.whole with
      | some y => (s.adoptAsh s.dig.buddy).restoreGen (readGen y.units)
      | none => s.recoveryFail 1
    else
      let s : State := { s with dig := { s.dig with fetched := [] } }
      let ask (s : State) (kind : Nat) : State := s.inject (s.flatPacket 3 1 holder
        [lineOfBytes (bytesOf 1 kind ++ bytesOf 1 0 ++ bytesOf 2 0 ++ bytesOf 4 0 ++ bytesOf 8 (if kind = 1 then g.toNat else 0))])
      ask (ask s 0) 1

/-- DIG.RESTORE_GEN written; in phase 4 the phase starts, or starts again (R397). -/
def State.writeRestoreGen (s : State) (v : BitVec 32) : State :=
  let s := ({ s with dig := { s.dig with restoreGen := v } } : State).rollAdvance
  if s.dig.recPhase = 4 then s.phase4 else s

/-- RESTORE_GEN_WRITE (R391, R397). -/
def execRestoreGenWrite (val : BitVec 32) (s : State) : Host.Outcome State Fault Refusal :=
  .next (s.ifReady fun s => s.writeRestoreGen val)

/-- CKPT_DATA (R320, R391): data of the rank's buddy copy; the generation, once whole, is restored. A chip that holds none
answers with no units, and no generation is common. -/
def execCkptData (s : State) : Host.Outcome State Fault Refusal :=
  match s.hPacket 2 (fun _ => true) with
  | none => .next s
  | some p =>
    let s := s.consume p
    let h := buddyHead (p.payload.headD 0)
    if s.dig.recPhase ≠ 4 then .next s
    else
      let items := addUnits s.dig.fetched h (p.payload.drop 1)
      let s : State := { s with dig := { s.dig with fetched := items } }
      match items.find? fun y => y.kind = 1 && y.tag = s.dig.restoreGen.toNat && y.whole with
      | some y => .next (if y.units.isEmpty then s.recoveryFail 1 else (s.adoptAsh items).restoreGen (readGen y.units))
      | none => .next s

/-- DIG.RESTORE_CTRL.RO_DONE written with 1 (R386, R391): the step replay that waited for the reload goes on, or phase 3 of a
rollback ends. -/
def State.writeRoDone (s : State) : State :=
  let s := s.rollAdvance
  if !s.dig.roNeeded then s
  else
    let s : State := { s with dig := { s.dig with
      roDone := true
      roNeeded := false } }
    if s.dig.recState = 2#3 then
      let p := s.dig.recPart.toNat
      match s.img p with
      | some i => if 2 ≤ s.attempts p then s.wantRollback p else s.replayUnit p i
      | none => s
    else if s.dig.recPhase = 3 then { s with dig := { s.dig with recPhase := 4 } }
    else s

/-- RO_DONE (R386, R391). -/
def execRoDone (s : State) : Host.Outcome State Fault Refusal := .next (s.ifReady (·.writeRoDone))

/-! ### A chip declared failed (R217, R220, R391, R394) -/

/-- The Vent message that spreads a declaration (DESIGN CHOICE, notes/assumptions/35.md). -/
def declareBody (chip : BitVec 24) : List (BitVec 8) := [1] ++ bytesOf 3 chip.toNat

/-- A declared chip whose rank and buddy copy are both lost (R391). -/
def State.bothLost (s : State) : Bool := s.map.declared.any fun a => s.map.declared.contains (buddyOf a)

/-- CHIP_DECLARED_FAILED (R217, R220, R391, R394): the declaration is kept and spread over the Vent channel; a bind in
progress starts again, a step replay is abandoned, a checkpoint in progress is incomplete, and a rollback is called for. -/
def execChipDeclaredFailed (chip : BitVec 24) (s : State) : Host.Outcome State Fault Refusal :=
  let a := chip &&& 0xFFFC00#24
  if !s.alive || s.map.declared.contains a then .next s
  else
    let old := s.runDigest
    let s : State := { s with map := { s.map with
      declared := insertBy (fun x y => x.toNat < y.toNat) a s.map.declared
      chipState := if a = s.selfOrigin then 2 else s.map.chipState } }
    let ranks := ((List.range 16).flatMap fun p => (s.pt p).stage.ranks).eraseDups
    let s := (ranks.filter fun r => r ≠ s.selfOrigin && r ≠ a).foldl (fun s r => s.ventSend r (declareBody a)) s
    let s : State := { s with dig := { s.dig with ckptAbort := s.dig.ckptAbort || s.dig.ckptPausing.isSome } }
    let s := s.restartRun old
    let ps := s.launchedParts
    if !s.dig.cfgAuto || !ranks.contains a || (ps.isEmpty && s.dig.recPhase = 0) then .next s
    else if s.bothLost then .next (s.recoveryFail 2)
    else if s.dig.recPhase ≠ 0 then
      let p := s.dig.recPart.toNat
      let s : State := { s with dig := { s.dig with recPhase := 1, roNeeded := false } }
      let env : BindEnv := { records := s.map.records, digests := s.map.digests, peers := s.map.peerConfigs }
      .next (if s.map.run.isSome then s else s.startRun p true env)
    else
      match ps with
      | p :: _ =>
        if s.restartParts.isEmpty then .next (s.recoveryFail 4)
        else
          let s := ps.foldl (fun s q => s.modPt q fun b => { b with relaunchAt := none, resumeUnit := none }) s
          .next (s.wantRollback p)
      | [] => .next s

end Sys2Proof.Machine
end

