-- ==== Sys2Proof/Machine/Frame.lean ====
section
/-! DEFINITION. The frame tick with its checks, and the comparison of a mirror pair (R29, R103, R289, R379 to R381, R396). -/

namespace Sys2Proof.Machine
open Sys2Proof

/-! ### Frame overrun (R29, R103) -/

/-- An instruction of the frame that ends at tick `g` is not complete by the tick, where R29 asks that it be: the frame-end
instruction, or a move. -/
def Ctx.unfinished (c : Ctx) (g : Nat) : Bool :=
  let pl := c.plan
  decide (c.f.p < g) && (c.f.w.fend || pl.move) && decide (g < c.f.at_ pl.done)

/-- The program counter that F-0301 names for a stream at tick `g`; none where its frame work is complete (R29, R103). -/
def State.overrunPc (s : State) (t : Nat) (e : Eng) (g : Nat) : Option Nat :=
  let x := (s.tile t).stream e
  if !x.running then none
  else if x.fendAt.isNone && !x.halted then some x.nextPc
  else (x.flights.find? fun f => ({ s := s, t := t, e := e, f := f } : Ctx).unfinished g).map (·.pc)

/-- The first stream of a tile whose frame work is incomplete: engine and program counter. -/
def State.overrun (s : State) (t : Nat) (g : Nat) : Option (Nat × Nat) :=
  engines.findSome? fun e => (s.overrunPc t e g).map fun pc => (e.num, pc)

/-- A stream begins its next frame. -/
def Stream.nextFrame (x : Stream) : Stream := { x with fendAt := none }

/-- The checks of R29 on every tile of a partition: the first that fails raises F-0301. -/
def State.frameWork (s : State) (p : Nat) : State :=
  let g := s.plan.geyser
  let ts := s.tilesOf p
  let bad := ts.findSome? fun t => (s.overrun t g).map fun x => (t, x.1, x.2)
  let s := ts.foldl (fun s t => s.modTile t fun x => { x with
    mx := x.mx.nextFrame
    vx := x.vx.nextFrame
    mv := x.mv.nextFrame }) s
  match bad with
  | some (t, e, pc) => s.faultHold ((s.fault 0x301 1 pc (some p)).waits t e (BitVec.ofNat 32 pc))
  | none => s

/-! ### Conservation (R289, R396) -/

/-- OBJECT of a ledger record (R492 kind 0xF). -/
def ledgerObj (n ident bucket : Nat) : Nat := n + ident * 16 + bucket * 256

/-- The identities of F-0701 and F-0702 that a port breaks: code and OBJECT. -/
def State.brokenPort (s : State) (n : Nat) : List (Nat × Nat) :=
  let l := s.link n
  let b := bufsUsed l.fab.openQ
  [(decide (4096 < l.replay.length), 0x701, 0), (decide (524288 < l.replayBytes), 0x701, 1),
    (decide (4 < b.1) || decide (4 < b.2.1) || decide (4 < b.2.2), 0x701, 2),
    (decide (1048576 < s.poolUsed n 0 + s.poolUsed n 1 + s.poolUsed n 2 + s.poolUsed n 3), 0x702, 0)].filterMap
    fun (x : Bool × Nat × Nat) => if x.1 then some (x.2.1, ledgerObj n x.2.2 0) else none

/-- Σ PAGES over the entries of a partition. -/
def State.pagesHeld (s : State) (p : Nat) : Nat := (s.entries p).foldl (fun a x => a + x.2.pages.toNat) 0

/-- The sums of a partition's buckets keep the identity of R272 (R289). -/
def State.sumsOk (s : State) (p : Nat) : Bool :=
  let bs := (s.bud.buckets.filter fun x => s.ownsBkt p x.1).map (·.2)
  decide (bs.foldl (fun (a : Int) b => a + b.granted) 0
    = bs.foldl (fun (a : Int) b => a + (b.charged : Int)) 0 + bs.foldl (fun (a : Int) b => a + b.balance) 0)

/-- The identities that a partition breaks, in ascending code: code and OBJECT. A bucket is checked at each change; at the
tick the sums are (R289). -/
def State.brokenPart (s : State) (p : Nat) : List (Nat × Nat) :=
  let q := s.sq p
  let held := s.pagesHeld p
  [(decide ((s.pt p).res.poolPages.toNat < q.usedPages.length), 0x703, 0),
    (decide ((s.bd p).allocated.toNat ≠ held) || decide (q.usedPages.length ≠ held), 0x703, 1),
    (!s.sumsOk p, 0x704, 0),
    ((s.entries p).any (fun x => 3 < x.2.st.toNat) || decide ((s.pt p).res.tableCount.toNat < (s.entries p).length), 0x705, 0)].filterMap
    fun (x : Bool × Nat × Nat) => if x.1 then some (x.2.1, ledgerObj p x.2.2 0) else none

/-- Σ TABLE.COUNT over the active partitions fits the table (R396). -/
def State.tableOk (s : State) : Bool :=
  decide (s.activeParts.foldl (fun a p => a + (s.pt p).res.tableCount.toNat) 0 ≤ 16384)

/-- The conservation checks of a partition's frame tick (R396). -/
def State.conserve (s : State) (p : Nat) : State :=
  let s := ((List.range 12).flatMap s.brokenPort).foldl (fun s x => s.faultHold (s.fault x.1 0xF x.2)) s
  let s := (s.brokenPart p).foldl (fun s x => s.faultHold (s.fault x.1 0xF x.2 (some p))) s
  if s.tableOk then s else s.faultHold (s.fault 0x705 0xF (ledgerObj 0 1 0))

/-! ### Mirror digests (R378 to R381) -/

/-- The log entries of a partition's frame in log order, oldest first. -/
def State.frameEntries (s : State) (p : Nat) (f : BitVec 32) : List DigEntry :=
  let h := s.dig.logHead.toNat
  ((s.dig.log.filter fun e => h ≤ e.1) ++ s.dig.log.filter fun e => e.1 < h).filterMap fun e =>
    if e.2.part.toNat = p && e.2.frame = f then some e.2 else none

/-- The 16 bytes of a digest log entry (R378). -/
def DigEntry.bytes (e : DigEntry) : List (BitVec 8) :=
  bytesOf 8 e.digest.toNat ++ bytesOf 2 e.layer.toNat ++ [e.ltile] ++ bytesOf 1 (bn e.compared + e.part.toNat * 16)
    ++ bytesOf 4 e.frame.toNat

/-- The frame digest: the fold over the entries in log order (R377, R380). COMPARED counts as 0 in it. -/
def frameDigest (es : List DigEntry) : BitVec 64 :=
  es.zipIdx.foldl (fun h x => digestFold h x.2 (lineOfBytes ({ x.1 with compared := false } : DigEntry).bytes)) digestInit

/-- The first payload unit of a DIGEST packet (R380). -/
def digestUnit (f : BitVec 32) (count : Nat) (d : BitVec 64) (kind first : Nat) : Line :=
  lineOfBytes (bytesOf 4 f.toNat ++ bytesOf 4 count ++ bytesOf 8 d.toNat ++ bytesOf 1 kind ++ bytesOf 3 0 ++ bytesOf 4 first)

/-- At the tick that ends a frame, a chip of a pair sends its partner the frame digest (R380). -/
def State.sendDigest (s : State) (p : Nat) : State :=
  match s.img p with
  | none => s
  | some i =>
    if !i.mirror then s
    else
      let f : BitVec 32 := BitVec.ofNat 32 (s.frameNo p - 1)
      let es := s.frameEntries p f
      let x := (s.pt p).stage
      let s := s.toPartner x.copyB (s.sPacket 3 x.rank.toNat [digestUnit f es.length (frameDigest es) 0 0])
      { s with dig := { s.dig with mirrorEnds := s.dig.mirrorEnds ++ [(f, s.plan.geyser + 2 * s.frameLen p)] } }

/-- The mirrored partition of this chip. -/
def State.mirrorPart (s : State) : Option Nat := s.launchedParts.find? fun p => ((s.img p).map (·.mirror)).getD false

/-- A frame no longer awaited, with the cause of hold that it raised. -/
def State.mirrorDone (s : State) (f : BitVec 32) : State :=
  ({ s with dig := { s.dig with mirrorEnds := s.dig.mirrorEnds.filter fun e => e.1 ≠ f } } : State).clearCause (.mirrorLate f.toNat)

/-- A frame whose digests differ: F-030E, and the frame's entries go to the partner, at most 508 in a packet (R381). The layer
and tile that differ are not known yet, so the continuation's object is free. -/
def State.mirrorDiffers (s : State) (p : Nat) (f : BitVec 32) : State :=
  let d := s.draw 32
  let r := d.2.fault 0x30E 0x11 f.toNat (some p)
  let s := d.2.faultHold r (some (r.contWith (d.1.toNat % 2 ^ 24)))
  let es := s.frameEntries p f
  let x := (s.pt p).stage
  let cuts := chunksOf 508 (es.length / 508 + 1) es
  let cuts := if cuts.isEmpty then [[]] else cuts
  cuts.zipIdx.foldl (fun s y => s.toPartner x.copyB (s.sPacket 3 x.rank.toNat
    (digestUnit f es.length (frameDigest es) 1 (508 * y.2) :: linesOfBytes (y.1.flatMap DigEntry.bytes)))) s

/-- The oldest delivered DIGEST packet of a KIND. -/
def State.digestPacket (s : State) (kind : Nat) : Option Packet :=
  s.deliveredOf fun k => k.clsN = 1 && k.type = 3#4 && field (k.payload.headD 0) 135 128 = kind

/-- MIRROR_DIGEST (R380, R381): the partner's frame digest is compared with the chip's own. A packet for a frame that has
not ended here waits. -/
def execMirrorDigest (s : State) : Host.Outcome State Fault Refusal :=
  match s.digestPacket 0, s.mirrorPart with
  | some k, some p =>
    let u := k.payload.headD 0
    let f : BitVec 32 := BitVec.ofNat 32 (field u 31 0)
    if !s.dig.mirrorEnds.any fun e => e.1 = f then .next s
    else
      let s := (s.consume k).mirrorDone f
      let es := s.frameEntries p f
      if field u 63 32 = es.length && field u 127 64 = (frameDigest es).toNat then
        .next { s with dig := { s.dig with
          mirrorOk := f
          log := s.dig.log.map fun e => if e.2.part.toNat = p && e.2.frame = f then (e.1, { e.2 with compared := true }) else e } }
      else .next (s.mirrorDiffers p f)
  | _, _ => .next s

/-- The place of the first of `n` entries from `o` on that differs or is missing on one side; `total` counts the partner's. -/
def firstDiff (mine : List DigEntry) (theirs : List (List (BitVec 8))) (o total : Nat) : Option (Nat × Nat) :=
  let bare (e : DigEntry) := ({ e with compared := false } : DigEntry).bytes
  let bareB (b : List (BitVec 8)) := b.zipIdx.map fun x => if x.2 = 11 then x.1 &&& 0xF0 else x.1
  let place (b : List (BitVec 8)) := (fieldN b 8 2, fieldN b 10 1)
  match (List.range theirs.length).find? fun k => (mine[o + k]?.map bare) ≠ (theirs[k]?.map bareB) with
  | some k => some (match mine[o + k]? with
      | some e => (e.layer.toNat, e.ltile.toNat)
      | none => place (theirs.getD k []))
  | none => if o + theirs.length = total && total < mine.length then
      mine[total]?.map fun e => (e.layer.toNat, e.ltile.toNat)
    else none

/-- MIRROR_ENTRIES (R381): a KIND 1 packet; DIG.MISMATCH takes the first entry in log order that differs or is missing. -/
def execMirrorEntries (s : State) : Host.Outcome State Fault Refusal :=
  match s.digestPacket 1, s.mirrorPart with
  | some k, some p =>
    let s := s.consume k
    let u := k.payload.headD 0
    let f : BitVec 32 := BitVec.ofNat 32 (field u 31 0)
    let total := field u 63 32
    let o := field u 191 160
    let n := min 508 (total - o)
    let bs := (k.payload.drop 1).flatMap bytesOfLine
    let theirs := (List.range n).map fun i => (bs.drop (16 * i)).take 16
    if s.dig.mismatchValid then .next s
    else match firstDiff (s.frameEntries p f) theirs o total with
      | none => .next s
      | some (layer, ltile) =>
        .next { s with dig := { s.dig with
          mismatch := BitVec.ofNat 28 (layer + ltile * 2 ^ 16 + p * 2 ^ 24)
          mismatchValid := true
          mismatchFrame := f } }
  | _, _ => .next s

/-- MIRROR_DIGEST_LATE (R380): the partner's packet for a frame has not come by the tick that ends the second frame after. -/
def execMirrorDigestLate (frame : BitVec 32) (s : State) : Host.Outcome State Fault Refusal :=
  if s.alive && s.dig.mirrorEnds.any fun e => e.1 = frame && e.2 ≤ s.plan.geyser then
    .next (s.raiseCause 1 (.mirrorLate frame.toNat))
  else .next s

/-! ### The tick (R27, R29, R463) -/

/-- FRAME_TICK (R29, R380, R396, R463). -/
def execFrameTick (p : PartId) (s : State) : Host.Outcome State Fault Refusal :=
  let b := s.pt p
  let g := s.plan.geyser
  if !s.alive || b.state ≠ 1#3 || !s.isTick p g || b.tickAt = g then .next s
  else
    let s := s.modPt p fun b => { b with tickAt := g }
    let n := s.framesSince p g
    let s := if n % 2 ^ s.time.tickLog2.toNat = 0 then s.logEvent 1 p else s
    let s := if b.relaunchAt.isSome then s else (s.frameWork p).sendDigest p
    .next (s.conserve p)

end Sys2Proof.Machine
end

