-- ==== Sys2Proof/Machine/Part.lean ====
section
/-! DEFINITION. Partitions: enable, teardown and scrub, Wings loads and Curtains (R267, R280, R306, R308, R399 to R412). -/

namespace Sys2Proof.Machine
open Sys2Proof

/-! ### Enable (R399 to R401) -/

/-- Words of a pseudo-channel (R187). -/
def channelWords : Nat := 37748736

/-- The bits of random generator draw `w` bits wide, and the state that has drawn it (R418). -/
def State.rng (s : State) (w : Nat) : BitVec w × State :=
  (Config.random w s.freeCount, { s with freeCount := s.freeCount + 1 })

/-- Words per pseudo-channel that the page pool takes at enable (R400). -/
def PartRes.poolWords (r : PartRes) : Nat :=
  ceilDiv r.poolPages.toNat 8 * ceilDiv 1024 (max 1 (bitsOf r.slice).length)

/-- Two ranges share a number. -/
def rangesMeet (a n b m : Nat) : Bool := decide (0 < n) && decide (0 < m) && decide (a < b + m) && decide (b < a + n)

/-- The lowest field of R400 in which two partitions overlap. -/
def PartRes.overlap (a b : PartRes) : Option Nat :=
  if a.rows &&& b.rows ≠ 0 then some 0
  else if a.slice &&& b.slice ≠ 0 then some 1
  else if rangesMeet a.tableBase.toNat a.tableCount.toNat b.tableBase.toNat b.tableCount.toNat then some 2
  else if rangesMeet a.bktBase.toNat a.bktCount.toNat b.bktBase.toNat b.bktCount.toNat then some 3
  else none

/-- The fields of a partition that break a rule of R399 on their own (R400). -/
def PartRes.badFields (r : PartRes) : List Nat :=
  [decide (r.rows = 0), decide ((bitsOf r.slice).length < 2), decide (16384 < r.tableBase.toNat + r.tableCount.toNat),
    decide (65536 < r.bktBase.toNat + r.bktCount.toNat), decide (channelWords < r.poolWords + r.devArea.toNat), false,
    decide (r.job = 0)].zipIdx.filterMap fun x => if x.1 then some x.2 else none

/-- The lowest field with which an enable of partition `p` fails (R400). -/
def State.enableFails (s : State) (p : Nat) (r : PartRes) : Option Nat :=
  let others := s.activeParts.filter (· ≠ p)
  let jobs := if others.any fun q => (s.pt q).res.job ≠ r.job then [6] else []
  minBy id (r.badFields ++ others.filterMap (fun q => r.overlap (s.pt q).res) ++ jobs)

/-- The scrub of every usable tile or stack after reset has not ended; a stack may still train (R59, R501). -/
def State.resetScrubs (s : State) : Bool :=
  !s.top.scrubbed || s.stackBanks.toList.any fun k => k.state ≠ 3#2 && !k.scrubbed

/-- The resources overlap those of a partition that is being scrubbed, or the reset scrub has not ended (R400, R501). -/
def State.enableWaits (s : State) (p : Nat) (r : PartRes) : Bool :=
  s.resetScrubs || (List.range 16).any fun q => q ≠ p && ((s.pt q).state = 2#3 || (s.pt q).state = 3#3) && (r.overlap (s.pt q).res).isSome

/-- The check of R400 and what follows from it: OFF with F-0601, WAIT_RESOURCES, or ACTIVE with a fresh key in slot 0 and
all else empty (R400, R412, R418). -/
def State.checkEnable (s : State) (p : Nat) : State :=
  let r := (s.pt p).res
  match s.enableFails p r with
  | some f => (s.logFault (s.fault 0x601 0xE (p + f * 256) (some p))).setPartState p 0
  | none =>
    if s.enableWaits p r then s.setPartState p 4
    else
      let k := s.rng 512
      let s := k.2.modPt p fun b => { b with keys := { PartKeys.reset with xts := vset b.keys.xts 0 (some k.1) } }
      let s := s.modBd p fun b => { b with
        base := r.bktBase
        count := r.bktCount }
      s.setPartState p 1

/-- An enable of a partition that is OFF or whose scrub has ended: the pending copy takes effect, and the check is made (R400,
R401, R411; DESIGN CHOICE, notes/assumptions/80.md). -/
def State.enable (s : State) (p : Nat) : State :=
  (s.modPt p fun b => { b with
    res := b.pendRes.getD b.res
    pendRes := none }).checkEnable p

/-- PART.CTRL.ENABLE written with 1 (R400, R411). -/
def State.partEnable (s : State) (p : Nat) : State :=
  let st := (s.pt p).state
  if st = 0#3 then s.enable p else if st = 2#3 then s.setPartState p 3 else s

/-- PART_ENABLE (R400, R411). -/
def execPartEnable (p : PartId) (s : State) : Host.Outcome State Fault Refusal :=
  .next (s.ifReady fun s => s.partEnable p)

/-! ### The sync check (R306, R308) -/

/-- The outstanding watches and open rounds of a partition: logical tile, word, barrier (R306, R308). -/
def State.openSync (s : State) (p : Nat) : List (Nat × Nat × Option Nat) :=
  let ws := (s.tilesOf p).zipIdx.flatMap fun x => (s.ts x.1).watches.map fun w => (x.2, w.watched, (none : Option Nat))
  let bs := (List.range 32).filterMap fun b => match s.barDecl p b with
    | some d => if (s.bar p b).isOpen then some (d.tiles.headD 0, d.compWord, some b) else none
    | none => none
  ws ++ bs

/-- The objects of a partition's tiles that do not hold the bit of their first use (R307, R308). -/
def State.changedObjects (s : State) (p : Nat) : List (Nat × Nat × Option Nat) :=
  (s.tilesOf p).zipIdx.flatMap fun x =>
    ((s.ts x.1).objects.filter fun o => nsHas o.1 (s.tile x.1).full != o.2).map fun o => (x.2, o.1, none)

/-- The first in ascending order of logical tile, word and barrier (R306, R308). -/
def firstSync (l : List (Nat × Nat × Option Nat)) : Option (Nat × Nat × Option Nat) :=
  minBy (fun x => x.1 * 2 ^ 24 + x.2.1 * 2 ^ 8 + (x.2.2.map (· + 1)).getD 0) l

/-- The check of R308: SYNC.CHECK and CHECK_FIRST, and F-0406 for the first failure. -/
def State.syncCheck (s : State) (p : Nat) : State :=
  let bad := s.changedObjects p
  let opens := s.openSync p
  let first := firstSync (bad ++ opens)
  let shown : BitVec 29 := match first with
    | none => 0
    | some x => BitVec.ofNat 29 ((if bad.contains x then x.2.1 else 0xFFFF) + x.1 * 65536 + x.2.2.getD 0 * 2 ^ 24)
  let s := s.modSy p fun y => { y with
    checkFailures := satNat 16 (bad.length + opens.length)
    checkDone := true
    checkFirst := shown }
  match first with
  | some x => s.logFault (s.fault 0x406 3 (x.2.1 + x.1 * 65536) (some p))
  | none => s

/-! ### Teardown (R43, R410 to R412) -/

/-- A run of the mapper on a partition whose set is gone: it has ended without one. The spec gives no code for it, so the
code is free (DEDUCED, notes/assumptions/45.md). -/
def State.dropRun (s : State) (p : Nat) (wingsOnly : Bool) : State :=
  match s.map.run with
  | none => s
  | some r =>
    if r.part.toNat ≠ p || (wingsOnly && r.rebind) then s
    else
      let c := s.draw 8
      ({ c.2 with map := { c.2.map with
        state := 5
        code := c.1
        restart := false
        run := none } } : State).signal 0 2

/-- A tile zero and empty (R58, R410). -/
def Tile.scrub (t : Tile) : Tile :=
  { t with
    mem := []
    full := []
    poison := []
    bad := []
    correctable := []
    writeBacks := []
    state := if t.state = 0#3 then 0 else 1
    scrubbed := true }

/-- Every word of a pseudo-channel zero with good check bits, and no access left in it (R410). -/
def Channel.scrub (c : Channel) : Channel :=
  { c with
    mem := []
    poison := []
    bad := []
    correctable := []
    pend := []
    openQueue := [] }

/-- The P packets that a partition's plan stores or sends, and their directory entries, emptied (R410). -/
def State.emptyPools (s : State) (p : Nat) : State :=
  let i := ((s.img p).getD Image.reset)
  { s with
    links := s.links.map fun l => { l with fab := { l.fab with
      pool := l.fab.pool.filter fun q => !(q.pkt.clsN = 0 && q.relayPort.isNone && i.ownsKey q.pkt.ltile.toNat q.pkt.tag.toNat)
      pQueue := l.fab.pQueue.filter fun q => q.relay || q.part ≠ p } }
    recvDir := s.recvDir.filter fun d => !i.ownsKey d.ltile.toNat d.tag.toNat }

/-- The tables of a partition cleared: request table range, String map, DEF, buckets, digest log, intake window, and what its
device area holds (R255, R281, R410). -/
def State.clearTables (s : State) (p : Nat) : State :=
  let r := (s.pt p).res
  let mine (i : Nat) : Bool := r.tableBase.toNat ≤ i && i < r.tableBase.toNat + r.tableCount.toNat
  let last := s.activeParts.all (· = p)
  let s := s.modSq p fun q => { q.takeChained with
    resultFull := false
    busyUntil := 0
    slots := []
    usedPages := []
    pageOf := []
    strMap := []
    intake := []
    hdr := IntakeHdr.reset
    commits := []
    marked := []
    resetAll := false
    declChecked := false
    inStep := false
    doneTick := none
    oldReturns := []
    retiring := [] }
  let s := s.modBd p fun b => { b with
    cfg := BudCfg.reset
    cfgNext := none
    reserveNext := none
    quotaNext := none
    committed := 0
    allocated := 0
    opArmed := none }
  { s with
    seq := { s.seq with
      table := s.seq.table.filter fun x => !mine x.1
      deficit := s.seq.deficit.filter fun x => !s.ownsBkt p x.1 }
    bud := { s.bud with buckets := s.bud.buckets.filter fun x => !s.ownsBkt p x.1 }
    dig := { s.dig with
      log := s.dig.log.filter fun e => e.2.part.toNat ≠ p
      mirrorEnds := if last then [] else s.dig.mirrorEnds
      ash := s.dig.ash.filter fun e => e.part.toNat ≠ p
      ashWait := nsDel p s.dig.ashWait
      logReplayTo := alDel p s.dig.logReplayTo
      slots := s.dig.slots.map fun g => g.map fun g => { g with
        steps := g.steps.filter fun x => x.1 ≠ p
        words := g.words.filter fun x => x.1 / 2 ^ 16 ≠ p
        seqs := g.seqs.filter fun x => x.part.toNat ≠ p }
      buddy := s.dig.buddy.filter fun x => if x.kind = 0 then x.part ≠ p else !last
      recState := if s.dig.recPart.toNat = p then 0 else s.dig.recState
      recPhase := if s.dig.recPart.toNat = p then 0 else s.dig.recPhase }
    pcie := { s.pcie with
      stgReads := s.pcie.stgReads.filter fun x => x.part.toNat ≠ p
      stgQueue := s.pcie.stgQueue.filter fun x => x.part.toNat ≠ p } }

/-- The chip takes no further part in its job once no partition of it is left: its holds end here (R43). -/
def State.leaveJob (s : State) : State :=
  if !s.activeParts.isEmpty then s
  else { s with
    plan := { s.plan with
      state := 0
      armed := none
      launchBarrier := none
      localCauses := []
      episodes := []
      thermalEnd := none
      debt := 0 }
    fab := { s.fab with jobValid := false } }

/-- Time that a teardown scrub takes while no stack is HOT (R410: about 29.3 s; DESIGN CHOICE, notes/assumptions/46.md). -/
def scrubTime : Nat := 29300 * tuMs

/-- ENABLE written with 0 while ACTIVE: streams stop, the sync check runs, pools, watches and rounds are emptied, and the
scrub begins (R410). -/
def State.beginScrub (s : State) (p : Nat) : State :=
  let rows := rowTiles (s.pt p).res.rows
  let s := (s.syncCheck p).emptyPools p
  let s := rows.foldl (fun s t => (s.modTile t Tile.stop).modTs t fun _ => TileSync.reset) s
  let s := s.modSy p fun y => { y with barriers := Vector.replicate 32 Barrier.reset }
  let s := ((s.clearTables p).dropRun p false).setWings p 0
  let s := s.modPt p fun b => { b with
    stage := CfgSet.reset
    wings := CfgSet.reset
    rebound := none
    keys := PartKeys.reset
    wlRunning := none
    curtainArm := none
    curtainPause := none
    launched := none
    relaunchAt := none
    resumeUnit := none
    faultStop := false
    stageReady := []
    epoch := 0
    scrubStart := s.wall
    scrubEnd := s.wall + scrubTime }
  (s.setPartState p 2).leaveJob.refreshFabric

/-- PART.CTRL.ENABLE written with 0 (R400, R410, R411). -/
def State.partDisable (s : State) (p : Nat) : State :=
  let st := (s.pt p).state
  if st = 1#3 then s.beginScrub p
  else if st = 3#3 then s.setPartState p 2
  else if st = 4#3 then s.setPartState p 0
  else s

/-- TEARDOWN (R308, R400, R410, R411). -/
def execTeardown (p : PartId) (s : State) : Host.Outcome State Fault Refusal :=
  .next (s.ifReady fun s => s.partDisable p)

/-- A word of a pseudo-channel could not be written: unusable, and F-0604. The command does not say which word, so that
part of the record is free (R184, R410, R492). -/
def State.scrubFailed (s : State) (p k c : Nat) : State :=
  let w := s.draw 26
  let s := w.2.modChan k c fun x => { x with usable := false }
  s.logFault (s.fault 0x604 5 (stackObj c w.1.toNat) (some p) k)

/-- Every word of the partition's tiles and slice erased (R410). -/
def State.erase (s : State) (p : Nat) : State :=
  let r := (s.pt p).res
  let s := (rowTiles r.rows).foldl (fun s t => s.modTile t Tile.scrub) s
  (List.range 8).foldl (fun s k => (bitsOf r.slice).foldl (fun s c => s.modChan k c Channel.scrub) s) s

/-- The partitions whose wait for resources is over are checked again and enabled. What was written while they waited stays
pending, since no teardown came before (R400, R401, R501). -/
def State.retryWaiting (s : State) : State :=
  (List.range 16).foldl (fun s q =>
    if (s.pt q).state = 4#3 && !s.enableWaits q (s.pt q).res then s.checkEnable q else s) s

/-- SCRUB_DONE (R336, R400, R401, R410 to R412): the scrub ends, with the pseudo-channels whose writes failed; a chained
restart enables the partition again, and waiting partitions and binds go on. -/
def execScrubDone (p : PartId) (fails : List (StackId × ChId)) (s : State) : Host.Outcome State Fault Refusal :=
  let b := s.pt p
  if !s.alive || !(b.state = 2#3 || b.state = 3#3) || s.wall < b.scrubEnd then .next s
  else
    let s := s.erase p
    let s := (fails.filter fun x => b.res.slice.getLsbD x.2.val).foldl (fun s x => s.scrubFailed p x.1 x.2) s
    let s := if b.state = 3#3 then s.enable p else s.setPartState p 0
    .next s.retryWaiting.continueRun

/-! ### Wings loads (R403, R404, R409) -/

/-- A parameter block read from its 1,088 bytes (R403). -/
def paramsOf (raw : List (BitVec 8)) : Params :=
  let cfg := fieldN raw 12 4
  { stringBase := fieldN raw 0 4
    stringStride := fieldN raw 4 4
    stringCount := fieldN raw 8 4
    bud :=
      { chargePrompt := cfg.testBit 0
        specEn := cfg.testBit 1
        admitReserve := BitVec.ofNat 32 (fieldN raw 16 4)
        pageQuota := BitVec.ofNat 24 (fieldN raw 20 4) }
    profiles := (List.range 16).map fun k => lineOfBytes ((raw.drop (64 + 64 * k)).take 64)
    raw := raw }

/-- Wings LOADING, with no mapping (R404). -/
def State.beginLoad (s : State) (p : Nat) : State :=
  ((s.dropRun p true).modPt p fun b => { b with wings := { b.wings with mapped := false } }).setWings p 1

/-- PART.WL_CTRL.GO written with 1 (R404, R409): while ARMED the load is chained behind the Curtain. -/
def State.wingsGo (s : State) (p : Nat) : State :=
  let b := s.pt p
  if b.state ≠ 1#3 || b.wlRunning.isSome then s
  else
    let s := s.modPt p fun b => { b with wlRunning := some (b.wlAddr, b.wlLen, b.wlTarget) }
    if b.wingsState = 5#3 then s.setWings p 6 else s.beginLoad p

/-- WINGS_LOAD (R404, R409). -/
def execWingsLoad (p : PartId) (s : State) : Host.Outcome State Fault Refusal :=
  .next (s.ifReady fun s => s.wingsGo p)

/-- A load that ended in error leaves Wings EMPTY (R404). -/
def State.loadFailed (s : State) (p : Nat) (cpl : Bool) : State :=
  let s : State := if cpl then { s with pcie := { s.pcie with cplErr := satInc s.pcie.cplErr } } else s
  (s.modPt p fun b => { b with
    wlError := true
    wings := CfgSet.reset }).setWings p 0

/-- The set with what a load brought; none where it does not fit TARGET and LEN (R404, R421). -/
def loadInto (w : CfgSet) (run : BitVec 64 × BitVec 32 × Bool) : LoadResult → Option CfgSet
  | .error => none
  | .image i => if !run.2.2 && run.2.1.toNat ≤ 268435456 then some { w with image := some i } else none
  | .params q =>
    let raw := q.raw.take 1088
    if run.2.2 && run.2.1.toNat = 1088 && raw.length = 1088 && ((raw.drop 24).take 40).all (· = 0#8) then
      some { w with params := some (paramsOf raw) }
    else none

/-- WINGS_LOAD_DONE (R404, R436): LOADED once both parts are present; an error status, or reserved bytes not 0, leave Wings
EMPTY with ERROR set. -/
def execWingsLoadDone (p : PartId) (res : LoadResult) (s : State) : Host.Outcome State Fault Refusal :=
  let b := s.pt p
  match b.wlRunning with
  | none => .next s
  | some run =>
    if !s.alive || b.wingsState ≠ 1#3 then .next s
    else
      let s := s.modPt p fun x => { x with wlRunning := none }
      match loadInto b.wings run res with
      | none => .next ((s.loadFailed p (res = .error)).signal 0 4)
      | some w =>
        let s := s.modPt p fun x => { x with wings := w }
        .next ((if w.image.isSome && w.params.isSome then s.setWings p 2 else s).signal 0 4)

/-! ### Curtains (R267, R280, R306, R403, R406 to R409) -/

/-- The conditions of R267 under which requests persist: the same P, V, CODE, E_MAX, PROMPT_MAX and String table. -/
def keepsRequests (old new : CfgSet) : Bool :=
  let decl (x : CfgSet) : Option (List Nat) := (x.image.bind (·.serving)).map fun v => [v.p, v.v, v.code, v.eMax, v.promptMax]
  let strings (x : CfgSet) : List Nat := (x.params.map fun (q : Params) => [q.stringBase, q.stringStride, q.stringCount]).getD []
  (decl old).isSome && decide (decl old = decl new) && decide (strings old = strings new)

/-- The String map is cleared, and the boundary retires every live entry with status RESET, once the ended step is checked and
charged (R252, R261, R267, R273). -/
def State.resetRequests (s : State) (p : Nat) : State :=
  s.modSq p fun q => { q with
    strMap := []
    resetAll := true }

/-- A Curtain to a plan that does not serve: no boundary follows, so the ended step is checked and charged, and the live
entries retire, at the tick (DESIGN CHOICE, notes/assumptions/78.md). -/
def State.lastBoundary (s : State) (p : Nat) (i : Image) (sv : Serving) : State :=
  let b : Bnd := {
    s := s.modSq p fun q => { q with resetAll := true }
    p := p
    tick := s.plan.geyser
    i := i
    sv := sv
    t := if (s.sq p).tdom then s.time.b.ns else s.time.a.ns
    n := s.unitNo p
    units := []
    outs := []
    reps := []
    subs := []
    led := []
    writes := []
    pageWrites := []
    prompts := []
    fetches := []
    slots := []
    tl := 0
    ctl := 0
    sub := 0
    prompt := 0
    space := 0
    logged := none }
  match b.mismatch with
  | some s => s
  | none =>
    let b := b.outcomes
    b.s.modSq p fun q => { q with
      retiring := b.outs
      strMap := []
      slots := []
      inStep := false
      oldReturns := [] }

/-- What a Curtain to a set without a serving plan does first for the serving plan that it ends (R267). -/
def State.endServing (s : State) (p : Nat) : State :=
  match (s.img p).bind fun i => i.serving.map fun sv => (i, sv), (s.pt p).wings.image.bind (·.serving) with
  | some (i, sv), none => s.lastBoundary p i sv
  | _, _ => s

/-- The return records of the ended step as the old plan left them, for an image Curtain at a boundary tick (R252, R267). -/
def State.keepReturns (s : State) (p : Nat) : State :=
  match s.img p with
  | none => s
  | some i => match i.serving with
    | none => s
    | some sv =>
      if !(s.sq p).inStep then s
      else s.modSq p fun q => { q with oldReturns := (List.range sv.w).map fun k => s.planRead p i (sv.returnBase + k) }

/-- Sampler profiles written into the plan's profile region (R403). -/
def State.writeProfiles (s : State) (p : Nat) : State :=
  let b := s.pt p
  match b.stage.image, b.stage.params with
  | some i, some q => match i.serving with
    | some sv => s.regionNow p i (q.profiles.zipIdx.map fun x => (sv.profileBase + x.2, x.1))
    | none => s
  | _, _ => s

/-- Stage and Wings exchanged; the old Stage is BOUND, or EMPTY where there was none, and a chained load starts (R407,
R409). -/
def State.exchange (s : State) (p : Nat) : State :=
  let s := s.endServing p
  let b := s.pt p
  let cfg := (s.bd p).cfg
  let chained := b.wlRunning.isSome
  let s := s.modPt p fun b => { b with
    stage := b.wings
    wings := { b.stage with params := b.stage.params.map fun (q : Params) => { q with bud := cfg } }
    rebound := none
    curtainArm := none
    curtains := satInc b.curtains }
  let s := s.modBd p fun x => match b.wings.params with
    | some q => { x with cfg := q.bud }
    | none => x
  let s := s.modSq p fun q => { q with declChecked := false }
  let s := if b.wings.image.any (·.serving.isSome) && !keepsRequests b.stage b.wings then s.resetRequests p else s
  if chained then s.beginLoad p else s.setWings p (if b.stage.image.isSome then 4 else 0)

/-- A Curtain without a launched plan (R406): the new set comes in, and its launch follows R45. -/
def State.curtainNow (s : State) (p : Nat) : State :=
  (((s.exchange p).installMapping p).loadTiles p).writeProfiles p

/-- The two images are equal (R407). -/
def PartBank.sameImage (b : PartBank) : Bool :=
  match b.stage.image, b.wings.image with
  | some x, some y => x.digest = y.digest
  | _, _ => false

/-- A parameter Curtain (R407): tables, parameters and profiles swap; streams, tile SRAM and sync state are untouched. -/
def State.paramCurtain (s : State) (p : Nat) : State :=
  let x := (s.exchange p).installMapping p
  (x.keepRunning s p).writeProfiles p

/-- Streams ready for LAUNCH_AT := C, not yet running (R408). -/
def State.primeTiles (s : State) (p g : Nat) : State := (s.tilesOf p).foldl (fun s t => s.modTile t fun x => x.prime g) s

/-- An image Curtain (R408): the counter stops, the old plan's sync state is checked, and the new plan's tiles are loaded.
Frames and steps go on counting (DEDUCED, notes/assumptions/47.md). -/
def State.imageCurtain (s : State) (p c : Nat) : State :=
  let f := s.frameNo p
  let n := s.unitNo p
  let s := (s.keepReturns p).syncCheck p
  let s := (s.tilesOf p).foldl (fun s t => s.modTs t fun _ => TileSync.reset) s
  let s := s.exchange p
  let us := ((s.img p).map (·.pauseUs)).getD 1
  let s := s.modPt p fun b => { b with
    launched := some c
    relaunchAt := none
    resumeUnit := none
    tickAt := c
    frameBase := f
    stepBase := n
    stageReady := []
    epoch := 0
    curtainPause := some (s.wall + ceilDiv (us * 625) 4 * tuLinkRef, c) }
  let s := (((s.installMapping p).loadTiles p).writeProfiles p).primeTiles p c
  { s with plan := { s.plan with counterWasStopped := true } }

/-- An arm rejected: F-0310 (R406). -/
def State.rejectCurtain (s : State) (p tick : Nat) : State :=
  let s := s.modPt p fun b => { b with curtainRejected := true }
  s.logFault (s.fault 0x310 0xC (tick % 2 ^ 32) (some p))

/-- PART.CTRL.CURTAIN_ARM written with 1 (R31, R406). -/
def State.curtainArm (s : State) (p : Nat) : State :=
  let b := s.pt p
  let g := b.curtainAt.toNat
  if b.wingsState ≠ 4#3 then s.rejectCurtain p g
  else if b.launched.isNone then s.curtainNow p
  else if !s.isTick p g || (0 < s.stepFrames p && !s.isBoundary p g) then s.rejectCurtain p g
  else if g < s.plan.geyser then s.tickPassed g 0 (some p)
  else (s.modPt p fun x => { x with curtainArm := some g }).setWings p 5

/-- CURTAIN_ARM (R31, R406). -/
def execCurtainArm (p : PartId) (s : State) : Host.Outcome State Fault Refusal :=
  .next (s.ifReady fun s => s.curtainArm p)

/-- A watch or round is open at the tick: F-0405, and the Curtain is not applied (R306, R409). -/
def State.curtainOpen (s : State) (p : Nat) (x : Nat × Nat × Option Nat) : State :=
  let s := s.modPt p fun b => { b with curtainArm := none }
  let s := if (s.pt p).wlRunning.isSome then s.beginLoad p else s.setWings p 4
  s.faultHold (s.fault 0x405 3 (x.2.1 + x.1 * 65536) (some p))

/-- CURTAIN (R30, R306, R407 to R409): at the armed tick, after any snapshot or checkpoint of it. -/
def execCurtain (p : PartId) (s : State) : Host.Outcome State Fault Refusal :=
  let b := s.pt p
  match b.curtainArm with
  | none => .next s
  | some c =>
    if s.plan.geyser ≠ c || !s.alive || s.recordLeft c then .next s
    else match firstSync (s.openSync p) with
      | some x => .next (s.curtainOpen p x)
      | none => .next (if b.sameImage then s.paramCurtain p else s.imageCurtain p c)

/-- CURTAIN_PAUSE_END (R408): the pause has lasted its cycles of the shared reference; the new plan runs from C. A preload
that is not complete raises a DATA_LATE episode until it is. -/
def execCurtainPauseEnd (p : PartId) (ready : Bool) (s : State) : Host.Outcome State Fault Refusal :=
  match (s.pt p).curtainPause with
  | some (e, _) =>
    if s.wall < e || !s.alive then .next s
    else
      let s := (s.modPt p fun b => { b with curtainPause := none }).startTiles p
      .next (if ready then s else s.raiseCause 1 (.preload p))
  | none => .next (if ready then s.clearCause (.preload p) else s)

end Sys2Proof.Machine
end

