-- ==== Sys2Proof/Machine/Sec.lean ====
section
/-! DEFINITION. Attestation, key delivery and management keys (R412 to R420, R422). -/

namespace Sys2Proof.Machine
open Sys2Proof

/-- A byte string of exactly `n` bytes. -/
def fitBytes (n : Nat) (l : List (BitVec 8)) : List (BitVec 8) := (l ++ List.replicate n 0).take n

/-! ### Attestation (R414, R415) -/

/-- The bytes of a partition's resource fields, in the row order of R399 (R415; DEDUCED, notes/assumptions/48.md). -/
def PartRes.bytes (r : PartRes) : List (BitVec 8) :=
  bytesOf 2 r.rows.toNat ++ bytesOf 4 r.slice.toNat ++ bytesOf 2 r.tableBase.toNat ++ bytesOf 2 r.tableCount.toNat
    ++ bytesOf 2 r.bktBase.toNat ++ bytesOf 4 r.bktCount.toNat ++ bytesOf 3 r.poolPages.toNat ++ [BitVec.ofNat 8 (bn r.encrypt)]
    ++ bytesOf 4 r.devArea.toNat ++ [r.job]

/-- The digest of a set's plan image; 0 where it holds none (R415). -/
def CfgSet.imageDigest (x : CfgSet) : BitVec 512 := (x.image.map (·.digest)).getD 0

/-- The bytes of a set's parameter block; none where it holds none. -/
def CfgSet.paramBytes (x : CfgSet) : List (BitVec 8) := (x.params.map (·.raw)).getD []

/-- Slots of a partition that hold a key (R415, R422). -/
def PartKeys.installed (k : PartKeys) : Nat :=
  ((List.range 4).filter fun i => (vget k.xts i none).isSome || (vget k.gcm i none).isSome).foldl (fun a i => a + 2 ^ i) 0

/-- Bytes 56 to 319 of a report of partition `p`, or of the chip (R415; DEDUCED, notes/assumptions/48.md). -/
def State.reportBody (s : State) (p : Option Nat) : List (BitVec 8) :=
  let x := (p.map s.pt).getD PartBank.reset
  let fields : BitVec 512 := match p with
    | some _ => Config.sha512 (x.res.bytes ++ x.stage.paramBytes ++ x.wings.paramBytes)
    | none => 0
  bytesOf 64 s.fwu.digest.toNat ++ bytesOf 64 x.stage.imageDigest.toNat ++ bytesOf 64 x.wings.imageDigest.toNat
    ++ bytesOf 64 fields.toNat ++ [x.state.setWidth 8, BitVec.ofNat 8 (bn s.top.determine)]
    ++ [BitVec.ofNat 8 (match p with
      | some _ => x.keys.installed
      | none => bn s.sec.mgmtCur.isSome)] ++ bytesOf 5 0

/-- Bytes 0 to 1,535 of a report (R415). -/
def State.reportHead (s : State) (p : Option Nat) (counter : BitVec 64) (k : ReportPair) : List (BitVec 8) :=
  bytesOf 2 1 ++ [BitVec.ofNat 8 (p.getD 0xFF), 0] ++ bytesOf 3 s.pcie.self.toNat ++ [s.fuses.grade.setWidth 8]
    ++ bytesOf 8 s.fuses.serial.toNat ++ bytesOf 8 counter.toNat ++ bytesOf 32 k.nonce.toNat ++ s.reportBody p
    ++ bytesOf 32 (Config.x25519Public k.x25519).toNat ++ fitBytes 1184 (Config.mlkemPublic k.mlkem)

/-- An identity seed: HKDF-SHA-512 of the device secret with an all-zero salt and an info string (R413). -/
def State.identitySeed (s : State) (info : String) : BitVec 256 :=
  Config.hkdf (List.replicate 64 0) (bytesOf 32 s.sec.secret.toNat) (info.toUTF8.toList.map fun b => BitVec.ofNat 8 b.toNat)

/-- Both signatures of the device over the same bytes, under the key pairs formed from its two seeds (R413, R414). -/
def State.signatures (s : State) (m : List (BitVec 8)) : List (BitVec 8) :=
  fitBytes 64 (Config.signEd25519 (s.identitySeed "Skaor K2 identity Ed25519") m)
    ++ fitBytes 3309 (Config.signMlDsa (s.identitySeed "Skaor K2 identity ML-DSA-65") m)

/-- A report of a subject: fresh key pairs, which replace the subject's earlier ones, and both signatures (R414, R415). -/
def State.makeReport (s : State) (p : Option Nat) : State :=
  let a := s.rng 256
  let b := a.2.rng 512
  let s := b.2
  let n := s.sec.counter + 1
  let k : ReportPair := { ReportPair.reset with
    counter := n
    x25519 := a.1
    mlkem := b.1
    nonce := s.sec.nonce }
  let head := s.reportHead p n k
  let k := { k with digest := Config.sha512 head }
  let s := match p with
    | some q => s.modPt q fun x => { x with keys := { x.keys with pair := some k } }
    | none => { s with sec := { s.sec with chipPair := some k } }
  ({ s with sec := { s.sec with
    counter := n
    reqDone := true
    report := head ++ s.signatures head ++ bytesOf 3 0 } } : State).signal 0 3

/-- A partition in teardown has no report (R412). -/
def State.reportRefused (s : State) (p : Nat) : Bool := (s.pt p).state = 2#3 || (s.pt p).state = 3#3

/-- SEC.REQ.GO written with 1 (R412, R415). -/
def State.requestReport (s : State) : State :=
  let s : State := { s with sec := { s.sec with reqDone := false } }
  if !s.alive || !s.sec.identity then s
  else if s.sec.reqChip then s.makeReport none
  else if s.reportRefused s.sec.reqPart.toNat then s
  else s.makeReport (some s.sec.reqPart.toNat)

/-- ATTESTATION_REQUEST (R412, R415). -/
def execAttestationRequest (s : State) : Host.Outcome State Fault Refusal := .next s.requestReport

/-! ### Key delivery (R416 to R418) -/

/-- The subject of a delivery record: a partition, the chip, or neither. -/
inductive Subject where
  | part (p : Nat)
  | chip
  | none
  deriving DecidableEq, Repr

/-- The subject that byte 2 names (R416). -/
def subjectOf (b : Nat) : Subject := if b < 16 then .part b else if b = 0xFF then .chip else .none

/-- The key pairs of a subject's newest report. -/
def State.pairOf (s : State) : Subject → Option ReportPair
  | .part p => (s.pt p).keys.pair
  | .chip => s.sec.chipPair
  | .none => none

/-- The slot is allowed for the subject, and a partition is ACTIVE (R416, R417). -/
def State.deliveryAllowed (s : State) (slot : Nat) : Subject → Bool
  | .part p => (slot = 1 || slot = 2) && (s.pt p).state = 1#3
  | .chip => slot = 0
  | .none => false

/-- The key that a delivery record wraps; none in the cases of R417. -/
def State.unwrapKey (s : State) (r : List (BitVec 8)) : Option (BitVec 256) :=
  let who := subjectOf (fieldN r 2 1)
  let clean := zeroN r 1148 4 && (who = .chip || zeroN r 4 4)
  match s.pairOf who with
  | none => none
  | some k =>
    let x := Config.x25519 k.x25519 (BitVec.ofNat 256 (fieldN r 16 32))
    if !clean || !s.deliveryAllowed (fieldN r 3 1) who || fieldN r 8 8 ≠ k.counter.toNat || x = 0 then none
    else
      let ss := Config.mlkemDecap k.mlkem ((r.drop 48).take 1088)
      let info := "Skaor K2 KEK".toUTF8.toList.map (fun b => BitVec.ofNat 8 b.toNat) ++ bytesOf 64 k.digest.toNat
      let kek := Config.hkdf (bytesOf 32 k.nonce.toNat) (bytesOf 32 ss.toNat ++ bytesOf 32 x.toNat) info
      (Config.gcmOpen kek (BitVec.ofNat 96 (fieldN r 1136 12)) (r.take 1152) ((r.drop 1152).take 32)
        (BitVec.ofNat 128 (fieldN r 1184 16))).map fun key => BitVec.ofNat 256 (natOfBytes (key.take 32))

/-- A key installed in a slot of a partition: its transport key, with a fresh at-rest key pair for a slot's first (R418). -/
def State.installKey (s : State) (p slot : Nat) (key : BitVec 256) : State :=
  let first := (vget (s.pt p).keys.xts slot none).isNone
  let d := s.rng 512
  let s := if first then d.2 else s
  s.modPt p fun b => { b with keys := { b.keys with
    gcm := vset b.keys.gcm slot (some key)
    xts := if first then vset b.keys.xts slot (some d.1) else b.keys.xts
    deliveries := satInc b.keys.deliveries
    pair := none } }

/-- A management key installed: as next while there is a current one, else as current (R419). -/
def State.installMgmt (s : State) (epoch : BitVec 32) (key : BitVec 256) : State :=
  let sec := { s.sec with chipPair := none }
  { s with sec := if sec.mgmtCur.isSome then { sec with mgmtNext := some (epoch, key) } else { sec with mgmtCur := some (epoch, key) } }

/-- SEC.DELIVER.GO written with 1: the record in SEC.BUF installs its key and destroys the report's key pairs, or F-0602
(R416 to R418). -/
def State.deliver (s : State) : State :=
  let r := Memory.readBytes s.sec.input 0 1200
  let slot := fieldN r 3 1
  let s := match s.unwrapKey r, subjectOf (fieldN r 2 1) with
    | some key, .part p => s.installKey p slot key
    | some key, .chip => s.installMgmt (BitVec.ofNat 32 (fieldN r 4 4)) key
    | _, who =>
      let p : Option Nat := match who with
        | .part p => some p
        | _ => none
      ({ s with sec := { s.sec with deliverFailed := true } } : State).logFault (s.fault 0x602 0xE (fieldN r 2 1 % 16 + slot * 256) p)
  s.signal 0 3

/-- KEY_DELIVERY (R416 to R419). -/
def execKeyDelivery (s : State) : Host.Outcome State Fault Refusal := .next (if s.alive then s.deliver else s)

/-! ### Management keys (R420) -/

/-- SEC.MGMT_CTRL.PROMOTE written with 1: next becomes current, and the old key with what was received under it is gone
(R419, R420). -/
def State.promote (s : State) : State :=
  match s.sec.mgmtNext with
  | none => s
  | some k => { s with
      sec := { s.sec with
        mgmtCur := some k
        mgmtNext := none }
      vent := { s.vent with seen := s.vent.seen.filter fun x => x.1 = k.1 } }

/-- MGMT_PROMOTE (R420). -/
def execMgmtPromote (s : State) : Host.Outcome State Fault Refusal := .next s.promote

/-- SEC.MGMT.TX written: the epoch used to send must name the current or the next key; MSG_ID counts afresh in each epoch
(R420). -/
def State.writeMgmtTx (s : State) (v : BitVec 32) : State :=
  if (s.sec.mgmtCur.toList ++ s.sec.mgmtNext.toList).any fun k => k.1 = v then
    { s with
      sec := { s.sec with mgmtTx := v }
      vent := if s.sec.mgmtTx = v then s.vent else { s.vent with nextId := 0 } }
  else s

end Sys2Proof.Machine
end

