-- ==== Sys2Proof/Machine/Pcie.lean ====
section
/-! DEFINITION. The PCI Express endpoint: resets of functions, Bus Master Enable, MSI-X, D3hot, refused accesses, the outbound
queue and the link (R424 to R439). -/

namespace Sys2Proof.Machine
open Sys2Proof

/-- The configuration space of a function at its reset values (R438, R439). -/
def PcieFn.resetConfig (x : PcieFn) : PcieFn :=
  { x with
    bme := false
    msixEn := false
    d3Pending := false
    d3 := false }

/-- The ring and step fields of an intake header that the host's fields put in force, at 0 (R242, R438). -/
def IntakeHdr.unconfigure (h : IntakeHdr) : IntakeHdr :=
  { h with
    base := 0
    log2 := 0
    seqword := 0
    irq := false }

/-- FLR (R438): the VF of partition `p` is reset; its queue, its intake fields and rings, and its staging reads in flight are
discarded. The partition, its plan, its table and its ledger are unchanged. It ends within 100 ms (DESIGN CHOICE, notes/assumptions/49.md). -/
def execFlr (p : PartId) (s : State) : Host.Outcome State Fault Refusal :=
  if !s.alive then .next s
  else
    let f := p.val + 1
    let n := (s.pcie.outq.filter fun w => w.fn = f).length
    let d := s.draw 64
    let s := d.2.modFn f fun x => { x.resetConfig with
      msixTable := Vector.replicate 8 0
      mask := 0xFF
      pba := 0
      flrEnd := some (s.wall + d.1.toNat % (100 * tuMs + 1)) }
    let s : State := { s with pcie := { s.pcie with
      outq := s.pcie.outq.filter fun w => w.fn ≠ f
      discarded := satAdd s.pcie.discarded n
      stgReads := s.pcie.stgReads.filter fun r => r.part.toNat ≠ p.val } }
    let s := s.modSq p fun q => { q with
      intake := []
      marked := []
      hdr := q.hdr.unconfigure }
    .next (issueStaging 4096 s)

/-- The link of the endpoint is down (R439, R443). -/
def PcieRegs.linkDown (x : PcieRegs) : PcieRegs :=
  { x with
    up := false
    speed := 0
    width := 0
    flit := false
    training := true }

/-- HOT_RESET (R439): a hot reset or a DL_Down. Queues, intake windows, partitions and jobs are kept. -/
def execHotReset (s : State) : Host.Outcome State Fault Refusal :=
  if !s.alive then .next s
  else .next { s with pcie := { s.pcie.linkDown with fns := s.pcie.fns.map PcieFn.resetConfig } }

/-- BUS_MASTER_ENABLE (R435): queued writes may be sent again, and staging reads are issued. -/
def execBusMasterEnable (f : FnId) (s : State) : Host.Outcome State Fault Refusal :=
  if !s.alive then .next s
  else .next (issueStaging 4096 (s.modFn f fun x => { x with bme := true }))

/-- MSIX_UNMASK (R436): the vector is unmasked with MSI-X enabled, and a pending message goes behind every write queued before
it (PRESUMED, notes/assumptions/6.md). -/
def execMsixUnmask (f : FnId) (v : VecIx) (s : State) : Host.Outcome State Fault Refusal :=
  if !s.alive then .next s
  else
    let m : BitVec 8 := BitVec.ofNat 8 (2 ^ v.val)
    let was := (s.fn f).pba.getLsbD v
    let s := s.modFn f fun x => { x with
      msixEn := true
      mask := x.mask &&& ~~~m
      pba := x.pba &&& ~~~m }
    .next (if was then s.signal f v else s)

/-- Every partition is OFF (R426). -/
def State.allOff (s : State) : Bool := s.parts.toList.all fun b => b.state = 0#3

/-- The PF in D3hot (R426). -/
def State.enterD3 (s : State) : State :=
  s.modFn 0 fun x => { x with
    d3Pending := false
    d3 := true }

/-- D3HOT_REQUEST (R426): accepted at any time; the PF enters D3hot only while every partition is OFF. -/
def execD3hotRequest (s : State) : Host.Outcome State Fault Refusal :=
  if !s.alive then .next s
  else .next (if s.allOff then s.enterD3 else s.modFn 0 fun x => { x with d3Pending := true })

/-- D3HOT_ENTRY (R426): the last partition has become OFF. -/
def execD3hotEntry (s : State) : Host.Outcome State Fault Refusal :=
  .next (if (s.fn 0).d3Pending && s.allOff then s.enterD3 else s)

/-- INVALID_ACCESS (R429): a write is discarded, a read completes with Unsupported Request; both are counted. -/
def execInvalidAccess (write : Bool) (s : State) : Host.Outcome State Fault Refusal :=
  if !s.alive then .next s
  else .next { s with pcie := { s.pcie with
    accessErr := satInc s.pcie.accessErr
    unsupported := s.pcie.unsupported || !write } }

/-- OUTBOUND_QUEUE_SEND (R432, R434, R435): the oldest queued write of a function that is a bus master leaves, while the link
is up. -/
def execOutboundQueueSend (f : FnId) (s : State) : Host.Outcome State Fault Refusal :=
  match s.pcie.outq.find? fun w => w.fn = f.val with
  | none => .next s
  | some w =>
    if !s.alive || !s.pcie.up || !(s.fn f).bme then .next s
    else .next { s with pcie := { s.pcie with
      outq := s.pcie.outq.erase w
      sent := [w] } }

/-- PCIE_LINK_UP (R424, R439, R443, R501): training that was started ends in L0, at a speed and width that the endpoint
supports. -/
def execPcieLinkUp (speed : BitVec 3) (width : BitVec 5) (flit : Bool) (s : State) : Host.Outcome State Fault Refusal :=
  let ok := 1 ≤ speed.toNat && speed.toNat ≤ 6 && [1, 2, 4, 8, 16].contains width.toNat && (flit || speed ≠ 6#3)
  if !s.alive || !s.pcie.training || !ok then .next s
  else .next { s with pcie := { s.pcie with
    up := true
    training := false
    speed := speed
    width := width
    flit := flit } }

end Sys2Proof.Machine
end

