-- ==== Sys2Proof/Machine/Service.lean ====
section
/-! DEFINITION. The service port, board flash and firmware update (R444 to R457). -/

namespace Sys2Proof.Machine
open Sys2Proof

/-! ### Ethernet (R445, R446) -/

/-- Frames of the service port are answered (DEDUCED, notes/assumptions/50.md). -/
def State.frameServed (s : State) : Bool := s.alive && s.svc.ethLink && s.fwu.booted

/-- A frame sent by the service port. -/
def State.sendFrame (s : State) (f : EthFrame) : State := { s with svc := { s.svc with frameOut := some f } }

/-- A received frame dropped and counted (R445). -/
def State.dropFrame (s : State) : State := { s with svc := { s.svc with rxDrop := satInc s.svc.rxDrop } }

/-- One of the two firmware slots: A (false) or B (R449). -/
def Flash.slot (f : Flash) (b : Bool) : Slot48 := if b then f.slotB else f.slotA

/-- A slot rewritten. -/
def Flash.setSlot (f : Flash) (b : Bool) (x : Slot48) : Flash := if b then { f with slotB := x } else { f with slotA := x }

/-- An accepted write request: the staging slot is erased and RECEIVING begins (R453). -/
def State.beginTransfer (s : State) (mac : BitVec 48) (blk : Nat) : State :=
  let s : State := { s with
    fwu := { s.fwu with
      tftp := some mac
      stage := 1 }
    flash := s.flash.setSlot (!s.fwu.running) Slot48.reset }
  (s.sendFrame (.tftpOack mac blk)).signal 0 7

/-- TFTP_WRITE_REQUEST (R445, R453, R454): octet mode with blksize 1,024 to 1,428; error 2 on a trial boot not confirmed,
error 3 while a transfer runs. -/
def execTftpWriteRequest (mac : BitVec 48) (octet : Bool) (blksize : Option Nat) (s : State) : Host.Outcome State Fault Refusal :=
  if !s.frameServed then .next s
  else match blksize with
    | none => .next s.dropFrame
    | some n =>
      if !octet || n < 1024 || 1428 < n then .next s.dropFrame
      else if s.fwu.trial && !s.fwu.confirmed then .next (s.sendFrame (.tftpError mac 2))
      else if s.fwu.tftp.isSome then .next (s.sendFrame (.tftpError mac 3))
      else .next (s.beginTransfer mac n)

/-- SERVICE_FRAME_DROP (R445). -/
def execServiceFrameDrop (s : State) : Host.Outcome State Fault Refusal := .next (if s.frameServed then s.dropFrame else s)

/-- SGMII_LINK_CHANGE (R469). -/
def execSgmiiLinkChange (up : Bool) (s : State) : Host.Outcome State Fault Refusal :=
  .next (if s.alive then { s with svc := { s.svc with ethLink := up } } else s)

/-- ARP_REQUEST (R445): answered for the K2's own address. -/
def execArpRequest (mac : BitVec 48) (ip target : BitVec 32) (s : State) : Host.Outcome State Fault Refusal :=
  .next (if s.frameServed && target = s.svc.ipv4 then s.sendFrame (.arp mac ip s.svc.ipv4) else s)

/-- ICMP_ECHO (R445): answered to the Ethernet source of the frame. -/
def execIcmpEcho (mac : BitVec 48) (ip target : BitVec 32) (body : List (BitVec 8)) (s : State) :
    Host.Outcome State Fault Refusal :=
  .next (if s.frameServed && target = s.svc.ipv4 then s.sendFrame (.echo mac ip body) else s)

/-- Domain A (false) or B of the time unit (R459). -/
def TimeRegs.dom (t : TimeRegs) (b : Bool) : Domain := if b then t.b else t.a

/-- A domain changed. -/
def TimeRegs.modDom (t : TimeRegs) (b : Bool) (f : Domain → Domain) : TimeRegs :=
  if b then { t with b := f t.b } else { t with a := f t.a }

/-- A domain's value interpolated to 1 ns within the reference period (R459). -/
def State.capture (s : State) (b : Bool) : BitVec 64 :=
  (s.time.dom b).ns + BitVec.ofNat 64 ((s.wall - (s.time.nextTick - tuTick)) / tuNs)

/-- PTP_EVENT_TIMESTAMP (R446): event messages have types 0 to 3; a full FIFO loses the timestamp. -/
def execPtpEventTimestamp (tx : Bool) (type : BitVec 4) (seqId : BitVec 16) (s : State) : Host.Outcome State Fault Refusal :=
  if !s.alive || !s.svc.ethLink || !s.svc.ptpEn || 3 < type.toNat then .next s
  else if 64 ≤ s.svc.ptpFifo.length then .next { s with svc := { s.svc with ptpLost := satInc s.svc.ptpLost } }
  else
    let x : PtpStamp :=
      { ns := s.capture s.svc.ptpDom
        frac := (s.time.dom s.svc.ptpDom).frac
        seqId := seqId
        msgType := type
        tx := tx }
    .next { s with svc := { s.svc with ptpFifo := s.svc.ptpFifo ++ [x] } }

/-- SVC.PTP_TS3 read: its value, and the oldest entry goes (R469). -/
def State.popPtp (s : State) : State :=
  { s with
    pcie := { s.pcie with readback := ((s.svc.ptpFifo.headD PtpStamp.reset).frac).setWidth 64 }
    svc := { s.svc with ptpFifo := s.svc.ptpFifo.drop 1 } }

/-- PTP_TS_POP (R446, R469). -/
def execPtpTsPop (s : State) : Host.Outcome State Fault Refusal := .next (s.ifReady (·.popPtp))

/-! ### I3C and JTAG (R447, R448) -/

/-- I3C_COMMIT_ADDRESS (R442, R447): the address bytes are written and 0xA5 commits them, once until a reset. -/
def execI3cCommitAddress (addr : BitVec 24) (s : State) : Host.Outcome State Fault Refusal :=
  if !s.alive then .next s
  else
    let s : State := { s with svc := { s.svc with i3cChip := addr } }
    if s.pcie.selfValid then .next s
    else .next { s with pcie := { s.pcie with
      self := addr
      selfValid := true } }

/-- ENTDAA (R444, R469): a target without a dynamic address takes the one assigned. -/
def execEntdaa (addr : BitVec 7) (s : State) : Host.Outcome State Fault Refusal :=
  if !s.alive || s.svc.i3cAssigned then .next s
  else .next { s with svc := { s.svc with
    i3cAddr := addr
    i3cAssigned := true } }

/-- A JTAG instruction in force, with the data register that it selects (R448). -/
def State.jtag (s : State) (ir : JtagIr) (dr : BitVec 32) : State :=
  { s with svc := { s.svc with
    jtagIr := ir
    jtagDr := dr
    extest := decide (ir = .extest) } }

/-- BYPASS (R448): the one-bit bypass register, which captures 0. -/
def execBypass (s : State) : Host.Outcome State Fault Refusal := .next (s.jtag .bypass 0)

/-- IDCODE (R448). -/
def execIdcode (s : State) : Host.Outcome State Fault Refusal := .next (s.jtag .idcode 0x1B2C6A4F)

/-- SAMPLE_PRELOAD (R448): the boundary-scan cells captured or preloaded, while the part runs on. -/
def execSamplePreload (cells : List Bool) (s : State) : Host.Outcome State Fault Refusal :=
  let s := s.jtag .samplePreload 0
  .next { s with svc := { s.svc with jtagPins := cells } }

/-- EXTEST (R448): the cells drive the pins. -/
def execExtest (s : State) : Host.Outcome State Fault Refusal := .next (s.jtag .extest 0)

/-! ### Boot records (R450) -/

/-- Copy 1 of the boot record governs: it is valid, and copy 0 is not or has the lower SEQ. -/
def Flash.copyOne (f : Flash) : Bool := f.rec1.valid && (!f.rec0.valid || decide (f.rec0.seq.toNat < f.rec1.seq.toNat))

/-- The governing boot record, if either copy is valid. -/
def Flash.governing (f : Flash) : Option BootRec :=
  if f.copyOne then some f.rec1 else if f.rec0.valid then some f.rec0 else none

/-- An update writes the copy that does not govern, with SEQ + 1. -/
def Flash.update (f : Flash) (r : BootRec) : Flash :=
  let r := { r with
    valid := true
    seq := r.seq + 1 }
  if f.copyOne then { f with rec0 := r } else if f.rec0.valid then { f with rec1 := r } else { f with rec0 := r }

/-- The governing record changed. -/
def State.updateRec (s : State) (f : BootRec → BootRec) : State :=
  match s.flash.governing with
  | some r => { s with flash := s.flash.update (f r) }
  | none => s

/-- A slot number of a boot record as a slot. -/
def slotNamed (b : BitVec 8) : Bool := b = 1#8

/-- A slot as a boot record names it. -/
def slotByte (b : Bool) : BitVec 8 := if b then 1 else 0

/-- The first failing check of R453, from 1; 0 where all pass. -/
def Slot48.failedStep (x : Slot48) (floor : BitVec 6) : Nat :=
  if !x.present || !x.magicOk then 1
  else if !x.sigOk then 2
  else if x.svn.toNat < floor.toNat then 3
  else if !x.hashOk then 4
  else 0

/-- A slot verifies whole (R453, R455). -/
def State.verifies (s : State) (b : Bool) : Bool := (s.flash.slot b).failedStep s.fwu.floor = 0

/-- TFTP_TRANSFER_END (R453): the image is verified; PENDING and STAGED, or FAILED with F-0605. -/
def execTftpTransferEnd (img : Slot48) (s : State) : Host.Outcome State Fault Refusal :=
  match s.fwu.tftp with
  | none => .next s
  | some mac =>
    if !s.alive then .next s
    else
      let b := !s.fwu.running
      let x := { img with present := true }
      let s : State := { s with
        flash := s.flash.setSlot b x
        fwu := { s.fwu with tftp := none } }
      let s := s.sendFrame (.tftpAck mac)
      let k := x.failedStep s.fwu.floor
      if k = 0 then
        let s := s.updateRec fun r => { r with pending := slotByte b }
        .next (({ s with fwu := { s.fwu with
          stage := 3
          staged := x.version } } : State).signal 0 7)
      else
        let s : State := { s with fwu := { s.fwu with
          stage := 4
          failCode := BitVec.ofNat 3 k } }
        .next ((s.logFault (s.fault 0x605 0x12 (bn b) none k)).signal 0 7)

/-! ### Boot (R455) -/

/-- What the ROM has chosen: the slot, whether it fell back, and the slot it abandoned. -/
structure BootPick where
  slot : Bool
  fell : Bool
  left : Bool
  deriving DecidableEq, Repr

/-- Slot selection with a governing record (R455). -/
def State.pickSlot (s : State) (r : BootRec) : BootPick × State :=
  let act := slotNamed r.active
  let p := if r.pending ≠ 0xFF#8 then
      let s := s.updateRec fun r => { r with
        trial := r.pending
        pending := 0xFF }
      ((⟨slotNamed r.pending, false, false⟩ : BootPick), s)
    else if r.trial ≠ 0xFF#8 then
      ((⟨act, true, slotNamed r.trial⟩ : BootPick), s.updateRec fun r => { r with trial := 0xFF })
    else ((⟨act, false, false⟩ : BootPick), s)
  if !p.2.verifies p.1.slot && p.1.slot ≠ act then (⟨act, true, p.1.slot⟩, p.2.updateRec fun r => { r with trial := 0xFF })
  else p

/-- Slot selection where neither copy of the record is valid: a record is written, whose SEQ and STACK_OK the spec does not
give (R450; DESIGN CHOICE, notes/assumptions/4.md). -/
def State.pickFresh (s : State) : BootPick × State :=
  let b := !s.verifies false
  let q := s.draw 32
  let k := q.2.draw 8
  let r := { BootRec.reset with
    valid := true
    seq := q.1
    active := slotByte b
    stackOk := k.1 }
  (⟨b, false, false⟩, { k.2 with flash := { k.2.flash with rec0 := r } })

/-- Every component of a slot loaded (R452, R455): the manifest's values come into force, and the ports' versions. The
management core, which runs from here on, trains the stacks (R211; DESIGN CHOICE, notes/assumptions/67.md). -/
def State.loadSlot (s : State) (p : BootPick) : State :=
  let x := s.flash.slot p.slot
  let onTrial := ((s.flash.governing.map (·.trial)).getD 0xFF) ≠ 0xFF#8
  { s with
    fwu := { s.fwu with
      running := p.slot
      trial := onTrial
      fellBack := p.fell
      version := x.version
      svn := x.svn
      planAbi := x.planAbi
      hostConfirm := x.hostConfirm
      digest := x.digest
      booted := true
      fwFallback := p.fell }
    stackBanks := s.stackBanks.map fun y => if y.state = 0#2 then { y with state := 1 } else y
    links := s.links.map fun l => { l with
      verMin := x.linkMin
      verMax := x.linkMax } }

/-- ROM_BOOT (R413, R450, R455): one verified slot is loaded whole, or the ROM halts. -/
def execRomBoot (s : State) : Host.Outcome State Fault Refusal :=
  if !s.alive || s.fwu.booted || s.fwu.halted then .next s
  else
    let p := match s.flash.governing with
      | some r => s.pickSlot r
      | none => s.pickFresh
    if !p.2.verifies p.1.slot then .next { p.2 with fwu := { p.2.fwu with halted := true } }
    else
      let s := p.2.loadSlot p.1
      .next (if p.1.fell then s.logFault (s.fault 0x607 0x12 (bn p.1.left)) else s)

/-- FW_LOAD_DONE (R361, R413, R480): firmware has set ENABLE on every port, every component runs, and the other blocks take
writes. -/
def execFwLoadDone (s : State) : Host.Outcome State Fault Refusal :=
  if !s.alive || !s.fwu.booted || s.top.fwReady then .next s
  else
    let s := (List.range 12).foldl (fun s n => s.writeEnable n true) s
    .next { s with
      top := { s.top with fwReady := true }
      sec := { s.sec with identity := true } }

/-! ### Confirmation (R456, R457) -/

/-- Seconds left to confirm a trial boot (R456, R470). -/
def State.confirmLeft (s : State) : Nat :=
  match s.fwu.confirmStart with
  | none => 300
  | some w => 300 - (s.wall - w) / (1000 * tuMs)

/-- A confirmation: ACTIVE := TRIAL, TRIAL := 0xFF, STACK_OK := the stacks now READY (R456). -/
def State.confirm (s : State) : State :=
  let ok : BitVec 8 := ofBits 8 ((List.range 8).filter fun k => (s.stk k).state = 2#2)
  let s := s.updateRec fun r => { r with
    active := r.trial
    trial := 0xFF
    stackOk := ok }
  ({ s with fwu := { s.fwu with confirmed := true } } : State).signal 0 7

/-- A write of 1 to FWU.HEALTH_CONFIRM by the host or by firmware (R456). -/
def State.healthConfirm (s : State) (host : Bool) : State :=
  if s.alive && s.fwu.booted && s.fwu.trial && !s.fwu.confirmed && s.fwu.selftest && 0 < s.confirmLeft
      && (host || !s.fwu.hostConfirm) then s.confirm
  else s

/-- HEALTH_CONFIRM (R456, R470). -/
def execHealthConfirm (host : Bool) (s : State) : Host.Outcome State Fault Refusal := .next (s.healthConfirm host)

/-- The conditions of self-test: every usable tile scrubbed without an uncorrectable error, and every stack of STACK_OK READY
(R59, R211, R456). -/
def State.selftestHolds (s : State) : Bool :=
  (s.tiles.toList.all fun t => t.state = 0#3 || (t.scrubbed && !t.eccUeValid))
    && (bitsOf ((s.flash.governing.map (·.stackOk)).getD 0)).all fun k => (s.stk k).state = 2#2

/-- SELFTEST_PASS (R456): with HOST_CONFIRM 0 firmware writes the confirmation itself. -/
def execSelftestPass (s : State) : Host.Outcome State Fault Refusal :=
  if !s.alive || !s.fwu.booted || !s.selftestHolds then .next s
  else .next (({ s with fwu := { s.fwu with selftest := true } } : State).healthConfirm false)

/-- FW_CONFIRM_EXPIRED (R456): EXPIRED and F-0606; the part runs on. -/
def execFwConfirmExpired (s : State) : Host.Outcome State Fault Refusal :=
  if !s.alive || !s.fwu.trial || s.fwu.confirmed || s.fwu.expired || 0 < s.confirmLeft then .next s
  else
    let s : State := { s with fwu := { s.fwu with expired := true } }
    .next ((s.logFault (s.fault 0x606 0x12 (bn s.fwu.running))).signal 0 7)

/-- FWU.CTRL.CANCEL_STAGE written with 1: PENDING is cleared and STAGE is IDLE; a transfer in progress ends (R454). -/
def State.cancelStage (s : State) : State :=
  let s : State := { s with fwu := { s.fwu with
    stage := 0
    tftp := none } }
  s.updateRec fun r => { r with pending := 0xFF }

/-- CANCEL_STAGE (R454). -/
def execCancelStage (s : State) : Host.Outcome State Fault Refusal := .next (if s.alive then s.cancelStage else s)

/-- FWU.CTRL.SVN_COMMIT written with 1: the floor rises to the running SVN, while TRIAL is 0 (R457). -/
def State.svnCommit (s : State) : State :=
  if s.fwu.trial || s.fwu.svn.toNat ≤ s.fwu.floor.toNat then s else { s with fwu := { s.fwu with floor := s.fwu.svn } }

/-- SVN_COMMIT (R457). -/
def execSvnCommit (s : State) : Host.Outcome State Fault Refusal := .next (if s.alive && s.fwu.booted then s.svnCommit else s)

end Sys2Proof.Machine
end

