-- ==== Sys2Proof/Machine/TimeUnit.lean ====
section
/-! DEFINITION. The time unit: increments, adjustments, steps, PPS, triggers, the event log and its reference
(R459 to R465, R471). -/

namespace Sys2Proof.Machine
open Sys2Proof

/-! ### Domains (R459 to R461) -/

/-- An increment lies within 7.5 to 8.5 ns (R459). -/
def incOk (ns : BitVec 4) (frac : BitVec 32) : Bool :=
  let v := ns.toNat * 2 ^ 32 + frac.toNat
  decide (15 * 2 ^ 31 ≤ v) && decide (v ≤ 17 * 2 ^ 31)

/-- TIME.STATUS.INC_REJECT set. -/
def State.incRejected (s : State) : State := { s with time := { s.time with incReject := true } }

/-- A domain changed. -/
def State.modDom (s : State) (b : Bool) (f : Domain → Domain) : State := { s with time := s.time.modDom b f }

/-- TIME.x_INC_FRAC written: the pair is committed, or rejected outside the range (R459). -/
def State.incCommit (s : State) (dom : Bool) (val : BitVec 32) : State :=
  let s := s.modDom dom fun d => { d with wrFrac := val }
  let ns := (s.time.dom dom).wrNs
  if incOk ns val then s.modDom dom fun d => { d with
    incNs := ns
    incFrac := val }
  else s.incRejected

/-- TIME_INC_COMMIT (R459, R471). -/
def execTimeIncCommit (dom : Bool) (val : BitVec 32) (s : State) : Host.Outcome State Fault Refusal :=
  .next (s.ifReady fun s => s.incCommit dom val)

/-- TIME.ADJ_CTRL.GO written with 1: the domain's temporary increment starts, or INC_REJECT is set (R460). -/
def State.adjust (s : State) : State :=
  let t := s.time
  if incOk t.adjNs t.adjFrac && t.adjTicks ≠ 0 then s.modDom t.adjDom fun d => { d with
    adjNs := t.adjNs
    adjFrac := t.adjFrac
    adjLeft := t.adjTicks }
  else s.incRejected

/-- TIME_ADJUST (R460). -/
def execTimeAdjust (dom : Bool) (s : State) : Host.Outcome State Fault Refusal :=
  .next (s.ifReady fun s => ({ s with time := { s.time with adjDom := dom } } : State).adjust)

/-- TIME_ADJUST_END (R460): the ticks have run out, and the domain's own increment is in force. -/
def execTimeAdjustEnd (dom : Bool) (s : State) : Host.Outcome State Fault Refusal :=
  if (s.time.dom dom).adjLeft ≠ 0 then .next s
  else .next (s.modDom dom fun d => { d with
    adjNs := 8
    adjFrac := 0 })

/-- TIME.SET_CTRL.GO_x written with 1: the step is made at the next tick (R460). -/
def State.setDomain (s : State) (dom : Bool) : State := s.modDom dom fun d => { d with setPending := some s.time.setNs }

/-- TIME_SET_A (R460). -/
def execTimeSetA (s : State) : Host.Outcome State Fault Refusal := .next (s.ifReady fun s => s.setDomain false)

/-- TIME_SET_B (R460). -/
def execTimeSetB (s : State) : Host.Outcome State Fault Refusal := .next (s.ifReady fun s => s.setDomain true)

/-- TIME_ACTIVE_WRITE (R461): TIME.CTRL.ACTIVE, which drives PPS_OUT from the next tick. -/
def execTimeActiveWrite (dom : Bool) (s : State) : Host.Outcome State Fault Refusal :=
  .next (s.ifReady fun s => { s with time := { s.time with active := dom } })

/-! ### PPS (R462) -/

/-- PPS_OUT (R461, R462): the driving domain has reached a whole second. -/
def execPpsOut (s : State) : Host.Outcome State Fault Refusal :=
  if !s.alive || !s.time.ppsDue || !s.time.ppsOutEn then .next s
  else .next { s with
    time := { s.time with
      ppsDue := false
      ppsEnd := some (s.wall + s.time.ppsWidth.toNat * tuUs) }
    pins := { s.pins with ppsOut := true } }

/-- PPS_OUT low, with no pulse in progress. -/
def State.ppsLow (s : State) : State :=
  { s with
    time := { s.time with ppsEnd := none }
    pins := { s.pins with ppsOut := false } }

/-- PPS_OUT_END (R462): the pulse has lasted TIME.PPS_WIDTH. -/
def execPpsOutEnd (s : State) : Host.Outcome State Fault Refusal :=
  match s.time.ppsEnd with
  | some e => .next (if s.wall < e || !s.alive then s else s.ppsLow)
  | none => .next s

/-- PPS_IN (R462): a rising edge captured in both domains. -/
def execPpsIn (s : State) : Host.Outcome State Fault Refusal :=
  if !s.alive then .next s
  else
    let a := s.capture false
    let b := s.capture true
    let s := (s.modDom false fun d => { d with ppsIn := a }).modDom true fun d => { d with ppsIn := b }
    .next ((s.logEvent 8 0).signal 0 6)

/-! ### Triggers (R464) -/

/-- Trigger `j`. -/
def State.trig (s : State) (j : Nat) : Trigger := vget s.time.trigs j Trigger.reset

/-- Trigger `j` changed. -/
def State.modTrig (s : State) (j : Nat) (f : Trigger → Trigger) : State :=
  { s with time := { s.time with trigs := vset s.time.trigs j (f (s.trig j)) } }

/-- TIME.TRIG_CTRL.ARM written with 1: armed with the fields as they stand, LATE for a time already passed (R464, R478). -/
def State.armTrigger (s : State) (j : Nat) : State :=
  let t := s.trig j
  if t.armed.isSome then s
  else
    let x : TrigArm :=
      { time := t.fireAt
        action := t.action
        dom := t.dom
        late := decide (t.fireAt.toNat ≤ (s.time.dom t.dom).ns.toNat)
        notBefore := s.time.nextTick }
    s.modTrig j fun t => { t with armed := some x }

/-- TIME.TRIG_CTRL written (R471). -/
def State.writeTrigger (s : State) (val : BitVec 32) : State :=
  let j := s.time.trigSel.toNat
  let s := s.modTrig j fun t => { t with
    action := val.setWidth 2
    dom := bit val 2
    fired := t.fired && !bit val 4
    late := t.late && !bit val 5
    refused := t.refused && !bit val 6 }
  if bit val 3 then s.armTrigger j else s

/-- TRIGGER_ARM (R464, R471). -/
def execTriggerArm (val : BitVec 32) (s : State) : Host.Outcome State Fault Refusal :=
  .next (s.ifReady fun s => s.writeTrigger val)

/-- An armed trigger may fire: its domain has reached its time, or it is late. -/
def State.trigDue (s : State) (j : Nat) : Bool :=
  match (s.trig j).armed with
  | none => false
  | some a => s.alive && decide (a.notBefore ≤ s.wall) && (a.late || decide (a.time.toNat ≤ (s.time.dom a.dom).ns.toNat))

/-- Trigger `j` is due with this action and no lower trigger is. -/
def State.trigFires (s : State) (j : Nat) (action : BitVec 2) : Bool :=
  s.trigDue j && ((s.trig j).armed.map (·.action)).getD 0 = action && (List.range j).all fun i => !s.trigDue i

/-- A trigger fires with an action that was done or refused: flags, the log entry, whose outcome code the spec does not give,
and vector 6 of the physical function (R436, R463, R464). -/
def State.fireTrigger (s : State) (j : Nat) (action : Nat) (refused : Bool) : State :=
  let late := ((s.trig j).armed.map (·.late)).getD false
  let s := s.modTrig j fun t => { t with
    armed := none
    fired := true
    late := t.late || late
    refused := t.refused || refused }
  let d := s.draw 8
  (d.2.logEvent 9 (j + action * 256 + d.1.toNat * 65536)).signal 0 6

/-- TRIGGER_CAPTURE (R464): a log entry only. -/
def execTriggerCapture (j : TrigIx) (s : State) : Host.Outcome State Fault Refusal :=
  .next (if s.trigFires j 0 then s.fireTrigger j 0 false else s)

/-- TRIGGER_ARM_LAUNCH (R45, R464): the write of 1 to PLAN.CTRL.ARM. -/
def execTriggerArmLaunch (j : TrigIx) (s : State) : Host.Outcome State Fault Refusal :=
  if !s.trigFires j 1 then .next s
  else
    let t := s.launchArm
    .next (t.fireTrigger j 1 (s.plan.state ≠ 2#3 || t.plan.armed.isNone))

/-- TRIGGER_START_ALIGN (R44, R464): only the root may start it. -/
def execTriggerStartAlign (j : TrigIx) (s : State) : Host.Outcome State Fault Refusal :=
  if !s.trigFires j 2 then .next s else .next (s.alignStart.fireTrigger j 2 (!s.map.upRoot || !s.mayAlign))

/-- TRIGGER_ARM_STEP (R48, R464): the write of 1 to CLK.STEP_CTRL.ARM. -/
def execTriggerArmStep (j : TrigIx) (s : State) : Host.Outcome State Fault Refusal :=
  if !s.trigFires j 3 then .next s
  else
    let t := s.stepArm
    .next (t.fireTrigger j 3 (s.clk.armed.isSome || s.clk.switching.isSome || t.clk.armed.isNone))

/-! ### The event log and the reference (R463, R465) -/

/-- The 32 bytes of an event log entry (R463). -/
def TimeEvent.bytes (e : TimeEvent) : List (BitVec 8) :=
  bytesOf 8 e.a.toNat ++ bytesOf 8 e.b.toNat ++ bytesOf 8 e.geyser.toNat ++ [e.type] ++ bytesOf 7 e.detail.toNat

/-- Word `m` of an entry. -/
def TimeEvent.word (e : TimeEvent) (m : Nat) : BitVec 32 := BitVec.ofNat 32 (natOfBytes ((e.bytes.drop (4 * m)).take 4))

/-- Word `m` of the oldest entry; 0 of an empty log. -/
def TimeRegs.logWord (t : TimeRegs) (m : Nat) : BitVec 32 := (t.log.head?.map (·.word m)).getD 0

/-- TIME.LOG_DATA7 read: its value, and the oldest entry goes (R471). -/
def State.popTimeLog (s : State) : State :=
  { s with
    pcie := { s.pcie with readback := (s.time.logWord 7).setWidth 64 }
    time := { s.time with log := s.time.log.drop 1 } }

/-- TIME_LOG_POP (R463, R471). -/
def execTimeLogPop (s : State) : Host.Outcome State Fault Refusal := .next (s.ifReady (·.popTimeLog))

/-- TIME_REF_LOST (R465): F-0802; both domains go on on the internal tick. -/
def execTimeRefLost (s : State) : Host.Outcome State Fault Refusal :=
  if !s.alive || s.time.refLost then .next s
  else
    let s : State := { s with time := { s.time with
      refOk := false
      refLost := true } }
    .next (s.logFault (s.fault 0x802 0 0))

/-- TIME_REF_RESTORED (R465): the reference has been present for 1 ms and is taken back. -/
def execTimeRefRestored (s : State) : Host.Outcome State Fault Refusal :=
  .next (if s.alive then { s with time := { s.time with
    refOk := true
    refLost := false } } else s)

end Sys2Proof.Machine
end

