-- ==== Sys2Proof/Machine/CrcUnit.lean ====
section
/-! DEFINITION. The check-value units (R466 to R468, R472). -/

namespace Sys2Proof.Machine
open Sys2Proof

/-! ### Polynomials (R466) -/

/-- Bytes of a check value. -/
def crcWidth (poly : Nat) : Nat := if poly = 2 then 8 else if poly = 3 then 2 else 4

/-- The first two polynomials process a byte from its least significant bit. -/
def crcReflected (poly : Nat) : Bool := poly < 2

/-- The bits of bytes in the order that a polynomial takes them. -/
def crcBits (poly : Nat) (bs : List (BitVec 8)) : List Bool := bs.flatMap (if crcReflected poly then bitsLsb else bitsMsb)

/-- The register before the first byte. -/
def crcInit (poly : Nat) : BitVec 64 :=
  match poly with
  | 0 => 0xFFFFFFFF
  | 1 => 0xFFFFFFFF
  | 2 => 0
  | _ => 0xFFFF

/-- The register after bytes. -/
def crcRun (poly : Nat) (reg : BitVec 64) (bs : List (BitVec 8)) : BitVec 64 :=
  let bits := crcBits poly bs
  match poly with
  | 0 => (crcMsb 32 0x1EDC6F41 (reg.setWidth 32) bits).setWidth 64
  | 1 => (crcMsb 32 0x04C11DB7 (reg.setWidth 32) bits).setWidth 64
  | 2 => crcMsb 64 0x42F0E1EBA9EA3693 reg bits
  | _ => (crcMsb 16 0x1021 (reg.setWidth 16) bits).setWidth 64

/-- The check value of a register. -/
def crcOut (poly : Nat) (reg : BitVec 64) : BitVec 64 :=
  if crcReflected poly then ((bitRev (reg.setWidth 32 : BitVec 32)) ^^^ 0xFFFFFFFF#32).setWidth 64 else reg

/-- The check value of bytes. -/
def crcOf (poly : Nat) (bs : List (BitVec 8)) : BitVec 64 := crcOut poly (crcRun poly (crcInit poly) bs)

/-! ### Configuration (R467, R468, R472) -/

/-- CFG.POLY. -/
def CrcRun.poly (r : CrcRun) : Nat := field r.cfg 1 0
/-- CFG.MODE: 1 CHECK. -/
def CrcRun.check (r : CrcRun) : Bool := bit r.cfg 2
/-- Bytes of the alive counter; 0 for the reserved value of CNT_W. -/
def CrcRun.cntBytes (r : CrcRun) : Nat := match field r.cfg 4 3 with
  | 0 => 1
  | 1 => 2
  | 2 => 4
  | _ => 0

/-- A configuration that may start: in CHECK mode the four conditions of R468. -/
def CrcRun.startable (r : CrcRun) : Bool :=
  let b := r.block.toNat
  !r.check || (decide (0 < r.len.toNat) && 16 ≤ b && b ≤ 65532 && b % 4 = 0 && r.len.toNat % b = 0 && r.cntBytes ≠ 0
    && r.cntOff.toNat + r.cntBytes ≤ b - crcWidth r.poly)

/-- A run started with the configuration as it stands, or refused (R468). -/
def CrcRegs.start (x : CrcRegs) : CrcRegs :=
  if x.cur.startable then { x with run := some x.cur }
  else { x with
    cfgErr := true
    done := true }

/-- CRCu.CTRL.GO written with 1: a run starts, or one further run is queued (R467). -/
def CrcRegs.go (x : CrcRegs) : CrcRegs := if x.run.isSome then { x with queued := true } else x.start

/-- GO in one of the two modes; the mode of a queued run is the one in force when it starts. -/
def State.crcGo (s : State) (u : Nat) (check : Bool) : State :=
  if (s.crc u).run.isSome || (s.crc u).cur.check = check then s.modCrc u CrcRegs.go else s

/-- CRC_COMPUTE (R467). -/
def execCrcCompute (u : CrcIx) (s : State) : Host.Outcome State Fault Refusal := .next (s.ifReady fun s => s.crcGo u false)

/-- CRC_CHECK (R468). -/
def execCrcCheck (u : CrcIx) (s : State) : Host.Outcome State Fault Refusal := .next (s.ifReady fun s => s.crcGo u true)

/-! ### The end of a run (R467, R468) -/

/-- What a CHECK run has met so far: the expected counter (none: any value), and whether it goes on. -/
structure CrcWalk where
  regs : CrcRegs
  expect : Option Nat
  firstBad : Option Nat
  ended : Bool
  deriving DecidableEq, Repr

/-- One block of a CHECK run (R468). -/
def crcBlock (r : CrcRun) (k : CrcWalk) (ib : Nat × List (BitVec 8)) : CrcWalk :=
  if k.ended then k
  else
    let n := r.block.toNat - crcWidth r.poly
    let m := 2 ^ (8 * r.cntBytes)
    let c := natOfBytes ((ib.2.drop r.cntOff.toNat).take r.cntBytes)
    let v := crcOf r.poly (ib.2.take n)
    let good := decide (v.toNat = natOfBytes ((ib.2.drop n).take (crcWidth r.poly)))
    let d := (c + m - (k.expect.getD c) % m) % m
    let x := { k.regs with
      lastCnt := BitVec.ofNat 32 c
      result := v }
    let bad (y : CrcRegs) : CrcWalk := { k with
      regs := { y with
        error := true
        errBlock := if k.firstBad.isNone then BitVec.ofNat 32 ib.1 else y.errBlock }
      firstBad := some (k.firstBad.getD ib.1)
      ended := bit r.cfg 6 }
    if !good then bad { x with crcBad := satInc x.crcBad }
    else if d = 0 then { k with
      regs := { x with ok := satInc x.ok }
      expect := some ((c + 1) % m) }
    else if d = m - 1 then bad { x with repeats := satInc x.repeats }
    else if m / 2 ≤ d then bad { x with stale := satInc x.stale }
    else { bad { x with jump := satInc x.jump } with expect := some ((c + 1) % m) }

/-- A CHECK run over its blocks. -/
def CrcRegs.checkRun (x : CrcRegs) (r : CrcRun) (data : List (BitVec 8)) : CrcRegs :=
  let n := r.len.toNat / max 1 r.block.toNat
  let seed : Option Nat := if bit r.cfg 5 then some r.seed.toNat else none
  (((chunksOf r.block.toNat n data).zipIdx.map fun p => (p.2, p.1)).foldl (crcBlock r) ⟨x, seed, none, false⟩).regs

/-- A COMPUTE run: the CRC of its bytes, from Init or from the register that the previous run left (R467). -/
def CrcRegs.computeRun (x : CrcRegs) (r : CrcRun) (data : List (BitVec 8)) : CrcRegs :=
  let reg := crcRun r.poly (if bit r.cfg 7 then x.reg else crcInit r.poly) data
  { x with
    reg := reg
    result := crcOut r.poly reg }

/-- The unit after its run: DONE, and a queued run starts (R467). -/
def CrcRegs.endRun (x : CrcRegs) : CrcRegs :=
  let y := { x with
    run := none
    done := true
    queued := false }
  if x.queued then y.start else y

/-- CRC_RUN_DONE (R467, R468): the bytes read, or a completion with an error status. The register that a CHECK run or a stopped
run leaves for CHAIN is open. A function that is no bus master sends no read (R435). -/
def execCrcRunDone (u : CrcIx) (data : List (BitVec 8)) (err : Bool) (s : State) : Host.Outcome State Fault Refusal :=
  match (s.crc u).run with
  | none => .next s
  | some r =>
    if !s.alive || (0 < r.len.toNat && !(s.fn 0).bme) || (!err && data.length ≠ r.len.toNat) then .next s
    else
      let d := s.draw 64
      if err then .next (d.2.modCrc u fun x => { x with
        dmaErr := true
        reg := d.1 }.endRun)
      else if r.check then .next (d.2.modCrc u fun x => { x.checkRun r data with reg := d.1 }.endRun)
      else .next (s.modCrc u fun x => (x.computeRun r data).endRun)

end Sys2Proof.Machine
end

