-- ==== Sys2Proof/Machine/Snap.lean ====
section
/-! DEFINITION. Snapshots and the fault log's registers (R482 to R488, R491). -/

namespace Sys2Proof.Machine
open Sys2Proof

/-! ### What a capture copies (R485) -/

/-- The captured registers of a tile aperture (R84). -/
def Tile.snap (t : Tile) : SnapTile :=
  { pcMx := BitVec.ofNat 32 t.mx.nextPc
    pcVx := BitVec.ofNat 32 t.vx.nextPc
    pcMv := BitVec.ofNat 32 t.mv.nextPc
    level := pack32 [(t.mx.queue.length, 0), (t.vx.queue.length, 10), (t.mv.queue.length, 20)] }

/-- SYNC.STATUS: outstanding watches of a partition (R310). -/
def State.syncWatches (s : State) (p : Nat) : BitVec 32 :=
  BitVec.ofNat 32 ((s.tilesOf p).foldl (fun a t => a + (s.ts t).watches.length) 0)

/-- SYNC.BAR_ACTIVE: barriers of a partition in a round (R310). -/
def State.barActive (s : State) (p : Nat) : BitVec 32 := ofBits 32 ((List.range 32).filter fun b => (s.bar p b).isOpen)

/-- Every captured register as it stands (R485). -/
def State.snapshot (s : State) : SnapHold :=
  { geyser := BitVec.ofNat 64 s.plan.geyser
    episodes := s.plan.holdEpisodes
    clk := s.plan.holdClk
    tiles := s.tiles.map Tile.snap
    steps := s.seqB.map (·.stepNo)
    syncStatus := Vector.ofFn fun p => s.syncWatches p.val
    barActive := Vector.ofFn fun p => s.barActive p.val
    aNs := s.capture false
    aFrac := s.time.a.frac
    bNs := s.capture true
    bFrac := s.time.b.frac
    ppsInA := s.time.a.ppsIn
    ppsInB := s.time.b.ppsIn
    stgBytes := s.pcie.fns.map (·.stgBytes) }

/-- A capture; a tick capture and an immediate one in one clk are one (R484, R487). -/
def State.takeSnap (s : State) (tick : Bool) : State :=
  let same := s.snap.lastAt = some (s.wall, !tick)
  { s with snap := { s.snap with
    hold := s.snapshot
    held := !s.running
    atTick := tick || (same && s.snap.atTick)
    count := if same then s.snap.count else s.snap.count + 1
    lastAt := some (s.wall, tick) } }

/-- SNAP_CAPTURE (R484): it works before firmware is ready (R480). -/
def execSnapCapture (s : State) : Host.Outcome State Fault Refusal := .next (if s.alive then s.takeSnap false else s)

/-- SNAP.CMD.ARM_AT written with 1 (R487). -/
def State.armSnap (s : State) : State :=
  let g := s.snap.armAt.toNat
  if s.snap.armed.isSome then s
  else if g < s.plan.geyser || !s.commonTick g then { s with snap := { s.snap with atRejected := true } }
  else { s with snap := { s.snap with armed := some g } }

/-- SNAP_ARM_AT (R487). -/
def execSnapArmAt (s : State) : Host.Outcome State Fault Refusal := .next (if s.alive then s.armSnap else s)

/-- SNAP_TICK_CAPTURE (R30, R487): at the armed count, before any other change of that tick. -/
def execSnapTickCapture (s : State) : Host.Outcome State Fault Refusal :=
  if s.snap.armed ≠ some s.plan.geyser || !s.alive then .next s
  else .next (({ s with snap := { s.snap with armed := none } } : State).takeSnap true)

/-! ### The fault log (R482, R491) -/

/-- The 32 bytes of a fault record (R491). -/
def FaultRec.bytes (r : FaultRec) : List (BitVec 8) :=
  bytesOf 2 r.code.toNat ++ [BitVec.ofNat 8 (r.engine.toNat + r.part.toNat * 4 + bn r.partValid * 64 + bn r.cont * 128)] ++ [r.tile]
    ++ bytesOf 3 r.chip.toNat ++ [BitVec.ofNat 8 (r.kind.toNat + r.ext.toNat * 32)] ++ bytesOf 4 r.object.toNat
    ++ bytesOf 4 r.waiter.toNat ++ bytesOf 8 r.geyser.toNat ++ bytesOf 4 r.frame.toNat ++ bytesOf 4 r.stepNo.toNat

/-- Word `m` of an optional record; 0 where there is none. -/
def recWord (r : Option FaultRec) (m : Nat) : BitVec 32 :=
  (r.map fun r => BitVec.ofNat 32 (fieldN r.bytes (4 * m) 4)).getD 0

/-- TOP.FAULT_CTRL.CLEAR written with 1 (R482). -/
def State.clearFaults (s : State) : State := { s with top := { s.top with log := [] } }

/-- FAULT_LOG_CLEAR (R482). -/
def execFaultLogClear (s : State) : Host.Outcome State Fault Refusal := .next (if s.alive then s.clearFaults else s)

/-- TOP.FAULT_DATA7 read: its value, and the oldest record goes (R482). -/
def State.popFault (s : State) : State :=
  { s with
    pcie := { s.pcie with readback := (recWord s.top.log.head? 7).setWidth 64 }
    top := { s.top with log := s.top.log.drop 1 } }

/-- FAULT_LOG_POP (R482). -/
def execFaultLogPop (s : State) : Host.Outcome State Fault Refusal := .next (if s.alive then s.popFault else s)

end Sys2Proof.Machine
end

