-- ==== Sys2Proof/Machine/RegRead.lean ====
section
/-! DEFINITION. The register map as it reads: one function per block, by the offset within the block (R474 to R485). A field
that accepts writes at any time but governs later reads as it was last written. -/

namespace Sys2Proof.Machine
open Sys2Proof

/-- Word `i` of a wide register. -/
def wordOf {w : Nat} (x : BitVec w) (i : Nat) : BitVec 32 := BitVec.ofNat 32 (x.toNat >>> (32 * i))

/-- Word `i` of a byte string, bytes past its end as 0. -/
def bytesWord (b : List (BitVec 8)) (i : Nat) : BitVec 32 := BitVec.ofNat 32 (fieldN b (4 * i) 4)

/-- TOP (R482). -/
def State.readTop (s : State) (o : Nat) : BitVec 32 :=
  match o with
  | 0x00 => pack32 [(s.fuses.grade.toNat, 0), (s.fuses.stepping.toNat, 4), (s.fuses.tiles.toNat, 8), (0x4B32, 16)]
  | 0x04 => lo32 s.fuses.serial
  | 0x08 => hi32 s.fuses.serial
  | 0x0C => pack32 [(bn s.top.determine, 0), (bn s.top.faultKeep, 1)]
  | 0x10 => pack32 [(bn s.top.fwReady, 0), (bn s.top.scrubbed, 1), (bn s.held, 2), (bn !s.top.log.isEmpty, 3)]
  | 0x14 => s.top.tempC.setWidth 32
  | 0x20 => BitVec.ofNat 32 s.top.log.length
  | 0x24 => s.top.faultLost
  | 0x28 => s.top.faultSuppressed
  | 0x2C => s.top.faultTotal
  | _ =>
    if 0x40 ≤ o && o < 0x60 then recWord s.top.log.head? ((o - 0x40) / 4)
    else if 0x60 ≤ o && o < 0x80 then recWord s.top.newest ((o - 0x60) / 4)
    else 0

/-- CLK (R52). -/
def State.readClk (s : State) (o : Nat) : BitVec 32 :=
  match o with
  | 0x00 => s.clk.stepCur.setWidth 32
  | 0x04 => s.clk.stepTarget.setWidth 32
  | 0x08 => lo32 s.clk.stepAt
  | 0x0C => hi32 s.clk.stepAt
  | 0x10 => pack32 [(bn (s.clk.armed.isSome || s.clk.switching.isSome), 0), (bn s.clk.rejected, 1)]
  | _ => 0

/-- TIME (R471). -/
def State.readTime (s : State) (o : Nat) : BitVec 32 :=
  let t := s.time
  let h := s.snap.hold
  let g := s.trig t.trigSel.toNat
  let left := (t.dom t.adjDom).adjLeft
  match o with
  | 0x00 => pack32 [(bn t.active, 0), (bn t.ppsOutEn, 1)]
  | 0x04 => pack32 [(bn t.refOk, 0), (bn t.incReject, 1), (bn t.logFull, 2)]
  | 0x08 => lo32 h.aNs
  | 0x0C => hi32 h.aNs
  | 0x10 => h.aFrac
  | 0x14 => lo32 h.bNs
  | 0x18 => hi32 h.bNs
  | 0x1C => h.bFrac
  | 0x20 => t.a.wrNs.setWidth 32
  | 0x24 => t.a.wrFrac
  | 0x28 => t.b.wrNs.setWidth 32
  | 0x2C => t.b.wrFrac
  | 0x30 => t.adjNs.setWidth 32
  | 0x34 => t.adjFrac
  | 0x38 => if left = 0 then t.adjTicks else left
  | 0x3C => pack32 [(bn t.adjDom, 1)]
  | 0x40 => lo32 t.setNs
  | 0x44 => hi32 t.setNs
  | 0x48 => pack32 [(bn t.a.setPending.isSome, 0), (bn t.b.setPending.isSome, 1)]
  | 0x4C => t.ppsWidth.setWidth 32
  | 0x50 => lo32 h.ppsInA
  | 0x54 => hi32 h.ppsInA
  | 0x58 => lo32 h.ppsInB
  | 0x5C => hi32 h.ppsInB
  | 0x60 => t.trigSel.setWidth 32
  | 0x64 => lo32 g.fireAt
  | 0x68 => hi32 g.fireAt
  | 0x6C => pack32 [(g.action.toNat, 0), (bn g.dom, 2), (bn g.armed.isSome, 3), (bn g.fired, 4), (bn g.late, 5), (bn g.refused, 6)]
  | 0x70 => pack32 [(t.logTypes.toNat, 1), (t.tickLog2.toNat, 16)]
  | 0x74 => BitVec.ofNat 32 t.log.length
  | 0x78 => t.logLost
  | _ => if 0x80 ≤ o && o < 0xA0 then t.logWord ((o - 0x80) / 4) else 0

/-- The bytes that SEC.BUF shows (R422). -/
def State.secBuf (s : State) (o : Nat) : BitVec 32 :=
  match s.sec.bufSel.toNat with
  | 0 => bytesWord s.sec.identityRec (o / 4)
  | 1 => bytesWord s.sec.report (o / 4)
  | _ => BitVec.ofNat 32 (Memory.readNat s.sec.input o 4)

/-- SEC (R422). -/
def State.readSec (s : State) (o : Nat) : BitVec 32 :=
  let x := s.sec
  let k := (s.pt x.keySel.toNat).keys
  match o with
  | 0x00 => pack32 [(bn x.identity, 0), (bn x.mgmtCur.isSome, 1), (bn x.mgmtNext.isSome, 2)]
  | 0x04 => pack32 [(x.reqPart.toNat, 0), (bn x.reqChip, 4), (bn x.reqDone, 6)]
  | 0x28 => lo32 x.counter
  | 0x2C => hi32 x.counter
  | 0x30 => pack32 [(bn x.deliverFailed, 1)]
  | 0x34 => x.keySel.setWidth 32
  | 0x38 => pack32 [(k.installed % 8, 0), (k.deliveries.toNat, 16)]
  | 0x3C => x.mgmtTx
  | 0x40 => (x.mgmtCur.map (·.1)).getD 0
  | 0x48 => x.ventFail
  | 0x4C => x.bufSel.setWidth 32
  | _ =>
    if 0x08 ≤ o && o < 0x28 then wordOf x.nonce ((o - 8) / 4)
    else if 0x2000 ≤ o && o < 0x4000 then s.secBuf (o - 0x2000)
    else 0

/-- FWU (R470). -/
def State.readFwu (s : State) (o : Nat) : BitVec 32 :=
  let f := s.fwu
  match o with
  | 0x00 => pack32 [(bn f.running, 0), (bn f.trial, 1), (bn f.confirmed, 2), (bn f.expired, 3), (bn f.fellBack, 4),
      (bn f.selftest, 5), (f.stage.toNat, 6), (f.failCode.toNat, 9)]
  | 0x08 => BitVec.ofNat 32 s.confirmLeft
  | 0x10 => lo32 f.version
  | 0x14 => hi32 f.version
  | 0x18 => lo32 f.staged
  | 0x1C => hi32 f.staged
  | 0x20 => pack32 [(f.svn.toNat, 0), (f.floor.toNat, 8)]
  | 0x24 => f.planAbi.setWidth 32
  | _ => 0

/-- One check-value unit (R472). -/
def CrcRegs.read (x : CrcRegs) (o : Nat) : BitVec 32 :=
  match o with
  | 0x00 => lo32 x.cur.src
  | 0x04 => hi32 x.cur.src
  | 0x08 => x.cur.len
  | 0x0C => x.cur.cfg.setWidth 32
  | 0x10 => pack32 [(x.cur.block.toNat, 0), (x.cur.cntOff.toNat, 16)]
  | 0x14 => x.cur.seed
  | 0x1C => pack32 [(bn x.run.isSome, 0), (bn x.queued, 1), (bn x.done, 2), (bn x.error, 3), (bn x.dmaErr, 4), (bn x.cfgErr, 5)]
  | 0x20 => lo32 x.result
  | 0x24 => hi32 x.result
  | 0x28 => x.ok
  | 0x2C => x.crcBad
  | 0x30 => x.repeats
  | 0x34 => x.stale
  | 0x38 => x.jump
  | 0x3C => x.errBlock
  | 0x40 => x.lastCnt
  | _ => 0

/-- SNAP (R488). -/
def State.readSnap (s : State) (o : Nat) : BitVec 32 :=
  match o with
  | 0x00 => pack32 [(bn s.snap.armed.isSome, 1)]
  | 0x04 => pack32 [(bn s.snap.held, 0), (bn s.snap.atTick, 1), (bn s.snap.atRejected, 2)]
  | 0x08 => s.snap.count
  | 0x0C => lo32 s.snap.armAt
  | 0x10 => hi32 s.snap.armAt
  | _ => 0

/-- PLAN (R51). -/
def State.readPlan (s : State) (o : Nat) : BitVec 32 :=
  let x := s.plan
  let h := s.snap.hold
  match o with
  | 0x00 => lo32 h.geyser
  | 0x04 => hi32 h.geyser
  | 0x08 => lo32 x.launchAt
  | 0x0C => hi32 x.launchAt
  | 0x10 => pack32 [(bn x.armed.isSome, 0)]
  | 0x14 => pack32 [(x.state.toNat, 0), (bn s.held, 3), (bn x.alignOk, 4)]
  | 0x18 => match s.img x.psel.toNat with
    | some i => pack32 [(i.k % 32, 0), (i.fs % 65536, 16)]
    | none => 0
  | 0x1C => match s.oldestEpisode with
    | some e => pack32 [(e.cause.toNat, 0), (e.origin.toNat, 8)]
    | none => 0
  | 0x20 => lo32 h.episodes
  | 0x24 => hi32 h.episodes
  | 0x28 => lo32 h.clk
  | 0x2C => hi32 h.clk
  | 0x30 => x.holdLimit.setWidth 32
  | 0x34 => satNat 32 x.debt
  | 0x38 => pack32 [(x.throttleTemp.toNat, 0), (x.throttleLevel.toNat, 8), (x.throttleMax.toNat, 12)]
  | 0x3C => x.armLead
  | 0x40 => x.psel.setWidth 32
  | _ => 0

/-- The item that MAP.LT_PHYS or LCH_PHYS shows, with VALID at bit 8. -/
def physOf (x : Option Nat) (f : Nat → Nat) : BitVec 32 := match x with
  | some n => pack32 [(f n, 0), (1, 8)]
  | none => 0

/-- MAP (R236). -/
def State.readMap (s : State) (o : Nat) : BitVec 32 :=
  let m := s.map
  let runs (re : Bool) : Nat := bn ((m.run.map fun r => decide (r.rebind = re)).getD false)
  match o with
  | 0x00 => pack32 [(runs false, 0), (runs true, 1), (m.part.toNat, 4)]
  | 0x04 => pack32 [(m.state.toNat, 0), (bn m.restart, 3), (m.code.toNat, 8)]
  | 0x08 => pack32 [(m.failLtile.toNat, 0), (m.failStream.toNat, 8)]
  | 0x0C => m.failObj
  | 0x10 => pack32 [(m.ex.toNat, 0), (m.ey.toNat, 4), (m.ez.toNat, 8)]
  | 0x14 => m.jobBox.setWidth 32
  | 0x18 => pack32 [(m.rank.toNat, 0), (bn m.rankValid, 16), (bn m.rankMoved, 17)]
  | 0x1C => pack32 [(m.upPort.toNat, 0), (bn m.upRoot, 4)]
  | 0x20 => pack32 [(m.chipState.toNat, 0), (bn m.retire, 2)]
  | 0x24 => pack32 [(m.chain.toNat, 0), (m.stretched.toNat, 8), (m.splices.toNat, 16)]
  | 0x28 => m.ltSel.setWidth 32
  | 0x2C => physOf (s.physTile (field m.ltSel 11 8) (field m.ltSel 7 0)) id
  | 0x30 => m.lchSel.setWidth 32
  | 0x34 => physOf ((s.pt (field m.lchSel 11 8)).stage.chans[field m.lchSel 7 0]?) fun x => x / 32 + x % 32 * 8
  | _ =>
    if 0x40 ≤ o && o < 0x80 then wordOf m.jhmDigest ((o - 0x40) / 4)
    else if 0x80 ≤ o && o < 0x94 then wordOf (ofBits 160 ((List.range 160).filter s.tileUsable)) ((o - 0x80) / 4)
    else if 0xA0 ≤ o && o < 0xB4 then wordOf m.tileRetire ((o - 0xA0) / 4)
    else if 0xC0 ≤ o && o < 0xE0 then vget s.degradedMap ((o - 0xC0) / 4) 0
    else 0

/-- A ring change of a partition waits for its boundary (R264). -/
def State.ringWaits (s : State) (p : Nat) : Bool :=
  decide (Memory.readNat (s.sq p).intake 0x9C 4 ≠ (s.sq p).hdr.cfgDone.toNat)

/-- SEQ.CTRL, OVERDUE_STEPS and QUANTUM as last written. -/
def SeqBank.written (q : SeqBank) : Bool × Bool × BitVec 16 × BitVec 16 :=
  q.chained.getD (q.pauseAdmit, q.tdom, q.overdueSteps, q.quantum)

/-- SEQ (R268). -/
def State.readSeq (s : State) (o : Nat) : BitVec 32 :=
  let p := s.seq.psel.toNat
  let q := s.sq p
  let es := s.entries p
  let str := if q.strSel = 0 then some (0, 0) else alGet q.strSel.toNat q.strMap
  match o with
  | 0x00 => s.seq.psel.setWidth 32
  | 0x04 => pack32 [(bn q.written.1, 0), (bn q.written.2.1, 1)]
  | 0x08 => pack32 [(bn (2 ≤ s.stepFrames p), 0), (bn (s.leadsPart p), 1), (bn q.resultFull, 2), (bn (s.ringWaits p), 3),
      (bn q.intakeErr, 4), (bn (s.plan.geyser < q.busyUntil), 5)]
  | 0x0C => pack32 [((s.pt p).res.tableBase.toNat, 0), ((s.pt p).res.tableCount.toNat, 16)]
  | 0x10 => pack32 [((es.filter fun e => e.2.live).length, 0), ((es.filter fun e => e.2.parked).length, 16)]
  | 0x14 => lo32 (vget s.snap.hold.steps p 0)
  | 0x18 => hi32 (vget s.snap.hold.steps p 0)
  | 0x1C => q.written.2.2.1.setWidth 32
  | 0x20 => q.written.2.2.2.setWidth 32
  | 0x24 => pack32 [(q.lastDecode.toNat, 0), (q.lastPrefill.toNat, 16)]
  | 0x28 => q.lastTokens.setWidth 32
  | 0x2C => q.admitted
  | 0x30 => q.rejected
  | 0x34 => q.records
  | 0x38 => q.boundaryPc
  | 0x3C => s.seq.entrySel.setWidth 32
  | 0x80 => s.seq.defSel.setWidth 32
  | 0x84 => BitVec.ofInt 32 (s.deficit s.seq.defSel.toNat)
  | 0x88 => q.strSel.setWidth 32
  | 0x8C => (str.map (·.1)).getD 0xFFFFFFFF
  | 0x90 => (str.map fun x => lo32 x.2).getD 0
  | 0x94 => q.repliesLost
  | _ => if 0x40 ≤ o && o < 0x80 then vget s.seq.entryCopy ((o - 0x40) / 4) 0 else 0

/-- BUD (R288). -/
def State.readBud (s : State) (o : Nat) : BitVec 32 :=
  let p := s.bud.psel.toNat
  let b := s.bd p
  let c := b.cfgWritten
  match o with
  | 0x00 => s.bud.psel.setWidth 32
  | 0x04 => b.base.setWidth 32
  | 0x08 => b.count.setWidth 32
  | 0x0C => pack32 [(bn c.chargePrompt, 0), (bn c.specEn, 1)]
  | 0x10 => c.admitReserve
  | 0x14 => c.pageQuota.setWidth 32
  | 0x18 => b.committed.setWidth 32
  | 0x1C => b.allocated.setWidth 32
  | 0x20 => pack32 [(bn b.cfgPending, 0), (bn (s.leadsPart p), 1)]
  | 0x24 => b.bktSel.setWidth 32
  | 0x48 => b.opCust.setWidth 32
  | 0x4C => lo32 b.opVal
  | 0x50 => hi32 b.opVal
  | 0x54 => pack32 [(b.opCode.toNat, 0), (bn b.opArmed.isSome, 3), (bn b.opRejected, 4)]
  | 0x58 => b.lastCharge
  | 0x5C => b.specGuessed
  | 0x60 => b.specAccepted
  | 0x64 => BitVec.ofNat 32 (s.bud.buckets.filter fun x => b.base.toNat ≤ x.1 && x.1 < b.base.toNat + b.count.toNat
      && x.2.balance < 0).length
  | _ => if 0x28 ≤ o && o < 0x48 then vget b.bktCopy ((o - 0x28) / 4) 0 else 0

/-- SYNC.BAR_MISSING (R304, R310). -/
def State.barMissing (s : State) (p b : Nat) : BitVec 32 :=
  match s.barDecl p b with
  | none => 0
  | some d =>
    if !(s.bar p b).isOpen then 0
    else match s.missing p b d with
      | some m => pack32 [(m.1 % 65536, 0), (bn m.2.1, 16), (1, 17)]
      | none => 0

/-- SYNC (R310). -/
def State.readSync (s : State) (o : Nat) : BitVec 32 :=
  let p := s.sync.psel.toNat
  let y := s.sy p
  let b := s.bar p s.sync.barSel.toNat
  let t := s.ts s.sync.tileSel.toNat
  match o with
  | 0x00 => s.sync.psel.setWidth 32
  | 0x04 => vget s.snap.hold.syncStatus p 0
  | 0x08 => vget s.snap.hold.barActive p 0
  | 0x0C => s.sync.barSel.setWidth 32
  | 0x10 => pack32 [(b.round.toNat, 0), (b.arrived.length, 8), (b.children.length, 16), (bn b.sentUp, 20),
      (bn !b.nextChildren.isEmpty, 21)]
  | 0x14 => s.barMissing p s.sync.barSel.toNat
  | 0x18 => s.sync.tileSel.setWidth 32
  | 0x1C => pack32 [(t.watches.length, 0), (t.objects.length, 8)]
  | 0x20 => pack32 [(y.stallObj.toNat, 0), (bn y.stallValid, 30)]
  | 0x24 => y.stallPc
  | 0x28 => y.stallEngine.setWidth 32
  | 0x2C => pack32 [(y.checkFailures.toNat, 0), (bn y.checkDone, 16)]
  | 0x30 => y.checkFirst.setWidth 32
  | 0x34 => s.sync.wakes
  | 0x38 => s.sync.completions
  | 0x3C => s.sync.early
  | _ => 0

/-- The ER overflow flags of all tiles (R376). -/
def State.erFlags (s : State) : BitVec 160 := ofBits 160 ((List.range 160).filter fun t => (s.tile t).erFlag)

/-- DIG (R397). -/
def State.readDig (s : State) (o : Nat) : BitVec 32 :=
  let d := s.dig
  match o with
  | 0x00 => pack32 [(bn d.det, 0), (bn d.mirror, 1), (bn d.role, 2), (bn d.restartable, 3)]
  | 0x04 => pack32 [(d.logHead.toNat, 0), (bn d.logWrapped, 31)]
  | 0x08 => d.logSel.setWidth 32
  | 0x1C => d.mirrorOk
  | 0x20 => pack32 [(d.mismatch.toNat, 0), (bn d.mismatchValid, 31)]
  | 0x24 => d.mismatchFrame
  | 0x3C => pack32 [(d.recState.toNat, 0), (d.recAttempt.toNat, 3), (d.recReason.toNat, 8)]
  | 0x40 => pack32 [(bn d.cfgAuto, 0), (bn d.cfgRollback, 1)]
  | 0x44 => pack32 [(bn d.roDone, 0), (bn d.roNeeded, 1)]
  | 0x48 => pack32 [(bn (d.ckptArmed.isSome || d.ckptPausing.isSome), 0), (bn d.ckptSlot, 1), (bn d.ckptRejected, 2),
      (bn d.ckptIncomplete, 3)]
  | 0x4C => lo32 d.ckptAt
  | 0x50 => hi32 d.ckptAt
  | 0x54 => d.ckptPause.setWidth 32
  | 0x58 => d.ckptGen
  | 0x5C => lo32 d.ckptStep
  | 0x60 => hi32 d.ckptStep
  | 0x64 => d.restoreGen
  | 0x68 => lo32 d.ashConfirmed
  | 0x6C => hi32 d.ashConfirmed
  | 0x70 => d.ashFloorLo.getD (lo32 d.ashFloor)
  | 0x74 => hi32 d.ashFloor
  | 0x78 => d.ashFree
  | 0x7C => d.stepReplays
  | 0x80 => d.rollbacks
  | _ =>
    if 0x0C ≤ o && o < 0x1C then
      ((alGet d.logSel.toNat d.log).map fun e => bytesWord e.bytes ((o - 0x0C) / 4)).getD 0
    else if 0x28 ≤ o && o < 0x3C then wordOf s.erFlags ((o - 0x28) / 4)
    else 0

/-- The resource fields of a partition as last written (R401). -/
def PartBank.written (b : PartBank) : PartRes := b.pendRes.getD b.res

/-- Scrub progress of a partition's last teardown, in percent (R421). -/
def State.scrubPct (s : State) (p : Nat) : Nat :=
  let b := s.pt p
  min 100 ((s.wall - b.scrubStart) * 100 / max 1 (b.scrubEnd - b.scrubStart)) * bn (0 < b.scrubEnd)

/-- PART (R421). -/
def State.readPart (s : State) (o : Nat) : BitVec 32 :=
  let p := s.part.psel.toNat
  let b := s.pt p
  let r := b.written
  match o with
  | 0x00 => s.part.psel.setWidth 32
  | 0x04 => pack32 [(bn (b.state = 1#3 || b.state = 3#3 || b.state = 4#3), 0), (bn b.curtainArm.isSome, 1),
      (bn b.curtainRejected, 2)]
  | 0x08 => pack32 [(b.state.toNat, 0), (bn b.pendRes.isSome, 3), (b.wingsState.toNat, 4), (bn b.stage.image.isSome, 7),
      (s.scrubPct p, 8)]
  | 0x0C => r.rows.setWidth 32
  | 0x10 => r.slice
  | 0x14 => pack32 [(r.tableBase.toNat, 0), (r.tableCount.toNat, 16)]
  | 0x18 => r.bktBase.setWidth 32
  | 0x1C => r.bktCount.setWidth 32
  | 0x20 => pack32 [(r.poolPages.toNat, 0), (bn r.encrypt, 24)]
  | 0x24 => r.devArea.setWidth 32
  | 0x28 => r.job.setWidth 32
  | 0x2C => BitVec.ofNat 32 (p + 1)
  | 0x30 => lo32 b.wlAddr
  | 0x34 => hi32 b.wlAddr
  | 0x38 => b.wlLen
  | 0x3C => pack32 [(bn b.wlRunning.isSome, 0), (bn b.wlTarget, 1), (bn b.wlError, 2)]
  | 0x40 => lo32 b.curtainAt
  | 0x44 => hi32 b.curtainAt
  | 0x48 => b.curtains
  | _ => 0

/-- Bytes as 16-byte granules (R369). -/
def granules (n : Nat) : BitVec 32 := BitVec.ofNat 32 (n / 16 % 2 ^ 17)

/-- The link layer's registers of a port (R369). -/
def State.readLink (s : State) (n o : Nat) : BitVec 32 :=
  let l := s.link n
  let c := l.counters
  match o with
  | 0x00 => pack32 [(l.state.toNat, 0), (bn l.replaying, 3), (bn (portLong n), 4), (bn l.downHeld, 5)]
  | 0x04 => pack32 [(bn l.enable, 0), (bn l.fullTrain, 1)]
  | 0x08 => pack32 [(l.neighbour.toNat, 0), (l.neighbourPort.toNat, 24), (bn l.neighbourValid, 31)]
  | 0x0C => pack32 [(l.verMin.toNat, 0), (l.verMax.toNat, 8), (l.verUsed.toNat, 16)]
  | 0x10 => l.calHold.setWidth 32
  | 0x14 => l.calData.setWidth 32
  | 0x18 => l.calSym.setWidth 32
  | 0x1C => l.pad.setWidth 32
  | 0x20 => pack32 [(l.txNext.toNat, 0), (l.txOldest.toNat, 16)]
  | 0x24 => pack32 [(l.rxExpected.toNat, 0), (l.rxAcked.toNat, 16)]
  | 0x28 => BitVec.ofNat 32 l.replay.length
  | 0x2C => BitVec.ofNat 32 l.replayBytes
  | 0x30 => c.replays
  | 0x34 => c.ackTimeouts
  | 0x38 => c.crcErr
  | 0x3C => c.fecCorr
  | 0x40 => c.fecUncorr
  | 0x44 => c.stalls
  | 0x48 => c.poolNak
  | 0x4C => c.retrains
  | 0x50 => pack32 [(l.lanes.locked.toNat, 0), (l.lanes.replaced.toNat, 9), (bn l.lanes.armed.isSome, 13)]
  | 0x54 => pack32 [(l.lanes.thresh.toNat, 0), (bn l.lanes.auto, 16)]
  | 0x58 => l.lanes.sel.setWidth 32
  | 0x5C => vget c.laneErr l.lanes.sel.toNat 0
  | 0x60 => l.fab.poolSel.setWidth 32
  | 0x64 => granules (s.poolUsed n l.fab.poolSel.toNat)
  | 0x68 => granules l.fab.pArea
  | 0x6C => granules (s.poolShared n)
  | 0x70 => pack32 [(l.tAck / tuNs % 65536, 0), (l.tNak / tuNs % 65536, 16)]
  | _ => 0

/-- The fabric's registers of a port (R338). -/
def State.readPort (s : State) (n o : Nat) : BitVec 32 :=
  let l := s.link n
  let f := l.fab
  let c := l.counters
  match o with
  | 0x800 => pack32 [(f.role.toNat, 0), (bn f.fwd, 2)]
  | 0x804 => pack32 [(f.xoffSent.toNat, 0), (f.xoffRcvd.toNat, 4)]
  | 0x808 => f.cntSel.setWidth 32
  | 0x80C => vget c.cnt f.cntSel.toNat 0
  | 0x810 => c.pIdle
  | 0x814 => c.bubbleWait
  | 0x818 => c.drop
  | 0x81C => f.slotSel.setWidth 32
  | 0x820 => BitVec.ofNat 32 (f.code f.slotSel.toNat)
  | _ => 0

/-- The chip-wide fabric registers, which lie in LNK0 (R339). -/
def State.readFabric (s : State) (o : Nat) : BitVec 32 :=
  let f := s.fab
  match o with
  | 0xC00 => pack32 [(f.job.toNat, 0), (bn f.jobValid, 8), (bn s.cleanNow, 9)]
  | 0xC04 => f.cellBytes.setWidth 32
  | 0xC20 => f.rankSel.setWidth 32
  | 0xC24 => s.rankEntry 0 f.rankSel.toNat
  | 0xC28 => f.flatSel.setWidth 32
  | 0xC2C => (alGet f.flatSel.toNat f.exceptions).getD 0xF0000000
  | _ =>
    if 0xC08 ≤ o && o < 0xC20 then
      let m := (o - 0xC08) / 4
      pack32 [((vget f.linkMap (2 * m) 0).toNat, 0), ((vget f.linkMap (2 * m + 1) 0).toNat, 16)]
    else 0

/-- LNKn. -/
def State.readLnk (s : State) (n o : Nat) : BitVec 32 :=
  if o < 0x800 then s.readLink n o else if o < 0xC00 then s.readPort n o else if n = 0 then s.readFabric o else 0

/-- STKn (R209). -/
def Stack.read (y : Stack) (o : Nat) : BitVec 32 :=
  let c := vget y.ch y.debtSel.toNat Channel.reset
  match o with
  | 0x00 => pack32 [(y.state.toNat, 0), (bn y.hot, 2), (y.trainResult.toNat, 8)]
  | 0x04 => y.tempC.setWidth 32
  | 0x08 => ofBits 32 ((List.range 32).filter fun i => (vget y.ch i Channel.reset).usable)
  | 0x0C => y.refreshForced
  | 0x10 => y.debtSel.setWidth 32
  | 0x14 => pack32 [((BitVec.ofInt 5 c.debt).toNat, 0), (bn c.pending, 5)]
  | 0x18 => y.eccCe
  | 0x1C => pack32 [(y.eccUe.toNat, 0), (bn y.eccUeValid, 31)]
  | 0x20 => y.eccDie.setWidth 32
  | 0x24 => y.scrubWord.setWidth 32
  | 0x28 => y.scrubPasses
  | 0x2C => y.emberChunks
  | 0x30 => y.stageLate
  | 0x34 => y.sealFail
  | 0x38 => y.winAddr.setWidth 32
  | 0x3C => pack32 [(bn y.winGo.isSome, 0), (bn y.winWrite, 1), (bn y.winError, 2)]
  | _ => if 0x40 ≤ o && o < 0x80 then wordOf y.winData ((o - 0x40) / 4) else 0

/-- 64-byte units that queued writes take (R432). -/
def outUnits (l : List OutWrite) : BitVec 32 := BitVec.ofNat 32 (l.foldl (fun a w => a + max 1 (ceilDiv w.data.length 64)) 0)

/-- PCIE (R443). -/
def State.readPcie (s : State) (o : Nat) : BitVec 32 :=
  let x := s.pcie
  let n := x.fsel.toNat
  let f := s.fn n
  match o with
  | 0x00 => pack32 [(x.speed.toNat, 0), (x.width.toNat, 3), (bn x.flit, 8), (bn x.up, 9)]
  | 0x04 => pack32 [(bn x.relaxed, 0)]
  | 0x08 => x.fsel.setWidth 32
  | 0x0C => pack32 [(bn f.bme, 0), (bn f.msixEn, 1), (bn f.flrEnd.isSome, 2), (bn f.stgNext.isSome, 3),
      (bn (x.outq.any fun w => w.fn = n), 4), (bn f.d3Pending, 5)]
  | 0x10 => f.stgBaseLo
  | 0x14 => hi32 ((f.stgNext.map (·.1)).getD f.stgBase)
  | 0x18 => ((f.stgNext.map (·.2)).getD f.stgSize).setWidth 32
  | 0x1C => outUnits (x.outq.filter fun w => w.fn = n)
  | 0x20 => lo32 (vget s.snap.hold.stgBytes n 0)
  | 0x24 => hi32 (vget s.snap.hold.stgBytes n 0)
  | 0x28 => outUnits x.outq
  | 0x2C => BitVec.ofNat 32 x.stgReads.length
  | 0x30 => x.cplErr
  | 0x34 => x.flrCount
  | 0x38 => x.discarded
  | 0x3C => pack32 [(x.self.toNat, 0), (bn x.selfValid, 31)]
  | 0x40 => x.accessErr
  | _ => 0

/-- SVC (R469). The MAC address is 0x02 and serial bits [39:0], bytes in big-endian order (R445). -/
def State.readSvc (s : State) (o : Nat) : BitVec 32 :=
  let v := s.svc
  let x := v.ptpFifo.headD PtpStamp.reset
  let mac : List (BitVec 8) := [2] ++ (bytesOf 5 s.fuses.serial.toNat).reverse
  match o with
  | 0x00 => pack32 [(bn v.ethLink, 0)]
  | 0x04 => BitVec.ofNat 32 (fieldN mac 2 4)
  | 0x08 => BitVec.ofNat 32 (fieldN mac 0 2)
  | 0x0C => v.ipv4
  | 0x10 => pack32 [(bn v.ptpEn, 0), (bn v.ptpDom, 1)]
  | 0x14 => BitVec.ofNat 32 v.ptpFifo.length
  | 0x18 => lo32 x.ns
  | 0x1C => hi32 x.ns
  | 0x20 => pack32 [(x.seqId.toNat, 0), (x.msgType.toNat, 16), (bn x.tx, 20)]
  | 0x24 => x.frac
  | 0x28 => v.ptpLost
  | 0x2C => v.rxDrop
  | 0x30 => pack32 [(v.i3cAddr.toNat, 0), (bn v.i3cAssigned, 7)]
  | _ => 0

/-- The bits of a tile's window words (R84). -/
def Tile.feWin (t : Tile) : BitVec 32 :=
  ofBits 32 ((List.range 32).filter fun i => nsHas ((t.winBase.toNat + i) % 65536) t.full)

/-- TILE.STATUS.STATE: 4 FAULT_STOP while the plan of a bound tile stands in a fault hold (R84, R120). -/
def State.tileState (s : State) (t : Tile) : BitVec 3 :=
  if t.bound && (t.state = 2#3 || t.state = 3#3) && (s.pt t.part.toNat).faultStop then 4 else t.state

/-- A tile aperture's registers (R81, R84, R412): a disabled tile shows its number and its state, one being scrubbed reads 0. -/
def State.readTile (s : State) (n o : Nat) : BitVec 32 :=
  let t := s.tile n
  let h := vget s.snap.hold.tiles n SnapTile.reset
  let run := bn t.mx.running + bn t.vx.running * 2 + bn t.mv.running * 4
  if t.state = 0#3 then (if o = 0 then BitVec.ofNat 32 n else 0)
  else if t.state = 5#3 then 0
  else match o with
    | 0x00 => pack32 [(n, 0), (t.logical.toNat, 8), (t.part.toNat, 16), (bn t.bound, 20)]
    | 0x04 => pack32 [((s.tileState t).toNat, 0), (bn t.scrubbed, 3), (run, 4)]
    | 0x08 => h.pcMx
    | 0x0C => h.pcVx
    | 0x10 => h.pcMv
    | 0x14 => h.level
    | 0x18 => t.eccCe
    | 0x1C => pack32 [(t.eccUeWord.toNat, 0), (bn t.eccUeValid, 16)]
    | 0x20 => t.parityCount
    | 0x24 => t.parityLast.setWidth 32
    | 0x28 => t.parityPc
    | 0x2C => t.scrubRow.setWidth 32
    | 0x30 => t.winBase.setWidth 32
    | 0x34 => pack32 [(bn t.openOnly, 0), (bn (!t.winQueue.isEmpty || t.winActive.isSome), 1), (bn t.winPoison, 2)]
    | 0x38 => t.feWin
    | _ => 0

/-- The function status page of VF `f` (R437). -/
def State.readFn (s : State) (f o : Nat) : BitVec 32 :=
  let x := s.fn f
  let b := s.pt (f - 1)
  let job := b.state = 1#3
  match o with
  | 0x1000 => pack32 [(b.state.toNat, 0), (bn (job && s.held), 3), (bn b.faultStop, 4),
      (if job then ((s.oldestEpisode.map fun (e : Episode) => e.cause).getD 0).toNat else 0, 8)]
  | 0x1004 => pack32 [(x.lastFault.toNat, 0), (bn x.lastFaultValid, 16)]
  | 0x1008 => pack32 [(bn x.evState, 0), (bn x.evFault, 1)]
  | _ => 0

/-! ### Other views of the state (R242, R427, R430, R447) -/

/-- The fields of the intake header that SEQ writes, as bytes with the offset at which they start (R242). -/
def State.intakeFields (s : State) (p : Nat) : List (Nat × List (BitVec 8)) :=
  let q := s.sq p
  let h := q.hdr
  [(0x40, bytesOf 4 h.ctlConsumed.toNat ++ bytesOf 4 h.subConsumed.toNat ++ bytesOf 4 h.promptConsumed.toNat
      ++ bytesOf 4 h.resultProduced.toNat ++ bytesOf 8 h.stepNo.toNat
      ++ bytesOf 4 (bn (s.leadsPart p) + bn q.resultFull * 2 + bn q.intakeErr * 4 + bn (s.ringWaits p) * 8 + bn h.cfgErr * 16)),
    (0xA0, bytesOf 4 h.cfgDone.toNat)]

/-- A byte of the intake window of partition `p` as BAR4 reads it; 0 while the partition is not ACTIVE (R242, R412, R430). -/
def State.intakeByte (s : State) (p off : Nat) : BitVec 8 :=
  if (s.pt p).state ≠ 1#3 then 0
  else ((s.intakeFields p).findSome? fun f => if f.1 ≤ off then f.2[off - f.1]? else none).getD
    (Memory.read (s.sq p).intake off)

/-- The Device Serial Number capability of a function: the serial number of the identity record (R427). -/
def State.deviceSerial (s : State) : BitVec 64 := s.fuses.serial

/-- A byte of the map that the I3C target presents (R447). A WO byte and an address outside the map read 0. -/
def State.i3cByte (s : State) (a : Nat) : BitVec 8 :=
  let f := s.fwu
  let part (b : Nat) (l : List (BitVec 8)) : BitVec 8 := l.getD (a - b) 0
  if a = 0 then BitVec.ofNat 8 (bn f.booted + bn s.held * 2 + bn (!s.top.log.isEmpty) * 4 + bn f.fwFallback * 8 + bn f.expired * 16)
  else if a = 1 then s.pins.tj
  else if 2 ≤ a && a < 0xA then (s.stk (a - 2)).tempC
  else if 0x10 ≤ a && a < 0x13 then part 0x10 (bytesOf 3 s.svc.i3cChip.toNat)
  else if 0x14 ≤ a && a < 0x18 then part 0x14 (bytesOf 4 s.svc.ipv4.toNat)
  else if 0x20 ≤ a && a < 0x40 then part 0x20 ((s.top.newest.map (·.bytes)).getD [])
  else if 0x40 ≤ a && a < 0x48 then part 0x40 (bytesOf 8 f.version.toNat)
  else 0

/-- A register of BAR0 below the alias region; what no block implements reads 0 (R481). The data window of a tile reads
through TILE_WIN_READ. -/
def State.readBlock (s : State) (off : Nat) : BitVec 32 :=
  let o := off % 65536
  match off / 65536 with
  | 0x00 => s.readTop o
  | 0x01 => s.readClk o
  | 0x02 => s.readTime o
  | 0x03 => s.readSec o
  | 0x04 => s.readFwu o
  | 0x05 => if o < 0x400 then (s.crc (o / 256)).read (o % 256) else 0
  | 0x06 => s.readSnap o
  | 0x08 => s.readPlan o
  | 0x09 => s.readMap o
  | 0x0A => s.readSeq o
  | 0x0B => s.readBud o
  | 0x0C => s.readSync o
  | 0x0D => s.readDig o
  | 0x0E => s.readPart o
  | 0x30 => s.readPcie o
  | 0x31 => s.readSvc o
  | k =>
    if 0x10 ≤ k && k < 0x1C then s.readLnk (k - 0x10) o
    else if 0x20 ≤ k && k < 0x28 then (s.stk (k - 0x20)).read o
    else if 0x40 ≤ k && k < 0x4A then s.readTile ((off - 0x400000) / 4096) (off % 4096)
    else 0

/-- The blocks that work before firmware is ready: TOP, SEC, FWU, SNAP and PCIE (R480). -/
def earlyBlock (off : Nat) : Bool := [0x00, 0x03, 0x04, 0x06, 0x30].contains (off / 65536)

/-- The reset values of a part's registers, which every other block reads until firmware is ready (R480): what the fuses say
and what each disabled tile shows. -/
def State.blank (s : State) : State :=
  { State.reset with
    fuses := s.fuses
    tiles := Vector.ofFn fun t : Fin 160 => if s.fuses.disabled.contains t.val then { Tile.reset with state := 0 } else Tile.reset }

/-- A register of BAR0 below the alias region, as the port reads it (R480, R481). -/
def State.readReg (s : State) (off : Nat) : BitVec 32 :=
  if s.top.fwReady || earlyBlock off then s.readBlock off else s.blank.readBlock off

end Sys2Proof.Machine
end

