-- ==== Sys2Proof/Machine/RegAcc.lean ====
section
/-! DEFINITION. Which bits of a register accept writes, and how (R475): the access column of the register tables, for the
blocks that the bit-alias region mirrors (R489). -/

namespace Sys2Proof.Machine
open Sys2Proof

/-- The bits of a register that are RW, W1C, and W1S or WO (R475). -/
structure Acc where
  rw : BitVec 32
  w1c : BitVec 32
  act : BitVec 32
  deriving DecidableEq, Repr

/-- No bit accepts writes. -/
def Acc.none : Acc := ⟨0, 0, 0⟩

/-- TOP (R482). -/
def accTop (o : Nat) : Acc :=
  match o with
  | 0x0C => ⟨0x3, 0x0, 0x0⟩
  | 0x30 => ⟨0x0, 0x0, 0x1⟩
  | _ => .none

/-- CLK (R52). -/
def accClk (o : Nat) : Acc :=
  match o with
  | 0x04 => ⟨0x7, 0x0, 0x0⟩
  | 0x08 => ⟨0xFFFFFFFF, 0x0, 0x0⟩
  | 0x0C => ⟨0xFFFFFFFF, 0x0, 0x0⟩
  | 0x10 => ⟨0x0, 0x2, 0x1⟩
  | _ => .none

/-- TIME (R471). -/
def accTime (o : Nat) : Acc :=
  match o with
  | 0x00 => ⟨0x3, 0x0, 0x0⟩
  | 0x04 => ⟨0x0, 0x6, 0x0⟩
  | 0x20 => ⟨0xF, 0x0, 0x0⟩
  | 0x28 => ⟨0xF, 0x0, 0x0⟩
  | 0x24 => ⟨0xFFFFFFFF, 0x0, 0x0⟩
  | 0x2C => ⟨0xFFFFFFFF, 0x0, 0x0⟩
  | 0x30 => ⟨0xF, 0x0, 0x0⟩
  | 0x34 => ⟨0xFFFFFFFF, 0x0, 0x0⟩
  | 0x38 => ⟨0xFFFFFFFF, 0x0, 0x0⟩
  | 0x3C => ⟨0x2, 0x0, 0x1⟩
  | 0x40 => ⟨0xFFFFFFFF, 0x0, 0x0⟩
  | 0x44 => ⟨0xFFFFFFFF, 0x0, 0x0⟩
  | 0x48 => ⟨0x0, 0x0, 0x3⟩
  | 0x4C => ⟨0xFFFFF, 0x0, 0x0⟩
  | 0x60 => ⟨0x3, 0x0, 0x0⟩
  | 0x64 => ⟨0xFFFFFFFF, 0x0, 0x0⟩
  | 0x68 => ⟨0xFFFFFFFF, 0x0, 0x0⟩
  | 0x6C => ⟨0x7, 0x70, 0x8⟩
  | 0x70 => ⟨0x1F03FE, 0x0, 0x0⟩
  | _ => .none

/-- SEC (R422). -/
def accSec (o : Nat) : Acc :=
  match o with
  | 0x04 => ⟨0x1F, 0x0, 0x20⟩
  | 0x30 => ⟨0x0, 0x2, 0x1⟩
  | 0x34 => ⟨0xF, 0x0, 0x0⟩
  | 0x3C => ⟨0xFFFFFFFF, 0x0, 0x0⟩
  | 0x44 => ⟨0x0, 0x0, 0x1⟩
  | 0x4C => ⟨0x3, 0x0, 0x0⟩
  | _ => if 0x8 ≤ o && o < 0x28 then ⟨0xFFFFFFFF, 0x0, 0x0⟩ else if 0x2000 ≤ o && o < 0x4000 then ⟨0xFFFFFFFF, 0x0, 0x0⟩ else .none

/-- FWU (R470). -/
def accFwu (o : Nat) : Acc :=
  match o with
  | 0x04 => ⟨0x0, 0x0, 0x1⟩
  | 0x0C => ⟨0x0, 0x0, 0x3⟩
  | _ => .none

/-- CRCu (R472). -/
def accCrc (o : Nat) : Acc :=
  match o with
  | 0x00 => ⟨0xFFFFFFFF, 0x0, 0x0⟩
  | 0x04 => ⟨0xFFFFFFFF, 0x0, 0x0⟩
  | 0x08 => ⟨0xFFFFFFFF, 0x0, 0x0⟩
  | 0x0C => ⟨0xFF, 0x0, 0x0⟩
  | 0x10 => ⟨0xFFFFFFFF, 0x0, 0x0⟩
  | 0x14 => ⟨0xFFFFFFFF, 0x0, 0x0⟩
  | 0x18 => ⟨0x0, 0x0, 0x1⟩
  | 0x1C => ⟨0x0, 0x3C, 0x0⟩
  | _ => .none

/-- SNAP (R488). -/
def accSnap (o : Nat) : Acc :=
  match o with
  | 0x00 => ⟨0x0, 0x0, 0x3⟩
  | 0x04 => ⟨0x0, 0x4, 0x0⟩
  | 0x0C => ⟨0xFFFFFFFF, 0x0, 0x0⟩
  | 0x10 => ⟨0xFFFFFFFF, 0x0, 0x0⟩
  | _ => .none

/-- PLAN (R51). -/
def accPlan (o : Nat) : Acc :=
  match o with
  | 0x08 => ⟨0xFFFFFFFF, 0x0, 0x0⟩
  | 0x0C => ⟨0xFFFFFFFF, 0x0, 0x0⟩
  | 0x10 => ⟨0x0, 0x0, 0x1⟩
  | 0x30 => ⟨0xFFFFF, 0x0, 0x0⟩
  | 0x38 => ⟨0xF0FF, 0x0, 0x0⟩
  | 0x3C => ⟨0xFFFFFFFF, 0x0, 0x0⟩
  | 0x40 => ⟨0xF, 0x0, 0x0⟩
  | _ => .none

/-- MAP (R236). -/
def accMap (o : Nat) : Acc :=
  match o with
  | 0x00 => ⟨0xF0, 0x0, 0x3⟩
  | 0x10 => ⟨0x7FF, 0x0, 0x0⟩
  | 0x14 => ⟨0xFFFF, 0x0, 0x0⟩
  | 0x20 => ⟨0x4, 0x0, 0x0⟩
  | 0x28 => ⟨0xFFF, 0x0, 0x0⟩
  | 0x30 => ⟨0xFFF, 0x0, 0x0⟩
  | _ => if 0xA0 ≤ o && o < 0xB4 then ⟨0xFFFFFFFF, 0x0, 0x0⟩ else .none

/-- SEQ (R268). -/
def accSeq (o : Nat) : Acc :=
  match o with
  | 0x00 => ⟨0xF, 0x0, 0x0⟩
  | 0x04 => ⟨0x3, 0x0, 0x0⟩
  | 0x08 => ⟨0x0, 0x10, 0x0⟩
  | 0x1C => ⟨0xFFFF, 0x0, 0x0⟩
  | 0x20 => ⟨0xFFFF, 0x0, 0x0⟩
  | 0x3C => ⟨0x3FFF, 0x0, 0x0⟩
  | 0x80 => ⟨0xFFFF, 0x0, 0x0⟩
  | 0x88 => ⟨0xFFFF, 0x0, 0x0⟩
  | _ => .none

/-- BUD (R288). -/
def accBud (o : Nat) : Acc :=
  match o with
  | 0x00 => ⟨0xF, 0x0, 0x0⟩
  | 0x0C => ⟨0x3, 0x0, 0x0⟩
  | 0x10 => ⟨0xFFFFFFFF, 0x0, 0x0⟩
  | 0x14 => ⟨0xFFFFFF, 0x0, 0x0⟩
  | 0x24 => ⟨0xFFFF, 0x0, 0x0⟩
  | 0x48 => ⟨0xFFFF, 0x0, 0x0⟩
  | 0x4C => ⟨0xFFFFFFFF, 0x0, 0x0⟩
  | 0x50 => ⟨0xFFFFFFFF, 0x0, 0x0⟩
  | 0x54 => ⟨0x7, 0x10, 0x8⟩
  | _ => .none

/-- SYNC (R310). -/
def accSync (o : Nat) : Acc :=
  match o with
  | 0x00 => ⟨0xF, 0x0, 0x0⟩
  | 0x0C => ⟨0x1F, 0x0, 0x0⟩
  | 0x18 => ⟨0xFF, 0x0, 0x0⟩
  | 0x20 => ⟨0x0, 0x40000000, 0x0⟩
  | _ => .none

/-- DIG (R397). -/
def accDig (o : Nat) : Acc :=
  match o with
  | 0x08 => ⟨0x1FFF, 0x0, 0x0⟩
  | 0x20 => ⟨0x0, 0x80000000, 0x0⟩
  | 0x40 => ⟨0x3, 0x0, 0x0⟩
  | 0x44 => ⟨0x0, 0x0, 0x1⟩
  | 0x48 => ⟨0x2, 0xC, 0x1⟩
  | 0x4C => ⟨0xFFFFFFFF, 0x0, 0x0⟩
  | 0x50 => ⟨0xFFFFFFFF, 0x0, 0x0⟩
  | 0x54 => ⟨0x1FFFFF, 0x0, 0x0⟩
  | 0x64 => ⟨0xFFFFFFFF, 0x0, 0x0⟩
  | 0x70 => ⟨0xFFFFFFFF, 0x0, 0x0⟩
  | 0x74 => ⟨0xFFFFFFFF, 0x0, 0x0⟩
  | _ => if 0x28 ≤ o && o < 0x3C then ⟨0x0, 0xFFFFFFFF, 0x0⟩ else .none

/-- PART (R421). -/
def accPart (o : Nat) : Acc :=
  match o with
  | 0x00 => ⟨0xF, 0x0, 0x0⟩
  | 0x04 => ⟨0x1, 0x4, 0x2⟩
  | 0x0C => ⟨0xFFFF, 0x0, 0x0⟩
  | 0x10 => ⟨0xFFFFFFFF, 0x0, 0x0⟩
  | 0x14 => ⟨0x7FFF3FFF, 0x0, 0x0⟩
  | 0x18 => ⟨0xFFFF, 0x0, 0x0⟩
  | 0x1C => ⟨0x1FFFF, 0x0, 0x0⟩
  | 0x20 => ⟨0x1FFFFFF, 0x0, 0x0⟩
  | 0x24 => ⟨0x3FFFFFF, 0x0, 0x0⟩
  | 0x28 => ⟨0xFF, 0x0, 0x0⟩
  | 0x30 => ⟨0xFFFFFFFF, 0x0, 0x0⟩
  | 0x34 => ⟨0xFFFFFFFF, 0x0, 0x0⟩
  | 0x38 => ⟨0xFFFFFFFF, 0x0, 0x0⟩
  | 0x3C => ⟨0x2, 0x4, 0x1⟩
  | 0x40 => ⟨0xFFFFFFFF, 0x0, 0x0⟩
  | 0x44 => ⟨0xFFFFFFFF, 0x0, 0x0⟩
  | _ => .none

/-- The access codes of a register below 0x010_0000, by its offset; none where nothing is implemented (R481, R490). -/
def accOf (off : Nat) : Acc :=
  let o := off % 65536
  match off / 65536 with
  | 0x00 => accTop o
  | 0x01 => accClk o
  | 0x02 => accTime o
  | 0x03 => accSec o
  | 0x04 => accFwu o
  | 0x05 => if o < 0x400 then accCrc (o % 256) else .none
  | 0x06 => accSnap o
  | 0x08 => accPlan o
  | 0x09 => accMap o
  | 0x0A => accSeq o
  | 0x0B => accBud o
  | 0x0C => accSync o
  | 0x0D => accDig o
  | 0x0E => accPart o
  | _ => .none

end Sys2Proof.Machine
end

