-- ==== Sys2Proof/Machine/RegWrite.lean ====
section
/-! DEFINITION. The register port: writes with their actions and chained actions, reads that clear or pop, and the bit-alias
region (R474 to R481, R486, R489, R490). -/

namespace Sys2Proof.Machine
open Sys2Proof

/-- A field that accepts a value only within a range: another value leaves it unchanged (R476). -/
def keep {w : Nat} (ok : Bool) (old : BitVec w) (v : Nat) : BitVec w := if ok then BitVec.ofNat w v else old

/-- A 64-bit pair with one half written. -/
def setHalf (x : BitVec 64) (hi : Bool) (v : BitVec 32) : BitVec 64 := if hi then setHi x v else setLo x v

/-- A wide register with word `i` written. -/
def setWord {w : Nat} (x : BitVec w) (i : Nat) (v : BitVec 32) : BitVec w :=
  let m : BitVec w := BitVec.ofNat w (0xFFFFFFFF <<< (32 * i))
  (x &&& ~~~m) ||| BitVec.ofNat w (v.toNat <<< (32 * i))

/-- TOP (R482). -/
def State.writeTop (s : State) (o : Nat) (v : BitVec 32) : State :=
  match o with
  | 0x0C => { s with top := { s.top with
      determine := bit v 0
      faultKeep := bit v 1 } }
  | 0x30 => if bit v 0 then s.clearFaults else s
  | _ => s

/-- CLK (R48, R52). -/
def State.writeClk (s : State) (o : Nat) (v : BitVec 32) : State :=
  match o with
  | 0x04 => { s with clk := { s.clk with stepTarget := v.setWidth 3 } }
  | 0x08 => { s with clk := { s.clk with stepAt := setLo s.clk.stepAt v } }
  | 0x0C => { s with clk := { s.clk with stepAt := setHi s.clk.stepAt v } }
  | 0x10 =>
    let s : State := { s with clk := { s.clk with rejected := s.clk.rejected && !bit v 1 } }
    if bit v 0 then s.stepArm else s
  | _ => s

/-- TIME.CTRL (R461, R462): with PPS_OUT_EN 0 the pin is not driven. -/
def State.writeTimeCtrl (s : State) (v : BitVec 32) : State :=
  let s : State := { s with time := { s.time with
    active := bit v 0
    ppsOutEn := bit v 1
    ppsDue := s.time.ppsDue && bit v 1 } }
  if bit v 1 then s else s.ppsLow

/-- TIME (R471). -/
def State.writeTime (s : State) (o : Nat) (v : BitVec 32) : State :=
  let t := s.time
  let j := t.trigSel.toNat
  match o with
  | 0x00 => s.writeTimeCtrl v
  | 0x04 => { s with time := { t with
      incReject := t.incReject && !bit v 1
      logFull := t.logFull && !bit v 2 } }
  | 0x20 => s.modDom false fun d => { d with wrNs := v.setWidth 4 }
  | 0x24 => s.incCommit false v
  | 0x28 => s.modDom true fun d => { d with wrNs := v.setWidth 4 }
  | 0x2C => s.incCommit true v
  | 0x30 => { s with time := { t with adjNs := v.setWidth 4 } }
  | 0x34 => { s with time := { t with adjFrac := v } }
  | 0x38 => { s with time := { t with adjTicks := v } }
  | 0x3C =>
    let s : State := { s with time := { t with adjDom := bit v 1 } }
    if bit v 0 then s.adjust else s
  | 0x40 => { s with time := { t with setNs := setLo t.setNs v } }
  | 0x44 => { s with time := { t with setNs := setHi t.setNs v } }
  | 0x48 =>
    let s := if bit v 0 then s.setDomain false else s
    if bit v 1 then s.setDomain true else s
  | 0x4C =>
    let n := field v 19 0
    { s with time := { t with ppsWidth := keep (1 ≤ n && n ≤ 999999) t.ppsWidth n } }
  | 0x60 => { s with time := { t with trigSel := v.setWidth 2 } }
  | 0x64 => s.modTrig j fun g => { g with fireAt := setLo g.fireAt v }
  | 0x68 => s.modTrig j fun g => { g with fireAt := setHi g.fireAt v }
  | 0x6C => s.writeTrigger v
  | 0x70 => { s with time := { t with
      logTypes := BitVec.ofNat 9 (field v 9 1)
      tickLog2 := BitVec.ofNat 5 (field v 20 16) } }
  | _ => s

/-- SEC (R422). -/
def State.writeSec (s : State) (o : Nat) (v : BitVec 32) : State :=
  let x := s.sec
  match o with
  | 0x04 =>
    let s : State := { s with sec := { x with
      reqPart := v.setWidth 4
      reqChip := bit v 4 } }
    if bit v 5 then s.requestReport else s
  | 0x30 =>
    let s : State := { s with sec := { x with deliverFailed := x.deliverFailed && !bit v 1 } }
    if bit v 0 then s.deliver else s
  | 0x34 => { s with sec := { x with keySel := v.setWidth 4 } }
  | 0x3C => s.writeMgmtTx v
  | 0x44 => if bit v 0 then s.promote else s
  | 0x4C => { s with sec := { x with bufSel := keep (field v 1 0 ≠ 3) x.bufSel (field v 1 0) } }
  | _ =>
    if 0x08 ≤ o && o < 0x28 then { s with sec := { x with nonce := setWord x.nonce ((o - 8) / 4) v } }
    else if 0x2000 ≤ o && o < 0x4000 && x.bufSel = 2#2 then
      { s with sec := { x with input := Memory.writeNat x.input (o - 0x2000) 4 v.toNat } }
    else s

/-- FWU (R470): the port is the host's way to HEALTH_CONFIRM. -/
def State.writeFwu (s : State) (o : Nat) (v : BitVec 32) : State :=
  match o with
  | 0x04 => if bit v 0 then s.healthConfirm true else s
  | 0x0C =>
    let s := if bit v 0 then s.cancelStage else s
    if bit v 1 && s.fwu.booted then s.svnCommit else s
  | _ => s

/-- CRCu.CFG with the reserved value of CNT_W left out (R472, R476). -/
def crcCfg (old : BitVec 8) (v : BitVec 32) : BitVec 8 :=
  let n := field v 7 0
  if field v 4 3 = 3 then BitVec.ofNat 8 (n - 24 + field old 4 3 * 8) else BitVec.ofNat 8 n

/-- One check-value unit (R467, R472). -/
def CrcRegs.write (x : CrcRegs) (o : Nat) (v : BitVec 32) : CrcRegs :=
  match o with
  | 0x00 => { x with cur := { x.cur with src := setLo x.cur.src v } }
  | 0x04 => { x with cur := { x.cur with src := setHi x.cur.src v } }
  | 0x08 => { x with cur := { x.cur with len := v } }
  | 0x0C => { x with cur := { x.cur with cfg := crcCfg x.cur.cfg v } }
  | 0x10 => { x with cur := { x.cur with
      block := v.setWidth 16
      cntOff := BitVec.ofNat 16 (field v 31 16) } }
  | 0x14 => { x with cur := { x.cur with seed := v } }
  | 0x18 => if bit v 0 then x.go else x
  | 0x1C => { x with
      done := x.done && !bit v 2
      error := x.error && !bit v 3
      dmaErr := x.dmaErr && !bit v 4
      cfgErr := x.cfgErr && !bit v 5 }
  | _ => x

/-- SNAP (R484 to R488). -/
def State.writeSnap (s : State) (o : Nat) (v : BitVec 32) : State :=
  match o with
  | 0x00 =>
    let s := if bit v 0 then s.takeSnap false else s
    if bit v 1 then s.armSnap else s
  | 0x04 => { s with snap := { s.snap with atRejected := s.snap.atRejected && !bit v 2 } }
  | 0x0C => { s with snap := { s.snap with armAt := setLo s.snap.armAt v } }
  | 0x10 => { s with snap := { s.snap with armAt := setHi s.snap.armAt v } }
  | _ => s

/-- PLAN (R51). -/
def State.writePlan (s : State) (o : Nat) (v : BitVec 32) : State :=
  match o with
  | 0x08 => { s with plan := { s.plan with launchAt := setLo s.plan.launchAt v } }
  | 0x0C => { s with plan := { s.plan with launchAt := setHi s.plan.launchAt v } }
  | 0x10 => if bit v 0 then s.launchArm else s
  | 0x30 => s.writeHoldLimit v
  | 0x38 => s.writeThrottle v
  | 0x3C => { s with plan := { s.plan with armLead := v } }
  | 0x40 => { s with plan := { s.plan with psel := v.setWidth 4 } }
  | _ => s

/-- MAP.CTRL (R236): a run of the PART value of the same write. What the job sends for it comes with the commands of bind. -/
def State.writeMapCtrl (s : State) (v : BitVec 32) : State :=
  let p := field v 7 4
  let s : State := { s with map := { s.map with part := BitVec.ofNat 4 p } }
  let s := if bit v 0 then s.startRun p false ⟨[], [], []⟩ else s
  if bit v 1 then s.startRun p true ⟨[], [], []⟩ else s

/-- MAP (R236). A run in progress keeps what it took at its start. -/
def State.writeMap (s : State) (o : Nat) (v : BitVec 32) : State :=
  let m := s.map
  let within (n top : Nat) : Bool := 1 ≤ n && n ≤ top
  match o with
  | 0x00 => s.writeMapCtrl v
  | 0x10 => { s with map := { m with
      ex := keep (within (field v 3 0) 8) m.ex (field v 3 0)
      ey := keep (within (field v 7 4) 8) m.ey (field v 7 4)
      ez := keep (within (field v 10 8) 4) m.ez (field v 10 8) } }
  | 0x14 => { s with map := { m with jobBox := v.setWidth 16 } }
  | 0x20 => { s with map := { m with retire := bit v 2 } }
  | 0x28 => { s with map := { m with ltSel := v.setWidth 12 } }
  | 0x30 => { s with map := { m with lchSel := v.setWidth 12 } }
  | _ => if 0xA0 ≤ o && o < 0xB4 then { s with map := { m with tileRetire := setWord m.tileRetire ((o - 0xA0) / 4) v } } else s

/-- SEQ.CTRL, OVERDUE_STEPS or QUANTUM written: at once, or at the next boundary during boundary work (R268, R478). -/
def State.writeSeqCtl (s : State) (f : Bool × Bool × BitVec 16 × BitVec 16 → Bool × Bool × BitVec 16 × BitVec 16) : State :=
  s.modSq s.seq.psel.toNat fun q =>
    let n := f q.written
    let q := { q with chained := some n }
    if s.plan.geyser < q.busyUntil then q else q.takeChained

/-- SEQ (R268). -/
def State.writeSeq (s : State) (o : Nat) (v : BitVec 32) : State :=
  match o with
  | 0x00 => { s with seq := { s.seq with psel := v.setWidth 4 } }
  | 0x04 => s.writeSeqCtl fun x => (bit v 0, bit v 1, x.2.2)
  | 0x08 => s.modSq s.seq.psel.toNat fun q => { q with intakeErr := q.intakeErr && !bit v 4 }
  | 0x1C => s.writeSeqCtl fun x => (x.1, x.2.1, v.setWidth 16, x.2.2.2)
  | 0x20 => s.writeSeqCtl fun x => (x.1, x.2.1, x.2.2.1, v.setWidth 16)
  | 0x3C => s.entrySel v
  | 0x80 => { s with seq := { s.seq with defSel := v.setWidth 16 } }
  | 0x88 => s.modSq s.seq.psel.toNat fun q => { q with strSel := v.setWidth 16 }
  | _ => s

/-- BUD (R288). BUD.CFG, ADMIT_RESERVE and PAGE_QUOTA are pending, each for itself, until the next boundary. -/
def State.writeBud (s : State) (o : Nat) (v : BitVec 32) : State :=
  let p := s.bud.psel.toNat
  match o with
  | 0x00 => { s with bud := { s.bud with psel := v.setWidth 4 } }
  | 0x0C => s.modBd p fun b => { b with cfgNext := some (bit v 0, bit v 1) }
  | 0x10 => s.modBd p fun b => { b with reserveNext := some v }
  | 0x14 => s.modBd p fun b => { b with quotaNext := some (v.setWidth 24) }
  | 0x24 => s.bktSel v
  | 0x48 => s.modBd p fun b => { b with opCust := v.setWidth 16 }
  | 0x4C => s.modBd p fun b => { b with opVal := setLo b.opVal v }
  | 0x50 => s.modBd p fun b => { b with opVal := setHi b.opVal v }
  | 0x54 =>
    let s := s.modBd p fun b => { b with
      opCode := keep (field v 2 0 < 6) b.opCode (field v 2 0)
      opRejected := b.opRejected && !bit v 4 }
    if bit v 3 then s.budGo p else s
  | _ => s

/-- SYNC (R310). -/
def State.writeSync (s : State) (o : Nat) (v : BitVec 32) : State :=
  match o with
  | 0x00 => { s with sync := { s.sync with psel := v.setWidth 4 } }
  | 0x0C => { s with sync := { s.sync with barSel := v.setWidth 5 } }
  | 0x18 => { s with sync := { s.sync with tileSel := v.setWidth 8 } }
  | 0x20 => s.modSy s.sync.psel.toNat fun y => { y with stallValid := y.stallValid && !bit v 30 }
  | _ => s

/-- ER overflow flags cleared where bits of a word of 32 tiles are 1 (R376). -/
def State.clearErFlags (s : State) (m : Nat) (v : BitVec 32) : State :=
  (bitsOf v).foldl (fun s i => s.modTile (32 * m + i) fun t => { t with erFlag := false }) s

/-- DIG (R397). DIG.ASH_FLOOR takes a new value only as a pair (R486). -/
def State.writeDig (s : State) (o : Nat) (v : BitVec 32) : State :=
  let d := s.dig
  match o with
  | 0x08 => { s with dig := { d with logSel := v.setWidth 13 } }
  | 0x20 => { s with dig := { d with mismatchValid := d.mismatchValid && !bit v 31 } }
  | 0x40 => { s with dig := { d with
      cfgAuto := bit v 0
      cfgRollback := bit v 1 } }
  | 0x44 => if bit v 0 then s.writeRoDone else s
  | 0x48 =>
    let s : State := { s with dig := { d with
      ckptSlot := bit v 1
      ckptRejected := d.ckptRejected && !bit v 2
      ckptIncomplete := d.ckptIncomplete && !bit v 3 } }
    if bit v 0 then s.ckptArm else s
  | 0x4C => { s with dig := { d with ckptAt := setLo d.ckptAt v } }
  | 0x50 => { s with dig := { d with ckptAt := setHi d.ckptAt v } }
  | 0x54 =>
    let n := field v 20 0
    { s with dig := { d with ckptPause := keep (1 ≤ n && n ≤ 2000000) d.ckptPause n } }
  | 0x64 => s.writeRestoreGen v
  | 0x70 => { s with dig := { d with ashFloorLo := some v } }
  | 0x74 => ({ s with dig := { d with
      ashFloor := v ++ d.ashFloorLo.getD (lo32 d.ashFloor)
      ashFloorLo := none } } : State).showAshFree
  | _ => if 0x28 ≤ o && o < 0x3C then s.clearErFlags ((o - 0x28) / 4) v else s

/-- A resource field written: at once while OFF, else into the pending copy (R399, R401). -/
def State.writeRes (s : State) (f : PartRes → PartRes) : State :=
  s.modPt s.part.psel.toNat fun b =>
    if b.state = 0#3 && b.pendRes.isNone then { b with res := f b.res } else { b with pendRes := some (f b.written) }

/-- PART.CTRL (R400, R406, R410, R411). -/
def State.writePartCtrl (s : State) (p : Nat) (v : BitVec 32) : State :=
  let s := s.modPt p fun b => { b with curtainRejected := b.curtainRejected && !bit v 2 }
  let s := if bit v 0 then s.partEnable p else s.partDisable p
  if bit v 1 then s.curtainArm p else s

/-- PART (R421). -/
def State.writePart (s : State) (o : Nat) (v : BitVec 32) : State :=
  let p := s.part.psel.toNat
  match o with
  | 0x00 => { s with part := { s.part with psel := v.setWidth 4 } }
  | 0x04 => s.writePartCtrl p v
  | 0x0C => s.writeRes fun r => { r with rows := v.setWidth 16 }
  | 0x10 => s.writeRes fun r => { r with slice := v }
  | 0x14 => s.writeRes fun r => { r with
      tableBase := v.setWidth 14
      tableCount := BitVec.ofNat 15 (field v 30 16) }
  | 0x18 => s.writeRes fun r => { r with bktBase := v.setWidth 16 }
  | 0x1C => s.writeRes fun r => { r with bktCount := v.setWidth 17 }
  | 0x20 => s.writeRes fun r => { r with
      poolPages := v.setWidth 24
      encrypt := bit v 24 }
  | 0x24 => s.writeRes fun r => { r with devArea := v.setWidth 26 }
  | 0x28 => s.writeRes fun r => { r with job := v.setWidth 8 }
  | 0x30 => s.modPt p fun b => { b with wlAddr := setLo b.wlAddr v }
  | 0x34 => s.modPt p fun b => { b with wlAddr := setHi b.wlAddr v }
  | 0x38 => s.modPt p fun b => { b with wlLen := v }
  | 0x3C =>
    let s := s.modPt p fun b => { b with
      wlTarget := bit v 1
      wlError := b.wlError && !bit v 2 }
    if bit v 0 then s.wingsGo p else s
  | 0x40 => s.modPt p fun b => { b with curtainAt := setLo b.curtainAt v }
  | 0x44 => s.modPt p fun b => { b with curtainAt := setHi b.curtainAt v }
  | _ => s

/-- LNKn.CTRL (R360, R361, R364, R369). -/
def State.writeLnkCtrl (s : State) (n : Nat) (v : BitVec 32) : State :=
  let s := if bit v 0 = (s.link n).enable then s else s.writeEnable n (bit v 0)
  let s := if bit v 1 then s.fullTrainReq n else s
  let s := if bit v 2 then s.forceRetrain n else s
  if bit v 3 then s.declarePort n else s

/-- LNKn (R338, R339, R369). -/
def State.writeLnk (s : State) (n o : Nat) (v : BitVec 32) : State :=
  match o with
  | 0x04 => s.writeLnkCtrl n v
  | 0x54 =>
    let s := s.modLink n fun l => { l with lanes := { l.lanes with
      thresh := v.setWidth 16
      auto := bit v 16 } }
    if bit v 17 then s.laneSwapReq n else s
  | 0x58 => s.modLink n fun l => { l with lanes := { l.lanes with sel := v.setWidth 4 } }
  | 0x60 => s.modLink n fun l => { l with fab := { l.fab with poolSel := v.setWidth 2 } }
  | 0x808 => s.modLink n fun l => { l with fab := { l.fab with cntSel := v.setWidth 3 } }
  | 0x81C => s.modLink n fun l => { l with fab := { l.fab with slotSel := v.setWidth 14 } }
  | 0xC20 => if n = 0 then { s with fab := { s.fab with rankSel := v.setWidth 14 } } else s
  | 0xC28 => if n = 0 then { s with fab := { s.fab with flatSel := v.setWidth 12 } } else s
  | 0xC2C => if n = 0 then s.writeFlat v else s
  | _ => s

/-- STKn (R209, R210). -/
def State.writeStk (s : State) (k o : Nat) (v : BitVec 32) : State :=
  match o with
  | 0x10 => s.modStk k fun y => { y with debtSel := v.setWidth 5 }
  | 0x1C => s.modStk k fun y => { y with eccUeValid := y.eccUeValid && !bit v 31 }
  | 0x38 => s.modStk k fun y => { y with winAddr := v.setWidth 31 }
  | 0x3C =>
    let s := s.modStk k fun y => { y with winWrite := bit v 1 }
    if bit v 0 then s.stkGo k else s
  | _ => if 0x40 ≤ o && o < 0x80 then s.modStk k fun y => { y with winData := setWord y.winData ((o - 0x40) / 4) v } else s

/-- PCIE (R440, R443). STG_BASE changes only as a pair (R486). -/
def State.writePcie (s : State) (o : Nat) (v : BitVec 32) : State :=
  let x := s.pcie
  let n := x.fsel.toNat
  match o with
  | 0x04 => { s with pcie := { x with relaxed := bit v 0 } }
  | 0x08 => { s with pcie := { x with fsel := keep (field v 4 0 ≤ 16) x.fsel (field v 4 0) } }
  | 0x10 => s.modFn n fun f => { f with stgBaseLo := v &&& 0xFFFFFFC0#32 }
  | 0x14 => s.modFn n fun f => { f with stgNext := some (v ++ f.stgBaseLo, (f.stgNext.map (·.2)).getD f.stgSize) }
  | 0x18 => s.modFn n fun f => { f with stgNext := some ((f.stgNext.map (·.1)).getD f.stgBase, v.setWidth 28) }
  | _ => s

/-- SVC (R469). -/
def State.writeSvc (s : State) (o : Nat) (v : BitVec 32) : State :=
  match o with
  | 0x0C => { s with svc := { s.svc with ipv4 := v } }
  | 0x10 => { s with svc := { s.svc with
      ptpEn := bit v 0
      ptpDom := bit v 1 } }
  | _ => s

/-- A tile aperture (R84, R85): a disabled tile's and one being scrubbed ignore writes (R81, R412). -/
def State.writeTile (s : State) (n o : Nat) (v : BitVec 32) : State :=
  if (s.tile n).state = 0#3 || (s.tile n).state = 5#3 then s
  else if 0x800 ≤ o then s.winWrite n o v.toNat false
  else match o with
    | 0x1C => s.modTile n fun t => { t with eccUeValid := t.eccUeValid && !bit v 16 }
    | 0x30 => s.modTile n fun t => { t with winBase := (v &&& 0xFFE0#32).setWidth 16 }
    | 0x34 => s.modTile n fun t => { t with openOnly := bit v 0 }
    | 0x3C => s.queueFe n .setFull v
    | 0x40 => s.queueFe n .setEmpty v
    | _ => s

/-- A write to a register below the alias region, by its block (R481). -/
def State.writeBlock (s : State) (off : Nat) (v : BitVec 32) : State :=
  let o := off % 65536
  match off / 65536 with
  | 0x00 => s.writeTop o v
  | 0x01 => s.writeClk o v
  | 0x02 => s.writeTime o v
  | 0x03 => s.writeSec o v
  | 0x04 => s.writeFwu o v
  | 0x05 => if o < 0x400 then s.modCrc (o / 256) fun x => x.write (o % 256) v else s
  | 0x06 => s.writeSnap o v
  | 0x08 => s.writePlan o v
  | 0x09 => s.writeMap o v
  | 0x0A => s.writeSeq o v
  | 0x0B => s.writeBud o v
  | 0x0C => s.writeSync o v
  | 0x0D => s.writeDig o v
  | 0x0E => s.writePart o v
  | 0x30 => s.writePcie o v
  | 0x31 => s.writeSvc o v
  | k =>
    if 0x10 ≤ k && k < 0x1C then s.writeLnk (k - 0x10) o v
    else if 0x20 ≤ k && k < 0x28 then s.writeStk (k - 0x20) o v
    else if 0x40 ≤ k && k < 0x4A then s.writeTile ((off - 0x400000) / 4096) (off % 4096) v
    else s

/-- A write to a register below the alias region: until firmware is ready, only the blocks of R480 accept it. -/
def State.writeReg (s : State) (off : Nat) (v : BitVec 32) : State :=
  if s.top.fwReady || earlyBlock off then s.writeBlock off v else s

/-! ### The bit-alias region (R489, R490) -/

/-- An alias word is the bit `b` of the register at the first component. -/
def aliasOf (off : Nat) : Nat × Nat :=
  let n := (off - 0x2000000) / 4
  (n / 32 * 4, n % 32)

/-- The RW bits of a register as written: TIME.ADJ_TICKS reads otherwise while an adjustment runs (R471). -/
def State.writtenReg (s : State) (off : Nat) : BitVec 32 := if off = 0x20038 then s.time.adjTicks else s.readReg off

/-- An alias word read: the bit, and nothing is cleared (R490). -/
def State.aliasRead (s : State) (off : Nat) : BitVec 32 :=
  let a := aliasOf off
  BitVec.ofNat 32 (bn (bit (s.readReg a.1) a.2))

/-- An alias word written: the access code of the bit applied to that bit alone (R490). -/
def State.aliasWrite (s : State) (off : Nat) (v : BitVec 32) : State :=
  let a := aliasOf off
  let acc := accOf a.1
  let m : BitVec 32 := BitVec.ofNat 32 (2 ^ a.2)
  let base := s.writtenReg a.1 &&& acc.rw
  if bit acc.rw a.2 then s.writeReg a.1 (if bit v 0 then base ||| m else base &&& ~~~m)
  else if bit acc.act a.2 && bit v 0 then s.writeReg a.1 (base ||| m)
  else if bit acc.w1c a.2 && !bit v 0 then s.writeReg a.1 (base ||| m)
  else s

/-! ### Reads (R475) -/

/-- The RC counters of LNKn. -/
def LinkCounters.clear (c : LinkCounters) (o lane cnt : Nat) : LinkCounters :=
  match o with
  | 0x30 => { c with replays := 0 }
  | 0x34 => { c with ackTimeouts := 0 }
  | 0x38 => { c with crcErr := 0 }
  | 0x3C => { c with fecCorr := 0 }
  | 0x40 => { c with fecUncorr := 0 }
  | 0x44 => { c with stalls := 0 }
  | 0x48 => { c with poolNak := 0 }
  | 0x4C => { c with retrains := 0 }
  | 0x5C => { c with laneErr := vset c.laneErr lane 0 }
  | 0x80C => { c with cnt := vset c.cnt cnt 0 }
  | 0x810 => { c with pIdle := 0 }
  | 0x814 => { c with bubbleWait := 0 }
  | 0x818 => { c with drop := 0 }
  | _ => c

/-- The RC counters of STKn. -/
def Stack.clear (y : Stack) (o : Nat) : Stack :=
  match o with
  | 0x0C => { y with refreshForced := 0 }
  | 0x18 => { y with eccCe := 0 }
  | 0x2C => { y with emberChunks := 0 }
  | 0x30 => { y with stageLate := 0 }
  | 0x34 => { y with sealFail := 0 }
  | _ => y

/-- The RC counters of CRCu. -/
def CrcRegs.clear (x : CrcRegs) (o : Nat) : CrcRegs :=
  match o with
  | 0x28 => { x with ok := 0 }
  | 0x2C => { x with crcBad := 0 }
  | 0x30 => { x with repeats := 0 }
  | 0x34 => { x with stale := 0 }
  | 0x38 => { x with jump := 0 }
  | _ => x

/-- The RC counters of a partition's SEQ bank. -/
def SeqBank.clear (q : SeqBank) (o : Nat) : SeqBank :=
  match o with
  | 0x2C => { q with admitted := 0 }
  | 0x30 => { q with rejected := 0 }
  | 0x34 => { q with records := 0 }
  | 0x94 => { q with repliesLost := 0 }
  | _ => q

/-- The RC counters of PCIE. -/
def PcieRegs.clear (x : PcieRegs) (o : Nat) : PcieRegs :=
  match o with
  | 0x30 => { x with cplErr := 0 }
  | 0x34 => { x with flrCount := 0 }
  | 0x38 => { x with discarded := 0 }
  | 0x40 => { x with accessErr := 0 }
  | _ => x

/-- What a read of the blocks below 0x010_0000 clears or pops (R475, R482, R471). -/
def State.readClears (s : State) (k o : Nat) : State :=
  match k, o with
  | 0x00, 0x24 => { s with top := { s.top with faultLost := 0 } }
  | 0x00, 0x28 => { s with top := { s.top with faultSuppressed := 0 } }
  | 0x00, 0x5C => s.popFault
  | 0x02, 0x78 => { s with time := { s.time with logLost := 0 } }
  | 0x02, 0x9C => s.popTimeLog
  | 0x03, 0x48 => { s with sec := { s.sec with ventFail := 0 } }
  | 0x0A, o => s.modSq s.seq.psel.toNat fun q => q.clear o
  | 0x0B, 0x5C => s.modBd s.bud.psel.toNat fun b => { b with specGuessed := 0 }
  | 0x0B, 0x60 => s.modBd s.bud.psel.toNat fun b => { b with specAccepted := 0 }
  | 0x0C, 0x34 => { s with sync := { s.sync with wakes := 0 } }
  | 0x0C, 0x38 => { s with sync := { s.sync with completions := 0 } }
  | 0x0C, 0x3C => { s with sync := { s.sync with early := 0 } }
  | 0x0D, 0x7C => { s with dig := { s.dig with stepReplays := 0 } }
  | 0x0D, 0x80 => { s with dig := { s.dig with rollbacks := 0 } }
  | 0x0E, 0x48 => s.modPt s.part.psel.toNat fun b => { b with curtains := 0 }
  | _, _ => s

/-- What a register read clears or pops, in every block. -/
def State.afterRead (s : State) (off : Nat) : State :=
  let o := off % 65536
  let k := off / 65536
  if k = 0x05 then (if o < 0x400 then s.modCrc (o / 256) fun x => x.clear (o % 256) else s)
  else if 0x10 ≤ k && k < 0x1C then
    s.modLink (k - 0x10) fun l => { l with counters := l.counters.clear o l.lanes.sel.toNat l.fab.cntSel.toNat }
  else if 0x20 ≤ k && k < 0x28 then s.modStk (k - 0x20) fun y => y.clear o
  else if k = 0x30 then { s with pcie := s.pcie.clear o }
  else if k = 0x31 then
    match o with
    | 0x24 => s.popPtp
    | 0x28 => { s with svc := { s.svc with ptpLost := 0 } }
    | 0x2C => { s with svc := { s.svc with rxDrop := 0 } }
    | _ => s
  else if 0x40 ≤ k && k < 0x4A then
    let n := (off - 0x400000) / 4096
    if (s.tile n).state = 0#3 || (s.tile n).state = 5#3 then s
    else match off % 4096 with
      | 0x18 => s.modTile n fun t => { t with eccCe := 0 }
      | 0x20 => s.modTile n fun t => { t with parityCount := 0 }
      | r => if 0x800 ≤ r then s.winRead n r false else s
  else s.readClears k o

/-- The value that the port delivered for the last read. -/
def State.deliverRead (s : State) (v : BitVec 32) : State := { s with pcie := { s.pcie with readback := v.setWidth 64 } }

/-- A read through BAR0: the value as it stands, and what the read clears or pops (R475, R479, R480). -/
def State.portRead (s : State) (off : Nat) : State :=
  if 0x2000000 ≤ off then s.deliverRead (s.aliasRead off)
  else
    let v := s.readReg off
    let s := if s.top.fwReady || earlyBlock off then s.afterRead off else s
    s.deliverRead v

/-- A write through BAR0. -/
def State.portWrite (s : State) (off : Nat) (v : BitVec 32) : State :=
  if 0x2000000 ≤ off then s.aliasWrite off v else s.writeReg off v

/-! ### The status page of a virtual function (R437) -/

/-- A write to the status page of VF `f`: its W1C bits. -/
def State.writeFn (s : State) (f o : Nat) (v : BitVec 32) : State :=
  match o with
  | 0x1004 => s.modFn f fun x => { x with lastFaultValid := x.lastFaultValid && !bit v 16 }
  | 0x1008 => s.modFn f fun x => { x with
      evState := x.evState && !bit v 0
      evFault := x.evFault && !bit v 1 }
  | _ => s

/-! ### The commands -/

/-- A part in reset answers nothing, and a misaligned access is refused (R429). -/
def State.access (s : State) (off : Nat) (write : Bool) (f : State → State) : State :=
  if !s.alive then s
  else if off % 4 ≠ 0 then { s with pcie := { s.pcie with
    accessErr := satInc s.pcie.accessErr
    unsupported := s.pcie.unsupported || !write } }
  else f s

/-- RC_COUNTER_READ (R475, R479 to R482): a read of a register through BAR0, or of a VF's status page. -/
def execRcCounterRead (f : FnId) (off : BitVec 26) (s : State) : Host.Outcome State Fault Refusal :=
  .next (s.access off.toNat false fun s =>
    if f.val = 0 then s.portRead off.toNat else s.deliverRead (s.readFn f off.toNat))

/-- BIT_ALIAS_ACCESS (R489, R490). -/
def execBitAliasAccess (off : BitVec 26) (write : Bool) (val : BitVec 32) (s : State) : Host.Outcome State Fault Refusal :=
  if off.toNat < 0x2000000 then .next s
  else .next (s.access off.toNat write fun s => if write then s.portWrite off.toNat val else s.portRead off.toNat)

/-- REGISTER_WRITE (R475 to R481, R486): a write through BAR0, or to a VF's status page. -/
def execRegisterWrite (f : FnId) (off : BitVec 26) (val : BitVec 32) (s : State) : Host.Outcome State Fault Refusal :=
  .next (s.access off.toNat true fun s =>
    if f.val = 0 then s.portWrite off.toNat val else s.writeFn f off.toNat val)

end Sys2Proof.Machine
end

