-- ==== Sys2Proof/Machine/Power.lean ====
section
/-! DEFINITION. Reset, rails, reference clocks, temperature limits and the scrubs after reset (R59, R499 to R508). -/

namespace Sys2Proof.Machine
open Sys2Proof

/-! ### Reset (R500 to R502) -/

/-- All state lost but fuses and board flash: every register at its reset value, and wall time starts anew (R500). -/
def State.cold (s : State) : State :=
  { s.blank with
    flash := s.flash
    fwu := { FwuRegs.reset with floor := s.fwu.floor }
    sec := { SecRegs.reset with
      secret := s.sec.secret
      identityRec := s.sec.identityRec }
    freeCount := s.freeCount
    pending := s.pending }

/-- The part in reset, with its outputs high-impedance; `f` is what asserts it (R500, R502). -/
def State.enterReset (s : State) (f : Pins → Pins) : State :=
  let s' := s.cold
  { s' with pins := f { Pins.reset with
    sysResetN := s.pins.sysResetN
    perstN := s.pins.perstN
    inReset := s.pins.inReset
    uvReset := s.pins.uvReset
    hiZ := true } }

/-- SYS_RESET (R500, R502): SYS_RESET_N asserted. -/
def execSysReset (s : State) : Host.Outcome State Fault Refusal :=
  .next (s.enterReset fun p => { p with
    sysResetN := false
    inReset := true })

/-- PERST (R424, R500, R502): PERST# asserted. -/
def execPerst (s : State) : Host.Outcome State Fault Refusal :=
  .next (s.enterReset fun p => { p with
    perstN := false
    inReset := true })

/-- Out of reset: the ROM and link training start, and CONFIRM_LEFT counts (R456, R501). -/
def State.leaveReset (s : State) : State :=
  let s' := s.cold
  { s' with pins := Pins.reset }

/-- RESET_RELEASE (R501): both inputs are high. An undervoltage reset keeps the part in reset. -/
def execResetRelease (s : State) : Host.Outcome State Fault Refusal :=
  if !s.pins.inReset then .next s
  else if s.pins.uvReset then .next { s with pins := { s.pins with
    sysResetN := true
    perstN := true
    inReset := false } }
  else .next s.leaveReset

/-- RAIL_UNDERVOLTAGE (R499): the part resets itself as if SYS_RESET_N were asserted. -/
def execRailUndervoltage (_rail : RailIx) (s : State) : Host.Outcome State Fault Refusal :=
  .next (s.enterReset fun p => { p with uvReset := true })

/-- RAIL_RESTORED (R499): every rail is back above 90 %. -/
def execRailRestored (s : State) : Host.Outcome State Fault Refusal :=
  if !s.pins.uvReset then .next s
  else if s.pins.inReset then .next { s with pins := { s.pins with uvReset := false } }
  else .next s.leaveReset

/-! ### Scrubs after reset (R59, R501) -/

/-- Every usable tile has finished its scrub. -/
def State.tilesScrubbed (s : State) : Bool := s.tiles.toList.all fun t => t.state = 0#3 || t.scrubbed

/-- TILE_RESET_SCRUB_DONE (R59): the tile is zero and empty; partitions and binds that wait for it go on. -/
def execTileResetScrubDone (t : TileId) (s : State) : Host.Outcome State Fault Refusal :=
  let x := s.tile t
  if !s.alive || !s.fwu.booted || x.state ≠ 1#3 || x.scrubbed then .next s
  else
    let s := s.modTile t Tile.scrub
    let s : State := { s with top := { s.top with scrubbed := s.top.scrubbed || s.tilesScrubbed } }
    .next s.retryWaiting.continueRun

/-- STACK_RESET_SCRUB_DONE (R501): every pseudo-channel of a trained stack is zero with new check bits; once every stack is,
waiting partitions are enabled. -/
def execStackResetScrubDone (k : StackId) (s : State) : Host.Outcome State Fault Refusal :=
  let y := s.stk k
  if !s.alive || y.state ≠ 2#2 || y.scrubbed then .next s
  else
    let s := s.modStk k fun y => { y with
      ch := y.ch.map Channel.scrub
      scrubbed := true }
    .next s.retryWaiting.continueRun

/-! ### Rails, clocks and temperatures (R499, R505 to R508) -/

/-- ALERT_N driven low (R507). -/
def State.alert (s : State) : State := { s with pins := { s.pins with alertN := false } }

/-- RAIL_FAULT (R499): F-0805 names the rail; the job runs on. -/
def execRailFault (rail : RailIx) (s : State) : Host.Outcome State Fault Refusal :=
  if !s.alive || nsHas rail.val s.pins.railBad then .next s
  else
    let s : State := { s with pins := { s.pins with railBad := nsIns rail.val s.pins.railBad } }
    .next (s.logFault (s.fault 0x805 0x12 rail.val)).alert

/-- Every port that runs or trains loses lock: an ACTIVE one goes down, any other trains again (R363, R505). -/
def State.dropPorts (s : State) : State :=
  (List.range 12).foldl (fun s n =>
    let x := s.link n
    if x.state = 5#3 then s.goDown n (DownCause.code .lockLost)
    else if x.enable && x.training && !x.retraining then s.startTraining n x.fullTrain
    else s) s

/-- REFCLK_LOST (R39, R505): F-0803 names the clock. Without SYS_REFCLK the PLLs hold; without LINK_REFCLK every port goes
down. -/
def execRefclkLost (link : Bool) (s : State) : Host.Outcome State Fault Refusal :=
  if !s.alive || (if link then s.pins.linkRefLost else s.pins.sysRefLost) then .next s
  else
    let s : State := { s with pins := { s.pins with
      linkRefLost := s.pins.linkRefLost || link
      sysRefLost := s.pins.sysRefLost || !link } }
    let s := if link then s.dropPorts else s
    .next (s.logFault (s.fault 0x803 0x12 (bn link))).alert

/-- A sensor's reading taken: the highest of the compute and I/O dies, or a stack's (R506). -/
def State.sense (s : State) (sensor : Nat) (temp : BitVec 8) : State :=
  if 20 ≤ sensor then s.modStk (sensor - 20) fun y => y.warm temp
  else
    let t := if s.pins.tj.toNat < temp.toNat then temp else s.pins.tj
    { s with
      pins := { s.pins with tj := t }
      top := { s.top with tempC := t } }

/-- THERMAL_LIMIT (R507): Tj at 105 degrees C or a stack at 95. -/
def execThermalLimit (sensor : SensorIx) (temp : BitVec 8) (s : State) : Host.Outcome State Fault Refusal :=
  if !s.alive || temp.toNat < (if 20 ≤ sensor.val then 95 else 105) then .next s
  else
    let s := s.sense sensor temp
    .next (s.logFault (s.fault 0x804 0x12 sensor.val)).alert

/-- THERMAL_TRIP (R508): THERMTRIP_N falls and every clock stops; CORE_VID stays. -/
def execThermalTrip (_sensor : SensorIx) (s : State) : Host.Outcome State Fault Refusal :=
  if !s.alive then .next s
  else .next { s with pins := { s.pins with
    tripped := true
    thermTripN := false } }

/-- ALERT_N_RELEASE (R507): Tj is below 102, every stack below 92, and every rail and clock is good. -/
def execAlertNRelease (tj : BitVec 8) (temps : List (BitVec 8)) (s : State) : Host.Outcome State Fault Refusal :=
  if !s.alive || 102 ≤ tj.toNat || temps.length ≠ 8 || temps.any fun t => 92 ≤ t.toNat then .next s
  else
    let s := temps.zipIdx.foldl (fun s x => s.modStk x.2 fun y => y.warm x.1) s
    .next { s with
      top := { s.top with tempC := tj }
      pins := { s.pins with
        tj := tj
        alertN := true
        railBad := []
        sysRefLost := false
        linkRefLost := false } }

end Sys2Proof.Machine
end

