-- ==== Sys2Proof/Machine/Dispatch.lean ====
section
/-! DEFINITION. One arm per command: a direct call of its meaning. -/

namespace Sys2Proof.Machine
open Sys2Proof

/-- The effect of one command on everything but the queue. -/
def exec (i : Instr) (s : State) : Host.Outcome State Fault Refusal :=
  match i with
  | .ctNop t e w => Sys2Proof.Machine.execCtNop t e w s
  | .ctLwait t e w => Sys2Proof.Machine.execCtLwait t e w s
  | .ctHalt t e w => Sys2Proof.Machine.execCtHalt t e w s
  | .ctAmov t e w => Sys2Proof.Machine.execCtAmov t e w s
  | .ctAadd t e w => Sys2Proof.Machine.execCtAadd t e w s
  | .ctAalu t e w => Sys2Proof.Machine.execCtAalu t e w s
  | .ctSmov t e w => Sys2Proof.Machine.execCtSmov t e w s
  | .ctSalu t e w => Sys2Proof.Machine.execCtSalu t e w s
  | .ctXmov t e w => Sys2Proof.Machine.execCtXmov t e w s
  | .ctSld t e w => Sys2Proof.Machine.execCtSld t e w s
  | .ctSst t e w => Sys2Proof.Machine.execCtSst t e w s
  | .ctPoll t e w => Sys2Proof.Machine.execCtPoll t e w s
  | .ctLoop t e w => Sys2Proof.Machine.execCtLoop t e w s
  | .ctJmp t e w => Sys2Proof.Machine.execCtJmp t e w s
  | .ctFbr t e w => Sys2Proof.Machine.execCtFbr t e w s
  | .ctBbr t e w => Sys2Proof.Machine.execCtBbr t e w s
  | .ctFeset t e w => Sys2Proof.Machine.execCtFeset t e w s
  | .ctBar t e w => Sys2Proof.Machine.execCtBar t e w s
  | .ctWatch t e w => Sys2Proof.Machine.execCtWatch t e w s
  | .mxLdw t w => Sys2Proof.Machine.execMxLdw t w s
  | .mxMma t w => Sys2Proof.Machine.execMxMma t w s
  | .vxAlu t w => Sys2Proof.Machine.execVxAlu t w s
  | .vxCvt t w => Sys2Proof.Machine.execVxCvt t w s
  | .vxTr t w => Sys2Proof.Machine.execVxTr t w s
  | .vxRed t w => Sys2Proof.Machine.execVxRed t w s
  | .vxRng t w => Sys2Proof.Machine.execVxRng t w s
  | .vxReds t w => Sys2Proof.Machine.execVxReds t w s
  | .vxEracc t w => Sys2Proof.Machine.execVxEracc t w s
  | .vxEradd t w => Sys2Proof.Machine.execVxEradd t w s
  | .vxErcvt t w => Sys2Proof.Machine.execVxErcvt t w s
  | .vxDclose t w => Sys2Proof.Machine.execVxDclose t w s
  | .mvCpy t w => Sys2Proof.Machine.execMvCpy t w s
  | .mvFill t w => Sys2Proof.Machine.execMvFill t w s
  | .mvSend t w => Sys2Proof.Machine.execMvSend t w s
  | .mvSld t w => Sys2Proof.Machine.execMvSld t w s
  | .mvSst t w => Sys2Proof.Machine.execMvSst t w s
  | .mvFsend t w => Sys2Proof.Machine.execMvFsend t w s
  | .mvFrecv t w => Sys2Proof.Machine.execMvFrecv t w s
  | .mvEld t w => Sys2Proof.Machine.execMvEld t w s
  | .mvPgath t w => Sys2Proof.Machine.execMvPgath t w s
  | .mvPst t w => Sys2Proof.Machine.execMvPst t w s
  | .mvStrf t w => Sys2Proof.Machine.execMvStrf t w s
  | .instructionFetch t e => Sys2Proof.Machine.execInstructionFetch t e s
  | .parityReplay t ev => Sys2Proof.Machine.execParityReplay t ev s
  | .tileEccWriteback t word => Sys2Proof.Machine.execTileEccWriteback t word s
  | .tileScrubRead t bank => Sys2Proof.Machine.execTileScrubRead t bank s
  | .tileWinRead t off dbl => Sys2Proof.Machine.execTileWinRead t off dbl s
  | .tileWinWrite t off val dbl => Sys2Proof.Machine.execTileWinWrite t off val dbl s
  | .tileFeSet t mask => Sys2Proof.Machine.execTileFeSet t mask s
  | .tileFeClr t mask => Sys2Proof.Machine.execTileFeClr t mask s
  | .tileWinAccess t => Sys2Proof.Machine.execTileWinAccess t s
  | .frameTick p => Sys2Proof.Machine.execFrameTick p s
  | .boundaryWork p posted => Sys2Proof.Machine.execBoundaryWork p posted s
  | .ashConfirm p stepNo => Sys2Proof.Machine.execAshConfirm p stepNo s
  | .groupMessage p msg => Sys2Proof.Machine.execGroupMessage p msg s
  | .budOpGrant => Sys2Proof.Machine.execBudOpGrant s
  | .budOpSetBalance => Sys2Proof.Machine.execBudOpSetBalance s
  | .budOpSetSpring => Sys2Proof.Machine.execBudOpSetSpring s
  | .budOpSetCap => Sys2Proof.Machine.execBudOpSetCap s
  | .budOpSetPageQuota => Sys2Proof.Machine.execBudOpSetPageQuota s
  | .budOpSetReserve => Sys2Proof.Machine.execBudOpSetReserve s
  | .seqEntrySel val => Sys2Proof.Machine.execSeqEntrySel val s
  | .budBktSel val => Sys2Proof.Machine.execBudBktSel val s
  | .holdSymbol n unit cause => Sys2Proof.Machine.execHoldSymbol n unit cause s
  | .releaseSymbol n unit => Sys2Proof.Machine.execReleaseSymbol n unit s
  | .holdApply origin num => Sys2Proof.Machine.execHoldApply origin num s
  | .releaseApply origin num => Sys2Proof.Machine.execReleaseApply origin num s
  | .episodeRelease => Sys2Proof.Machine.execEpisodeRelease s
  | .counterResume => Sys2Proof.Machine.execCounterResume s
  | .holdLimit origin num => Sys2Proof.Machine.execHoldLimit origin num s
  | .holdLimitWrite val => Sys2Proof.Machine.execHoldLimitWrite val s
  | .throttleEval tj => Sys2Proof.Machine.execThrottleEval tj s
  | .thermalHoldEnd => Sys2Proof.Machine.execThermalHoldEnd s
  | .throttleWrite val => Sys2Proof.Machine.execThrottleWrite val s
  | .launchArm => Sys2Proof.Machine.execLaunchArm s
  | .launch => Sys2Proof.Machine.execLaunch s
  | .alignStart => Sys2Proof.Machine.execAlignStart s
  | .alignSymbol n unit lo hi => Sys2Proof.Machine.execAlignSymbol n unit lo hi s
  | .barrierSymbol n unit lo hi => Sys2Proof.Machine.execBarrierSymbol n unit lo hi s
  | .launchBarrierRelease => Sys2Proof.Machine.execLaunchBarrierRelease s
  | .stepArm => Sys2Proof.Machine.execStepArm s
  | .stepSwitch => Sys2Proof.Machine.execStepSwitch s
  | .stepSwitchEnd => Sys2Proof.Machine.execStepSwitchEnd s
  | .watchFire t wake => Sys2Proof.Machine.execWatchFire t wake s
  | .wakeWrite t wake => Sys2Proof.Machine.execWakeWrite t wake s
  | .watchTimeout t wake => Sys2Proof.Machine.execWatchTimeout t wake s
  | .barrierCompletionWrite p b => Sys2Proof.Machine.execBarrierCompletionWrite p b s
  | .barrierArrive => Sys2Proof.Machine.execBarrierArrive s
  | .barrierRelease => Sys2Proof.Machine.execBarrierRelease s
  | .barrierTimeout p b => Sys2Proof.Machine.execBarrierTimeout p b s
  | .erFlagWordSet t => Sys2Proof.Machine.execErFlagWordSet t s
  | .stackEccWriteback k c word => Sys2Proof.Machine.execStackEccWriteback k c word s
  | .patrolScrub k c => Sys2Proof.Machine.execPatrolScrub k c s
  | .refreshDebtTick k c => Sys2Proof.Machine.execRefreshDebtTick k c s
  | .refreshIdle k c => Sys2Proof.Machine.execRefreshIdle k c s
  | .refreshWindow k c => Sys2Proof.Machine.execRefreshWindow k c s
  | .forcedRefresh k => Sys2Proof.Machine.execForcedRefresh k s
  | .holdRefresh k => Sys2Proof.Machine.execHoldRefresh k s
  | .stackHot k temp => Sys2Proof.Machine.execStackHot k temp s
  | .stkWinRead k => Sys2Proof.Machine.execStkWinRead k s
  | .stkWinWrite k => Sys2Proof.Machine.execStkWinWrite k s
  | .stkWinAccess k => Sys2Proof.Machine.execStkWinAccess k s
  | .sealedLoad p rec => Sys2Proof.Machine.execSealedLoad p rec s
  | .stagingEpoch p => Sys2Proof.Machine.execStagingEpoch p s
  | .stagingCompletion p half desc data err => Sys2Proof.Machine.execStagingCompletion p half desc data err s
  | .stackTrain k result => Sys2Proof.Machine.execStackTrain k result s
  | .bindRun p env => Sys2Proof.Machine.execBind p env s
  | .rebind p env => Sys2Proof.Machine.execRebind p env s
  | .healthRecordTimeout chip => Sys2Proof.Machine.execHealthRecordTimeout chip s
  | .healthDisagree => Sys2Proof.Machine.execHealthDisagree s
  | .chipDeclaredFailed chip => Sys2Proof.Machine.execChipDeclaredFailed chip s
  | .pSlotStart n => Sys2Proof.Machine.execPSlotStart n s
  | .openPacketTransmit n => Sys2Proof.Machine.execOpenPacketTransmit n s
  | .relayTransmit n => Sys2Proof.Machine.execRelayTransmit n s
  | .pPacketReceive n => Sys2Proof.Machine.execPPacketReceive n s
  | .openPacketReceive n => Sys2Proof.Machine.execOpenPacketReceive n s
  | .flatDataWrite val => Sys2Proof.Machine.execFlatDataWrite val s
  | .flow n val => Sys2Proof.Machine.execFlow n val s
  | .flowRefresh n => Sys2Proof.Machine.execFlowRefresh n s
  | .ventMessage => Sys2Proof.Machine.execVentMessage s
  | .ventAck msgId => Sys2Proof.Machine.execVentAck msgId s
  | .ventRetryTimeout msgId => Sys2Proof.Machine.execVentRetryTimeout msgId s
  | .mirrorDigest => Sys2Proof.Machine.execMirrorDigest s
  | .mirrorEntries => Sys2Proof.Machine.execMirrorEntries s
  | .mirrorDigestLate frame => Sys2Proof.Machine.execMirrorDigestLate frame s
  | .ckptWrite => Sys2Proof.Machine.execCkptWrite s
  | .ckptRead => Sys2Proof.Machine.execCkptRead s
  | .ckptData => Sys2Proof.Machine.execCkptData s
  | .bulk => Sys2Proof.Machine.execBulk s
  | .ack n val => Sys2Proof.Machine.execAck n val s
  | .nak n val => Sys2Proof.Machine.execNak n val s
  | .replay n val => Sys2Proof.Machine.execReplay n val s
  | .linkPacketCheck n pkt => Sys2Proof.Machine.execLinkPacketCheck n pkt s
  | .ackTimerExpiry n => Sys2Proof.Machine.execAckTimerExpiry n s
  | .nakRepeat n => Sys2Proof.Machine.execNakRepeat n s
  | .ackInterval n => Sys2Proof.Machine.execAckInterval n s
  | .cal n stamp raw => Sys2Proof.Machine.execCal n stamp raw s
  | .linkDown n cause => Sys2Proof.Machine.execLinkDown n cause s
  | .retrainDone n id locked => Sys2Proof.Machine.execRetrainDone n id locked s
  | .retrainTimeout n => Sys2Proof.Machine.execRetrainTimeout n s
  | .linkCatchUp n pll => Sys2Proof.Machine.execLinkCatchUp n pll s
  | .linkEnable n on => Sys2Proof.Machine.execLinkEnable n on s
  | .fullTrain n => Sys2Proof.Machine.execFullTrain n s
  | .forceRetrain n => Sys2Proof.Machine.execForceRetrain n s
  | .declareFailed n => Sys2Proof.Machine.execDeclareFailed n s
  | .trainingDone n id locked => Sys2Proof.Machine.execTrainingDone n id locked s
  | .laneLockTimeout n locked => Sys2Proof.Machine.execLaneLockTimeout n locked s
  | .laneErrorWindow n counts corrected => Sys2Proof.Machine.execLaneErrorWindow n counts corrected s
  | .laneSwapReq n => Sys2Proof.Machine.execLaneSwapReq n s
  | .laneReq n lane => Sys2Proof.Machine.execLaneReq n lane s
  | .laneAck n lane => Sys2Proof.Machine.execLaneAck n lane s
  | .laneDone n lane => Sys2Proof.Machine.execLaneDone n lane s
  | .laneRevert n lane => Sys2Proof.Machine.execLaneRevert n lane s
  | .laneSymbolRetry n => Sys2Proof.Machine.execLaneSymbolRetry n s
  | .laneSwap n => Sys2Proof.Machine.execLaneSwap n s
  | .laneSwapVerify n good => Sys2Proof.Machine.execLaneSwapVerify n good s
  | .ckptArm => Sys2Proof.Machine.execCkptArm s
  | .checkpointPause => Sys2Proof.Machine.execCheckpointPause s
  | .checkpointPauseEnd => Sys2Proof.Machine.execCheckpointPauseEnd s
  | .stepReplay p => Sys2Proof.Machine.execStepReplay p s
  | .relaunch p => Sys2Proof.Machine.execRelaunch p s
  | .roDone => Sys2Proof.Machine.execRoDone s
  | .rollback p env => Sys2Proof.Machine.execRollback p env s
  | .restoreGenWrite val => Sys2Proof.Machine.execRestoreGenWrite val s
  | .partEnable p => Sys2Proof.Machine.execPartEnable p s
  | .teardown p => Sys2Proof.Machine.execTeardown p s
  | .scrubDone p fails => Sys2Proof.Machine.execScrubDone p fails s
  | .wingsLoad p => Sys2Proof.Machine.execWingsLoad p s
  | .wingsLoadDone p res => Sys2Proof.Machine.execWingsLoadDone p res s
  | .curtainArm p => Sys2Proof.Machine.execCurtainArm p s
  | .curtain p => Sys2Proof.Machine.execCurtain p s
  | .curtainPauseEnd p ready => Sys2Proof.Machine.execCurtainPauseEnd p ready s
  | .attestationRequest => Sys2Proof.Machine.execAttestationRequest s
  | .keyDelivery => Sys2Proof.Machine.execKeyDelivery s
  | .mgmtPromote => Sys2Proof.Machine.execMgmtPromote s
  | .flr p => Sys2Proof.Machine.execFlr p s
  | .hotReset => Sys2Proof.Machine.execHotReset s
  | .busMasterEnable f => Sys2Proof.Machine.execBusMasterEnable f s
  | .msixUnmask f v => Sys2Proof.Machine.execMsixUnmask f v s
  | .d3hotRequest => Sys2Proof.Machine.execD3hotRequest s
  | .d3hotEntry => Sys2Proof.Machine.execD3hotEntry s
  | .invalidAccess write => Sys2Proof.Machine.execInvalidAccess write s
  | .tftpWriteRequest mac octet blksize => Sys2Proof.Machine.execTftpWriteRequest mac octet blksize s
  | .tftpTransferEnd img => Sys2Proof.Machine.execTftpTransferEnd img s
  | .arpRequest mac ip target => Sys2Proof.Machine.execArpRequest mac ip target s
  | .icmpEcho mac ip target body => Sys2Proof.Machine.execIcmpEcho mac ip target body s
  | .ptpEventTimestamp tx type seqId => Sys2Proof.Machine.execPtpEventTimestamp tx type seqId s
  | .ptpTsPop => Sys2Proof.Machine.execPtpTsPop s
  | .i3cCommitAddress addr => Sys2Proof.Machine.execI3cCommitAddress addr s
  | .entdaa addr => Sys2Proof.Machine.execEntdaa addr s
  | .bypass => Sys2Proof.Machine.execBypass s
  | .idcode => Sys2Proof.Machine.execIdcode s
  | .samplePreload cells => Sys2Proof.Machine.execSamplePreload cells s
  | .extest => Sys2Proof.Machine.execExtest s
  | .romBoot => Sys2Proof.Machine.execRomBoot s
  | .fwLoadDone => Sys2Proof.Machine.execFwLoadDone s
  | .selftestPass => Sys2Proof.Machine.execSelftestPass s
  | .healthConfirm host => Sys2Proof.Machine.execHealthConfirm host s
  | .fwConfirmExpired => Sys2Proof.Machine.execFwConfirmExpired s
  | .cancelStage => Sys2Proof.Machine.execCancelStage s
  | .svnCommit => Sys2Proof.Machine.execSvnCommit s
  | .timeIncCommit dom val => Sys2Proof.Machine.execTimeIncCommit dom val s
  | .timeAdjust dom => Sys2Proof.Machine.execTimeAdjust dom s
  | .timeAdjustEnd dom => Sys2Proof.Machine.execTimeAdjustEnd dom s
  | .timeSetA => Sys2Proof.Machine.execTimeSetA s
  | .timeSetB => Sys2Proof.Machine.execTimeSetB s
  | .timeActiveWrite dom => Sys2Proof.Machine.execTimeActiveWrite dom s
  | .ppsOut => Sys2Proof.Machine.execPpsOut s
  | .ppsOutEnd => Sys2Proof.Machine.execPpsOutEnd s
  | .ppsIn => Sys2Proof.Machine.execPpsIn s
  | .triggerArm val => Sys2Proof.Machine.execTriggerArm val s
  | .triggerCapture j => Sys2Proof.Machine.execTriggerCapture j s
  | .triggerArmLaunch j => Sys2Proof.Machine.execTriggerArmLaunch j s
  | .triggerStartAlign j => Sys2Proof.Machine.execTriggerStartAlign j s
  | .triggerArmStep j => Sys2Proof.Machine.execTriggerArmStep j s
  | .timeLogPop => Sys2Proof.Machine.execTimeLogPop s
  | .timeRefLost => Sys2Proof.Machine.execTimeRefLost s
  | .timeRefRestored => Sys2Proof.Machine.execTimeRefRestored s
  | .crcCompute u => Sys2Proof.Machine.execCrcCompute u s
  | .crcCheck u => Sys2Proof.Machine.execCrcCheck u s
  | .crcRunDone u data err => Sys2Proof.Machine.execCrcRunDone u data err s
  | .snapCapture => Sys2Proof.Machine.execSnapCapture s
  | .snapArmAt => Sys2Proof.Machine.execSnapArmAt s
  | .snapTickCapture => Sys2Proof.Machine.execSnapTickCapture s
  | .faultLogClear => Sys2Proof.Machine.execFaultLogClear s
  | .faultLogPop => Sys2Proof.Machine.execFaultLogPop s
  | .rcCounterRead f off => Sys2Proof.Machine.execRcCounterRead f off s
  | .bitAliasAccess off write val => Sys2Proof.Machine.execBitAliasAccess off write val s
  | .registerWrite f off val => Sys2Proof.Machine.execRegisterWrite f off val s
  | .sysReset => Sys2Proof.Machine.execSysReset s
  | .perst => Sys2Proof.Machine.execPerst s
  | .resetRelease => Sys2Proof.Machine.execResetRelease s
  | .tileResetScrubDone t => Sys2Proof.Machine.execTileResetScrubDone t s
  | .stackResetScrubDone k => Sys2Proof.Machine.execStackResetScrubDone k s
  | .railUndervoltage rail => Sys2Proof.Machine.execRailUndervoltage rail s
  | .railFault rail => Sys2Proof.Machine.execRailFault rail s
  | .refclkLost link => Sys2Proof.Machine.execRefclkLost link s
  | .thermalLimit sensor temp => Sys2Proof.Machine.execThermalLimit sensor temp s
  | .thermalTrip sensor => Sys2Proof.Machine.execThermalTrip sensor s
  | .uncorrectableCodeword n => Sys2Proof.Machine.execUncorrectableCodeword n s
  | .stackOpenAccess k c => Sys2Proof.Machine.execStackOpenAccess k c s
  | .outboundQueueSend f => Sys2Proof.Machine.execOutboundQueueSend f s
  | .alertNRelease tj temps => Sys2Proof.Machine.execAlertNRelease tj temps s
  | .railRestored => Sys2Proof.Machine.execRailRestored s
  | .serviceFrameDrop => Sys2Proof.Machine.execServiceFrameDrop s
  | .sgmiiLinkChange up => Sys2Proof.Machine.execSgmiiLinkChange up s
  | .pcieLinkUp speed width flit => Sys2Proof.Machine.execPcieLinkUp speed width flit s

end Sys2Proof.Machine
end

