-- ==== Sys2Proof/Machine/Tick.lean ====
section
/-! DEFINITION. One clk of time, which passes while no command waits: what the spec ties to the clk, to the Geyser count, to
the codeword clock and to the time reference, and no command of the table does (DESIGN CHOICE, notes/assumptions/1.md). -/

namespace Sys2Proof.Machine
open Sys2Proof

/-! ### The counter (R25, R40, R513) -/

/-- The Geyser count, the hold debt and the count of held clk after one clk (R25, R40, R51). A clk of a pause takes nothing
from a hold, so each episode standing in it goes to the debt. -/
def State.countClk (s : State) : State :=
  let d := s.depth
  let debt := if s.paused then s.plan.debt + d else if 0 < d then s.plan.debt + (d - 1) else s.plan.debt - 1
  { s with plan := { s.plan with
    geyser := if s.running then s.plan.geyser + 1 else s.plan.geyser
    debt := debt
    holdClk := if s.held && !s.paused then s.plan.holdClk + 1 else s.plan.holdClk } }

/-! ### Uses that have ended (R82, R188, R192, R195, R196) -/

/-- The window access of a tile ends at wall time `now`: its bank is free again (R82, R83). -/
def Tile.endWindow (t : Tile) (now : Nat) : Tile :=
  match t.winActive with
  | some (e, _) => if e ≤ now then { t with winActive := none } else t
  | none => t

/-- A pseudo-channel at count `g` and wall time `now`: planned writes are complete in the array, and refreshes end
(R188, R191, R192, R195, R196). -/
def Channel.tick (g now : Nat) (c : Channel) : Channel :=
  let y := (c.pend.filter fun x => x.due ≤ g).foldl (fun (c : Channel) x => match x.data with
    | some d => c.store x.word d
    | none => c) c
  let ends := match c.refreshEnd with
    | some (e, _) => decide (e ≤ now)
    | none => false
  { y with
    pend := c.pend.filter fun x => !(x.due ≤ g : Bool)
    openPcs := c.openPcs.filter fun q => g ≤ q + 256
    refreshEnd := if ends then none else c.refreshEnd
    inHold := c.inHold && !ends
    pending := c.pending && !(ends && c.forced)
    forced := c.forced && !ends }

/-- The causes of uses that have ended are cleared: a host window access, and the refreshes of a stack (R35, R513). -/
def State.endUses (s : State) : State :=
  { s with plan := { s.plan with localCauses := s.plan.localCauses.filter fun c => match c.src with
      | .hostAccess t => (s.tile t).winActive.isSome || (s.tile t).winAt.isSome
      | .refresh k => (s.stk k).ch.toList.any fun c => c.refreshEnd.isSome
      | _ => true } }

/-- A stack window access that has been admitted comes one admission cycle nearer to its end (R210). -/
def Stack.cycle (y : Stack) (admits : Bool) : Stack := if admits then { y with winLeft := y.winLeft.map (· - 1) } else y

/-- Tiles and stacks of the chip at the end of a clk: what the sync unit sets through side ports, uses that have ended, and
window accesses of the stacks, whose cycles are pc, or clk under R386 (R82, R210, R292). -/
def State.landAll (s : State) (ran : Bool) : State :=
  let g := s.plan.geyser
  let admits := ran || s.recoveryStop
  let s : State := { s with
    tiles := s.tiles.map fun t => t.endPc.endWindow s.wall
    stackBanks := s.stackBanks.map fun y => { y.cycle admits with ch := y.ch.map (Channel.tick g s.wall) } }
  s.endUses

/-! ### Links (R342 to R346, R351) -/

/-- The order in which pending link symbols are taken (R344). -/
def LinkSym.rank : LinkSym → Nat
  | .flow _ => 0
  | .nak _ => 1
  | .replay _ => 2
  | .ack _ => 3
  | .lane _ _ => 4
  | .cal _ => 5
  | .flowRefresh _ => 6
  | .idle => 7

/-- A unit as it goes out: COPY and PATH in a header, MORE where another unit follows, CHECK over them (R345). -/
def unitOut (u : BitVec 64) (copy more : Bool) (path : Nat) : BitVec 64 :=
  let head := if field u 63 60 = 5 then 0 else bn copy <<< 57 + min path (2 ^ 15 - 1) <<< 12
  sealUnit (u ||| BitVec.ofNat 64 (bn more <<< 59 + head))

/-- An inline symbol as it goes out now; `last` where none follows it in the codeword. -/
def InlineSym.out (x : InlineSym) (now clk : Nat) (last : Bool) : InlineSym :=
  let n := x.units.length
  { x with units := x.units.zipIdx.map fun (u : BitVec 64 × Nat) =>
      unitOut u.1 x.copied (!(last && u.2 + 1 = n)) (match x.born with
        | some b => (now - b) / max 1 clk
        | none => 0) }

/-- The symbols that fit one codeword body of 80 inline units, and those left (R346). -/
def takeInline : Nat → List InlineSym → List InlineSym × List InlineSym
  | _, [] => ([], [])
  | room, x :: r =>
    if x.units.length ≤ room then
      let y := takeInline (room - x.units.length) r
      (x :: y.1, y.2)
    else ([], x :: r)

/-- A codeword leaves: one link symbol by priority, and the pending inline units, each symbol in two consecutive codewords
(R342, R344, R346). One arrives from the neighbour in the same time. -/
def Link.codeword (l : Link) (now clk : Nat) : Link :=
  let c := minBy LinkSym.rank l.ctlOut
  let y := takeInline 80 l.inlineOut
  let n := y.1.length
  { l with
    codewordAt := l.codewordAt + tuCodeword
    lastCtl := c.getD .idle
    ctlOut := match c with
      | some x => l.ctlOut.erase x
      | none => l.ctlOut
    lastInline := y.1.zipIdx.map fun (x : InlineSym × Nat) => x.1.out now clk (decide (x.2 + 1 = n))
    inlineOut := ((y.1.filter fun x => !x.copied).map fun x => { x with copied := true }) ++ y.2
    sinceFlow := l.sinceFlow + 1
    rxCodewords := l.rxCodewords + 1 }

/-- The next packet of a replay goes out; then the P packets that queued meanwhile, regardless of cells (R351). -/
def State.replayNext (s : State) (n : Nat) : State :=
  let l := s.link n
  match l.resendFrom with
  | none => s
  | some r =>
    if l.state ≠ 5#3 || s.wall < l.fab.busyUntil then s
    else match l.replay.find? fun e => e.seq = r with
      | some e => (s.retransmit n e.pkt).modLink n fun l => { l with resendFrom := some (r + 1) }
      | none =>
        match l.fab.pQueue.find? fun q => decide (q.readyAt ≤ s.plan.geyser) with
        | some q =>
          if l.roomFor q.pkt then
            ((s.takeP n q).transmit n q.pkt).modLink n fun l => { l with resendFrom := some l.txNext }
          else s
        | none => s.modLink n fun l => { l with resendFrom := none }

/-- Every port after one clk. -/
def State.linksClk (s : State) : State :=
  let s : State := { s with links := s.links.map fun l =>
    if l.state = 5#3 && l.codewordAt ≤ s.wall then l.codeword s.wall s.clkTu else l }
  (List.range 12).foldl (fun s n => s.replayNext n) s

/-! ### The time reference (R459 to R462, R464) -/

/-- One domain after a reference tick: its increment or its temporary one, or the step of a SET (R459, R460). -/
def Domain.tick (d : Domain) : Domain :=
  let adj := d.adjLeft ≠ 0
  let ns := if adj then d.adjNs else d.incNs
  let fr := if adj then d.adjFrac else d.incFrac
  let v := d.ns.toNat * 2 ^ 32 + d.frac.toNat + ns.toNat * 2 ^ 32 + fr.toNat
  let d := { d with adjLeft := if adj then d.adjLeft - 1 else 0 }
  match d.setPending with
  | some x => { d with
      ns := x
      frac := 0
      setPending := none }
  | none => { d with
      ns := BitVec.ofNat 64 (v / 2 ^ 32)
      frac := BitVec.ofNat 32 v }

/-- An armed trigger whose domain a SET moves past its time fires at the next tick, late (R464). -/
def Trigger.overtake (next : Nat) (old new : Domain) (dom : Bool) (t : Trigger) : Trigger :=
  { t with armed := t.armed.map fun a =>
      if old.setPending.isSome && a.dom = dom && !a.late && old.ns.toNat < a.time.toNat && a.time.toNat < new.ns.toNat then
        { a with
          late := true
          notBefore := next }
      else a }

/-- Both domains, the triggers and the whole second of PPS_OUT after a reference tick (R459 to R462, R464). -/
def TimeRegs.tick (t : TimeRegs) : TimeRegs :=
  let a := t.a.tick
  let b := t.b.tick
  let next := t.nextTick + tuTick
  let driving := if t.ppsEnd.isSome then t.driving else t.active
  let old := if driving then t.b else t.a
  let new := if driving then b else a
  let second := old.ns.toNat / 10 ^ 9 < new.ns.toNat / 10 ^ 9
  { t with
    a := a
    b := b
    trigs := t.trigs.map fun x => (x.overtake next t.a a false).overtake next t.b b true
    driving := driving
    ppsDue := t.ppsOutEn && t.ppsEnd.isNone && (t.ppsDue || second)
    nextTick := next }

/-- The time unit after one clk. -/
def State.timeClk (s : State) : State := if s.time.nextTick ≤ s.wall then { s with time := s.time.tick } else s

/-! ### PCIe (R438) -/

/-- Function level resets whose time has come end (R438, R443). -/
def State.flrClk (s : State) : State :=
  let ended (f : PcieFn) : Bool := f.flrEnd.any fun e => e ≤ s.wall
  { s with pcie := { s.pcie with
    flrCount := satAdd s.pcie.flrCount (s.pcie.fns.toList.countP ended)
    fns := s.pcie.fns.map fun f => if ended f then { f with flrEnd := none } else f } }

/-! ### One clk -/

/-- One clk of the part. A part without a clock stands still (R500, R508). The faults of the last clk are written (R494). The counter resumes first where it is due to
(R513); deliveries in progress advance (R293); the pc of the present count runs where the counter advances (R25); then the
count is the next. -/
def State.tick (s : State) : State :=
  if !s.alive then s
  else
    let s : State := { s with wall := s.wall + s.clkTu }
    let s := s.writeFaults.resume
    let ran := s.running
    let s := s.deliverAll (!ran)
    let s := (if ran then s.runPc else s).countClk
    let s := (s.landAll ran).freePools
    let s := (s.linksClk.timeClk).flrClk
    (s.retryWaiting.continueRun).rollAdvance

end Sys2Proof.Machine
end

