-- ==== Sys2Proof/Laws/State.lean ====
section
/-! SUPPORT. What each replacement of one bank, tile, port or stack leaves and reads back: one lemma per update and field. -/

namespace Sys2Proof.Machine
open Sys2Proof

/-! ### Vectors -/

/-- An element that was replaced reads as the new one. -/
@[simp] theorem vget_vset_same {α : Type} {n : Nat} (v : Vector α n) (i : Nat) (x d : α) (h : i < n) :
    vget (vset v i x) i d = x := by
  simp [vget, vset, h]

/-- Another element reads as before. -/
@[simp] theorem vget_vset_ne {α : Type} {n : Nat} (v : Vector α n) (i j : Nat) (x d : α) (h : i ≠ j) :
    vget (vset v i x) j d = vget v j d := by
  simp [vget, vset, h]

/-- Past the end nothing is replaced. -/
theorem vset_of_ge {α : Type} {n : Nat} (v : Vector α n) (i : Nat) (x : α) (h : n ≤ i) : vset v i x = v := by
  simp [vset, Vector.setIfInBounds_eq_of_size_le h]

/-- An element of a constant vector. -/
@[simp] theorem vget_replicate {α : Type} {n : Nat} (i : Nat) (x d : α) (h : i < n) :
    vget (Vector.replicate n x) i d = x := by
  simp [vget, h]

/-! ### Reads and updates of one element -/
/-- `tile` after `modTile` of the same one. -/
@[simp] theorem State.tile_modTile_same (s : State) (i : Nat) (f : Tile → Tile) (h : i < 160) : (s.modTile i f).tile i = f (s.tile i) := by
  simp [State.tile, State.modTile, h]
/-- `tile` after `modTile` of another one. -/
@[simp] theorem State.tile_modTile_ne (s : State) (i j : Nat) (f : Tile → Tile) (h : i ≠ j) : (s.modTile i f).tile j = s.tile j := by
  simp [State.tile, State.modTile, h]
/-- `pt` after `modPt` of the same one. -/
@[simp] theorem State.pt_modPt_same (s : State) (i : Nat) (f : PartBank → PartBank) (h : i < 16) : (s.modPt i f).pt i = f (s.pt i) := by
  simp [State.pt, State.modPt, h]
/-- `pt` after `modPt` of another one. -/
@[simp] theorem State.pt_modPt_ne (s : State) (i j : Nat) (f : PartBank → PartBank) (h : i ≠ j) : (s.modPt i f).pt j = s.pt j := by
  simp [State.pt, State.modPt, h]
/-- `sq` after `modSq` of the same one. -/
@[simp] theorem State.sq_modSq_same (s : State) (i : Nat) (f : SeqBank → SeqBank) (h : i < 16) : (s.modSq i f).sq i = f (s.sq i) := by
  simp [State.sq, State.modSq, h]
/-- `sq` after `modSq` of another one. -/
@[simp] theorem State.sq_modSq_ne (s : State) (i j : Nat) (f : SeqBank → SeqBank) (h : i ≠ j) : (s.modSq i f).sq j = s.sq j := by
  simp [State.sq, State.modSq, h]
/-- `bd` after `modBd` of the same one. -/
@[simp] theorem State.bd_modBd_same (s : State) (i : Nat) (f : BudBank → BudBank) (h : i < 16) : (s.modBd i f).bd i = f (s.bd i) := by
  simp [State.bd, State.modBd, h]
/-- `bd` after `modBd` of another one. -/
@[simp] theorem State.bd_modBd_ne (s : State) (i j : Nat) (f : BudBank → BudBank) (h : i ≠ j) : (s.modBd i f).bd j = s.bd j := by
  simp [State.bd, State.modBd, h]
/-- `sy` after `modSy` of the same one. -/
@[simp] theorem State.sy_modSy_same (s : State) (i : Nat) (f : SyncBank → SyncBank) (h : i < 16) : (s.modSy i f).sy i = f (s.sy i) := by
  simp [State.sy, State.modSy, h]
/-- `sy` after `modSy` of another one. -/
@[simp] theorem State.sy_modSy_ne (s : State) (i j : Nat) (f : SyncBank → SyncBank) (h : i ≠ j) : (s.modSy i f).sy j = s.sy j := by
  simp [State.sy, State.modSy, h]
/-- `ts` after `modTs` of the same one. -/
@[simp] theorem State.ts_modTs_same (s : State) (i : Nat) (f : TileSync → TileSync) (h : i < 160) : (s.modTs i f).ts i = f (s.ts i) := by
  simp [State.ts, State.modTs, h]
/-- `ts` after `modTs` of another one. -/
@[simp] theorem State.ts_modTs_ne (s : State) (i j : Nat) (f : TileSync → TileSync) (h : i ≠ j) : (s.modTs i f).ts j = s.ts j := by
  simp [State.ts, State.modTs, h]
/-- `link` after `modLink` of the same one. -/
@[simp] theorem State.link_modLink_same (s : State) (i : Nat) (f : Link → Link) (h : i < 12) : (s.modLink i f).link i = f (s.link i) := by
  simp [State.link, State.modLink, h]
/-- `link` after `modLink` of another one. -/
@[simp] theorem State.link_modLink_ne (s : State) (i j : Nat) (f : Link → Link) (h : i ≠ j) : (s.modLink i f).link j = s.link j := by
  simp [State.link, State.modLink, h]
/-- `stk` after `modStk` of the same one. -/
@[simp] theorem State.stk_modStk_same (s : State) (i : Nat) (f : Stack → Stack) (h : i < 8) : (s.modStk i f).stk i = f (s.stk i) := by
  simp [State.stk, State.modStk, h]
/-- `stk` after `modStk` of another one. -/
@[simp] theorem State.stk_modStk_ne (s : State) (i j : Nat) (f : Stack → Stack) (h : i ≠ j) : (s.modStk i f).stk j = s.stk j := by
  simp [State.stk, State.modStk, h]
/-- `crc` after `modCrc` of the same one. -/
@[simp] theorem State.crc_modCrc_same (s : State) (i : Nat) (f : CrcRegs → CrcRegs) (h : i < 4) : (s.modCrc i f).crc i = f (s.crc i) := by
  simp [State.crc, State.modCrc, h]
/-- `crc` after `modCrc` of another one. -/
@[simp] theorem State.crc_modCrc_ne (s : State) (i j : Nat) (f : CrcRegs → CrcRegs) (h : i ≠ j) : (s.modCrc i f).crc j = s.crc j := by
  simp [State.crc, State.modCrc, h]
/-- `fn` after `modFn` of the same function. -/
@[simp] theorem State.fn_modFn_same (s : State) (i : Nat) (f : PcieFn → PcieFn) (h : i < 17) : (s.modFn i f).fn i = f (s.fn i) := by
  simp [State.fn, State.modFn, h]
/-- `fn` after `modFn` of another function. -/
@[simp] theorem State.fn_modFn_ne (s : State) (i j : Nat) (f : PcieFn → PcieFn) (h : i ≠ j) : (s.modFn i f).fn j = s.fn j := by
  simp [State.fn, State.modFn, h]

/-! ### What each update leaves as it was -/
@[simp] theorem State.modTile_wall (s : State) (i : Nat) (f : Tile → Tile) : (s.modTile i f).wall = s.wall := rfl
@[simp] theorem State.modTile_fuses (s : State) (i : Nat) (f : Tile → Tile) : (s.modTile i f).fuses = s.fuses := rfl
@[simp] theorem State.modTile_top (s : State) (i : Nat) (f : Tile → Tile) : (s.modTile i f).top = s.top := rfl
@[simp] theorem State.modTile_plan (s : State) (i : Nat) (f : Tile → Tile) : (s.modTile i f).plan = s.plan := rfl
@[simp] theorem State.modTile_clk (s : State) (i : Nat) (f : Tile → Tile) : (s.modTile i f).clk = s.clk := rfl
@[simp] theorem State.modTile_snap (s : State) (i : Nat) (f : Tile → Tile) : (s.modTile i f).snap = s.snap := rfl
@[simp] theorem State.modTile_seq (s : State) (i : Nat) (f : Tile → Tile) : (s.modTile i f).seq = s.seq := rfl
@[simp] theorem State.modTile_seqB (s : State) (i : Nat) (f : Tile → Tile) : (s.modTile i f).seqB = s.seqB := rfl
@[simp] theorem State.modTile_bud (s : State) (i : Nat) (f : Tile → Tile) : (s.modTile i f).bud = s.bud := rfl
@[simp] theorem State.modTile_budB (s : State) (i : Nat) (f : Tile → Tile) : (s.modTile i f).budB = s.budB := rfl
@[simp] theorem State.modTile_sync (s : State) (i : Nat) (f : Tile → Tile) : (s.modTile i f).sync = s.sync := rfl
@[simp] theorem State.modTile_syncB (s : State) (i : Nat) (f : Tile → Tile) : (s.modTile i f).syncB = s.syncB := rfl
@[simp] theorem State.modTile_tileSync (s : State) (i : Nat) (f : Tile → Tile) : (s.modTile i f).tileSync = s.tileSync := rfl
@[simp] theorem State.modTile_dig (s : State) (i : Nat) (f : Tile → Tile) : (s.modTile i f).dig = s.dig := rfl
@[simp] theorem State.modTile_parts (s : State) (i : Nat) (f : Tile → Tile) : (s.modTile i f).parts = s.parts := rfl
@[simp] theorem State.modTile_part (s : State) (i : Nat) (f : Tile → Tile) : (s.modTile i f).part = s.part := rfl
@[simp] theorem State.modTile_map (s : State) (i : Nat) (f : Tile → Tile) : (s.modTile i f).map = s.map := rfl
@[simp] theorem State.modTile_fab (s : State) (i : Nat) (f : Tile → Tile) : (s.modTile i f).fab = s.fab := rfl
@[simp] theorem State.modTile_links (s : State) (i : Nat) (f : Tile → Tile) : (s.modTile i f).links = s.links := rfl
@[simp] theorem State.modTile_recvDir (s : State) (i : Nat) (f : Tile → Tile) : (s.modTile i f).recvDir = s.recvDir := rfl
@[simp] theorem State.modTile_vent (s : State) (i : Nat) (f : Tile → Tile) : (s.modTile i f).vent = s.vent := rfl
@[simp] theorem State.modTile_stackBanks (s : State) (i : Nat) (f : Tile → Tile) : (s.modTile i f).stackBanks = s.stackBanks := rfl
@[simp] theorem State.modTile_pcie (s : State) (i : Nat) (f : Tile → Tile) : (s.modTile i f).pcie = s.pcie := rfl
@[simp] theorem State.modTile_svc (s : State) (i : Nat) (f : Tile → Tile) : (s.modTile i f).svc = s.svc := rfl
@[simp] theorem State.modTile_flash (s : State) (i : Nat) (f : Tile → Tile) : (s.modTile i f).flash = s.flash := rfl
@[simp] theorem State.modTile_fwu (s : State) (i : Nat) (f : Tile → Tile) : (s.modTile i f).fwu = s.fwu := rfl
@[simp] theorem State.modTile_time (s : State) (i : Nat) (f : Tile → Tile) : (s.modTile i f).time = s.time := rfl
@[simp] theorem State.modTile_crcs (s : State) (i : Nat) (f : Tile → Tile) : (s.modTile i f).crcs = s.crcs := rfl
@[simp] theorem State.modTile_sec (s : State) (i : Nat) (f : Tile → Tile) : (s.modTile i f).sec = s.sec := rfl
@[simp] theorem State.modTile_pins (s : State) (i : Nat) (f : Tile → Tile) : (s.modTile i f).pins = s.pins := rfl
@[simp] theorem State.modTile_freeCount (s : State) (i : Nat) (f : Tile → Tile) : (s.modTile i f).freeCount = s.freeCount := rfl
@[simp] theorem State.modTile_pending (s : State) (i : Nat) (f : Tile → Tile) : (s.modTile i f).pending = s.pending := rfl
@[simp] theorem State.modPt_wall (s : State) (i : Nat) (f : PartBank → PartBank) : (s.modPt i f).wall = s.wall := rfl
@[simp] theorem State.modPt_fuses (s : State) (i : Nat) (f : PartBank → PartBank) : (s.modPt i f).fuses = s.fuses := rfl
@[simp] theorem State.modPt_top (s : State) (i : Nat) (f : PartBank → PartBank) : (s.modPt i f).top = s.top := rfl
@[simp] theorem State.modPt_plan (s : State) (i : Nat) (f : PartBank → PartBank) : (s.modPt i f).plan = s.plan := rfl
@[simp] theorem State.modPt_clk (s : State) (i : Nat) (f : PartBank → PartBank) : (s.modPt i f).clk = s.clk := rfl
@[simp] theorem State.modPt_snap (s : State) (i : Nat) (f : PartBank → PartBank) : (s.modPt i f).snap = s.snap := rfl
@[simp] theorem State.modPt_seq (s : State) (i : Nat) (f : PartBank → PartBank) : (s.modPt i f).seq = s.seq := rfl
@[simp] theorem State.modPt_seqB (s : State) (i : Nat) (f : PartBank → PartBank) : (s.modPt i f).seqB = s.seqB := rfl
@[simp] theorem State.modPt_bud (s : State) (i : Nat) (f : PartBank → PartBank) : (s.modPt i f).bud = s.bud := rfl
@[simp] theorem State.modPt_budB (s : State) (i : Nat) (f : PartBank → PartBank) : (s.modPt i f).budB = s.budB := rfl
@[simp] theorem State.modPt_sync (s : State) (i : Nat) (f : PartBank → PartBank) : (s.modPt i f).sync = s.sync := rfl
@[simp] theorem State.modPt_syncB (s : State) (i : Nat) (f : PartBank → PartBank) : (s.modPt i f).syncB = s.syncB := rfl
@[simp] theorem State.modPt_tileSync (s : State) (i : Nat) (f : PartBank → PartBank) : (s.modPt i f).tileSync = s.tileSync := rfl
@[simp] theorem State.modPt_dig (s : State) (i : Nat) (f : PartBank → PartBank) : (s.modPt i f).dig = s.dig := rfl
@[simp] theorem State.modPt_part (s : State) (i : Nat) (f : PartBank → PartBank) : (s.modPt i f).part = s.part := rfl
@[simp] theorem State.modPt_map (s : State) (i : Nat) (f : PartBank → PartBank) : (s.modPt i f).map = s.map := rfl
@[simp] theorem State.modPt_fab (s : State) (i : Nat) (f : PartBank → PartBank) : (s.modPt i f).fab = s.fab := rfl
@[simp] theorem State.modPt_links (s : State) (i : Nat) (f : PartBank → PartBank) : (s.modPt i f).links = s.links := rfl
@[simp] theorem State.modPt_recvDir (s : State) (i : Nat) (f : PartBank → PartBank) : (s.modPt i f).recvDir = s.recvDir := rfl
@[simp] theorem State.modPt_vent (s : State) (i : Nat) (f : PartBank → PartBank) : (s.modPt i f).vent = s.vent := rfl
@[simp] theorem State.modPt_stackBanks (s : State) (i : Nat) (f : PartBank → PartBank) : (s.modPt i f).stackBanks = s.stackBanks := rfl
@[simp] theorem State.modPt_pcie (s : State) (i : Nat) (f : PartBank → PartBank) : (s.modPt i f).pcie = s.pcie := rfl
@[simp] theorem State.modPt_svc (s : State) (i : Nat) (f : PartBank → PartBank) : (s.modPt i f).svc = s.svc := rfl
@[simp] theorem State.modPt_flash (s : State) (i : Nat) (f : PartBank → PartBank) : (s.modPt i f).flash = s.flash := rfl
@[simp] theorem State.modPt_fwu (s : State) (i : Nat) (f : PartBank → PartBank) : (s.modPt i f).fwu = s.fwu := rfl
@[simp] theorem State.modPt_time (s : State) (i : Nat) (f : PartBank → PartBank) : (s.modPt i f).time = s.time := rfl
@[simp] theorem State.modPt_crcs (s : State) (i : Nat) (f : PartBank → PartBank) : (s.modPt i f).crcs = s.crcs := rfl
@[simp] theorem State.modPt_sec (s : State) (i : Nat) (f : PartBank → PartBank) : (s.modPt i f).sec = s.sec := rfl
@[simp] theorem State.modPt_pins (s : State) (i : Nat) (f : PartBank → PartBank) : (s.modPt i f).pins = s.pins := rfl
@[simp] theorem State.modPt_tiles (s : State) (i : Nat) (f : PartBank → PartBank) : (s.modPt i f).tiles = s.tiles := rfl
@[simp] theorem State.modPt_freeCount (s : State) (i : Nat) (f : PartBank → PartBank) : (s.modPt i f).freeCount = s.freeCount := rfl
@[simp] theorem State.modPt_pending (s : State) (i : Nat) (f : PartBank → PartBank) : (s.modPt i f).pending = s.pending := rfl
@[simp] theorem State.modSq_wall (s : State) (i : Nat) (f : SeqBank → SeqBank) : (s.modSq i f).wall = s.wall := rfl
@[simp] theorem State.modSq_fuses (s : State) (i : Nat) (f : SeqBank → SeqBank) : (s.modSq i f).fuses = s.fuses := rfl
@[simp] theorem State.modSq_top (s : State) (i : Nat) (f : SeqBank → SeqBank) : (s.modSq i f).top = s.top := rfl
@[simp] theorem State.modSq_plan (s : State) (i : Nat) (f : SeqBank → SeqBank) : (s.modSq i f).plan = s.plan := rfl
@[simp] theorem State.modSq_clk (s : State) (i : Nat) (f : SeqBank → SeqBank) : (s.modSq i f).clk = s.clk := rfl
@[simp] theorem State.modSq_snap (s : State) (i : Nat) (f : SeqBank → SeqBank) : (s.modSq i f).snap = s.snap := rfl
@[simp] theorem State.modSq_seq (s : State) (i : Nat) (f : SeqBank → SeqBank) : (s.modSq i f).seq = s.seq := rfl
@[simp] theorem State.modSq_bud (s : State) (i : Nat) (f : SeqBank → SeqBank) : (s.modSq i f).bud = s.bud := rfl
@[simp] theorem State.modSq_budB (s : State) (i : Nat) (f : SeqBank → SeqBank) : (s.modSq i f).budB = s.budB := rfl
@[simp] theorem State.modSq_sync (s : State) (i : Nat) (f : SeqBank → SeqBank) : (s.modSq i f).sync = s.sync := rfl
@[simp] theorem State.modSq_syncB (s : State) (i : Nat) (f : SeqBank → SeqBank) : (s.modSq i f).syncB = s.syncB := rfl
@[simp] theorem State.modSq_tileSync (s : State) (i : Nat) (f : SeqBank → SeqBank) : (s.modSq i f).tileSync = s.tileSync := rfl
@[simp] theorem State.modSq_dig (s : State) (i : Nat) (f : SeqBank → SeqBank) : (s.modSq i f).dig = s.dig := rfl
@[simp] theorem State.modSq_parts (s : State) (i : Nat) (f : SeqBank → SeqBank) : (s.modSq i f).parts = s.parts := rfl
@[simp] theorem State.modSq_part (s : State) (i : Nat) (f : SeqBank → SeqBank) : (s.modSq i f).part = s.part := rfl
@[simp] theorem State.modSq_map (s : State) (i : Nat) (f : SeqBank → SeqBank) : (s.modSq i f).map = s.map := rfl
@[simp] theorem State.modSq_fab (s : State) (i : Nat) (f : SeqBank → SeqBank) : (s.modSq i f).fab = s.fab := rfl
@[simp] theorem State.modSq_links (s : State) (i : Nat) (f : SeqBank → SeqBank) : (s.modSq i f).links = s.links := rfl
@[simp] theorem State.modSq_recvDir (s : State) (i : Nat) (f : SeqBank → SeqBank) : (s.modSq i f).recvDir = s.recvDir := rfl
@[simp] theorem State.modSq_vent (s : State) (i : Nat) (f : SeqBank → SeqBank) : (s.modSq i f).vent = s.vent := rfl
@[simp] theorem State.modSq_stackBanks (s : State) (i : Nat) (f : SeqBank → SeqBank) : (s.modSq i f).stackBanks = s.stackBanks := rfl
@[simp] theorem State.modSq_pcie (s : State) (i : Nat) (f : SeqBank → SeqBank) : (s.modSq i f).pcie = s.pcie := rfl
@[simp] theorem State.modSq_svc (s : State) (i : Nat) (f : SeqBank → SeqBank) : (s.modSq i f).svc = s.svc := rfl
@[simp] theorem State.modSq_flash (s : State) (i : Nat) (f : SeqBank → SeqBank) : (s.modSq i f).flash = s.flash := rfl
@[simp] theorem State.modSq_fwu (s : State) (i : Nat) (f : SeqBank → SeqBank) : (s.modSq i f).fwu = s.fwu := rfl
@[simp] theorem State.modSq_time (s : State) (i : Nat) (f : SeqBank → SeqBank) : (s.modSq i f).time = s.time := rfl
@[simp] theorem State.modSq_crcs (s : State) (i : Nat) (f : SeqBank → SeqBank) : (s.modSq i f).crcs = s.crcs := rfl
@[simp] theorem State.modSq_sec (s : State) (i : Nat) (f : SeqBank → SeqBank) : (s.modSq i f).sec = s.sec := rfl
@[simp] theorem State.modSq_pins (s : State) (i : Nat) (f : SeqBank → SeqBank) : (s.modSq i f).pins = s.pins := rfl
@[simp] theorem State.modSq_tiles (s : State) (i : Nat) (f : SeqBank → SeqBank) : (s.modSq i f).tiles = s.tiles := rfl
@[simp] theorem State.modSq_freeCount (s : State) (i : Nat) (f : SeqBank → SeqBank) : (s.modSq i f).freeCount = s.freeCount := rfl
@[simp] theorem State.modSq_pending (s : State) (i : Nat) (f : SeqBank → SeqBank) : (s.modSq i f).pending = s.pending := rfl
@[simp] theorem State.modBd_wall (s : State) (i : Nat) (f : BudBank → BudBank) : (s.modBd i f).wall = s.wall := rfl
@[simp] theorem State.modBd_fuses (s : State) (i : Nat) (f : BudBank → BudBank) : (s.modBd i f).fuses = s.fuses := rfl
@[simp] theorem State.modBd_top (s : State) (i : Nat) (f : BudBank → BudBank) : (s.modBd i f).top = s.top := rfl
@[simp] theorem State.modBd_plan (s : State) (i : Nat) (f : BudBank → BudBank) : (s.modBd i f).plan = s.plan := rfl
@[simp] theorem State.modBd_clk (s : State) (i : Nat) (f : BudBank → BudBank) : (s.modBd i f).clk = s.clk := rfl
@[simp] theorem State.modBd_snap (s : State) (i : Nat) (f : BudBank → BudBank) : (s.modBd i f).snap = s.snap := rfl
@[simp] theorem State.modBd_seq (s : State) (i : Nat) (f : BudBank → BudBank) : (s.modBd i f).seq = s.seq := rfl
@[simp] theorem State.modBd_seqB (s : State) (i : Nat) (f : BudBank → BudBank) : (s.modBd i f).seqB = s.seqB := rfl
@[simp] theorem State.modBd_bud (s : State) (i : Nat) (f : BudBank → BudBank) : (s.modBd i f).bud = s.bud := rfl
@[simp] theorem State.modBd_sync (s : State) (i : Nat) (f : BudBank → BudBank) : (s.modBd i f).sync = s.sync := rfl
@[simp] theorem State.modBd_syncB (s : State) (i : Nat) (f : BudBank → BudBank) : (s.modBd i f).syncB = s.syncB := rfl
@[simp] theorem State.modBd_tileSync (s : State) (i : Nat) (f : BudBank → BudBank) : (s.modBd i f).tileSync = s.tileSync := rfl
@[simp] theorem State.modBd_dig (s : State) (i : Nat) (f : BudBank → BudBank) : (s.modBd i f).dig = s.dig := rfl
@[simp] theorem State.modBd_parts (s : State) (i : Nat) (f : BudBank → BudBank) : (s.modBd i f).parts = s.parts := rfl
@[simp] theorem State.modBd_part (s : State) (i : Nat) (f : BudBank → BudBank) : (s.modBd i f).part = s.part := rfl
@[simp] theorem State.modBd_map (s : State) (i : Nat) (f : BudBank → BudBank) : (s.modBd i f).map = s.map := rfl
@[simp] theorem State.modBd_fab (s : State) (i : Nat) (f : BudBank → BudBank) : (s.modBd i f).fab = s.fab := rfl
@[simp] theorem State.modBd_links (s : State) (i : Nat) (f : BudBank → BudBank) : (s.modBd i f).links = s.links := rfl
@[simp] theorem State.modBd_recvDir (s : State) (i : Nat) (f : BudBank → BudBank) : (s.modBd i f).recvDir = s.recvDir := rfl
@[simp] theorem State.modBd_vent (s : State) (i : Nat) (f : BudBank → BudBank) : (s.modBd i f).vent = s.vent := rfl
@[simp] theorem State.modBd_stackBanks (s : State) (i : Nat) (f : BudBank → BudBank) : (s.modBd i f).stackBanks = s.stackBanks := rfl
@[simp] theorem State.modBd_pcie (s : State) (i : Nat) (f : BudBank → BudBank) : (s.modBd i f).pcie = s.pcie := rfl
@[simp] theorem State.modBd_svc (s : State) (i : Nat) (f : BudBank → BudBank) : (s.modBd i f).svc = s.svc := rfl
@[simp] theorem State.modBd_flash (s : State) (i : Nat) (f : BudBank → BudBank) : (s.modBd i f).flash = s.flash := rfl
@[simp] theorem State.modBd_fwu (s : State) (i : Nat) (f : BudBank → BudBank) : (s.modBd i f).fwu = s.fwu := rfl
@[simp] theorem State.modBd_time (s : State) (i : Nat) (f : BudBank → BudBank) : (s.modBd i f).time = s.time := rfl
@[simp] theorem State.modBd_crcs (s : State) (i : Nat) (f : BudBank → BudBank) : (s.modBd i f).crcs = s.crcs := rfl
@[simp] theorem State.modBd_sec (s : State) (i : Nat) (f : BudBank → BudBank) : (s.modBd i f).sec = s.sec := rfl
@[simp] theorem State.modBd_pins (s : State) (i : Nat) (f : BudBank → BudBank) : (s.modBd i f).pins = s.pins := rfl
@[simp] theorem State.modBd_tiles (s : State) (i : Nat) (f : BudBank → BudBank) : (s.modBd i f).tiles = s.tiles := rfl
@[simp] theorem State.modBd_freeCount (s : State) (i : Nat) (f : BudBank → BudBank) : (s.modBd i f).freeCount = s.freeCount := rfl
@[simp] theorem State.modBd_pending (s : State) (i : Nat) (f : BudBank → BudBank) : (s.modBd i f).pending = s.pending := rfl
@[simp] theorem State.modSy_wall (s : State) (i : Nat) (f : SyncBank → SyncBank) : (s.modSy i f).wall = s.wall := rfl
@[simp] theorem State.modSy_fuses (s : State) (i : Nat) (f : SyncBank → SyncBank) : (s.modSy i f).fuses = s.fuses := rfl
@[simp] theorem State.modSy_top (s : State) (i : Nat) (f : SyncBank → SyncBank) : (s.modSy i f).top = s.top := rfl
@[simp] theorem State.modSy_plan (s : State) (i : Nat) (f : SyncBank → SyncBank) : (s.modSy i f).plan = s.plan := rfl
@[simp] theorem State.modSy_clk (s : State) (i : Nat) (f : SyncBank → SyncBank) : (s.modSy i f).clk = s.clk := rfl
@[simp] theorem State.modSy_snap (s : State) (i : Nat) (f : SyncBank → SyncBank) : (s.modSy i f).snap = s.snap := rfl
@[simp] theorem State.modSy_seq (s : State) (i : Nat) (f : SyncBank → SyncBank) : (s.modSy i f).seq = s.seq := rfl
@[simp] theorem State.modSy_seqB (s : State) (i : Nat) (f : SyncBank → SyncBank) : (s.modSy i f).seqB = s.seqB := rfl
@[simp] theorem State.modSy_bud (s : State) (i : Nat) (f : SyncBank → SyncBank) : (s.modSy i f).bud = s.bud := rfl
@[simp] theorem State.modSy_budB (s : State) (i : Nat) (f : SyncBank → SyncBank) : (s.modSy i f).budB = s.budB := rfl
@[simp] theorem State.modSy_sync (s : State) (i : Nat) (f : SyncBank → SyncBank) : (s.modSy i f).sync = s.sync := rfl
@[simp] theorem State.modSy_tileSync (s : State) (i : Nat) (f : SyncBank → SyncBank) : (s.modSy i f).tileSync = s.tileSync := rfl
@[simp] theorem State.modSy_dig (s : State) (i : Nat) (f : SyncBank → SyncBank) : (s.modSy i f).dig = s.dig := rfl
@[simp] theorem State.modSy_parts (s : State) (i : Nat) (f : SyncBank → SyncBank) : (s.modSy i f).parts = s.parts := rfl
@[simp] theorem State.modSy_part (s : State) (i : Nat) (f : SyncBank → SyncBank) : (s.modSy i f).part = s.part := rfl
@[simp] theorem State.modSy_map (s : State) (i : Nat) (f : SyncBank → SyncBank) : (s.modSy i f).map = s.map := rfl
@[simp] theorem State.modSy_fab (s : State) (i : Nat) (f : SyncBank → SyncBank) : (s.modSy i f).fab = s.fab := rfl
@[simp] theorem State.modSy_links (s : State) (i : Nat) (f : SyncBank → SyncBank) : (s.modSy i f).links = s.links := rfl
@[simp] theorem State.modSy_recvDir (s : State) (i : Nat) (f : SyncBank → SyncBank) : (s.modSy i f).recvDir = s.recvDir := rfl
@[simp] theorem State.modSy_vent (s : State) (i : Nat) (f : SyncBank → SyncBank) : (s.modSy i f).vent = s.vent := rfl
@[simp] theorem State.modSy_stackBanks (s : State) (i : Nat) (f : SyncBank → SyncBank) : (s.modSy i f).stackBanks = s.stackBanks := rfl
@[simp] theorem State.modSy_pcie (s : State) (i : Nat) (f : SyncBank → SyncBank) : (s.modSy i f).pcie = s.pcie := rfl
@[simp] theorem State.modSy_svc (s : State) (i : Nat) (f : SyncBank → SyncBank) : (s.modSy i f).svc = s.svc := rfl
@[simp] theorem State.modSy_flash (s : State) (i : Nat) (f : SyncBank → SyncBank) : (s.modSy i f).flash = s.flash := rfl
@[simp] theorem State.modSy_fwu (s : State) (i : Nat) (f : SyncBank → SyncBank) : (s.modSy i f).fwu = s.fwu := rfl
@[simp] theorem State.modSy_time (s : State) (i : Nat) (f : SyncBank → SyncBank) : (s.modSy i f).time = s.time := rfl
@[simp] theorem State.modSy_crcs (s : State) (i : Nat) (f : SyncBank → SyncBank) : (s.modSy i f).crcs = s.crcs := rfl
@[simp] theorem State.modSy_sec (s : State) (i : Nat) (f : SyncBank → SyncBank) : (s.modSy i f).sec = s.sec := rfl
@[simp] theorem State.modSy_pins (s : State) (i : Nat) (f : SyncBank → SyncBank) : (s.modSy i f).pins = s.pins := rfl
@[simp] theorem State.modSy_tiles (s : State) (i : Nat) (f : SyncBank → SyncBank) : (s.modSy i f).tiles = s.tiles := rfl
@[simp] theorem State.modSy_freeCount (s : State) (i : Nat) (f : SyncBank → SyncBank) : (s.modSy i f).freeCount = s.freeCount := rfl
@[simp] theorem State.modSy_pending (s : State) (i : Nat) (f : SyncBank → SyncBank) : (s.modSy i f).pending = s.pending := rfl
@[simp] theorem State.modTs_wall (s : State) (i : Nat) (f : TileSync → TileSync) : (s.modTs i f).wall = s.wall := rfl
@[simp] theorem State.modTs_fuses (s : State) (i : Nat) (f : TileSync → TileSync) : (s.modTs i f).fuses = s.fuses := rfl
@[simp] theorem State.modTs_top (s : State) (i : Nat) (f : TileSync → TileSync) : (s.modTs i f).top = s.top := rfl
@[simp] theorem State.modTs_plan (s : State) (i : Nat) (f : TileSync → TileSync) : (s.modTs i f).plan = s.plan := rfl
@[simp] theorem State.modTs_clk (s : State) (i : Nat) (f : TileSync → TileSync) : (s.modTs i f).clk = s.clk := rfl
@[simp] theorem State.modTs_snap (s : State) (i : Nat) (f : TileSync → TileSync) : (s.modTs i f).snap = s.snap := rfl
@[simp] theorem State.modTs_seq (s : State) (i : Nat) (f : TileSync → TileSync) : (s.modTs i f).seq = s.seq := rfl
@[simp] theorem State.modTs_seqB (s : State) (i : Nat) (f : TileSync → TileSync) : (s.modTs i f).seqB = s.seqB := rfl
@[simp] theorem State.modTs_bud (s : State) (i : Nat) (f : TileSync → TileSync) : (s.modTs i f).bud = s.bud := rfl
@[simp] theorem State.modTs_budB (s : State) (i : Nat) (f : TileSync → TileSync) : (s.modTs i f).budB = s.budB := rfl
@[simp] theorem State.modTs_sync (s : State) (i : Nat) (f : TileSync → TileSync) : (s.modTs i f).sync = s.sync := rfl
@[simp] theorem State.modTs_syncB (s : State) (i : Nat) (f : TileSync → TileSync) : (s.modTs i f).syncB = s.syncB := rfl
@[simp] theorem State.modTs_dig (s : State) (i : Nat) (f : TileSync → TileSync) : (s.modTs i f).dig = s.dig := rfl
@[simp] theorem State.modTs_parts (s : State) (i : Nat) (f : TileSync → TileSync) : (s.modTs i f).parts = s.parts := rfl
@[simp] theorem State.modTs_part (s : State) (i : Nat) (f : TileSync → TileSync) : (s.modTs i f).part = s.part := rfl
@[simp] theorem State.modTs_map (s : State) (i : Nat) (f : TileSync → TileSync) : (s.modTs i f).map = s.map := rfl
@[simp] theorem State.modTs_fab (s : State) (i : Nat) (f : TileSync → TileSync) : (s.modTs i f).fab = s.fab := rfl
@[simp] theorem State.modTs_links (s : State) (i : Nat) (f : TileSync → TileSync) : (s.modTs i f).links = s.links := rfl
@[simp] theorem State.modTs_recvDir (s : State) (i : Nat) (f : TileSync → TileSync) : (s.modTs i f).recvDir = s.recvDir := rfl
@[simp] theorem State.modTs_vent (s : State) (i : Nat) (f : TileSync → TileSync) : (s.modTs i f).vent = s.vent := rfl
@[simp] theorem State.modTs_stackBanks (s : State) (i : Nat) (f : TileSync → TileSync) : (s.modTs i f).stackBanks = s.stackBanks := rfl
@[simp] theorem State.modTs_pcie (s : State) (i : Nat) (f : TileSync → TileSync) : (s.modTs i f).pcie = s.pcie := rfl
@[simp] theorem State.modTs_svc (s : State) (i : Nat) (f : TileSync → TileSync) : (s.modTs i f).svc = s.svc := rfl
@[simp] theorem State.modTs_flash (s : State) (i : Nat) (f : TileSync → TileSync) : (s.modTs i f).flash = s.flash := rfl
@[simp] theorem State.modTs_fwu (s : State) (i : Nat) (f : TileSync → TileSync) : (s.modTs i f).fwu = s.fwu := rfl
@[simp] theorem State.modTs_time (s : State) (i : Nat) (f : TileSync → TileSync) : (s.modTs i f).time = s.time := rfl
@[simp] theorem State.modTs_crcs (s : State) (i : Nat) (f : TileSync → TileSync) : (s.modTs i f).crcs = s.crcs := rfl
@[simp] theorem State.modTs_sec (s : State) (i : Nat) (f : TileSync → TileSync) : (s.modTs i f).sec = s.sec := rfl
@[simp] theorem State.modTs_pins (s : State) (i : Nat) (f : TileSync → TileSync) : (s.modTs i f).pins = s.pins := rfl
@[simp] theorem State.modTs_tiles (s : State) (i : Nat) (f : TileSync → TileSync) : (s.modTs i f).tiles = s.tiles := rfl
@[simp] theorem State.modTs_freeCount (s : State) (i : Nat) (f : TileSync → TileSync) : (s.modTs i f).freeCount = s.freeCount := rfl
@[simp] theorem State.modTs_pending (s : State) (i : Nat) (f : TileSync → TileSync) : (s.modTs i f).pending = s.pending := rfl
@[simp] theorem State.modLink_wall (s : State) (i : Nat) (f : Link → Link) : (s.modLink i f).wall = s.wall := rfl
@[simp] theorem State.modLink_fuses (s : State) (i : Nat) (f : Link → Link) : (s.modLink i f).fuses = s.fuses := rfl
@[simp] theorem State.modLink_top (s : State) (i : Nat) (f : Link → Link) : (s.modLink i f).top = s.top := rfl
@[simp] theorem State.modLink_plan (s : State) (i : Nat) (f : Link → Link) : (s.modLink i f).plan = s.plan := rfl
@[simp] theorem State.modLink_clk (s : State) (i : Nat) (f : Link → Link) : (s.modLink i f).clk = s.clk := rfl
@[simp] theorem State.modLink_snap (s : State) (i : Nat) (f : Link → Link) : (s.modLink i f).snap = s.snap := rfl
@[simp] theorem State.modLink_seq (s : State) (i : Nat) (f : Link → Link) : (s.modLink i f).seq = s.seq := rfl
@[simp] theorem State.modLink_seqB (s : State) (i : Nat) (f : Link → Link) : (s.modLink i f).seqB = s.seqB := rfl
@[simp] theorem State.modLink_bud (s : State) (i : Nat) (f : Link → Link) : (s.modLink i f).bud = s.bud := rfl
@[simp] theorem State.modLink_budB (s : State) (i : Nat) (f : Link → Link) : (s.modLink i f).budB = s.budB := rfl
@[simp] theorem State.modLink_sync (s : State) (i : Nat) (f : Link → Link) : (s.modLink i f).sync = s.sync := rfl
@[simp] theorem State.modLink_syncB (s : State) (i : Nat) (f : Link → Link) : (s.modLink i f).syncB = s.syncB := rfl
@[simp] theorem State.modLink_tileSync (s : State) (i : Nat) (f : Link → Link) : (s.modLink i f).tileSync = s.tileSync := rfl
@[simp] theorem State.modLink_dig (s : State) (i : Nat) (f : Link → Link) : (s.modLink i f).dig = s.dig := rfl
@[simp] theorem State.modLink_parts (s : State) (i : Nat) (f : Link → Link) : (s.modLink i f).parts = s.parts := rfl
@[simp] theorem State.modLink_part (s : State) (i : Nat) (f : Link → Link) : (s.modLink i f).part = s.part := rfl
@[simp] theorem State.modLink_map (s : State) (i : Nat) (f : Link → Link) : (s.modLink i f).map = s.map := rfl
@[simp] theorem State.modLink_fab (s : State) (i : Nat) (f : Link → Link) : (s.modLink i f).fab = s.fab := rfl
@[simp] theorem State.modLink_recvDir (s : State) (i : Nat) (f : Link → Link) : (s.modLink i f).recvDir = s.recvDir := rfl
@[simp] theorem State.modLink_vent (s : State) (i : Nat) (f : Link → Link) : (s.modLink i f).vent = s.vent := rfl
@[simp] theorem State.modLink_stackBanks (s : State) (i : Nat) (f : Link → Link) : (s.modLink i f).stackBanks = s.stackBanks := rfl
@[simp] theorem State.modLink_pcie (s : State) (i : Nat) (f : Link → Link) : (s.modLink i f).pcie = s.pcie := rfl
@[simp] theorem State.modLink_svc (s : State) (i : Nat) (f : Link → Link) : (s.modLink i f).svc = s.svc := rfl
@[simp] theorem State.modLink_flash (s : State) (i : Nat) (f : Link → Link) : (s.modLink i f).flash = s.flash := rfl
@[simp] theorem State.modLink_fwu (s : State) (i : Nat) (f : Link → Link) : (s.modLink i f).fwu = s.fwu := rfl
@[simp] theorem State.modLink_time (s : State) (i : Nat) (f : Link → Link) : (s.modLink i f).time = s.time := rfl
@[simp] theorem State.modLink_crcs (s : State) (i : Nat) (f : Link → Link) : (s.modLink i f).crcs = s.crcs := rfl
@[simp] theorem State.modLink_sec (s : State) (i : Nat) (f : Link → Link) : (s.modLink i f).sec = s.sec := rfl
@[simp] theorem State.modLink_pins (s : State) (i : Nat) (f : Link → Link) : (s.modLink i f).pins = s.pins := rfl
@[simp] theorem State.modLink_tiles (s : State) (i : Nat) (f : Link → Link) : (s.modLink i f).tiles = s.tiles := rfl
@[simp] theorem State.modLink_freeCount (s : State) (i : Nat) (f : Link → Link) : (s.modLink i f).freeCount = s.freeCount := rfl
@[simp] theorem State.modLink_pending (s : State) (i : Nat) (f : Link → Link) : (s.modLink i f).pending = s.pending := rfl
@[simp] theorem State.modStk_wall (s : State) (i : Nat) (f : Stack → Stack) : (s.modStk i f).wall = s.wall := rfl
@[simp] theorem State.modStk_fuses (s : State) (i : Nat) (f : Stack → Stack) : (s.modStk i f).fuses = s.fuses := rfl
@[simp] theorem State.modStk_top (s : State) (i : Nat) (f : Stack → Stack) : (s.modStk i f).top = s.top := rfl
@[simp] theorem State.modStk_plan (s : State) (i : Nat) (f : Stack → Stack) : (s.modStk i f).plan = s.plan := rfl
@[simp] theorem State.modStk_clk (s : State) (i : Nat) (f : Stack → Stack) : (s.modStk i f).clk = s.clk := rfl
@[simp] theorem State.modStk_snap (s : State) (i : Nat) (f : Stack → Stack) : (s.modStk i f).snap = s.snap := rfl
@[simp] theorem State.modStk_seq (s : State) (i : Nat) (f : Stack → Stack) : (s.modStk i f).seq = s.seq := rfl
@[simp] theorem State.modStk_seqB (s : State) (i : Nat) (f : Stack → Stack) : (s.modStk i f).seqB = s.seqB := rfl
@[simp] theorem State.modStk_bud (s : State) (i : Nat) (f : Stack → Stack) : (s.modStk i f).bud = s.bud := rfl
@[simp] theorem State.modStk_budB (s : State) (i : Nat) (f : Stack → Stack) : (s.modStk i f).budB = s.budB := rfl
@[simp] theorem State.modStk_sync (s : State) (i : Nat) (f : Stack → Stack) : (s.modStk i f).sync = s.sync := rfl
@[simp] theorem State.modStk_syncB (s : State) (i : Nat) (f : Stack → Stack) : (s.modStk i f).syncB = s.syncB := rfl
@[simp] theorem State.modStk_tileSync (s : State) (i : Nat) (f : Stack → Stack) : (s.modStk i f).tileSync = s.tileSync := rfl
@[simp] theorem State.modStk_dig (s : State) (i : Nat) (f : Stack → Stack) : (s.modStk i f).dig = s.dig := rfl
@[simp] theorem State.modStk_parts (s : State) (i : Nat) (f : Stack → Stack) : (s.modStk i f).parts = s.parts := rfl
@[simp] theorem State.modStk_part (s : State) (i : Nat) (f : Stack → Stack) : (s.modStk i f).part = s.part := rfl
@[simp] theorem State.modStk_map (s : State) (i : Nat) (f : Stack → Stack) : (s.modStk i f).map = s.map := rfl
@[simp] theorem State.modStk_fab (s : State) (i : Nat) (f : Stack → Stack) : (s.modStk i f).fab = s.fab := rfl
@[simp] theorem State.modStk_links (s : State) (i : Nat) (f : Stack → Stack) : (s.modStk i f).links = s.links := rfl
@[simp] theorem State.modStk_recvDir (s : State) (i : Nat) (f : Stack → Stack) : (s.modStk i f).recvDir = s.recvDir := rfl
@[simp] theorem State.modStk_vent (s : State) (i : Nat) (f : Stack → Stack) : (s.modStk i f).vent = s.vent := rfl
@[simp] theorem State.modStk_pcie (s : State) (i : Nat) (f : Stack → Stack) : (s.modStk i f).pcie = s.pcie := rfl
@[simp] theorem State.modStk_svc (s : State) (i : Nat) (f : Stack → Stack) : (s.modStk i f).svc = s.svc := rfl
@[simp] theorem State.modStk_flash (s : State) (i : Nat) (f : Stack → Stack) : (s.modStk i f).flash = s.flash := rfl
@[simp] theorem State.modStk_fwu (s : State) (i : Nat) (f : Stack → Stack) : (s.modStk i f).fwu = s.fwu := rfl
@[simp] theorem State.modStk_time (s : State) (i : Nat) (f : Stack → Stack) : (s.modStk i f).time = s.time := rfl
@[simp] theorem State.modStk_crcs (s : State) (i : Nat) (f : Stack → Stack) : (s.modStk i f).crcs = s.crcs := rfl
@[simp] theorem State.modStk_sec (s : State) (i : Nat) (f : Stack → Stack) : (s.modStk i f).sec = s.sec := rfl
@[simp] theorem State.modStk_pins (s : State) (i : Nat) (f : Stack → Stack) : (s.modStk i f).pins = s.pins := rfl
@[simp] theorem State.modStk_tiles (s : State) (i : Nat) (f : Stack → Stack) : (s.modStk i f).tiles = s.tiles := rfl
@[simp] theorem State.modStk_freeCount (s : State) (i : Nat) (f : Stack → Stack) : (s.modStk i f).freeCount = s.freeCount := rfl
@[simp] theorem State.modStk_pending (s : State) (i : Nat) (f : Stack → Stack) : (s.modStk i f).pending = s.pending := rfl
@[simp] theorem State.modCrc_wall (s : State) (i : Nat) (f : CrcRegs → CrcRegs) : (s.modCrc i f).wall = s.wall := rfl
@[simp] theorem State.modCrc_fuses (s : State) (i : Nat) (f : CrcRegs → CrcRegs) : (s.modCrc i f).fuses = s.fuses := rfl
@[simp] theorem State.modCrc_top (s : State) (i : Nat) (f : CrcRegs → CrcRegs) : (s.modCrc i f).top = s.top := rfl
@[simp] theorem State.modCrc_plan (s : State) (i : Nat) (f : CrcRegs → CrcRegs) : (s.modCrc i f).plan = s.plan := rfl
@[simp] theorem State.modCrc_clk (s : State) (i : Nat) (f : CrcRegs → CrcRegs) : (s.modCrc i f).clk = s.clk := rfl
@[simp] theorem State.modCrc_snap (s : State) (i : Nat) (f : CrcRegs → CrcRegs) : (s.modCrc i f).snap = s.snap := rfl
@[simp] theorem State.modCrc_seq (s : State) (i : Nat) (f : CrcRegs → CrcRegs) : (s.modCrc i f).seq = s.seq := rfl
@[simp] theorem State.modCrc_seqB (s : State) (i : Nat) (f : CrcRegs → CrcRegs) : (s.modCrc i f).seqB = s.seqB := rfl
@[simp] theorem State.modCrc_bud (s : State) (i : Nat) (f : CrcRegs → CrcRegs) : (s.modCrc i f).bud = s.bud := rfl
@[simp] theorem State.modCrc_budB (s : State) (i : Nat) (f : CrcRegs → CrcRegs) : (s.modCrc i f).budB = s.budB := rfl
@[simp] theorem State.modCrc_sync (s : State) (i : Nat) (f : CrcRegs → CrcRegs) : (s.modCrc i f).sync = s.sync := rfl
@[simp] theorem State.modCrc_syncB (s : State) (i : Nat) (f : CrcRegs → CrcRegs) : (s.modCrc i f).syncB = s.syncB := rfl
@[simp] theorem State.modCrc_tileSync (s : State) (i : Nat) (f : CrcRegs → CrcRegs) : (s.modCrc i f).tileSync = s.tileSync := rfl
@[simp] theorem State.modCrc_dig (s : State) (i : Nat) (f : CrcRegs → CrcRegs) : (s.modCrc i f).dig = s.dig := rfl
@[simp] theorem State.modCrc_parts (s : State) (i : Nat) (f : CrcRegs → CrcRegs) : (s.modCrc i f).parts = s.parts := rfl
@[simp] theorem State.modCrc_part (s : State) (i : Nat) (f : CrcRegs → CrcRegs) : (s.modCrc i f).part = s.part := rfl
@[simp] theorem State.modCrc_map (s : State) (i : Nat) (f : CrcRegs → CrcRegs) : (s.modCrc i f).map = s.map := rfl
@[simp] theorem State.modCrc_fab (s : State) (i : Nat) (f : CrcRegs → CrcRegs) : (s.modCrc i f).fab = s.fab := rfl
@[simp] theorem State.modCrc_links (s : State) (i : Nat) (f : CrcRegs → CrcRegs) : (s.modCrc i f).links = s.links := rfl
@[simp] theorem State.modCrc_recvDir (s : State) (i : Nat) (f : CrcRegs → CrcRegs) : (s.modCrc i f).recvDir = s.recvDir := rfl
@[simp] theorem State.modCrc_vent (s : State) (i : Nat) (f : CrcRegs → CrcRegs) : (s.modCrc i f).vent = s.vent := rfl
@[simp] theorem State.modCrc_stackBanks (s : State) (i : Nat) (f : CrcRegs → CrcRegs) : (s.modCrc i f).stackBanks = s.stackBanks := rfl
@[simp] theorem State.modCrc_pcie (s : State) (i : Nat) (f : CrcRegs → CrcRegs) : (s.modCrc i f).pcie = s.pcie := rfl
@[simp] theorem State.modCrc_svc (s : State) (i : Nat) (f : CrcRegs → CrcRegs) : (s.modCrc i f).svc = s.svc := rfl
@[simp] theorem State.modCrc_flash (s : State) (i : Nat) (f : CrcRegs → CrcRegs) : (s.modCrc i f).flash = s.flash := rfl
@[simp] theorem State.modCrc_fwu (s : State) (i : Nat) (f : CrcRegs → CrcRegs) : (s.modCrc i f).fwu = s.fwu := rfl
@[simp] theorem State.modCrc_time (s : State) (i : Nat) (f : CrcRegs → CrcRegs) : (s.modCrc i f).time = s.time := rfl
@[simp] theorem State.modCrc_sec (s : State) (i : Nat) (f : CrcRegs → CrcRegs) : (s.modCrc i f).sec = s.sec := rfl
@[simp] theorem State.modCrc_pins (s : State) (i : Nat) (f : CrcRegs → CrcRegs) : (s.modCrc i f).pins = s.pins := rfl
@[simp] theorem State.modCrc_tiles (s : State) (i : Nat) (f : CrcRegs → CrcRegs) : (s.modCrc i f).tiles = s.tiles := rfl
@[simp] theorem State.modCrc_freeCount (s : State) (i : Nat) (f : CrcRegs → CrcRegs) : (s.modCrc i f).freeCount = s.freeCount := rfl
@[simp] theorem State.modCrc_pending (s : State) (i : Nat) (f : CrcRegs → CrcRegs) : (s.modCrc i f).pending = s.pending := rfl
@[simp] theorem State.modFn_wall (s : State) (i : Nat) (f : PcieFn → PcieFn) : (s.modFn i f).wall = s.wall := rfl
@[simp] theorem State.modBar_wall (s : State) (p b : Nat) (f : Barrier → Barrier) : (s.modBar p b f).wall = s.wall := rfl
@[simp] theorem State.modChan_wall (s : State) (k c : Nat) (f : Channel → Channel) : (s.modChan k c f).wall = s.wall := rfl
@[simp] theorem State.draw_wall (s : State) (w : Nat) : (s.draw w).2.wall = s.wall := rfl
@[simp] theorem State.modFn_fuses (s : State) (i : Nat) (f : PcieFn → PcieFn) : (s.modFn i f).fuses = s.fuses := rfl
@[simp] theorem State.modBar_fuses (s : State) (p b : Nat) (f : Barrier → Barrier) : (s.modBar p b f).fuses = s.fuses := rfl
@[simp] theorem State.modChan_fuses (s : State) (k c : Nat) (f : Channel → Channel) : (s.modChan k c f).fuses = s.fuses := rfl
@[simp] theorem State.draw_fuses (s : State) (w : Nat) : (s.draw w).2.fuses = s.fuses := rfl
@[simp] theorem State.modFn_top (s : State) (i : Nat) (f : PcieFn → PcieFn) : (s.modFn i f).top = s.top := rfl
@[simp] theorem State.modBar_top (s : State) (p b : Nat) (f : Barrier → Barrier) : (s.modBar p b f).top = s.top := rfl
@[simp] theorem State.modChan_top (s : State) (k c : Nat) (f : Channel → Channel) : (s.modChan k c f).top = s.top := rfl
@[simp] theorem State.draw_top (s : State) (w : Nat) : (s.draw w).2.top = s.top := rfl
@[simp] theorem State.modFn_plan (s : State) (i : Nat) (f : PcieFn → PcieFn) : (s.modFn i f).plan = s.plan := rfl
@[simp] theorem State.modBar_plan (s : State) (p b : Nat) (f : Barrier → Barrier) : (s.modBar p b f).plan = s.plan := rfl
@[simp] theorem State.modChan_plan (s : State) (k c : Nat) (f : Channel → Channel) : (s.modChan k c f).plan = s.plan := rfl
@[simp] theorem State.draw_plan (s : State) (w : Nat) : (s.draw w).2.plan = s.plan := rfl
@[simp] theorem State.modFn_clk (s : State) (i : Nat) (f : PcieFn → PcieFn) : (s.modFn i f).clk = s.clk := rfl
@[simp] theorem State.modBar_clk (s : State) (p b : Nat) (f : Barrier → Barrier) : (s.modBar p b f).clk = s.clk := rfl
@[simp] theorem State.modChan_clk (s : State) (k c : Nat) (f : Channel → Channel) : (s.modChan k c f).clk = s.clk := rfl
@[simp] theorem State.draw_clk (s : State) (w : Nat) : (s.draw w).2.clk = s.clk := rfl
@[simp] theorem State.modFn_snap (s : State) (i : Nat) (f : PcieFn → PcieFn) : (s.modFn i f).snap = s.snap := rfl
@[simp] theorem State.modBar_snap (s : State) (p b : Nat) (f : Barrier → Barrier) : (s.modBar p b f).snap = s.snap := rfl
@[simp] theorem State.modChan_snap (s : State) (k c : Nat) (f : Channel → Channel) : (s.modChan k c f).snap = s.snap := rfl
@[simp] theorem State.draw_snap (s : State) (w : Nat) : (s.draw w).2.snap = s.snap := rfl
@[simp] theorem State.modFn_seq (s : State) (i : Nat) (f : PcieFn → PcieFn) : (s.modFn i f).seq = s.seq := rfl
@[simp] theorem State.modBar_seq (s : State) (p b : Nat) (f : Barrier → Barrier) : (s.modBar p b f).seq = s.seq := rfl
@[simp] theorem State.modChan_seq (s : State) (k c : Nat) (f : Channel → Channel) : (s.modChan k c f).seq = s.seq := rfl
@[simp] theorem State.draw_seq (s : State) (w : Nat) : (s.draw w).2.seq = s.seq := rfl
@[simp] theorem State.modFn_seqB (s : State) (i : Nat) (f : PcieFn → PcieFn) : (s.modFn i f).seqB = s.seqB := rfl
@[simp] theorem State.modBar_seqB (s : State) (p b : Nat) (f : Barrier → Barrier) : (s.modBar p b f).seqB = s.seqB := rfl
@[simp] theorem State.modChan_seqB (s : State) (k c : Nat) (f : Channel → Channel) : (s.modChan k c f).seqB = s.seqB := rfl
@[simp] theorem State.draw_seqB (s : State) (w : Nat) : (s.draw w).2.seqB = s.seqB := rfl
@[simp] theorem State.modFn_bud (s : State) (i : Nat) (f : PcieFn → PcieFn) : (s.modFn i f).bud = s.bud := rfl
@[simp] theorem State.modBar_bud (s : State) (p b : Nat) (f : Barrier → Barrier) : (s.modBar p b f).bud = s.bud := rfl
@[simp] theorem State.modChan_bud (s : State) (k c : Nat) (f : Channel → Channel) : (s.modChan k c f).bud = s.bud := rfl
@[simp] theorem State.draw_bud (s : State) (w : Nat) : (s.draw w).2.bud = s.bud := rfl
@[simp] theorem State.modFn_budB (s : State) (i : Nat) (f : PcieFn → PcieFn) : (s.modFn i f).budB = s.budB := rfl
@[simp] theorem State.modBar_budB (s : State) (p b : Nat) (f : Barrier → Barrier) : (s.modBar p b f).budB = s.budB := rfl
@[simp] theorem State.modChan_budB (s : State) (k c : Nat) (f : Channel → Channel) : (s.modChan k c f).budB = s.budB := rfl
@[simp] theorem State.draw_budB (s : State) (w : Nat) : (s.draw w).2.budB = s.budB := rfl
@[simp] theorem State.modFn_sync (s : State) (i : Nat) (f : PcieFn → PcieFn) : (s.modFn i f).sync = s.sync := rfl
@[simp] theorem State.modBar_sync (s : State) (p b : Nat) (f : Barrier → Barrier) : (s.modBar p b f).sync = s.sync := rfl
@[simp] theorem State.modChan_sync (s : State) (k c : Nat) (f : Channel → Channel) : (s.modChan k c f).sync = s.sync := rfl
@[simp] theorem State.draw_sync (s : State) (w : Nat) : (s.draw w).2.sync = s.sync := rfl
@[simp] theorem State.modFn_syncB (s : State) (i : Nat) (f : PcieFn → PcieFn) : (s.modFn i f).syncB = s.syncB := rfl
@[simp] theorem State.modChan_syncB (s : State) (k c : Nat) (f : Channel → Channel) : (s.modChan k c f).syncB = s.syncB := rfl
@[simp] theorem State.draw_syncB (s : State) (w : Nat) : (s.draw w).2.syncB = s.syncB := rfl
@[simp] theorem State.modFn_tileSync (s : State) (i : Nat) (f : PcieFn → PcieFn) : (s.modFn i f).tileSync = s.tileSync := rfl
@[simp] theorem State.modBar_tileSync (s : State) (p b : Nat) (f : Barrier → Barrier) : (s.modBar p b f).tileSync = s.tileSync := rfl
@[simp] theorem State.modChan_tileSync (s : State) (k c : Nat) (f : Channel → Channel) : (s.modChan k c f).tileSync = s.tileSync := rfl
@[simp] theorem State.draw_tileSync (s : State) (w : Nat) : (s.draw w).2.tileSync = s.tileSync := rfl
@[simp] theorem State.modFn_dig (s : State) (i : Nat) (f : PcieFn → PcieFn) : (s.modFn i f).dig = s.dig := rfl
@[simp] theorem State.modBar_dig (s : State) (p b : Nat) (f : Barrier → Barrier) : (s.modBar p b f).dig = s.dig := rfl
@[simp] theorem State.modChan_dig (s : State) (k c : Nat) (f : Channel → Channel) : (s.modChan k c f).dig = s.dig := rfl
@[simp] theorem State.draw_dig (s : State) (w : Nat) : (s.draw w).2.dig = s.dig := rfl
@[simp] theorem State.modFn_parts (s : State) (i : Nat) (f : PcieFn → PcieFn) : (s.modFn i f).parts = s.parts := rfl
@[simp] theorem State.modBar_parts (s : State) (p b : Nat) (f : Barrier → Barrier) : (s.modBar p b f).parts = s.parts := rfl
@[simp] theorem State.modChan_parts (s : State) (k c : Nat) (f : Channel → Channel) : (s.modChan k c f).parts = s.parts := rfl
@[simp] theorem State.draw_parts (s : State) (w : Nat) : (s.draw w).2.parts = s.parts := rfl
@[simp] theorem State.modFn_part (s : State) (i : Nat) (f : PcieFn → PcieFn) : (s.modFn i f).part = s.part := rfl
@[simp] theorem State.modBar_part (s : State) (p b : Nat) (f : Barrier → Barrier) : (s.modBar p b f).part = s.part := rfl
@[simp] theorem State.modChan_part (s : State) (k c : Nat) (f : Channel → Channel) : (s.modChan k c f).part = s.part := rfl
@[simp] theorem State.draw_part (s : State) (w : Nat) : (s.draw w).2.part = s.part := rfl
@[simp] theorem State.modFn_map (s : State) (i : Nat) (f : PcieFn → PcieFn) : (s.modFn i f).map = s.map := rfl
@[simp] theorem State.modBar_map (s : State) (p b : Nat) (f : Barrier → Barrier) : (s.modBar p b f).map = s.map := rfl
@[simp] theorem State.modChan_map (s : State) (k c : Nat) (f : Channel → Channel) : (s.modChan k c f).map = s.map := rfl
@[simp] theorem State.draw_map (s : State) (w : Nat) : (s.draw w).2.map = s.map := rfl
@[simp] theorem State.modFn_fab (s : State) (i : Nat) (f : PcieFn → PcieFn) : (s.modFn i f).fab = s.fab := rfl
@[simp] theorem State.modBar_fab (s : State) (p b : Nat) (f : Barrier → Barrier) : (s.modBar p b f).fab = s.fab := rfl
@[simp] theorem State.modChan_fab (s : State) (k c : Nat) (f : Channel → Channel) : (s.modChan k c f).fab = s.fab := rfl
@[simp] theorem State.draw_fab (s : State) (w : Nat) : (s.draw w).2.fab = s.fab := rfl
@[simp] theorem State.modFn_links (s : State) (i : Nat) (f : PcieFn → PcieFn) : (s.modFn i f).links = s.links := rfl
@[simp] theorem State.modBar_links (s : State) (p b : Nat) (f : Barrier → Barrier) : (s.modBar p b f).links = s.links := rfl
@[simp] theorem State.modChan_links (s : State) (k c : Nat) (f : Channel → Channel) : (s.modChan k c f).links = s.links := rfl
@[simp] theorem State.draw_links (s : State) (w : Nat) : (s.draw w).2.links = s.links := rfl
@[simp] theorem State.modFn_recvDir (s : State) (i : Nat) (f : PcieFn → PcieFn) : (s.modFn i f).recvDir = s.recvDir := rfl
@[simp] theorem State.modBar_recvDir (s : State) (p b : Nat) (f : Barrier → Barrier) : (s.modBar p b f).recvDir = s.recvDir := rfl
@[simp] theorem State.modChan_recvDir (s : State) (k c : Nat) (f : Channel → Channel) : (s.modChan k c f).recvDir = s.recvDir := rfl
@[simp] theorem State.draw_recvDir (s : State) (w : Nat) : (s.draw w).2.recvDir = s.recvDir := rfl
@[simp] theorem State.modFn_vent (s : State) (i : Nat) (f : PcieFn → PcieFn) : (s.modFn i f).vent = s.vent := rfl
@[simp] theorem State.modBar_vent (s : State) (p b : Nat) (f : Barrier → Barrier) : (s.modBar p b f).vent = s.vent := rfl
@[simp] theorem State.modChan_vent (s : State) (k c : Nat) (f : Channel → Channel) : (s.modChan k c f).vent = s.vent := rfl
@[simp] theorem State.draw_vent (s : State) (w : Nat) : (s.draw w).2.vent = s.vent := rfl
@[simp] theorem State.modFn_stackBanks (s : State) (i : Nat) (f : PcieFn → PcieFn) : (s.modFn i f).stackBanks = s.stackBanks := rfl
@[simp] theorem State.modBar_stackBanks (s : State) (p b : Nat) (f : Barrier → Barrier) : (s.modBar p b f).stackBanks = s.stackBanks := rfl
@[simp] theorem State.draw_stackBanks (s : State) (w : Nat) : (s.draw w).2.stackBanks = s.stackBanks := rfl
@[simp] theorem State.modBar_pcie (s : State) (p b : Nat) (f : Barrier → Barrier) : (s.modBar p b f).pcie = s.pcie := rfl
@[simp] theorem State.modChan_pcie (s : State) (k c : Nat) (f : Channel → Channel) : (s.modChan k c f).pcie = s.pcie := rfl
@[simp] theorem State.draw_pcie (s : State) (w : Nat) : (s.draw w).2.pcie = s.pcie := rfl
@[simp] theorem State.modFn_svc (s : State) (i : Nat) (f : PcieFn → PcieFn) : (s.modFn i f).svc = s.svc := rfl
@[simp] theorem State.modBar_svc (s : State) (p b : Nat) (f : Barrier → Barrier) : (s.modBar p b f).svc = s.svc := rfl
@[simp] theorem State.modChan_svc (s : State) (k c : Nat) (f : Channel → Channel) : (s.modChan k c f).svc = s.svc := rfl
@[simp] theorem State.draw_svc (s : State) (w : Nat) : (s.draw w).2.svc = s.svc := rfl
@[simp] theorem State.modFn_flash (s : State) (i : Nat) (f : PcieFn → PcieFn) : (s.modFn i f).flash = s.flash := rfl
@[simp] theorem State.modBar_flash (s : State) (p b : Nat) (f : Barrier → Barrier) : (s.modBar p b f).flash = s.flash := rfl
@[simp] theorem State.modChan_flash (s : State) (k c : Nat) (f : Channel → Channel) : (s.modChan k c f).flash = s.flash := rfl
@[simp] theorem State.draw_flash (s : State) (w : Nat) : (s.draw w).2.flash = s.flash := rfl
@[simp] theorem State.modFn_fwu (s : State) (i : Nat) (f : PcieFn → PcieFn) : (s.modFn i f).fwu = s.fwu := rfl
@[simp] theorem State.modBar_fwu (s : State) (p b : Nat) (f : Barrier → Barrier) : (s.modBar p b f).fwu = s.fwu := rfl
@[simp] theorem State.modChan_fwu (s : State) (k c : Nat) (f : Channel → Channel) : (s.modChan k c f).fwu = s.fwu := rfl
@[simp] theorem State.draw_fwu (s : State) (w : Nat) : (s.draw w).2.fwu = s.fwu := rfl
@[simp] theorem State.modFn_time (s : State) (i : Nat) (f : PcieFn → PcieFn) : (s.modFn i f).time = s.time := rfl
@[simp] theorem State.modBar_time (s : State) (p b : Nat) (f : Barrier → Barrier) : (s.modBar p b f).time = s.time := rfl
@[simp] theorem State.modChan_time (s : State) (k c : Nat) (f : Channel → Channel) : (s.modChan k c f).time = s.time := rfl
@[simp] theorem State.draw_time (s : State) (w : Nat) : (s.draw w).2.time = s.time := rfl
@[simp] theorem State.modFn_crcs (s : State) (i : Nat) (f : PcieFn → PcieFn) : (s.modFn i f).crcs = s.crcs := rfl
@[simp] theorem State.modBar_crcs (s : State) (p b : Nat) (f : Barrier → Barrier) : (s.modBar p b f).crcs = s.crcs := rfl
@[simp] theorem State.modChan_crcs (s : State) (k c : Nat) (f : Channel → Channel) : (s.modChan k c f).crcs = s.crcs := rfl
@[simp] theorem State.draw_crcs (s : State) (w : Nat) : (s.draw w).2.crcs = s.crcs := rfl
@[simp] theorem State.modFn_sec (s : State) (i : Nat) (f : PcieFn → PcieFn) : (s.modFn i f).sec = s.sec := rfl
@[simp] theorem State.modBar_sec (s : State) (p b : Nat) (f : Barrier → Barrier) : (s.modBar p b f).sec = s.sec := rfl
@[simp] theorem State.modChan_sec (s : State) (k c : Nat) (f : Channel → Channel) : (s.modChan k c f).sec = s.sec := rfl
@[simp] theorem State.draw_sec (s : State) (w : Nat) : (s.draw w).2.sec = s.sec := rfl
@[simp] theorem State.modFn_pins (s : State) (i : Nat) (f : PcieFn → PcieFn) : (s.modFn i f).pins = s.pins := rfl
@[simp] theorem State.modBar_pins (s : State) (p b : Nat) (f : Barrier → Barrier) : (s.modBar p b f).pins = s.pins := rfl
@[simp] theorem State.modChan_pins (s : State) (k c : Nat) (f : Channel → Channel) : (s.modChan k c f).pins = s.pins := rfl
@[simp] theorem State.draw_pins (s : State) (w : Nat) : (s.draw w).2.pins = s.pins := rfl
@[simp] theorem State.modFn_tiles (s : State) (i : Nat) (f : PcieFn → PcieFn) : (s.modFn i f).tiles = s.tiles := rfl
@[simp] theorem State.modBar_tiles (s : State) (p b : Nat) (f : Barrier → Barrier) : (s.modBar p b f).tiles = s.tiles := rfl
@[simp] theorem State.modChan_tiles (s : State) (k c : Nat) (f : Channel → Channel) : (s.modChan k c f).tiles = s.tiles := rfl
@[simp] theorem State.draw_tiles (s : State) (w : Nat) : (s.draw w).2.tiles = s.tiles := rfl
@[simp] theorem State.modFn_freeCount (s : State) (i : Nat) (f : PcieFn → PcieFn) : (s.modFn i f).freeCount = s.freeCount := rfl
@[simp] theorem State.modBar_freeCount (s : State) (p b : Nat) (f : Barrier → Barrier) : (s.modBar p b f).freeCount = s.freeCount := rfl
@[simp] theorem State.modChan_freeCount (s : State) (k c : Nat) (f : Channel → Channel) : (s.modChan k c f).freeCount = s.freeCount := rfl
@[simp] theorem State.modFn_pending (s : State) (i : Nat) (f : PcieFn → PcieFn) : (s.modFn i f).pending = s.pending := rfl
@[simp] theorem State.modBar_pending (s : State) (p b : Nat) (f : Barrier → Barrier) : (s.modBar p b f).pending = s.pending := rfl
@[simp] theorem State.modChan_pending (s : State) (k c : Nat) (f : Channel → Channel) : (s.modChan k c f).pending = s.pending := rfl
@[simp] theorem State.draw_pending (s : State) (w : Nat) : (s.draw w).2.pending = s.pending := rfl

end Sys2Proof.Machine
end

