-- ==== Sys2Proof/Safety.lean ====
section
/-! DEFINITION. What a safe run keeps, and when a tile instruction issues, in the terms that the statements use. -/

namespace Sys2Proof.Machine
open Sys2Proof

/-- What no command changes: the one-time memory of the part, and the queue of commands that wait (R3, R413, R500). -/
def State.fixed (s : State) : Fuses × BitVec 256 × List (BitVec 8) × List Instr :=
  (s.fuses, s.sec.secret, s.sec.identityRec, s.pending)

/-- The grade fuses name a product of the spec: 160 tiles and none disabled, or 144 tiles and 16 disabled (R2, R3). -/
def Fuses.legal (f : Fuses) : Prop :=
  (f.grade = 0x1#4 ∧ f.tiles = 160#8 ∧ f.disabled = []) ∨
  (f.grade = 0x2#4 ∧ f.tiles = 144#8 ∧ f.disabled.map (· / 10) = List.range 16)

/-- The memory of every tile is in canonical form. -/
def State.tileMemOk (s : State) : Prop := ∀ t, t < 160 → Memory.wf (s.tile t).mem = true

/-- The memory of every pseudo-channel of every stack is in canonical form. -/
def State.stackMemOk (s : State) : Prop := ∀ k c, k < 8 → c < 32 → Memory.wf (s.chan k c).mem = true

/-! ### A tile instruction at its check point (R32, R66, R67, R93, R94) -/

/-- The check point `fr` of the words `w` with opcode `op` is due in a stream that has a plan, and no failed parity check of
its queue entry stands (R32, R67, R71, R514). -/
def State.atCheck (s : State) (t : Nat) (e : Eng) (op : Nat) (w : IWord) (fr : Front) : Prop :=
  s.streamLive t ((s.tile t).stream e) = true ∧ s.frontOf t e (w.bits op) w.wait.toNat = some fr ∧
  ∀ f ∈ (s.tile t).parityFails, f.queue = true → f.source.toNat = e.num → f.pc.toNat ≠ fr.pc

/-- The same, with every tested word as the operand modes ask (R92, R93). -/
def State.passes (s : State) (t : Nat) (e : Eng) (op : Nat) (w : IWord) (fr : Front) (tests : List (Nat × Bool)) : Prop :=
  s.atCheck t e op w fr ∧ ∀ x ∈ tests, nsHas x.1 (s.tile t).full = x.2

/-- What the instruction at a check point sees: the chip, its place, and the instruction as it goes in flight. -/
def State.ctxAt (s : State) (t : Nat) (e : Eng) (op : Nat) (w : IWord) (fr : Front) : Ctx :=
  { s := s, t := t, e := e, f := s.flightAt t e op w fr }

/-- The chip after a check point that passed: the instruction `f` is in flight, the check points that follow are those of
`flow` and `lwait`, and a hold that the check point raised has lost its cause (R34, R65, R66, R99). -/
def State.takes (s : State) (t : Nat) (e : Eng) (fr : Front) (f : Flight) (lwait : Nat) (flow : Flow) : State :=
  (s.modTile t fun y => y.setStream e { y.stream e with
    flights := (y.stream e).flights ++ [f]
    fronts := (y.stream e).fronts.flatMap fun z => if z = fr then fr.next f.p lwait flow else [z] }).clearCause
      (.lateUse t e.num fr.pc)

/-- The chip after a check point that passed, the next instruction following in order. -/
def State.inFlight (s : State) (t : Nat) (e : Eng) (op : Nat) (w : IWord) (fr : Front) : State :=
  s.takes t e fr (s.flightAt t e op w fr) 0 .seq

/-- The instruction in flight is one of opcode `op` with the words `w`. -/
def Ctx.runs (c : Ctx) (op : Nat) (w : IWord) : Prop := c.f.op = op ∧ c.f.w = w

end Sys2Proof.Machine

namespace Sys2Proof

/-! ### Tile instructions as commands (R87 to R90) -/

/-- A tile instruction as its command names it: the tile, the stream, the opcode of the spec's tables, the other fields of
the word, and whether no field holds a reserved value. -/
structure Machine.TileForm where
  tile : TileId
  eng : Machine.Eng
  op : Nat
  word : Machine.IWord
  ok : Bool

/-- The tile instruction that a command is, if it is one. -/
def Instr.tileForm : Instr → Option Machine.TileForm
  | .ctNop t e w => some ⟨t, e, 0x01, w, Machine.ctNopOk e w⟩
  | .ctLwait t e w => some ⟨t, e, 0x02, w, Machine.ctLwaitOk e w⟩
  | .ctHalt t e w => some ⟨t, e, 0x03, w, Machine.ctHaltOk e w⟩
  | .ctAmov t e w => some ⟨t, e, 0x04, w, Machine.ctAmovOk e w⟩
  | .ctAadd t e w => some ⟨t, e, 0x05, w, Machine.ctAaddOk e w⟩
  | .ctAalu t e w => some ⟨t, e, 0x06, w, Machine.ctAaluOk e w⟩
  | .ctSmov t e w => some ⟨t, e, 0x07, w, Machine.ctSmovOk e w⟩
  | .ctSalu t e w => some ⟨t, e, 0x08, w, Machine.ctSaluOk e w⟩
  | .ctXmov t e w => some ⟨t, e, 0x09, w, Machine.ctXmovOk e w⟩
  | .ctSld t e w => some ⟨t, e, 0x0A, w, Machine.ctSldOk e w⟩
  | .ctSst t e w => some ⟨t, e, 0x0B, w, Machine.ctSstOk e w⟩
  | .ctPoll t e w => some ⟨t, e, 0x0C, w, Machine.ctPollOk e w⟩
  | .ctLoop t e w => some ⟨t, e, 0x10, w, Machine.ctLoopOk e w⟩
  | .ctJmp t e w => some ⟨t, e, 0x11, w, Machine.ctJmpOk e w⟩
  | .ctFbr t e w => some ⟨t, e, 0x12, w, Machine.ctFbrOk e w⟩
  | .ctBbr t e w => some ⟨t, e, 0x13, w, Machine.ctBbrOk e w⟩
  | .ctFeset t e w => some ⟨t, e, 0x18, w, Machine.ctFesetOk e w⟩
  | .ctBar t e w => some ⟨t, e, 0x19, w, Machine.ctBarOk e w⟩
  | .ctWatch t e w => some ⟨t, e, 0x1A, w, Machine.ctWatchOk e w⟩
  | .mxLdw t w => some ⟨t, .mx, 0x40, w, Machine.mxLdwOk w⟩
  | .mxMma t w => some ⟨t, .mx, 0x41, w, Machine.mxMmaOk w⟩
  | .vxAlu t w => some ⟨t, .vx, 0x80, w, Machine.vxAluOk w⟩
  | .vxCvt t w => some ⟨t, .vx, 0x81, w, Machine.vxCvtOk w⟩
  | .vxTr t w => some ⟨t, .vx, 0x82, w, Machine.vxTrOk w⟩
  | .vxRed t w => some ⟨t, .vx, 0x83, w, Machine.vxRedOk w⟩
  | .vxRng t w => some ⟨t, .vx, 0x84, w, Machine.vxRngOk w⟩
  | .vxReds t w => some ⟨t, .vx, 0x85, w, Machine.vxRedsOk w⟩
  | .vxEracc t w => some ⟨t, .vx, 0x86, w, Machine.vxEraccOk w⟩
  | .vxEradd t w => some ⟨t, .vx, 0x87, w, Machine.vxEraddOk w⟩
  | .vxErcvt t w => some ⟨t, .vx, 0x88, w, Machine.vxErcvtOk w⟩
  | .vxDclose t w => some ⟨t, .vx, 0x89, w, Machine.vxDcloseOk w⟩
  | .mvCpy t w => some ⟨t, .mv, 0xC0, w, Machine.mvCpyOk w⟩
  | .mvFill t w => some ⟨t, .mv, 0xC1, w, Machine.mvFillOk w⟩
  | .mvSend t w => some ⟨t, .mv, 0xC2, w, Machine.mvSendOk w⟩
  | .mvSld t w => some ⟨t, .mv, 0xC3, w, Machine.mvSldOk w⟩
  | .mvSst t w => some ⟨t, .mv, 0xC4, w, Machine.mvSstOk w⟩
  | .mvFsend t w => some ⟨t, .mv, 0xC5, w, Machine.mvFsendOk w⟩
  | .mvFrecv t w => some ⟨t, .mv, 0xC6, w, Machine.mvFrecvOk w⟩
  | .mvEld t w => some ⟨t, .mv, 0xC8, w, Machine.mvEldOk w⟩
  | .mvPgath t w => some ⟨t, .mv, 0xC9, w, Machine.mvPgathOk w⟩
  | .mvPst t w => some ⟨t, .mv, 0xCA, w, Machine.mvPstOk w⟩
  | .mvStrf t w => some ⟨t, .mv, 0xCB, w, Machine.mvStrfOk w⟩
  | _ => none

end Sys2Proof
end

