-- ==== Sys2Proof/Laws/Tile.lean ====
section
/-! SUPPORT. What one tile instruction does at its check point, said once for every opcode. -/

namespace Sys2Proof.Machine
open Sys2Proof

/-- A check point that passes, of an instruction that reads nothing at it, puts the instruction in flight. -/
theorem State.runInstr_takes {s : State} {t : Nat} {e : Eng} {op : Nat} {w : IWord} {ok : Bool} {plan : Ctx → Plan} {fr : Front}
    (hok : ok = true) (h : s.passes t e op w fr (plan (s.ctxAt t e op w fr)).tests)
    (h1 : (plan (s.ctxAt t e op w fr)).pre = none) (h2 : (plan (s.ctxAt t e op w fr)).fault = none)
    (h3 : (plan (s.ctxAt t e op w fr)).late = none) :
    s.runInstr t e op w ok plan = s.takes t e fr (s.flightAt t e op w fr) (plan (s.ctxAt t e op w fr)).lwait
      (plan (s.ctxAt t e op w fr)).flow := by
  obtain ⟨⟨a1, a2, a3⟩, a4⟩ := h
  have hp : ((s.tile t).parityFails.any fun f => f.queue && f.source.toNat = e.num && f.pc.toNat = fr.pc) = false := by
    rw [List.any_eq_false]; intro f hf
    have := a3 f hf
    simp only [Bool.and_eq_true, decide_eq_true_eq, not_and]
    intro ⟨x, y⟩; exact this x y
  have hf : (List.filter (s.tile t).testFails (plan (s.ctxAt t e op w fr)).tests) = [] := by
    rw [List.filter_eq_nil_iff]; intro x hx
    simp [Tile.testFails, a4 x hx]
  simp only [State.ctxAt] at h1 h2 h3 hf ⊢
  simp only [State.runInstr, a1, a2, State.check, hp, hok, h1, State.checkPlan, h2, h3, hf]
  rfl

/-- The same where the instruction reads a word of its tile at its check point (R147). -/
theorem State.runInstr_takes_pre {s : State} {t : Nat} {e : Eng} {op : Nat} {w : IWord} {ok : Bool} {plan : Ctx → Plan} {fr : Front}
    {k : Nat} {pl : Plan} (hpl : plan { s := s, t := t, e := e, f := s.preRead t (s.flightAt t e op w fr) k } = pl)
    (hok : ok = true) (h : s.passes t e op w fr pl.tests) (h1 : (plan (s.ctxAt t e op w fr)).pre = some k)
    (hr : (s.tile t).unreadable [k] = []) (h2 : pl.fault = none) (h3 : pl.late = none) :
    s.runInstr t e op w ok plan = s.takes t e fr (s.preRead t (s.flightAt t e op w fr) k) pl.lwait pl.flow := by
  obtain ⟨⟨a1, a2, a3⟩, a4⟩ := h
  have hp : ((s.tile t).parityFails.any fun f => f.queue && f.source.toNat = e.num && f.pc.toNat = fr.pc) = false := by
    rw [List.any_eq_false]; intro f hf
    have := a3 f hf
    simp only [Bool.and_eq_true, decide_eq_true_eq, not_and]
    intro ⟨x, y⟩; exact this x y
  have hf : (List.filter (s.tile t).testFails pl.tests) = [] := by
    rw [List.filter_eq_nil_iff]; intro x hx
    simp [Tile.testFails, a4 x hx]
  simp only [State.ctxAt] at h1
  simp only [State.runInstr, a1, a2, State.check, hp, hok, h1, hr, hpl, State.checkPlan, h2, h3, hf]
  rfl

/-- A check point that finds a fault of its own raises it, and nothing issues (R89, R120, R130). -/
theorem State.runInstr_faults {s : State} {t : Nat} {e : Eng} {op : Nat} {w : IWord} {ok : Bool} {plan : Ctx → Plan} {fr : Front}
    {r : FaultRec × Option FaultRec} (hok : ok = true) (h : s.atCheck t e op w fr) (h1 : (plan (s.ctxAt t e op w fr)).pre = none)
    (h2 : (plan (s.ctxAt t e op w fr)).fault = some r) : s.runInstr t e op w ok plan = s.faultHold r.1 r.2 := by
  obtain ⟨a1, a2, a3⟩ := h
  have hp : ((s.tile t).parityFails.any fun f => f.queue && f.source.toNat = e.num && f.pc.toNat = fr.pc) = false := by
    rw [List.any_eq_false]; intro f hf
    have := a3 f hf
    simp only [Bool.and_eq_true, decide_eq_true_eq, not_and]
    intro ⟨x, y⟩; exact this x y
  simp only [State.ctxAt] at h1 h2
  simp only [State.runInstr, a1, a2, State.check, hp, hok, h1, State.checkPlan, h2]
  rfl

/-- A check point that is late raises the cause and tests again (R34, R94, R514). -/
theorem State.runInstr_late {s : State} {t : Nat} {e : Eng} {op : Nat} {w : IWord} {ok : Bool} {plan : Ctx → Plan} {fr : Front}
    {code : BitVec 4} (hok : ok = true) (h : s.atCheck t e op w fr) (h1 : (plan (s.ctxAt t e op w fr)).pre = none)
    (h2 : (plan (s.ctxAt t e op w fr)).fault = none) (h3 : (plan (s.ctxAt t e op w fr)).late = some code) :
    s.runInstr t e op w ok plan = s.lateUse t e code
      (if code = 0x1#4 then ((plan (s.ctxAt t e op w fr)).tests.filter (s.tile t).testFails).map (·.1) else [])
      (BitVec.ofNat 32 fr.pc) := by
  obtain ⟨a1, a2, a3⟩ := h
  have hp : ((s.tile t).parityFails.any fun f => f.queue && f.source.toNat = e.num && f.pc.toNat = fr.pc) = false := by
    rw [List.any_eq_false]; intro f hf
    have := a3 f hf
    simp only [Bool.and_eq_true, decide_eq_true_eq, not_and]
    intro ⟨x, y⟩; exact this x y
  simp only [State.ctxAt] at h1 h2 h3 ⊢
  simp only [State.runInstr, a1, a2, State.check, hp, hok, h1, State.checkPlan, h2, h3]
  rfl

/-- Writing back what stands. -/
theorem vset_vget {α : Type} {n : Nat} (v : Vector α n) (i : Nat) (d : α) : vset v i (vget v i d) = v := by
  ext j hj
  simp only [vset, vget, Vector.getElem_setIfInBounds]
  split
  · next h => subst h; simp [hj]
  · rfl

/-- A tile changed by nothing. -/
theorem State.modTile_id (s : State) (t : Nat) (f : Tile → Tile) (h : f (s.tile t) = s.tile t) : s.modTile t f = s := by
  simp only [State.modTile, h]
  show { s with tiles := vset s.tiles t (vget s.tiles t Tile.reset) } = s
  rw [vset_vget]

/-- Two changes that agree on the tile they change. -/
theorem State.modTile_congr (s : State) (t : Nat) (f h : Tile → Tile) (hh : f (s.tile t) = h (s.tile t)) :
    s.modTile t f = s.modTile t h := by simp only [State.modTile, hh]

/-- A fault raised waits for the next clk: nothing else of the chip changes (R494). -/
theorem State.logFault_raised (s : State) (r : FaultRec) (c : Option FaultRec) :
    s.logFault r c = { s with top := { s.top with raised := s.top.raised ++ [({ r with cont := c.isSome }, c)] } } := rfl

/-- A stream that runs nothing changes nothing: no check point has come (R32, R67). -/
theorem State.runInstr_waits {s : State} {t : Nat} {e : Eng} {op : Nat} {w : IWord} {ok : Bool} {plan : Ctx → Plan}
    (h : s.frontOf t e (w.bits op) w.wait.toNat = none) (h' : s.emptyFront t e w.wait.toNat = none) :
    s.runInstr t e op w ok plan = s := by
  simp only [State.runInstr, h, h']
  split <;> rfl

/-- The tests that a source mode asks, said once for every mode (R92). -/
theorem testsOf_srcTest (fe : Nat) (ws : List Nat) :
    testsOf (srcTest fe) ws = if fe = 1 ∨ fe = 2 then ws.map fun k => (k, true) else [] := by
  by_cases h1 : fe = 1 <;> by_cases h2 : fe = 2 <;> simp [testsOf, srcTest, h1, h2]

/-- The tests that a destination mode asks, said once for every mode (R92). -/
theorem testsOf_dstTest (fe : Nat) (ws : List Nat) :
    testsOf (dstTest fe) ws = if fe = 1 then ws.map fun k => (k, false) else if fe = 3 then ws.map fun k => (k, true) else [] := by
  unfold dstTest; split <;> simp_all [testsOf]

/-- The change that a destination mode makes, said once for every mode (R92). -/
theorem dstFull_eq (fe : Nat) : dstFull fe = if fe = 0 ∨ fe = 1 then some true else none := by
  by_cases h1 : fe = 0 <;> by_cases h2 : fe = 1 <;> simp [dstFull, h1, h2]

end Sys2Proof.Machine
end

