-- ==== Sys2Proof/Machine/Codeword.lean ====
section
/-! DEFINITION. What goes out on the lanes of a port: the control field, the message bits of a codeword, the packet stream, and
the coding of IEEE 802.3 clause 119 that the spec names (R341 to R345). Commands carry what a receiver decoded; these functions
say which bits it was decoded from. -/

namespace Sys2Proof.Machine
open Sys2Proof

/-! ### The control field (R344) -/

/-- TYPE of a link symbol. -/
def LinkSym.type : LinkSym → Nat
  | .idle => 0
  | .ack _ => 1
  | .nak _ => 2
  | .flow _ => 3
  | .flowRefresh _ => 3
  | .replay _ => 4
  | .lane _ _ => 5
  | .cal _ => 6

/-- VALUE of a link symbol. -/
def LinkSym.value : LinkSym → BitVec 16
  | .idle => 0
  | .ack v => v
  | .nak v => v
  | .flow v => v
  | .flowRefresh v => v
  | .replay v => v
  | .lane op l => BitVec.ofNat 16 (op.toNat * 4096 + l.toNat * 256)
  | .cal v => v

/-- The 20 bits of the control field: INLINE, TYPE, VALUE. -/
def LinkSym.field (x : LinkSym) (inline : Bool) : BitVec 20 :=
  BitVec.ofNat 20 (bn inline * 2 ^ 19 + x.type * 2 ^ 16 + x.value.toNat)

/-- The symbol that a control field carries; none for the reserved TYPE 0x7 and a LANE with a nonzero low byte or a reserved
OP. -/
def LinkSym.ofField (f : BitVec 20) : Option LinkSym :=
  let v : BitVec 16 := f.setWidth 16
  match Machine.field f 18 16 with
  | 0 => some .idle
  | 1 => some (.ack v)
  | 2 => some (.nak v)
  | 3 => some (.flow v)
  | 4 => some (.replay v)
  | 5 =>
    let op := Machine.field v 15 12
    if 1 ≤ op && op ≤ 4 && Machine.field v 7 0 = 0 then some (.lane (BitVec.ofNat 4 op) (BitVec.ofNat 4 (Machine.field v 11 8)))
    else none
  | 6 => some (.cal v)
  | _ => none

/-! ### The packet stream and the message (R342, R343, R345) -/

/-- A packet as it stands in the packet stream: header, payload and trailer (R318, R343). -/
def Packet.stream (p : Packet) : List (BitVec 8) :=
  p.header ++ (p.payload.map bytesOfLine).flatten ++ bytesOf 4 p.trailer.toNat

/-- Fill words between packets, `n` bytes of them (R343). -/
def fillBytes (n : Nat) : List (BitVec 8) := List.replicate n 0xFF

/-- A codeword body of 640 bytes: the inline units first, then the packet stream, and fill words to the end (R342, R343,
R345). -/
def codewordBody (units : List (BitVec 64)) (stream : List (BitVec 8)) : List (BitVec 8) :=
  let b := (units.flatMap fun u => bytesOf 8 u.toNat) ++ stream
  (b ++ fillBytes (640 - b.length)).take 640

/-- The inline units of the codeword last sent. -/
def Link.unitsOut (l : Link) : List (BitVec 64) := l.lastInline.flatMap (·.units)

/-- The control field of the codeword last sent (R344). -/
def Link.fieldOut (l : Link) : BitVec 20 := l.lastCtl.field (!l.unitsOut.isEmpty)

/-- The 5,140 message bits of the codeword last sent, from the bytes of the packet stream that it takes (R342). -/
def Link.message (l : Link) (stream : List (BitVec 8)) : List Bool :=
  (List.range 20).map (fun i => l.fieldOut.getLsbD i) ++ (codewordBody l.unitsOut stream).flatMap bitsLsb

/-! ### Scrambler, RS(544,514) and lanes (R341; PRESUMED, notes/assumptions/79.md) -/

/-- The scrambler 1 + x^39 + x^58 over message bits: each output bit is the input bit with the outputs 39 and 58 bits before
it. The register holds the last 58 outputs, the newest in bit 0. -/
def scramble (reg : BitVec 58) : List Bool → List Bool
  | [] => []
  | b :: r =>
    let o := (b != reg.getLsbD 38) != reg.getLsbD 57
    o :: scramble ((reg <<< 1) ||| (if o then 1 else 0)) r

/-- The descrambler: the register holds the last 58 received bits. -/
def descramble (reg : BitVec 58) : List Bool → List Bool
  | [] => []
  | b :: r => ((b != reg.getLsbD 38) != reg.getLsbD 57) :: descramble ((reg <<< 1) ||| (if b then 1 else 0)) r

/-- Twice an element of GF(2^10), whose polynomial is x^10 + x^3 + 1. -/
def gfDouble (a : BitVec 10) : BitVec 10 := if a.getLsbD 9 then (a <<< 1) ^^^ 9#10 else a <<< 1

/-- The product of two elements of GF(2^10). -/
def gfMul (a b : BitVec 10) : BitVec 10 :=
  (List.range 10).foldl (fun acc i => (gfDouble acc) ^^^ (if b.getLsbD (9 - i) then a else 0)) 0

/-- The generator polynomial of RS(544,514) below its leading coefficient 1: its coefficients of x^0 to x^29. -/
def rsGenerator : List (BitVec 10) :=
  [523, 834, 128, 158, 185, 127, 392, 193, 610, 788, 361, 883, 503, 942, 385]
    ++ [495, 720, 94, 132, 593, 249, 282, 565, 108, 1, 552, 230, 187, 552, 575]

/-- One message symbol divided into the remainder, whose coefficient of x^29 stands first. -/
def rsStep (rem : List (BitVec 10)) (m : BitVec 10) : List (BitVec 10) :=
  let f := m ^^^ rem.headD 0
  List.zipWith (fun r g => r ^^^ gfMul f g) (rem.drop 1 ++ [0]) rsGenerator.reverse

/-- The 30 parity symbols of 514 message symbols, that of x^29 first. -/
def rsParity (m : List (BitVec 10)) : List (BitVec 10) := m.foldl rsStep (List.replicate 30 0)

/-- Bits cut into 10-bit symbols, the first bit least significant. -/
def symbolsOf (bits : List Bool) : List (BitVec 10) :=
  (chunksOf 10 (bits.length / 10 + 1) bits).map fun c => BitVec.ofNat 10 (c.foldr (fun b a => bn b + 2 * a) 0)

/-- The 544 symbols of a codeword from its scrambled message bits. -/
def rsEncode (bits : List Bool) : List (BitVec 10) := let m := symbolsOf bits; m ++ rsParity m

/-- Two consecutive codewords interleaved symbol by symbol. -/
def interleave : List (BitVec 10) → List (BitVec 10) → List (BitVec 10)
  | a :: as, b :: bs => a :: b :: interleave as bs
  | _, _ => []

/-- What data lane `k` of eight carries of a pair of codewords: the interleaved symbols in turn. -/
def laneSymbols (k : Nat) (a b : List (BitVec 10)) : List (BitVec 10) :=
  ((interleave a b).zipIdx.filter fun x => x.2 % 8 = k).map (·.1)

end Sys2Proof.Machine
end

