-- ==== Sys2Proof/Certificates/Slice0/Obligations.lean ====
section
/-! DEFINITION. The statements about the machine, from the rules of the spec. -/

open Sys2Proof Sys2Proof.Machine

/-- For every command c, every state s and every queue, a step of s with c at the front of its queue is exec of c on s
with the queue's rest; with an empty queue the step answers the tick of s. The queue and the tick are the model's own
form (notes/assumptions/1.md). (R480; 95_what_each_step_holds.md) -/
def Obligations.StepRunsTheFrontCommand : Prop :=
  (∀ (c : Instr) (rest : List Instr) (s : State),
    step { s with pending := c :: rest } = exec c { s with pending := rest }) ∧
  (∀ s : State, s.pending = [] → step s = .next s.tick)

/-- For every command and every state, if exec answers a next state, then the grade and serial fuses, the chip secret,
the identity record and the queue of commands are as before; and a step that answers a next state keeps the fuses, the
secret and the identity record. (00_scope.md; 15_partitions_and_security.md; 19_electrical_and_package.md) -/
def Obligations.NoCommandChangesTheOneTimeMemory : Prop :=
  (∀ (c : Instr) (s t : State), exec c s = .next t → t.fixed = s.fixed) ∧
  (∀ s t : State, step s = .next t →
    t.fuses = s.fuses ∧ t.sec.secret = s.sec.secret ∧ t.sec.identityRec = s.sec.identityRec)

/-- From every state whose fuses name a product of the spec (160 tiles and none disabled, or 144 tiles and 16
disabled), every step that answers a next state answers one whose fuses do. (00_scope.md; 01_architecture.md) -/
def Obligations.EveryStepKeepsTheGrade : Prop :=
  ∀ s t : State, s.fuses.legal → step s = .next t → t.fuses.legal

/-- State.reset has fuses that name a product (the model's choice, notes/assumptions/4.md), the memories of every tile
and of every pseudo-channel in canonical form, and an empty queue. (00_scope.md; 03_tile_and_mesh.md;
07_stacked_memory.md) -/
def Obligations.ResetMeetsTheInvariants : Prop :=
  State.reset.fuses.legal ∧ State.reset.tileMemOk ∧ State.reset.stackMemOk ∧ State.reset.pending = []

/-- At its check point, 24 pc before its issue pc p, each of these instructions with no reserved field goes in flight
whatever else stands in the state, the stream goes on to the next instruction, and nothing else of the chip changes
but the cause that a late check raised. In flight, AMOV, AADD, AALU (A registers), SMOV and SALU (S registers) and
XMOV (either way) write their result, of the registers as they stand at p, so that it is there at p + 1; a write of A0
is discarded; CT.LWAIT adds its COUNT to the next instruction's wait; CT.NOP does nothing. What an instruction in
flight does at its pcs is the statement InstructionsDoWhatTheyPlan. (04_instruction_set_baseline.md;
03_tile_and_mesh.md) -/
def Obligations.CtRegisterInstructionsComplete : Prop :=
  ∀ (t : TileId) (e : Eng) (w : IWord) (fr : Front) (s : State),
    let go (op lwait : Nat) : State := s.takes t e fr (s.flightAt t e op w fr) lwait .seq
    (ctNopOk e w → s.atCheck t e 0x01 w fr → exec (.ctNop t e w) s = .next (go 0x01 0)) ∧
    (ctLwaitOk e w → s.atCheck t e 0x02 w fr → exec (.ctLwait t e w) s = .next (go 0x02 w.z)) ∧
    (ctAmovOk e w → s.atCheck t e 0x04 w fr → exec (.ctAmov t e w) s = .next (go 0x04 0)) ∧
    (ctAaddOk e w → s.atCheck t e 0x05 w fr → exec (.ctAadd t e w) s = .next (go 0x05 0)) ∧
    (ctAaluOk e w → s.atCheck t e 0x06 w fr → exec (.ctAalu t e w) s = .next (go 0x06 0)) ∧
    (ctSmovOk e w → s.atCheck t e 0x07 w fr → exec (.ctSmov t e w) s = .next (go 0x07 0)) ∧
    (ctSaluOk e w → s.atCheck t e 0x08 w fr → exec (.ctSalu t e w) s = .next (go 0x08 0)) ∧
    (ctXmovOk e w → s.atCheck t e 0x09 w fr → exec (.ctXmov t e w) s = .next (go 0x09 0)) ∧
    ∀ c : Ctx,
      let reg (scalar : Bool) (i : Nat) (v : BitVec 32) : Plan := { Plan.nop c.p with
        regs := if !scalar && i = 0 then [] else [{ due := c.p + 1, scalar := scalar, idx := i, val := fun _ => v }]
        done := c.p + 1 }
      (c.runs 0x01 w → c.plan = Plan.nop c.p) ∧
      (c.runs 0x02 w → c.plan = { Plan.nop c.p with lwait := w.z }) ∧
      (c.runs 0x04 w → c.plan = reg false w.rd (BitVec.ofNat 32 w.z)) ∧
      (c.runs 0x05 w → c.plan = reg false w.rd (c.aAt w.ra + BitVec.ofNat 32 w.z)) ∧
      (c.runs 0x06 w → c.plan = reg false w.rd (aluInt w.md (c.aAt w.ra) (c.aAt w.rb))) ∧
      (c.runs 0x07 w → c.plan = reg true w.rd (BitVec.ofNat 32 w.z)) ∧
      (c.runs 0x08 w → c.plan = reg true w.rd (aluAll w.md (c.sAt w.ra) (c.sAt w.rb))) ∧
      (c.runs 0x09 w → c.plan = if w.md = 0 then reg true w.rd (c.aAt w.ra) else reg false w.rd (c.sAt w.ra))

/-- At its check point each of these instructions with no reserved field goes in flight, and nothing of the chip
changes but the tile's own stream, as the rule of its flow says, and the cause that a late check raised: after HALT
and FBR no check point follows, LOOP opens a frame that repeats the next LEN instructions ITER times more, JMP goes on
at its target, and after BBR both arms have a check point until it has issued. In flight it plans no access. At its
issue HALT ends the stream; FBR goes on at T1 where any bit of the S register is set and at T0 where none is, its
queue empty; BBR keeps the check points and the instructions of the arm of the next LT instructions where any bit is
set, and of the LF instructions after them where none is, and drops the other arm from the queue (outside a loop) and
its causes. That a dropped arm's causes are cleared is how the model reads R514 (notes/assumptions/60.md).
(04_instruction_set_baseline.md; 05_instruction_set_k2_differences.md; 03_tile_and_mesh.md) -/
def Obligations.CtFlowInstructionsComplete : Prop :=
  ∀ (t : TileId) (e : Eng) (w : IWord) (fr : Front) (s : State),
    let lt := field w.ops 47 40
    let lf := field w.ops 39 32
    let p := fr.last + fr.extra + w.wait.toNat
    let ln := loopNext fr.pc fr.seq fr.loops
    let goes (op : Nat) (next : List Front) : State := (s.modTile t fun y => y.setStream e { y.stream e with
      flights := (y.stream e).flights ++ [s.flightAt t e op w fr]
      fronts := (y.stream e).fronts.flatMap fun z => if z = fr then next else [z] }).clearCause (.lateUse t e.num fr.pc)
    let stops : List Front := [{ fr with pc := ln.1, seq := ln.2.1, last := p, extra := 0, loops := ln.2.2, stop := true }]
    (ctHaltOk e w → s.atCheck t e 0x03 w fr → exec (.ctHalt t e w) s = .next (goes 0x03 stops)) ∧
    (ctLoopOk e w → s.atCheck t e 0x10 w fr → exec (.ctLoop t e w) s = .next (goes 0x10 [{ fr with
      pc := fr.pc + 1
      seq := fr.seq + 1
      last := p
      extra := 0
      loops := { start := fr.seq + 1, startPc := fr.pc + 1, last := fr.seq + (w.y / 2 ^ 24 + 1), left := w.x } :: fr.loops }])) ∧
    (ctJmpOk e w → s.atCheck t e 0x11 w fr → exec (.ctJmp t e w) s = .next (goes 0x11 [{ fr with
      pc := w.x
      seq := fr.seq + 1
      last := p
      extra := 0 }])) ∧
    (ctFbrOk e w → s.atCheck t e 0x12 w fr → exec (.ctFbr t e w) s = .next (goes 0x12 stops)) ∧
    (ctBbrOk e w → s.atCheck t e 0x13 w fr → exec (.ctBbr t e w) s = .next (goes 0x13 [
      { fr with
        pc := fr.pc + 1
        seq := fr.seq + 1
        last := p
        extra := 0
        path := fr.path ++ [(p, true)]
        join := some (fr.seq + lt, fr.seq + lt + lf + 1, fr.pc + lt + lf + 1) },
      { fr with
        pc := fr.pc + lt + 1
        seq := fr.seq + lt + 1
        last := p
        extra := 0
        path := fr.path ++ [(p, false)]
        join := none }])) ∧
    (∀ c : Ctx,
      let steers (f : Flow) : Plan := { Plan.nop c.p with flow := f }
      (c.runs 0x03 w → c.plan = steers .halt) ∧
      (c.runs 0x10 w → c.plan = steers (.loop w.x (w.y / 2 ^ 24 + 1))) ∧
      (c.runs 0x11 w → c.plan = steers (.jump w.x)) ∧
      (c.runs 0x12 w → c.plan = steers (.frame (if c.sAt w.z ≠ 0 then w.x else w.y))) ∧
      (c.runs 0x13 w → c.plan = steers (.branch lt lf (decide (c.sAt (w.z % 8) ≠ 0))))) ∧
    (∀ (c : Ctx) (beats : List (Nat × Nat)), c.f.issued = true → c.f.p = s.plan.geyser →
      let job (f : Flow) : Job := { c := c, pl := { Plan.nop c.p with flow := f }, beats := beats }
      s.follow (job .halt) = s.modStream c.t c.e (fun x => { x with halted := true }) ∧
      (∀ target, s.follow (job (.frame target)) = s.modStream c.t c.e fun x => { x with
        fronts := [{ Front.reset with pc := target, seq := x.fetchSeq, last := c.f.p }]
        queue := []
        skips := []
        fetchPc := target
        fetchStop := false }) ∧
      (∀ (a b : Nat) (takesT : Bool), c.f.drop ≠ [] →
        let s1 := ((((s.tile c.t).stream c.e).fronts.filter fun z => z.path.contains (c.f.p, !takesT)).foldl
          (fun s z => s.clearCause (.lateUse c.t c.e.num z.pc)) s)
        s.follow (job (.branch a b takesT)) = s1.modStream c.t c.e fun y =>
          ({ y with
            fronts := (y.fronts.filter fun z => !z.path.contains (c.f.p, !takesT)).map fun z =>
              { z with path := z.path.filter fun x => x.1 ≠ c.f.p }
            flights := (y.flights.filter fun z => !z.path.contains (c.f.p, !takesT)).map fun z =>
              { z with path := z.path.filter fun x => x.1 ≠ c.f.p } } : Stream).dropPlaces
            (if takesT then c.f.seq + a + 1 else c.f.seq + 1) (if takesT then c.f.seq + a + b else c.f.seq + a)))

/-- At its check point, with every tested full/empty bit as the operand's mode asks, each of these instructions with
no reserved field goes in flight, and nothing else of the chip changes but the stream and the cause that a late check
raised; a word of CT.SLD that is not as its mode asks is a late use, which raises DATA_LATE. In flight CT.SLD reads
its word at p, which mode RFE empties then, and its lane comes to S[REG] at p + 6; CT.SST reads at p and writes the
word with the lane replaced at p + 10, with the mode's full/empty change; CT.POLL reads its word at p and S[REG] at p
+ 6 is the bit that the word had in that pc; CT.FESET reads word i at p + i, sets it full or empty at p + 10 + i and
writes no data. (04_instruction_set_baseline.md; 03_tile_and_mesh.md) -/
def Obligations.CtWordInstructionsComplete : Prop :=
  ∀ (t : TileId) (e : Eng) (w : IWord) (fr : Front) (s : State),
    let word (c : Ctx) (sp : Nat) : Nat := ((c.areg (spAreg sp)).toNat % 65536 + spOff sp) % 65536
    let at_ (op : Nat) : Ctx := s.ctxAt t e op w fr
    let fe := spFe w.s1
    let sldTest (c : Ctx) : List (Nat × Bool) := if fe = 1 ∨ fe = 2 then [(word c w.s1, true)] else []
    let sstTest (c : Ctx) : List (Nat × Bool) :=
      if fe = 1 then [(word c w.s1, false)] else if fe = 3 then [(word c w.s1, true)] else []
    (ctSldOk e w → s.passes t e 0x0A w fr (sldTest (at_ 0x0A)) → exec (.ctSld t e w) s = .next (s.inFlight t e 0x0A w fr)) ∧
    (ctSldOk e w → s.atCheck t e 0x0A w fr → (fe = 1 ∨ fe = 2) → nsHas (word (at_ 0x0A) w.s1) (s.tile t).full = false →
      exec (.ctSld t e w) s = .next (s.lateUse t e 0x1 [word (at_ 0x0A) w.s1] (BitVec.ofNat 32 fr.pc))) ∧
    (ctSstOk e w → s.passes t e 0x0B w fr (sstTest (at_ 0x0B)) → exec (.ctSst t e w) s = .next (s.inFlight t e 0x0B w fr)) ∧
    (ctPollOk e w → s.atCheck t e 0x0C w fr → exec (.ctPoll t e w) s = .next (s.inFlight t e 0x0C w fr)) ∧
    (ctFesetOk e w → s.atCheck t e 0x18 w fr → exec (.ctFeset t e w) s = .next (s.inFlight t e 0x18 w fr)) ∧
    ∀ c : Ctx,
      let k := word c w.s1
      let read (q x : Nat) : Line := ((c.f.gotAt q x).bind (·.data)).getD 0
      (c.runs 0x0A w → c.plan = { Plan.nop c.p with
        tests := sldTest c
        reads := [{ pc := c.p, word := k, empties := decide (fe = 2) }]
        regs := [{ due := c.p + 6, scalar := true, idx := w.rd, val := fun _ => lane 32 (read c.p k) (field w.ops 3 0), needs := [(c.p, k)] }]
        done := c.p + 6 }) ∧
      (c.runs 0x0B w → c.plan = { Plan.nop c.p with
        tests := sstTest c
        reads := [{ pc := c.p, word := k, empties := false }]
        writes := [{
          due := c.p + 10
          word := k
          lat := 10
          data := some fun _ => lineOfLanes 32 ((lanesOf 32 (read c.p k)).set (field w.ops 3 0) (c.sAt w.rd))
          full := if fe = 0 ∨ fe = 1 then some true else none
          needs := [(c.p, k)] }]
        done := c.p + 10 }) ∧
      (c.runs 0x0C w → c.plan = { Plan.nop c.p with
        reads := [{ pc := c.p, word := k, empties := false }]
        regs := [{
          due := c.p + 6
          scalar := true
          idx := w.rd
          val := fun _ => if ((c.f.gotAt c.p k).map (·.full)).getD false then 1 else 0
          needs := [(c.p, k)] }]
        done := c.p + 6 }) ∧
      (c.runs 0x18 w → c.plan = { Plan.nop c.p with
        reads := ((List.range w.nWord).map fun i => (i, (word c w.d + i) % 65536)).map fun x =>
          { pc := c.p + x.1, word := x.2, empties := false }
        writes := ((List.range w.nWord).map fun i => (i, (word c w.d + i) % 65536)).map fun x => {
          due := c.p + 10 + x.1
          word := x.2
          lat := 10 + x.1
          data := none
          full := some (decide (w.md = 1))
          needs := [(c.p + x.1, x.2)] }
        done := c.p + 10 + (w.nWord - 1) })

/-- At its check point CT.BAR and CT.WATCH with no reserved field go in flight. In flight CT.BAR arrives at barrier z
of its partition in its issue pc p, and CT.WATCH registers in pc p + 8. An arrival, for a declared barrier of the
partition that names the tile, where the tile has not yet arrived and another member tile has not arrived either, and
the completion words are sync objects already, adds the tile to the arrived ones of its round; the first arrival of a
round opens it, sets its expiry at the start of the frame TIMEOUT frames later, and is named as the first arriver. A
registration, with fewer than 16 watches outstanding, none of its wake word, and both words sync objects already, adds
a watch registered in that pc that expires TIMEOUT frames later. Nothing else of the chip changes.
(04_instruction_set_baseline.md; 11_synchronisation.md; 03_tile_and_mesh.md) -/
def Obligations.CtSyncInstructionsComplete : Prop :=
  ∀ (t : TileId) (e : Eng) (w : IWord) (fr : Front) (s : State),
    (ctBarOk e w → s.atCheck t e 0x19 w fr → exec (.ctBar t e w) s = .next (s.inFlight t e 0x19 w fr)) ∧
    (ctWatchOk e w → s.atCheck t e 0x1A w fr → exec (.ctWatch t e w) s = .next (s.inFlight t e 0x1A w fr)) ∧
    (∀ c : Ctx,
      (c.runs 0x19 w → c.plan = { Plan.nop c.p with
        acts := [(c.p, fun s => s.arrive c.t c.e.num (BitVec.ofNat 32 c.pc) (w.z % 32))] }) ∧
      (c.runs 0x1A w → c.plan = { Plan.nop c.p with
        acts := [(c.p + 8, fun s =>
          s.registerWatch c.t c.e.num (BitVec.ofNat 32 c.pc) (c.first w.s1) (c.first w.d) (decide (w.md = 0)) w.cfg)]
        done := c.p + 8 })) ∧
    (∀ (b m : Nat) (pc : BitVec 32) (d : BarDecl),
      let p := (s.tile t).part.toNat
      let l := (s.tile t).logical.toNat
      p < 16 → b < 32 → s.barDecl p b = some d → d.scope ≠ 0 → l ∈ d.tiles → (d.scope = 2 → (s.treeIndex p d).isSome) →
      l ∉ (s.bar p b).arrived → m ∈ d.tiles → m ≠ l → m ∉ (s.bar p b).arrived →
      (∀ i ∈ d.tiles, ∀ pt, s.physTile p i = some pt → (alGet d.compWord (s.ts pt).objects).isSome) →
      s.arrive t e.num pc b = s.modBar p b fun y => { y with
        isOpen := true
        arrived := nsIns l y.arrived
        expireAt := if (s.bar p b).arrived.isEmpty then s.frameStart p s.plan.geyser d.timeout else y.expireAt
        firstTile := if y.firstTile = 0xFF then BitVec.ofNat 8 t else y.firstTile
        firstEngine := if y.firstTile = 0xFF then BitVec.ofNat 2 e.num else y.firstEngine
        firstPc := if y.firstTile = 0xFF then pc else y.firstPc }) ∧
    (∀ (watched wake timeout : Nat) (full : Bool) (pc : BitVec 32), (s.ts t).watches.length < 16 →
      (∀ v ∈ (s.ts t).watches, v.wake ≠ wake) → (alGet watched (s.ts t).objects).isSome → (alGet wake (s.ts t).objects).isSome →
      s.registerWatch t e.num pc watched wake full timeout = s.modTs t fun y => { y with
        watches := y.watches ++ [{ Watch.reset with
          watched := watched
          wake := wake
          wantFull := full
          regAt := s.plan.geyser
          expireAt := s.frameStart (s.tile t).part.toNat s.plan.geyser timeout
          engine := BitVec.ofNat 2 e.num
          pc := pc }] })

/-- For each of the tile instructions: where the tile is not bound, the stream has halted, or no check point of the
stream is due for this word or for an empty queue, nothing changes; where a check point is due and the queue holds no
instruction for it, F-0307 names the tile, the engine and the program counter, and the job stops in a fault hold;
where it holds this instruction with a reserved field, F-0309 does so, and nothing issues. (03_tile_and_mesh.md;
04_instruction_set_baseline.md; R67; R89) -/
def Obligations.TileInstructionsWaitAndFault : Prop :=
  ∀ (i : Instr) (f : TileForm) (s : State), i.tileForm = some f →
    let x := (s.tile f.tile).stream f.eng
    let record (code pc : Nat) := (s.fault code 1 pc (some (s.tile f.tile).part.toNat)).waits f.tile f.eng.num (BitVec.ofNat 32 pc)
    let due := s.frontOf f.tile f.eng (f.word.bits f.op) f.word.wait.toNat
    ((s.tile f.tile).bound = false → exec i s = .next s) ∧
    (x.halted = true → exec i s = .next s) ∧
    (due = none → s.emptyFront f.tile f.eng f.word.wait.toNat = none → exec i s = .next s) ∧
    (∀ fr : Front, s.streamLive f.tile x = true → due = none → s.emptyFront f.tile f.eng f.word.wait.toNat = some fr →
      exec i s = .next (s.faultHold (record 0x307 fr.pc))) ∧
    (∀ fr : Front, s.atCheck f.tile f.eng f.op f.word fr → f.ok = false → exec i s = .next (s.faultHold (record 0x309 fr.pc)))

/-- At its check point, with every word that its operand modes test as they ask, MX.LDW with no reserved field goes in
flight, and so does MX.MMA where in addition its weight slot is valid, is not being loaded, and holds a format of the
same set; nothing else of the chip changes but the stream and the cause that a late check raised. A slot not ready is
a late use, a format of another set raises F-0309. In flight MX.LDW reads eight element words a pc from p and its five
scale words at p, and its slot holds them from the pc 6 after the reads end, the loading resource and the slot held
meanwhile; MX.MMA reads row i at p + its row pc (its scale word with the first of 16 rows, its old result where ZERO
is 0) and writes the five result words of row i at p + 10 + the array pass + its row pc, and holds the row resource
and its slot while rows enter. What an instruction in flight does at its pcs is the statement
InstructionsDoWhatTheyPlan. (04_instruction_set_baseline.md; 05_instruction_set_k2_differences.md;
03_tile_and_mesh.md) -/
def Obligations.MatrixInstructionsComplete : Prop :=
  ∀ (t : TileId) (w : IWord) (fr : Front) (s : State),
    let f := mxFmtD w.md
    let m := field w.ops 23 16 + 1
    let slot := bit w.ops 15
    let word (k i : Nat) : Nat := (k + i) % 65536
    let src (fe : Nat) (ws : List Nat) : List (Nat × Bool) := if fe = 1 ∨ fe = 2 then ws.map fun k => (k, true) else []
    let dst (fe : Nat) (ws : List Nat) : List (Nat × Bool) :=
      if fe = 1 then ws.map fun k => (k, false) else if fe = 3 then ws.map fun k => (k, true) else []
    let read (fe : Nat) (l : List (Nat × Nat)) : List Read := l.map fun x => { pc := x.1, word := x.2, empties := decide (fe = 2) }
    let el (c : Ctx) : List (Nat × Nat) := (List.range f.wWords).map fun j => (c.p + j / 8, word (c.first w.s1) j)
    let sc (c : Ctx) : List (Nat × Nat) := if f.scaled then (List.range 5).map fun j => (c.p, word (c.first w.s2) j) else []
    let ldwTests (c : Ctx) : List (Nat × Bool) := src (spFe w.s1) ((el c).map (·.2)) ++ src (spFe w.s2) ((sc c).map (·.2))
    let rowPc (i : Nat) : Nat := if f.rowPc = 0 then i / 2 else f.rowPc * i
    let act (c : Ctx) (i : Nat) : List (Nat × Nat) :=
      (List.range f.rowWords).map fun k => (c.p + rowPc i, word (c.first w.s1) (i * f.rowWords + k))
    let scale (c : Ctx) (i : Nat) : List (Nat × Nat) :=
      if f.scaled then [(c.p + rowPc (i / 16 * 16), word (c.first w.s2) (i / 16))] else []
    let old (c : Ctx) (i : Nat) : List (Nat × Nat) :=
      if bit w.ops 14 then [] else (List.range 5).map fun k => (c.p + rowPc i, word (c.first w.d) (5 * i + k))
    let scales (c : Ctx) : List (Nat × Nat) := (List.range (ceilDiv m 16)).flatMap fun u => scale c (16 * u)
    let mmaTests (c : Ctx) : List (Nat × Bool) :=
      src (spFe w.s1) ((List.range m).flatMap fun i => (act c i).map (·.2)) ++ src (spFe w.s2) ((scales c).map (·.2))
        ++ dst (spFe w.d) ((List.range m).flatMap fun i => (List.range 5).map fun k => word (c.first w.d) (5 * i + k))
    let loading : Prop := ∃ y ∈ (s.tile t).mx.flights, y.op = 0x40 ∧ bit y.w.ops 15 = slot ∧
      s.plan.geyser < y.at_ (y.p + 6 + ceilDiv (mxFmtD y.w.md).wWords 8)
    let set (sl : WSlot) : Nat := (mxFmtD sl.fmt.toNat).set
    let at_ (op : Nat) : Ctx := s.ctxAt t .mx op w fr
    let sl := (s.tile t).wslot slot
    (mxLdwOk w → s.passes t .mx 0x40 w fr (ldwTests (at_ 0x40)) → exec (.mxLdw t w) s = .next (s.inFlight t .mx 0x40 w fr)) ∧
    (mxMmaOk w → sl.valid = true → ¬ loading → set sl = f.set → s.passes t .mx 0x41 w fr (mmaTests (at_ 0x41)) →
      exec (.mxMma t w) s = .next (s.inFlight t .mx 0x41 w fr)) ∧
    (mxMmaOk w → sl.valid = true → ¬ loading → set sl ≠ f.set → s.atCheck t .mx 0x41 w fr →
      exec (.mxMma t w) s = .next (s.faultHold ((s.fault 0x309 1 fr.pc (some (s.tile t).part.toNat)).waits t 0 (BitVec.ofNat 32 fr.pc)))) ∧
    (mxMmaOk w → sl.valid = false ∨ loading → s.atCheck t .mx 0x41 w fr →
      exec (.mxMma t w) s = .next (s.lateUse t .mx 0x1 (((mmaTests (at_ 0x41)).filter fun x => nsHas x.1 (s.tile t).full != x.2).map
        (·.1)) (BitVec.ofNat 32 fr.pc))) ∧
    ∀ c : Ctx,
      (c.runs 0x40 w → c.plan = { Plan.nop c.p with
        tests := ldwTests c
        reads := read (spFe w.s1) (el c) ++ read (spFe w.s2) (sc c)
        load := some {
          due := c.p + 6 + ceilDiv f.wWords 8
          slot := slot
          val := fun _ => {
            valid := true
            fmt := w.modf
            readyAt := c.p + 6 + ceilDiv f.wWords 8
            elems := (el c).map fun x => c.word x.2 x.1
            scales := (sc c).map fun x => c.word x.2 x.1 }
          needs := el c ++ sc c }
        wants := [1, 2 + bn slot]
        holds := [(1, ceilDiv f.wWords 8), (2 + bn slot, c.p + 6 + ceilDiv f.wWords 8 - c.p)]
        done := c.p + 6 + ceilDiv f.wWords 8 }) ∧
      (c.runs 0x41 w → c.plan = { Plan.nop c.p with
        fault := c.plan.fault
        late := c.plan.late
        tests := mmaTests c
        reads := read (spFe w.s1) ((List.range m).flatMap (act c)) ++ read (spFe w.s2) (scales c)
          ++ read 0 ((List.range m).flatMap (old c))
        writes := (List.range m).flatMap fun i => (List.range 5).map fun k => {
          due := c.p + (10 + f.pass) + rowPc i
          word := word (c.first w.d) (5 * i + k)
          lat := 10 + f.pass + rowPc i
          data := some fun _ => (mmaRow w c c.f.slot i).getD k 0
          full := if spFe w.d = 0 ∨ spFe w.d = 1 then some true else none
          needs := act c i ++ scale c i ++ old c i }
        wants := [0]
        holds := [(0, if f.rowPc = 0 then ceilDiv m 2 else f.rowPc * m), (2 + bn slot, if f.rowPc = 0 then ceilDiv m 2 else f.rowPc * m)]
        done := c.p + (10 + f.pass) + rowPc (m - 1) })

/-- At its check point, with every word that its operand modes test as they ask, each VX instruction with no reserved
field goes in flight, and nothing else of the chip changes but the stream and the cause that a late check raised. In
flight vector j is read at p + j (VX.ERACC and VX.ERADD: S1 at p + 2 j and D at p + 2 j + 1) and its result is written
16 pc later by VX.ALU, VX.CVT and VX.ERCVT, 30 pc later by VX.TR and VX.RNG, 24 pc later by VX.RED, and at p + 17 + 2
j by the ER sums; a narrow VX.CVT writes with the second vector of each pair and a scale word with the last vector it
covers; VX.REDS writes its S register at p + N + 19; VX.DCLOSE, at p, appends the open digest with the frame, the
layer number in S[SREG] and the logical tile to the digest log and starts the digest anew (where folds wait for a
replay it waits behind them). What an instruction in flight does at its pcs is the statement
InstructionsDoWhatTheyPlan. (04_instruction_set_baseline.md; 05_instruction_set_k2_differences.md;
06_arithmetic_and_loss.md) -/
def Obligations.VectorInstructionsComplete : Prop :=
  ∀ (t : TileId) (w : IWord) (fr : Front) (s : State),
    let n := w.nVec
    let fe1 := spFe w.s1
    let fe2 := spFe w.s2
    let feD := spFe w.d
    let word (k i : Nat) : Nat := (k + i) % 65536
    let src (fe : Nat) (ws : List Nat) : List (Nat × Bool) := if fe = 1 ∨ fe = 2 then ws.map fun k => (k, true) else []
    let dst (fe : Nat) (ws : List Nat) : List (Nat × Bool) :=
      if fe = 1 then ws.map fun k => (k, false) else if fe = 3 then ws.map fun k => (k, true) else []
    let read (fe : Nat) (l : List (Nat × Nat)) : List Read := l.map fun x => { pc := x.1, word := x.2, empties := decide (fe = 2) }
    let range (k m : Nat) : List Nat := (List.range m).map fun i => (k + i) % 65536
    let vec (k sz j q : Nat) : List (Nat × Nat) := (List.range sz).map fun i => (q, word k (sz * j + i))
    let vecs (k sz : Nat) (q : Nat → Nat) : List (Nat × Nat) := (List.range n).flatMap fun j => vec k sz j (q j)
    let out (p fe : Nat) (dig : Bool) (lat j k : Nat) (x : Line) (needs : List (Nat × Nat)) : Out := {
      due := p + lat + j
      word := k
      lat := lat + j
      data := some fun _ => x
      full := if fe = 0 ∨ fe = 1 then some true else none
      digest := dig
      needs := needs }
    let outs (p fe : Nat) (dig : Bool) (lat t k sz j x : Nat) (needs : List (Nat × Nat)) : List Out :=
      (List.range sz).map fun i => out p fe dig lat t (word k (sz * j + i)) (BitVec.ofNat 512 (x >>> (512 * i))) needs
        let one (c : Ctx) (use lat : Nat) : Plan := { Plan.nop c.p with wants := [0], holds := [(0, use)], done := c.p + lat }
    let map3 (c : Ctx) (lat : Nat) (s2 old : Bool) (f : Nat → Nat → Nat → Nat) : Plan :=
      let a := c.first w.s1
      let b := c.first w.s2
      let d := c.first w.d
      let rb := if s2 then vecs b 4 (c.p + ·) else []
      { one c n lat with
        tests := src fe1 ((vecs a 4 (c.p + ·)).map (·.2)) ++ src fe2 (rb.map (·.2)) ++ dst feD (range d (4 * n))
        reads := read fe1 (vecs a 4 (c.p + ·)) ++ read fe2 rb ++ read 0 (if old then vecs d 4 (c.p + ·) else [])
        writes := (List.range n).flatMap fun j => outs c.p feD w.digest lat j d 4 j
          (f (c.vec a 4 j (c.p + j)) (if s2 then c.vec b 4 j (c.p + j) else 0) (if old then c.vec d 4 j (c.p + j) else 0))
          (vec a 4 j (c.p + j) ++ (if s2 then vec b 4 j (c.p + j) else []) ++ (if old then vec d 4 j (c.p + j) else []))
        done := c.p + lat + (n - 1) }
    let alu (c : Ctx) : Plan := map3 c 16 (!w.useS) (decide (w.cfgB = 3)) (vecAlu w c)
    let tr (c : Ctx) : Plan := map3 c 30 false false fun a _ _ => vecTr w a
    let rng (c : Ctx) : Plan := map3 c 30 false false fun a _ _ => packLanes 128 ((List.range 16).map fun i =>
      philox (c.sAt w.sreg) (c.sAt (w.sreg + 1)) (elemAt a 128 i))
    let sb := cvtBits w.cfgB / 8
    let narrow := decide (10 ≤ w.cfgA)
    let k := if w.cfgA = 10 then 1 else if narrow then 2 else cvtBits w.cfgA / 8
    let scaleWords := if 7 ≤ w.cfgA then ceilDiv n 32 else 0
    let cvt (c : Ctx) : Plan :=
      let a := c.first w.s1
      let d := c.first w.d
      let g := c.first w.s2
      { one c n 0 with
        tests := src fe1 ((vecs a sb (c.p + ·)).map (·.2)) ++ dst feD (range d (if narrow then k * (n / 2) else k * n))
          ++ dst fe2 (range g scaleWords)
        reads := read fe1 (vecs a sb (c.p + ·))
        writes := ((List.range n).flatMap fun j =>
            if narrow then
              if j % 2 = 0 then []
              else outs c.p feD w.digest 16 j d k (j / 2) (cvtData w c j) (vec a sb (j - 1) (c.p + (j - 1)) ++ vec a sb j (c.p + j))
            else outs c.p feD w.digest 16 j d k j (cvtData w c j) (vec a sb j (c.p + j)))
          ++ (List.range scaleWords).map fun m =>
            out c.p fe2 w.digest (16 + min (32 * m + 31) (n - 1)) 0 (word g m) (cvtScale w c n m)
              (((List.range 32).filter fun i => 32 * m + i < n).flatMap fun i => vec a sb (32 * m + i) (c.p + (32 * m + i)))
        done := c.p + 16 + (n - 1) }
    let red (c : Ctx) : Plan :=
      let a := c.first w.s1
      let d := c.first w.d
      { one c n 0 with
        tests := src fe1 ((vecs a 4 (c.p + ·)).map (·.2)) ++ dst feD (range d n)
        reads := read fe1 (vecs a 4 (c.p + ·))
        writes := (List.range n).flatMap fun j => outs c.p feD w.digest 24 j d 1 j
          (redVec (decide (w.md = 3)) w.cfgB ((lanesIn w.md (c.vec a 4 j (c.p + j))).map (widen w.md))).toNat (vec a 4 j (c.p + j))
        done := c.p + 24 + (n - 1) }
    let reds (c : Ctx) : Plan :=
      let a := c.first w.s1
      { one c n 0 with
        tests := src fe1 ((vecs a 4 (c.p + ·)).map (·.2))
        reads := read fe1 (vecs a 4 (c.p + ·))
        regs := [{
          due := c.p + n + 19
          scalar := true
          idx := w.sreg
          val := fun _ => redsAll (decide (w.md = 3)) w.cfgB ((List.range n).map fun j =>
            (lanesIn w.md (c.vec a 4 j (c.p + j))).map (widen w.md))
          needs := vecs a 4 (c.p + ·) }]
        done := c.p + n + 19 }
    let er (c : Ctx) (sz : Nat) : Plan :=
      let a := c.first w.s1
      let d := c.first w.d
      { one c (2 * n) 0 with
        tests := src fe1 ((vecs a sz (fun j => c.p + 2 * j)).map (·.2)) ++ dst feD (range d (4 * n))
        reads := read fe1 (vecs a sz (fun j => c.p + 2 * j)) ++ read 0 (vecs d 4 (fun j => c.p + 2 * j + 1))
        writes := (List.range n).flatMap fun j => (outs c.p feD false 17 (2 * j) d 4 j (erSums w c sz j).1
          (vec a sz j (c.p + 2 * j) ++ vec d 4 j (c.p + 2 * j + 1))).map fun x => { x with er := fun _ => (erSums w c sz j).2 }
        done := c.p + 17 + 2 * (n - 1) }
    let ercvt (c : Ctx) : Plan :=
      let a := c.first w.s1
      let d := c.first w.d
      { one c n 0 with
        tests := src fe1 ((vecs a 4 (c.p + ·)).map (·.2)) ++ dst feD (range d n)
        reads := read fe1 (vecs a 4 (c.p + ·))
        writes := (List.range n).flatMap fun j => outs c.p feD false 16 j d 1 j
          (packLanes 32 ((List.range 16).map fun i =>
            (fromER (BitVec.ofNat 128 (elemAt (c.vec a 4 j (c.p + j)) 128 i)) (c.sAt w.sreg).toInt).toNat)) (vec a 4 j (c.p + j))
        done := c.p + 16 + (n - 1) }
    let base (c : Ctx) : Option (FaultRec × Option FaultRec) :=
      if ebaseOk (c.sAt w.sreg).toInt then none
      else some ((c.s.fault 0x309 1 c.pc (some (c.s.tile c.t).part.toNat)).waits c.t c.e.num (BitVec.ofNat 32 c.pc), none)
    let at_ (op : Nat) : Ctx := s.ctxAt t .vx op w fr
    let passes (op : Nat) (pl : Ctx → Plan) : Prop := s.passes t .vx op w fr (pl (at_ op)).tests
    let go (op : Nat) : Host.Outcome State Fault Refusal := .next (s.inFlight t .vx op w fr)
    (vxAluOk w → passes 0x80 alu → exec (.vxAlu t w) s = go 0x80) ∧
    (vxCvtOk w → passes 0x81 cvt → exec (.vxCvt t w) s = go 0x81) ∧
    (vxTrOk w → passes 0x82 tr → exec (.vxTr t w) s = go 0x82) ∧
    (vxRedOk w → passes 0x83 red → exec (.vxRed t w) s = go 0x83) ∧
    (vxRngOk w → passes 0x84 rng → exec (.vxRng t w) s = go 0x84) ∧
    (vxRedsOk w → passes 0x85 reds → exec (.vxReds t w) s = go 0x85) ∧
    (vxEraccOk w → passes 0x86 (er · 1) → exec (.vxEracc t w) s = go 0x86) ∧
    (vxEraddOk w → passes 0x87 (er · 4) → exec (.vxEradd t w) s = go 0x87) ∧
    (vxErcvtOk w → passes 0x88 ercvt → exec (.vxErcvt t w) s = go 0x88) ∧
    (vxDcloseOk w → s.atCheck t .vx 0x89 w fr → exec (.vxDclose t w) s = go 0x89) ∧
    (∀ c : Ctx,
      (c.runs 0x80 w → c.plan = alu c) ∧ (c.runs 0x81 w → c.plan = cvt c) ∧ (c.runs 0x82 w → c.plan = tr c) ∧
      (c.runs 0x83 w → c.plan = red c) ∧ (c.runs 0x84 w → c.plan = rng c) ∧ (c.runs 0x85 w → c.plan = reds c) ∧
      (c.runs 0x86 w → c.plan = { er c 1 with issueFault := base c }) ∧ (c.runs 0x87 w → c.plan = er c 4) ∧
      (c.runs 0x88 w → c.plan = { ercvt c with issueFault := base c }) ∧
      (c.runs 0x89 w → c.plan = { Plan.nop c.p with acts := [(c.p, fun s => s.closeDigest c.t ((c.sAt w.sreg).setWidth 16))] })) ∧
    (∀ layer : BitVec 16, (s.tile t).foldWait = [] → s.dig.mirror = false →
      s.closeDigest t layer = ({ s with dig := { s.dig with
        log := alSet s.dig.logHead.toNat {
          digest := (s.tile t).digest
          layer := layer
          ltile := (s.tile t).logical
          compared := false
          part := (s.tile t).part
          frame := BitVec.ofNat 32 (s.frameNo (s.tile t).part.toNat) } s.dig.log
        logWrapped := s.dig.logWrapped || decide (s.dig.logHead = 0x1FFF#13)
        logHead := s.dig.logHead + 1 } } : State).modTile t fun y => { y with digest := 0x6A09E667F3BCC908#64 })

/-- At its check point, with every word that its operand modes test as they ask, MV.CPY and MV.FILL with no reserved
field go in flight, and so does MV.FSEND whose logical tile and rank lie in the image; nothing else of the chip
changes but the stream and the cause that a late check raised; a logical tile out of range raises F-0308 and a rank
out of range F-030A. In flight MV.CPY reads word i at p + b and writes it at p + 12 + b, b = i / 4; MV.FILL writes
S[SREG] to every lane of word i at p + 6 + b; MV.FSEND reads word i at p + b, its beat b is at the port of the
destination's link at p + 102 + b, and with the first its packet of class P, with the job, rank, logical tile and tag,
is handed to the fabric. What an instruction in flight does at its pcs is the statement InstructionsDoWhatTheyPlan.
(04_instruction_set_baseline.md; 12_fabric.md; 03_tile_and_mesh.md) -/
def Obligations.LocalMovesComplete : Prop :=
  ∀ (t : TileId) (w : IWord) (fr : Front) (s : State),
    let n := w.nWord
    let word (k i : Nat) : Nat := (k + i) % 65536
    let src (fe : Nat) (ws : List Nat) : List (Nat × Bool) := if fe = 1 ∨ fe = 2 then ws.map fun k => (k, true) else []
    let dst (fe : Nat) (ws : List Nat) : List (Nat × Bool) :=
      if fe = 1 then ws.map fun k => (k, false) else if fe = 3 then ws.map fun k => (k, true) else []
    let read (fe : Nat) (l : List (Nat × Nat)) : List Read := l.map fun x => { pc := x.1, word := x.2, empties := decide (fe = 2) }
    let beats (k q : Nat) : List (Nat × Nat) := (List.range n).map fun i => (q + i / 4, word k i)
    let outs (fe p lat k : Nat) (data : Nat → Line) (needs : Nat → List (Nat × Nat)) : List Out := (List.range n).map fun i => {
      due := p + lat + i / 4
      word := word k i
      lat := lat + i / 4
      data := some fun _ => data i
      full := if fe = 0 ∨ fe = 1 then some true else none
      needs := needs i }
    let move (p lat : Nat) : Plan :=
      { Plan.nop p with wants := [0], holds := [(0, ceilDiv n 4)], done := p + lat + (n - 1) / 4, move := true }
    let srcWord (c : Ctx) (i : Nat) : Line := c.word (word (c.first w.s1) i) (c.p + i / 4)
    let srcTests (c : Ctx) : List (Nat × Bool) := src (spFe w.s1) ((beats (c.first w.s1) c.p).map (·.2))
    let dstTests (c : Ctx) : List (Nat × Bool) := dst (spFe w.d) ((List.range n).map fun i => word (c.first w.d) i)
    let img := (s.img (s.tile t).part.toNat).getD Image.reset
    let at_ (op : Nat) : Ctx := s.ctxAt t .mv op w fr
    let record (code cls addr : Nat) : FaultRec := (s.fault code cls addr (some (s.tile t).part.toNat)).waits t 2 (BitVec.ofNat 32 fr.pc)
    (mvCpyOk w → s.passes t .mv 0xC0 w fr (srcTests (at_ 0xC0) ++ dstTests (at_ 0xC0)) →
      exec (.mvCpy t w) s = .next (s.inFlight t .mv 0xC0 w fr)) ∧
    (mvFillOk w → s.passes t .mv 0xC1 w fr (dstTests (at_ 0xC1)) → exec (.mvFill t w) s = .next (s.inFlight t .mv 0xC1 w fr)) ∧
    (mvFsendOk w → w.s2 % 256 < img.n → w.s2 / 256 < rankCount img.dims → s.passes t .mv 0xC5 w fr (srcTests (at_ 0xC5)) →
      exec (.mvFsend t w) s = .next (s.inFlight t .mv 0xC5 w fr)) ∧
    (mvFsendOk w → img.n ≤ w.s2 % 256 → s.atCheck t .mv 0xC5 w fr → exec (.mvFsend t w) s = .next (s.faultHold (record 0x308 1 fr.pc))) ∧
    (mvFsendOk w → w.s2 % 256 < img.n → rankCount img.dims ≤ w.s2 / 256 → s.atCheck t .mv 0xC5 w fr →
      exec (.mvFsend t w) s = .next (s.faultHold (record 0x30A 4 (w.s2 / 256)))) ∧
    ∀ c : Ctx,
      (c.runs 0xC0 w → c.plan = { move c.p 12 with
        tests := srcTests c ++ dstTests c
        reads := read (spFe w.s1) (beats (c.first w.s1) c.p)
        writes := outs (spFe w.d) c.p 12 (c.first w.d) (srcWord c) fun i => [(c.p + i / 4, word (c.first w.s1) i)] }) ∧
      (c.runs 0xC1 w → c.plan = { move c.p 6 with
        tests := dstTests c
        writes := outs (spFe w.d) c.p 6 (c.first w.d) (fun _ => lineOfLanes 32 (List.replicate 16 (c.sAt (w.md % 8)))) fun _ => [] }) ∧
      (c.runs 0xC5 w → c.plan = { move c.p 102 with
        fault := c.plan.fault
        tests := srcTests c
        reads := read (spFe w.s1) (beats (c.first w.s1) c.p)
        beats := (List.range (ceilDiv n 4)).map fun b => (c.p + 102 + b, 256 + c.fabricPort (w.s2 / 256))
        send := some {
          pc := c.p + 102
          pkt := fun _ => { Packet.reset with
            cls := 0
            job := c.s.fab.job
            dest := BitVec.ofNat 24 (w.s2 / 256)
            ltile := BitVec.ofNat 8 w.s2
            src := c.s.selfOrigin
            tag := BitVec.ofNat 12 w.cfg
            payload := (List.range n).map (srcWord c) }
          needs := beats (c.first w.s1) c.p } })

/-- At its check point, with every word that its operand modes test as they ask, its addresses in range, no slice of a
Curtain pending, no Stage epoch late and (MV.FRECV) its packet landed with N words and claimed by no earlier one, each
of these moves with no reserved field goes in flight, and nothing else of the chip changes but the stream and the
cause that a late check raised; a plan-space word of MV.SLD or MV.SST in no region raises F-030A. In flight MV.SEND
reads word i at p + b and it lands in the named tile at p + 102 + b, b = i / 4; MV.FRECV claims its packet at p and
lands it at p + 102 + b, or reads D then and writes the FP32 or ER sum at p + 118 + b; MV.SLD's words arrive at their
pseudo-channels at p + 102 + b and land at p + 420 + b, decrypted where their region is encrypted; MV.SST's arrive at
p + 102 + b, encrypted alike; MV.ELD's chunk k arrives from p + 102 + 256 k and lands decoded from p + 484 + 256 k;
MV.PGATH reads its table at p, p + 1 and p + 2, and its words land from p + 444 (units: p + 452); MV.PST's arrive from
p + 126 (units: p + 134); MV.STRF reads its list word at its check point and its string lands at p + 428 + b, and an
entry without a set changes the full/empty bits then. What an instruction in flight does at its pcs is the statement
InstructionsDoWhatTheyPlan. (04_instruction_set_baseline.md; 05_instruction_set_k2_differences.md;
07_stacked_memory.md; 12_fabric.md) -/
def Obligations.RemoteMovesIssue : Prop :=
  ∀ (t : TileId) (w : IWord) (fr : Front) (s : State),
    let n := w.nWord
    let part := (s.tile t).part.toNat
    let img := (s.img part).getD Image.reset
    let lt := (s.tile t).logical.toNat
    let tag := BitVec.ofNat 12 w.cfg
    let word (k i : Nat) : Nat := (k + i) % 65536
    let src (fe : Nat) (ws : List Nat) : List (Nat × Bool) := if fe = 1 ∨ fe = 2 then ws.map fun k => (k, true) else []
    let dst (fe : Nat) (ws : List Nat) : List (Nat × Bool) :=
      if fe = 1 then ws.map fun k => (k, false) else if fe = 3 then ws.map fun k => (k, true) else []
    let read (fe : Nat) (l : List (Nat × Nat)) : List Read := l.map fun x => { pc := x.1, word := x.2, empties := decide (fe = 2) }
    let four (k q : Nat) : List (Nat × Nat) := (List.range n).map fun i => (q + i / 4, word k i)
    let outs (p lat k : Nat) (data : Nat → Line) (needs : Nat → List (Nat × Nat)) : List Out := (List.range n).map fun i => {
      due := p + lat + i / 4
      word := word k i
      lat := lat + i / 4
      data := some fun _ => data i
      full := if spFe w.d = 0 ∨ spFe w.d = 1 then some true else none
      needs := needs i }
    let move (p lat : Nat) : Plan :=
      { Plan.nop p with wants := [0], holds := [(0, ceilDiv n 4)], done := p + lat + (n - 1) / 4, move := true }
    let landIn (pl : Plan) (d p lat k : Nat) (data : Nat → Line) (needs : Nat → List (Nat × Nat)) : Plan := { pl with
      beats := (List.range (ceilDiv n 4)).map fun b => (p + lat + b, d)
      lands := (outs p lat k data needs).map fun o => (d, o) }
    let srcWord (c : Ctx) (i : Nat) : Line := c.word (word (c.first w.s1) i) (c.p + i / 4)
    let srcTests (c : Ctx) : List (Nat × Bool) := src (spFe w.s1) ((four (c.first w.s1) c.p).map (·.2))
    let dstTests (c : Ctx) : List (Nat × Bool) := dst (spFe w.d) ((List.range n).map fun i => word (c.first w.d) i)
    let rem (c : Ctx) : Nat := ((c.areg w.rAreg).toNat + w.rOff) % 2 ^ 32
    let slot (c : Ctx) (x : Nat) : Option Nat := (c.img.regionOf false x).bind Region.slot
    let at_ (op : Nat) : Ctx := s.ctxAt t .mv op w fr
    let calm (ws : List Nat) : Prop := (s.slicePending part).isSome = false ∧ s.stagingLate part img ws = false
    let words (a : Nat) : List Nat := (List.range n).map fun i => a + i
    let inside (ember : Bool) (a : Nat) : Prop := ∀ i < n, (img.regionOf ember (a + i)).isSome
    let flies (op : Nat) : Host.Outcome State Fault Refusal := .next (s.inFlight t .mv op w fr)
    let chunks (c : Ctx) : List (Region × Nat × Nat) := (c.eldChunks w).zipIdx.map fun x => (x.1.1, x.1.2, x.2)
    let chunkAcc (c : Ctx) : List (List StackAcc) := (chunks c).map fun x => c.chunkReads x.2.1 x.2.2 (c.chunkStored x.1 x.2.1 x.2.2)
    let chunkKeys (c : Ctx) (k : Nat) : List (Nat × Nat) := ((chunkAcc c).getD k []).map fun x => (x.pc, 65536 + x.ix)
    let chunkRes (c : Ctx) (k : Nat) : EmberResult := match (chunks c)[k]? with
      | some x => c.decodeChunk x.1 x.2.1 x.2.2
      | none => .feed
    let unit (i : Nat) : Nat := if w.md = 0 then i else i / 8
    let per := if w.md = 0 then 1 else 8
    let entry (c : Ctx) : Nat := field (c.word (c.first w.s1) c.f.chk) (64 * (w.cfg % 8) + 63) (64 * (w.cfg % 8))
    let serving := img.serving.getD Serving.reset
    let params := ((s.pt part).stage.params).getD Params.reset
    let strD (c : Ctx) : Nat := c.first w.d + entry c % 65536 * n
    let strP (c : Ctx) : Params := ((c.s.pt c.part).stage.params).getD Params.reset
    let strA (pr : Params) (c : Ctx) : Nat := pr.stringBase + entry c / 65536 % 2 ^ 32 * pr.stringStride + w.rOff
    let strTests (c : Ctx) : List (Nat × Bool) := src (spFe w.s1) [c.first w.s1]
      ++ dst (spFe w.d) ((List.range n).map fun i => word (strD c) i)
    let strC : Ctx := { s := s, t := t, e := .mv, f := s.preRead t (s.flightAt t .mv 0xCB w fr) ((at_ 0xCB).first w.s1) }
    (∀ d, mvSendOk w → w.s2 / 2 ^ 16 < img.n → s.physTile part (w.s2 / 2 ^ 16) = some d → s.passes t .mv 0xC2 w fr (srcTests (at_ 0xC2)) →
      exec (.mvSend t w) s = flies 0xC2) ∧
    (∀ port k, mvFrecvOk w → (∀ y ∈ (s.tile t).mv.flights, y.op = 0xC6 → BitVec.ofNat 12 y.w.cfg = tag → y.issued = true ∨ (at_ 0xC6).p ≤ y.p) →
      s.recvPacket lt tag = some (port, k) → k.payload.length = n → s.passes t .mv 0xC6 w fr (dstTests (at_ 0xC6)) →
      exec (.mvFrecv t w) s = flies 0xC6) ∧
    (mvSldOk w → inside false (rem (at_ 0xC3)) → calm (words (rem (at_ 0xC3))) → s.passes t .mv 0xC3 w fr (dstTests (at_ 0xC3)) →
      exec (.mvSld t w) s = flies 0xC3) ∧
    (mvSstOk w → inside false (rem (at_ 0xC4)) → calm [] → s.passes t .mv 0xC4 w fr (srcTests (at_ 0xC4)) →
      exec (.mvSst t w) s = flies 0xC4) ∧
    (mvEldOk w → rem (at_ 0xC8) % 1024 = 0 → n % 1024 = 0 → inside true (rem (at_ 0xC8)) → calm [] →
      s.passes t .mv 0xC8 w fr (dstTests (at_ 0xC8)) → exec (.mvEld t w) s = flies 0xC8) ∧
    (mvPgathOk w → (w.md = 0 ∨ n % 8 = 0) → calm [] → s.passes t .mv 0xC9 w fr (dstTests (at_ 0xC9)) →
      exec (.mvPgath t w) s = flies 0xC9) ∧
    (mvPstOk w → (w.md = 0 ∨ n % 8 = 0) → calm [] → s.passes t .mv 0xCA w fr (srcTests (at_ 0xCA)) →
      exec (.mvPst t w) s = flies 0xCA) ∧
    (mvStrfOk w → (s.tile t).unreadable [(at_ 0xCB).first w.s1] = [] →
      (∀ i < n, serving.cacheBase ≤ strD strC + i ∧ strD strC + i < serving.cacheBase + serving.cacheWords) →
      (2 ^ 63 ≤ entry strC → entry strC / 65536 % 2 ^ 32 < params.stringCount ∧ inside false (strA params strC)) →
      calm (if 2 ^ 63 ≤ entry strC then words (strA params strC) else []) → s.passes t .mv 0xCB w fr (strTests strC) →
      exec (.mvStrf t w) s = .next (s.takes t .mv fr (s.preRead t (s.flightAt t .mv 0xCB w fr) ((at_ 0xCB).first w.s1)) 0 .seq)) ∧
    (∀ x, (mvSldOk w → (words (rem (at_ 0xC3))).find? (fun y => (img.regionOf false y).isNone) = some x → s.atCheck t .mv 0xC3 w fr →
        exec (.mvSld t w) s = .next (s.faultHold ((s.fault 0x30A 4 x (some part)).waits t 2 (BitVec.ofNat 32 fr.pc)))) ∧
      (mvSstOk w → (words (rem (at_ 0xC4))).find? (fun y => (img.regionOf false y).isNone) = some x → s.atCheck t .mv 0xC4 w fr →
        exec (.mvSst t w) s = .next (s.faultHold ((s.fault 0x30A 4 x (some part)).waits t 2 (BitVec.ofNat 32 fr.pc))))) ∧
    ∀ c : Ctx,
      (∀ d, c.runs 0xC2 w → w.s2 / 2 ^ 16 < c.img.n → c.s.physTile c.part (w.s2 / 2 ^ 16) = some d → c.plan = landIn { move c.p 102 with
        tests := srcTests c
        reads := read (spFe w.s1) (four (c.first w.s1) c.p) } d c.p 102 (c.first w.d) (srcWord c) fun i => [(c.p + i / 4, word (c.first w.s1) i)]) ∧
      (∀ port k, c.runs 0xC6 w → c.recvPkt tag = some (port, k) → k.payload.length = n →
        let claims (pl : Plan) : Plan := { pl with
          tests := dstTests c
          acts := [(c.p, fun s => s.claimPacket c.t c.p c.lt tag (c.f.at_ (c.p + 6 + (n - 1) / 4) + 1))] }
        let key (i : Nat) : Nat × Nat := (c.p + 102 + i / 4, word (c.first w.d) i)
        let sum (i : Nat) : Line × Bool := frecvSum w (c.word (key i).2 (key i).1) (k.payload.getD i 0)
        (w.md = 0 → c.plan = landIn (claims (move c.p 102)) c.t c.p 102 (c.first w.d) (k.payload.getD · 0) fun _ => []) ∧
        (w.md ≠ 0 → c.plan = { claims (move c.p 118) with
          beats := (List.range (ceilDiv n 4)).map fun b => (c.p + 102 + b, c.t)
          reads := read 0 ((List.range n).map key)
          writes := (outs c.p 118 (c.first w.d) (fun i => (sum i).1) fun i => [key i]).zipIdx.map fun o =>
            { o.1 with er := fun _ => (sum o.2).2 } })) ∧
      (c.runs 0xC3 w → c.plan = { landIn { move c.p 420 with
          fault := c.plan.fault
          late := c.plan.late
          tests := dstTests c } c.t c.p 420 (c.first w.d) (fun i =>
            c.s.fromRest c.part (slot c (rem c + i)) (planTweak (rem c + i)) (c.word (65536 + i) (c.p + 102 + i / 4)))
            fun i => [(c.p + 102 + i / 4, 65536 + i)] with
        stack := (List.range n).map fun i => {
          pc := c.p + 102 + i / 4
          chan := (c.s.planLoc c.part c.img (rem c + i)).1
          word := (c.s.planLoc c.part c.img (rem c + i)).2
          ix := i } }) ∧
      (c.runs 0xC4 w → c.plan = { move c.p 252 with
        fault := c.plan.fault
        late := c.plan.late
        tests := srcTests c
        reads := read (spFe w.s1) (four (c.first w.s1) c.p)
        stack := (List.range n).map fun i => {
          pc := c.p + 102 + i / 4
          chan := (c.s.planLoc c.part c.img (rem c + i)).1
          word := (c.s.planLoc c.part c.img (rem c + i)).2
          ix := i
          data := some fun _ => c.s.atRest c.part (slot c (rem c + i)) (planTweak (rem c + i)) (srcWord c i)
          needs := [(c.p + i / 4, word (c.first w.s1) i)] } }) ∧
      (c.runs 0xC8 w → c.plan = { landIn { move c.p 484 with
          fault := c.plan.fault
          late := c.plan.late
          tests := dstTests c
          stack := (chunkAcc c).flatten
          acts := (chunks c).map fun x => (c.p + 388 + 256 * x.2.2, fun s =>
            s.chunkDone c x.2.1 ((chunkKeys c x.2.2).any c.lost) (chunkRes c x.2.2)) } c.t c.p 484 (c.first w.d)
            (fun i => (chunkRes c (i / 1024)).lines.getD (i % 1024) 0) fun i => chunkKeys c (i / 1024) with
        lands := ((outs c.p 484 (c.first w.d) (fun i => (chunkRes c (i / 1024)).lines.getD (i % 1024) 0)
          fun i => chunkKeys c (i / 1024)).map fun o => (c.t, o)).zipIdx.map fun x =>
            (x.1.1, { x.1.2 with ok := fun _ => !(chunkRes c (x.2 / 1024)).lines.isEmpty }) }) ∧
      (c.runs 0xC9 w →
        let lat := if w.md = 0 then 444 else 452
        let kv := c.translate w w.md
        c.plan = { landIn { move c.p lat with
            fault := c.plan.fault
            late := c.plan.late
            tests := dstTests c
            reads := read 0 (c.tableReads w)
            stack := c.kvReads w.md 126 kv.items
            acts := kv.acts } c.t c.p lat (c.first w.d) (c.gathered w.md kv.items) fun i =>
              (List.range (kvUnit w.md)).map fun k => (c.kvArrival w.md 126 (unit i), 65536 + (8 * unit i + k)) with
          lands := ((outs c.p lat (c.first w.d) (c.gathered w.md kv.items) fun i =>
            (List.range (kvUnit w.md)).map fun k => (c.kvArrival w.md 126 (unit i), 65536 + (8 * unit i + k))).map fun o =>
              (c.t, o)).map fun x => (x.1, { x.2 with ok := fun _ => !kv.items.isEmpty }) }) ∧
      (c.runs 0xCA w →
        let kv := c.translate w w.md
        c.plan = { move c.p (if w.md = 0 then 276 else 284) with
          fault := c.plan.fault
          late := c.plan.late
          tests := srcTests c
          reads := read 0 (c.tableReads w) ++ read (spFe w.s1) (match kv with
            | .bad q _ => (four (c.first w.s1) c.p).filter fun x => x.1 ≤ q
            | _ => four (c.first w.s1) c.p)
          stack := (c.kvReads w.md (if w.md = 0 then 126 else 134) kv.items).map fun x => { x with
            data := some fun _ => c.s.atRest c.part (c.s.poolSlot c.part)
              (pageTweak (kv.items.getD (x.ix / 8) (0, 0)).1 ((kv.items.getD (x.ix / 8) (0, 0)).2 + x.ix % 8))
              ((c.toStore w.md (c.first w.s1) (x.ix / 8)).getD (x.ix % 8) 0)
            needs := (List.range per).map fun i => (c.p + (per * (x.ix / 8) + i) / 4, word (c.first w.s1) (per * (x.ix / 8) + i)) }
          acts := kv.acts }) ∧
      (c.runs 0xCB w →
        let base : Plan := { move c.p 428 with
          fault := c.plan.fault
          late := c.plan.late
          tests := strTests c
          pre := some (c.first w.s1)
          reads := read (spFe w.s1) [(c.f.chk, c.first w.s1)] }
        (2 ^ 63 ≤ entry c → c.plan = { landIn base c.t c.p 428 (strD c % 65536) (fun i =>
            c.s.fromRest c.part (slot c (strA (strP c) c + i)) (planTweak (strA (strP c) c + i)) (c.word (65536 + i) (c.p + 110 + i / 4)))
            fun i => [(c.p + 110 + i / 4, 65536 + i)] with
          stack := (List.range n).map fun i => {
            pc := c.p + 110 + i / 4
            chan := (c.s.planLoc c.part c.img (strA (strP c) c + i)).1
            word := (c.s.planLoc c.part c.img (strA (strP c) c + i)).2
            ix := i } }) ∧
        (entry c < 2 ^ 63 → c.plan = { base with writes := match dstFull (spFe w.d) with
          | none => []
          | some b => (List.range n).map fun i => {
              due := c.p + 428 + i / 4
              word := word (strD c) i
              lat := 428 + i / 4
              data := none
              full := some b } }))

/-- What an instruction in flight does in one pc. In its issue pc, with its resources free and no fault of issue, it
leaves the queue, reads its registers and its weight slot, and FEND ends the frame. Accesses of one pc to different
banks, with no open window and no bank taken, are all served; an access to a bank that has served another in this pc
raises F-0302 with both requesters and is due again in the next pc. A served read keeps the word and its bit as the pc
finds them, and RFE empties the word then. A served write (of what its reads delivered) replaces the whole word,
clears its errors and poison, makes its mode's full/empty change and folds a digest word; no other word, bit or tile
changes. An access that arrives at a pseudo-channel keeps the word as stored, or writes it 150 pc later; a second one
in the same pc comes one pc later with F-0302. A register result and a loaded weight slot stand from the pc after the
one before their due pc; a complete instruction is in flight no more. (01_architecture.md; 03_tile_and_mesh.md;
04_instruction_set_baseline.md; 07_stacked_memory.md) -/
def Obligations.InstructionsDoWhatTheyPlan : Prop :=
  ∀ s : State,
    let g := s.plan.geyser
    (∀ (t : Nat) (e : Eng) (f : Flight),
      ((s.tile t).stream e).flights.find? (fun x => !x.issued && decide (x.p = g)) = some f →
      let f' := { f with
        issued := true
        aIss := ((s.tile t).stream e).a
        sIss := ((s.tile t).stream e).s
        slot := (s.tile t).wslot (bit f.w.ops 15) }
      let pl := ({ s := s, t := t, e := e, f := f' } : Ctx).plan
      pl.issueFault = none → s.blocker t e pl.wants = none → s.issueStream t e = s.modStream t e fun y => { y with
        queue := y.queue.filter fun q => !(f.drop.any fun d => d.1 ≤ q.seq && q.seq ≤ d.2)
        fendAt := if f.w.fend then some f.p else y.fendAt
        flights := y.flights.map fun z => if z.p = f.p ∧ z.seq = f.seq then f' else z }) ∧
    (∀ us : List Use, us.Pairwise (fun u v => u.d ≠ v.d ∨ u.word % 64 ≠ v.word % 64) →
      (∀ u ∈ us, s.inWindow (s.tile u.d).part.toNat (u.word % 64) g = false ∧ s.bankTaken u.d (u.word % 64) = false) →
      us.foldl Served.serve { s := s, uses := [] } = { s := s, uses := us }) ∧
    (∀ (before : List Use) (u v : Use), before.find? (fun x => x.d = u.d && x.word % 64 = u.word % 64) = some v → v.same u = false →
      (u.kind = .read ∨ u.kind = .write ∨ u.kind = .landing) →
      Served.serve { s := s, uses := before } u = {
        s := (s.conflict (s.tile u.d).part.toNat 0 (u.word % 64) v.who u.who).modFlight u.c fun f => { f with
          retry := f.retry ++ [(u.kind.num, u.q, u.word)]
          shifts := if f.at_ (u.q + 1) = g + 1 then f.shifts ++ [(u.q + 1, 1)] else f.shifts }
        uses := before }) ∧
    (∀ u : Use, u.kind = .read → nsHas u.word (s.tile u.d).bad = false → nsHas u.word (s.tile u.d).poison = false →
      nsHas u.word (s.tile u.d).correctable = false →
      let got := s.noteRead u.c {
        pc := u.q
        word := u.word
        data := some (Memory.readLine (s.tile u.d).mem u.word)
        full := nsHas u.word (s.tile u.d).full }
      s.makeRead u = if u.empties then got.modTile u.d fun y => { y with full := nsDel u.word y.full } else got) ∧
    (∀ (u : Use) (o : Out) (d : Unit → Line), u.out = some o → o.data = some d → o.needs.any u.c.lost = false → o.ok () = true →
      o.er () = false → u.c.f.withheld.contains (u.q, u.word) = false → (s.tile u.d).parityFails = [] → (s.tile u.d).foldWait = [] →
      s.wakeOwner u.d u.word = none → s.compOwner u.d u.word = none →
      s.makeWrite u = s.modTile u.d fun y => { y with
        mem := Memory.writeLine y.mem o.word (d ())
        bad := nsDel o.word y.bad
        correctable := nsDel o.word y.correctable
        writeBacks := nsDel o.word y.writeBacks
        poison := nsDel o.word y.poison
        full := match o.full with
          | some b => nsSet o.word b y.full
          | none => y.full
        digest := if o.digest then digestFold y.digest o.word (d ()) else y.digest }) ∧
    (∀ (c : Ctx) (a : StackAcc), a.data = none → (s.pch a.chan).unreadable a.word g = false → (s.pch a.chan).ceDie a.word = none →
      s.arriveAt c a = s.noteRead c { pc := a.pc, word := 65536 + a.ix, data := some ((s.pch a.chan).wordAtPc a.word g), full := false }) ∧
    (∀ (c : Ctx) (a : StackAcc) (d : Unit → Line), a.data = some d → a.needs.any c.lost = false →
      s.arriveAt c a = s.admitWrite a.chan { PendWrite.reset with due := g + 150, word := a.word, data := some (d ()) }) ∧
    (∀ (c : Ctx) (pl : Plan) (beats : List (Nat × Nat)) (r : RegOut), pl.regs = [r] → pl.load = none → c.f.at_ r.due = g + 1 →
      r.needs.any c.lost = false →
      s.results { c := c, pl := pl, beats := beats } = s.modStream c.t c.e fun x =>
        if r.scalar then { x with s := vset x.s r.idx (r.val ()) }
        else if r.idx = 0 then x
        else { x with a := vset x.a r.idx (r.val ()) }) ∧
    (∀ (c : Ctx) (pl : Plan) (beats : List (Nat × Nat)) (l : LoadOut), pl.regs = [] → pl.load = some l → c.f.at_ l.due = g + 1 →
      l.needs.any c.lost = false →
      s.results { c := c, pl := pl, beats := beats } = s.modTile c.t fun y =>
        if l.slot then { y with slot1 := { l.val () with readyAt := g + 1 } } else { y with slot0 := { l.val () with readyAt := g + 1 } }) ∧
    (∀ (c : Ctx) (pl : Plan) (beats : List (Nat × Nat)), c.f.issued = true → c.f.at_ pl.done ≤ g → c.f.retry = [] →
      s.retire { c := c, pl := pl, beats := beats } = s.modStream c.t c.e fun x => { x with
        flights := x.flights.filter fun y => !(y.p = c.f.p && y.seq = c.f.seq) })

/-- INSTRUCTION_FETCH, while the counter runs, in a bound tile and at a frame-relative pc that the image's slot list
of the stream holds, gives the stream a fetch slot in this pc; the slot's bank read, where the stream may fetch and
has room for four instructions, is of the code word that holds the next program counter, and once served and readable
it puts the word's instructions in the queue, in place in fetch order, ready 6 pc later, and moves the next program
counter on. PARITY_REPLAY's detection on an instruction with writes in this pc, or with its entry decoded in this pc,
counts and records the failure, holds back what the instruction writes in this pc, lists the replay of L + 56 clk (96
+ 56 for a mesh beat, 64 for a queue entry) and raises cause PARITY; its successful end makes those writes, folds the
digest words that waited in order, and with no failure left clears the cause; its failure starts it again, and the
third records the tile as failed and raises F-0202 with the fault hold. Nothing else of the chip changes.
(03_tile_and_mesh.md; 14_determinism_and_faults.md) -/
def Obligations.FetchAndParityComplete : Prop :=
  (∀ (t : TileId) (e : Eng) (i : Image) (c : StreamCode) (s : State),
    let y := s.tile t
    let p := y.part.toNat
    let l := max 1 (s.frameLen p)
    s.running = true → y.bound = true → s.img p = some i →
    i.streams.find? (fun c => c.ltile = y.logical.toNat && c.engine = e.num) = some c →
    (s.plan.geyser + l - s.frameZero p % l) % l ∈ c.slots →
    exec (.instructionFetch t e) s = .next (s.modTile t fun z => z.setStream e { z.stream e with fetchSlots := (z.stream e).fetchSlots + 1 })) ∧
  (∀ (t : Nat) (e : Eng) (s : State),
    let x := (s.tile t).stream e
    let w := (x.codeBase + x.fetchPc / 4 % max 1 x.codeWords) % 65536
    let d := Memory.readLine (s.tile t).mem w
    let r := fetchEntries d (4 - x.fetchPc % 4) (x.fetchPc % 4) x.fetchPc
    let u : Use := { d := t, word := w, kind := .fetch, q := s.plan.geyser, c := { s := s, t := t, e := e, f := { Flight.reset with pc := x.fetchPc } } }
    0 < x.fetchSlots → x.fetchStop = false → x.halted = false → x.queue.length ≤ 508 →
    s.fetchUse t e = [u] ∧
    (nsHas w (s.tile t).bad = false → nsHas w (s.tile t).poison = false → nsHas w (s.tile t).correctable = false →
      s.makeRead u = s.modTile t fun z => z.setStream e
        { z.stream e with
          queue := (z.stream e).queue ++ (r.1.zipIdx.map fun v =>
            ({ pc := v.1.1, word := v.1.2, ready := s.plan.geyser + 6, seq := x.fetchSeq + v.2 } : QEntry)).filter fun q =>
              !(x.skips.any fun k => k.1 ≤ q.seq && q.seq ≤ k.2)
          skips := x.skips.filter fun k => x.fetchSeq + r.1.length ≤ k.2
          fetchPc := r.2.1
          fetchSeq := x.fetchSeq + r.1.length
          fetchStop := r.2.2 })) ∧
  (∀ (t : TileId) (source : BitVec 2) (queue : Bool) (pc : BitVec 32) (s : State),
    let ws := if queue then [] else s.failing t source pc
    let l := if source = 3#2 then 96 else ((ws.head?).map fun x => x.2.lat).getD 0
    s.running = true → (if queue then source ≠ 3#2 ∧ s.decoding t (engOf source) pc.toNat = true else ws ≠ []) →
    exec (.parityReplay t (.detect source queue pc)) s =
      .next (((ws.foldl (fun s x => s.modFlight x.1 fun f => { f with withheld := f.withheld ++ [(x.2.due, x.2.word)] }) s).modTile t fun y => { y with
        parityCount := satInc y.parityCount
        parityLast := BitVec.ofNat 5 (source.toNat + bn queue * 4 + 8)
        parityPc := pc
        parityFails := y.parityFails ++ [{
          source := source
          queue := queue
          pc := pc
          attempt := 1
          writes := ws.map fun x => x.2.write s.plan.geyser (if source = 3#2 then 4 else source.toNat) pc
          er := ws.any fun x => x.2.er ()
          latency := l
          endAt := s.wall + (if queue then 64 else l + 56) * s.clkTu }] }).raiseCause 0x5#4 (.parity t))) ∧
  (∀ (t : TileId) (source : BitVec 2) (f : ParityFail) (fs : List (Nat × Line)) (s : State),
    (s.tile t).parityFails = [f] → f.source = source → f.endAt ≤ s.wall →
    let n := f.attempt + 1
    let count (y : Tile) : Tile := { y with
      parityCount := satInc y.parityCount
      parityLast := BitVec.ofNat 5 (source.toNat + bn f.queue * 4 + n * 8)
      parityPc := f.pc }
    (f.er = false → (s.tile t).foldWait = fs.map (fun x => .word x.1 x.2) → exec (.parityReplay t (.finish source true)) s =
      .next ((s.modTile t fun y => { f.writes.foldl (fun y w => y.put w) y with
        parityFails := []
        digest := fs.foldl (fun h x => digestFold h x.1 x.2) y.digest
        foldWait := [] }).clearCause (.parity t))) ∧
    (n < 3 → exec (.parityReplay t (.finish source false)) s = .next (s.modTile t fun y => { count y with
      parityFails := [{ f with
        attempt := n
        endAt := s.wall + (if f.queue then 64 else f.latency + 56) * s.clkTu }] })) ∧
    (3 ≤ n → exec (.parityReplay t (.finish source false)) s =
      let s1 := s.modTile t fun y => { count y with parityFails := [] }
      .next (({ s1 with map := { s1.map with tileFailed := s1.map.tileFailed ||| BitVec.ofNat 160 (2 ^ t.val) } } : State).faultHold
        ((State.fault { s1 with map := { s1.map with tileFailed := s1.map.tileFailed ||| BitVec.ofNat 160 (2 ^ t.val) } } 0x202 1 f.pc.toNat
          (some (s.tile t).part.toNat)).waits t (min source.toNat 3) f.pc))))

/-- A bank's window is free for an unplanned user in the first of its four pcs while the counter runs, where no other
unplanned user has the bank and no planned access falls in the four pcs. TILE_ECC_WRITEBACK, for a word that a read
has corrected, in its bank's free window, takes the bank for four pcs and clears the word's error. TILE_SCRUB_READ, in
a free window of a bank with no write-back and no open-only access waiting, in a tile that is not disabled, takes the
bank, counts it as scrubbed for this row (after the 64th bank the row advances), and a correctable error counts and
waits to be written back; an uncorrectable one is recorded as F-0201. TILE_WIN_READ of an aperture offset of 0x800 or
more, on a ready chip and tile, answers from the word buffer where no access waits and the word is in it, and
otherwise queues a read; TILE_WIN_WRITE queues one 4-byte write, or two for 8 bytes, the lower address first;
TILE_FE_SET and TILE_FE_CLR queue one access for each bit set. TILE_WIN_ACCESS serves the oldest access at once where
the tile's partition does not run its plan, a read giving its word to the reader and the word buffer, a write
replacing its bytes; while the plan runs it commits one that may wait for no window to the pc 24 ahead, where no
planned access uses the bank then. Nothing else of the chip changes. (03_tile_and_mesh.md) -/
def Obligations.TileScrubAndWindowComplete : Prop :=
  (∀ (t b : Nat) (s : State),
    let n := (s.plan.geyser + 256 - s.frameZero (s.tile t).part.toNat % 256) % 256
    s.windowFree t b = true ↔ s.running = true ∧ n / 4 = b ∧
      (s.plan.geyser + 256 - s.frameZero (s.tile t).part.toNat % 256) % 4 = 0 ∧
      (∀ w ∈ (s.tile t).windows, w.bank = b → w.start ≤ s.plan.geyser → w.start + 4 ≤ s.plan.geyser) ∧
      ∀ j ∈ s.jobs s.busyTiles, ∀ u ∈ j.bankUses, u.2.1 = t → u.2.2 % 64 = b → s.plan.geyser ≤ u.1 → s.plan.geyser + 3 < u.1) ∧
  (∀ (t : TileId) (w : WordIx) (s : State), nsHas w (s.tile t).writeBacks = true → s.windowFree t (w % 64) = true →
    exec (.tileEccWriteback t w) s = .next (s.modTile t fun x => { x with
      windows := x.windows ++ [{ bank := w % 64, start := s.plan.geyser }]
      correctable := nsDel w x.correctable
      writeBacks := nsDel w x.writeBacks })) ∧
  (∀ (t : TileId) (b : BankIx) (s : State),
    let x := s.tile t
    let w := x.scrubRow.toNat * 64 + b.val
    let d := nsIns b.val x.scrubDone
    let scrubbed := s.modTile t fun y => { y with
      windows := y.windows ++ [{ bank := b.val, start := s.plan.geyser }]
      eccCe := if nsHas w y.correctable then satInc y.eccCe else y.eccCe
      writeBacks := if nsHas w y.correctable then nsIns w y.writeBacks else y.writeBacks
      scrubDone := if d.length = 64 then [] else d
      scrubRow := if d.length = 64 then y.scrubRow + 1 else y.scrubRow }
    x.state ≠ 0#3 → (∀ v ∈ x.writeBacks, v % 64 ≠ b.val) → (∀ r ∈ x.winQueue, r.openOnly = false) → nsHas b.val x.scrubDone = false →
    s.windowFree t b = true →
    exec (.tileScrubRead t b) s = .next (if nsHas w x.bad then scrubbed.tileUE t w 3 0xFFFFFFFF else scrubbed)) ∧
  (∀ (t : TileId) (off : BitVec 12) (dbl : Bool) (val : BitVec 64) (mask : BitVec 32) (s : State),
    let x := s.tile t
    let n := if dbl then 8 else 4
    let w := (x.winBase.toNat + (off.toNat - 0x800) / 64) % 65536
    let o := off.toNat % 64
    let queue (rs : List WinReq) : State := s.modTile t fun y =>
      { y with winQueue := y.winQueue ++ rs.map fun r => { r with openOnly := y.openOnly, arrived := s.plan.geyser } }
    let write (o v : Nat) : WinReq := { WinReq.reset with word := w, kind := .write, byteOff := o, bytes := bytesOf 4 v }
    s.ready = true → x.state ≠ 0#3 → x.state ≠ 5#3 →
    (0x800 ≤ off.toNat → (∀ d, x.winBuf = some (w, d) → x.winQueue = [] → exec (.tileWinRead t off dbl) s =
      .next (s.modTile t fun y => { y with winData := BitVec.ofNat 64 (bytesAt d o n), winPoison := false }))) ∧
    (0x800 ≤ off.toNat → (x.winQueue ≠ [] ∨ x.winBuf = none ∨ ∃ v d, x.winBuf = some (v, d) ∧ v ≠ w) →
      exec (.tileWinRead t off dbl) s =
        .next (queue [{ WinReq.reset with word := w, kind := .read, byteOff := o, bytes := List.replicate n 0 }])) ∧
    (0x800 ≤ off.toNat → exec (.tileWinWrite t off val dbl) s = .next (queue (write o val.toNat ::
      (if dbl then [write (o + 4) (val.toNat / 2 ^ 32)] else [])))) ∧
    (exec (.tileFeSet t mask) s = .next (queue ((bitsOf mask).map fun i =>
      { WinReq.reset with word := (x.winBase.toNat + i) % 65536, kind := .setFull }))) ∧
    (exec (.tileFeClr t mask) s = .next (queue ((bitsOf mask).map fun i =>
      { WinReq.reset with word := (x.winBase.toNat + i) % 65536, kind := .setEmpty })))) ∧
  (∀ (t : TileId) (r : WinReq) (rest : List WinReq) (s : State),
    let x := s.tile t
    let d := Memory.readLine x.mem r.word
    let d' := setBytes d r.byteOff r.bytes
    let served (y : Tile) : Tile := { y with
      winQueue := rest
      winAt := none
      winPoison := false
      winActive := some (s.wall + 4 * s.clkTu, false) }
    x.winQueue = r :: rest → x.winActive = none → x.winAt = none →
    ((x.bound = false ∨ (s.pt x.part.toNat).launched = none) → nsHas r.word x.bad = false → nsHas r.word x.poison = false →
      nsHas r.word x.correctable = false →
      (r.kind = .read → exec (.tileWinAccess t) s = .next (s.modTile t fun y => { served y with
        winBuf := some (r.word, d)
        winData := BitVec.ofNat 64 (bytesAt d r.byteOff r.bytes.length) })) ∧
      (r.kind = .write → exec (.tileWinAccess t) s = .next (s.modTile t fun y => { served y with
        mem := Memory.writeLine y.mem r.word d'
        bad := nsDel r.word y.bad
        correctable := nsDel r.word y.correctable
        writeBacks := nsDel r.word y.writeBacks
        winBuf := some (r.word, d') })) ∧
      (r.kind = .setFull → exec (.tileWinAccess t) s = .next (s.modTile t fun y => { served y with full := nsSet r.word true y.full })) ∧
      (r.kind = .setEmpty → exec (.tileWinAccess t) s = .next (s.modTile t fun y => { served y with full := nsSet r.word false y.full }))) ∧
    (x.bound = true → (s.pt x.part.toNat).launched.isSome = true → s.running = true → r.openOnly = false →
      s.bankPlanned t (r.word % 64) (s.plan.geyser + 24) (s.plan.geyser + 24) = false →
      exec (.tileWinAccess t) s = .next (s.modTile t fun y => { y with winAt := some (s.plan.geyser + 24) })))

/-- For an outstanding watch of a tile's wake word: WATCH_FIRE, in a pc after that of its registration and not after
its expiry tick, with the watched word in the required state as the pc before left it, starts its delivery, of whose
56 steps the first has passed; WAKE_WRITE, when delivery has ended, removes the watch, sets the wake word full at the
end of this pc through the tile's side port, counts one wake, and records F-0302 where the word was full already;
WATCH_TIMEOUT, past the expiry tick of an unfired watch or in it with the condition not met, removes it and raises
F-0401 with a fault hold. ER_FLAG_WORD_SET, when the delivery steps of a setting event have passed, removes it and
sets the plan's ER flag word of the tile full at the end of this pc. Every delivery in progress advances by one step
in each pc, and in each clk while the counter stands still. Nothing else of the chip changes. (11_synchronisation.md;
14_determinism_and_faults.md; 05_instruction_set_k2_differences.md) -/
def Obligations.WatchesFireWakeAndExpire : Prop :=
  (∀ (t : TileId) (wake : WordIx) (s : State),
    let tile := s.tile t
    let sets (s : State) (w : Nat) : State := s.modTile t fun x => { x with sideSets := nsIns w x.sideSets }
    (∀ w, s.wakeOwner t wake = some w → w.fired = none → w.regAt < s.plan.geyser → s.plan.geyser ≤ w.expireAt →
      nsHas w.watched tile.full = w.wantFull →
      exec (.watchFire t wake) s = .next (s.modTs t fun y => { y with
        watches := y.watches.map fun x => if x.wake = wake.val then { x with fired := some 55 } else x })) ∧
    (∀ w, s.wakeOwner t wake = some w → w.fired = some 0 →
      let s1 := if nsHas wake tile.full then
        s.logFault ((s.fault 0x302 2 0x600 (some tile.part.toNat)).waits t w.engine.toNat w.pc) else s
      exec (.wakeWrite t wake) s = .next { sets (s1.modTs t fun y => { y with
          watches := y.watches.filter fun x => x.wake ≠ wake.val }) wake with
        sync := { s.sync with wakes := satInc s.sync.wakes } }) ∧
    (∀ w, s.wakeOwner t wake = some w → w.fired = none →
      (w.expireAt < s.plan.geyser ∨ (w.expireAt = s.plan.geyser ∧ nsHas w.watched tile.full ≠ w.wantFull)) →
      exec (.watchTimeout t wake) s = .next ((s.modTs t fun y => { y with
        watches := y.watches.filter fun x => x.wake ≠ wake.val }).faultHold
          ((s.fault 0x401 3 (w.watched + tile.logical.toNat * 65536) (some tile.part.toNat)).waits t w.engine.toNat w.pc))) ∧
    (∀ i w, (∃ e ∈ (s.ts t).erDelivery, e.2.1 = 0) → s.img tile.part.toNat = some i → i.erFlagWord = some w →
      exec (.erFlagWordSet t) s = .next (sets (s.modTs t fun y => { y with
        erDelivery := y.erDelivery.filter fun e => e.2.1 ≠ 0 }) w))) ∧
  (∀ x : Tile, x.endPc.sideSets = [] ∧ x.endPc.full = x.sideSets.foldl (fun l w => nsIns w l) x.full) ∧
  (∀ (held : Bool) (n : Nat) (w : Watch) (b : Barrier) (q : Nat) (early : Bool),
    Watch.deliver held { w with fired := some (n + 1) } = ({ w with fired := some n, early := w.early || held }, if held ∧ w.early = false then 1 else 0) ∧
    Barrier.deliver held { b with delivering := some (n + 1) } =
      ({ b with delivering := some n, early := b.early || held }, if held ∧ b.early = false then 1 else 0) ∧
    erStep held (q, n + 1, early) = ((q, n, early || held), if held ∧ early = false then 1 else 0)) ∧
  (∀ (t : Nat) (s : State), (∀ e ∈ (s.ts t).erDelivery, e.1 ≠ s.plan.geyser) →
    s.erEvent t = (s.modTile t fun x => { x with erFlag := true }).modTs t fun y =>
      { y with erDelivery := y.erDelivery ++ [(s.plan.geyser, 63, false)] })

/-- BARRIER_COMPLETION_WRITE, when delivery has ended, sets the completion word of every member tile full at the end
of this pc, opens the next round (with the arrivals of children that came early) with its round number one higher
modulo 256, and counts one completion. BARRIER_ARRIVE takes the oldest delivered ARRIVE; one of a child for the round
in progress counts towards it, and where with it every member tile and child of this chip has arrived, a chip below
the root sends its own ARRIVE up, and the root sends RELEASE to its children and starts 40 delivery steps; one for the
next round waits for that round. BARRIER_RELEASE takes the oldest delivered RELEASE; one for a round that has sent its
arrival up goes on to the children and starts 40 delivery steps. A tile barrier that all have arrived at starts 64
delivery steps, of which the pc of the last arrival is the first. BARRIER_TIMEOUT, at the expiry tick of a round with
an arrival of this chip and not in delivery, raises F-0402 naming the barrier, the lowest missing member and the first
arriver, with a fault hold. Nothing else of the chip changes. (11_synchronisation.md) -/
def Obligations.BarriersCompleteAndExpire : Prop :=
  (∀ (p : PartId) (b : BarIx) (d : BarDecl) (s : State), s.barDecl p b = some d → (s.bar p b).delivering = some 0 →
    let s1 := d.tiles.foldl (fun s l => match s.physTile p l with
      | some t => s.modTile t fun x => { x with sideSets := nsIns d.compWord x.sideSets }
      | none => s) s
    exec (.barrierCompletionWrite p b) s = .next { (s1.modBar p b fun x => { Barrier.reset with
        round := x.round + 1
        isOpen := !x.nextChildren.isEmpty
        children := x.nextChildren }) with
      sync := { s1.sync with completions := satInc s1.sync.completions } }) ∧
  (∀ (k : Packet) (d : BarDecl) (i : Nat) (s : State), (s.deliveredOf fun k => k.clsN = 1 && k.type = 0#4) = some k →
    let s1 := s.consume k
    let p := (barFields k).1
    let b := (barFields k).2.1
    let x := s1.bar p b
    let rank := (s1.rankOfChip p k.src).getD 0
    let j := (d.ranks.takeWhile (· < rank)).length
    let counted := s1.modBar p b fun y => { y with
      isOpen := true
      children := nsIns j y.children }
    let send (type to_ : Nat) (s : State) : State := s.inject (s.sPacket type (d.ranks.getD to_ 0) (barPayload b (s.bar p b).round.toNat p))
    let complete : Prop := (∀ l ∈ d.tiles, l ∈ (counted.bar p b).arrived) ∧ ∀ c ∈ treeChildren d i, c ∈ (counted.bar p b).children
    s1.barDecl p b = some d → s1.treeIndex p d = some i → d.scope = 2 → rank ∈ d.ranks → j ∈ treeChildren d i →
    ((barFields k).2.2 = x.round.toNat → (counted.bar p b).delivering = none → (counted.bar p b).sentUp = false →
      (¬ complete → exec .barrierArrive s = .next counted) ∧
      (complete → counted.treeIndex p d = some i → i = 0 → exec .barrierArrive s =
        .next (((treeChildren d 0).foldl (fun s c => send 1 c s) counted).modBar p b fun y => { y with delivering := some 40 })) ∧
      (complete → counted.treeIndex p d = some i → i ≠ 0 → exec .barrierArrive s =
        .next ((send 0 ((i - 1) / 8) counted).modBar p b fun y => { y with sentUp := true }))) ∧
    ((barFields k).2.2 ≠ x.round.toNat → (barFields k).2.2 = (x.round.toNat + 1) % 256 →
      exec .barrierArrive s = .next (s1.modBar p b fun y => { y with nextChildren := nsIns j y.nextChildren }))) ∧
  (∀ (k : Packet) (d : BarDecl) (i : Nat) (s : State), (s.deliveredOf fun k => k.clsN = 1 && k.type = 1#4) = some k →
    let s1 := s.consume k
    let p := (barFields k).1
    let b := (barFields k).2.1
    let x := s1.bar p b
    s1.barDecl p b = some d → s1.treeIndex p d = some i → x.sentUp = true → (barFields k).2.2 = x.round.toNat → x.delivering = none →
    exec .barrierRelease s = .next (((treeChildren d i).foldl (fun s c =>
      s.inject (s.sPacket 1 (d.ranks.getD c 0) (barPayload b (s.bar p b).round.toNat p))) s1).modBar p b fun y =>
        { y with delivering := some 40 })) ∧
  (∀ (p b : Nat) (d : BarDecl) (s : State), d.scope = 1 → (∀ l ∈ d.tiles, l ∈ (s.bar p b).arrived) → (s.bar p b).delivering = none →
    (s.bar p b).sentUp = false → s.checkBar p b 1 d = s.modBar p b fun y => { y with delivering := some 63 }) ∧
  (∀ (p : PartId) (b : BarIx) (d : BarDecl) (m : Nat × Bool × Bool) (s : State), s.barDecl p b = some d →
    (s.bar p b).arrived ≠ [] → (s.bar p b).delivering = none → (s.bar p b).expireAt ≤ s.plan.geyser → s.missing p b d = some m →
    exec (.barrierTimeout p b) s = .next (s.faultHold
      { s.fault 0x402 10 (b.val + bn m.2.1 * 256 + bn m.2.2 * 512 + m.1 * 65536) (some p.val) with
        tile := (s.bar p b).firstTile, engine := (s.bar p b).firstEngine, waiter := (s.bar p b).firstPc }))

/-- A HOLD unit that passes its check, of this job, by an active job port, not seen before and in time for d(o), adds
an episode to be applied at the wall time when its elapsed time reaches d(o), counts it, remembers the symbol and
sends it on by every other active job port; a late one is applied at once and its lateness in clk goes to the hold
debt. A RELEASE unit likewise marks the episode released, or removes it at once and takes its lateness from the debt.
HOLD_APPLY counts the episode and stops the counter (event 4 where it ran; FAULT_STOP for a fault cause), and
RELEASE_APPLY removes it, each when the wall time has come, with every clk past that edge accounted, F-0105 for more
than the debt holds. EPISODE_RELEASE, with no local cause left, releases the chip's own episode here after 24 clk and
sends RELEASE by every active job port. COUNTER_RESUME, when no episode, debt, pause or local cause is left and no
host access or refresh is in progress, lets the counter run, with event 5 after a hold. The cause that an episode of
another chip shows is the command's operand (notes/assumptions/33.md). (02_plan_time_and_statue_hold.md;
13_link_layer.md) -/
def Obligations.HoldsComplete : Prop :=
  (∀ (n : PortId) (u : BitVec 64) (cause : BitVec 4) (s : State),
    let o := unitOrigin u
    let k := unitNum u
    let late := (s.symbolDue n u).2
    let e : Episode := { Episode.reset with origin := o, num := k, cause := cause, applyAt := s.wall + (s.symbolDue n u).1 }
    let s0 : State := { s with plan := { s.plan with
      episodes := s.plan.episodes ++ [e]
      holdEpisodes := s.plan.holdEpisodes + 1
      holdSeen := seenIns s.plan.holdSeen (o, k, false) } }
    let s1 := s0.flood n (holdSym s0 false o k (s.wall - s.elapsed n u))
    unitOk 1 u = true → s.takesSymbol n u = true → (o, k, false) ∉ s.plan.holdSeen →
    (late = 0 → exec (.holdSymbol n u cause) s = .next s1) ∧
    (late ≠ 0 → exec (.holdSymbol n u cause) s =
      .next ((s1.applyHold o k).addDebt (late / max 1 s.clkTu)))) ∧
  (∀ (n : PortId) (u : BitVec 64) (s : State),
    let o := unitOrigin u
    let k := unitNum u
    let late := (s.symbolDue n u).2
    let s0 : State := { s with plan := { s.plan with
      episodes := s.plan.episodes.map fun e =>
        if e.origin = o && e.num = k then { e with released := true, releaseAt := s.wall + (s.symbolDue n u).1 } else e
      holdSeen := seenIns s.plan.holdSeen (o, k, true) } }
    let s1 := s0.flood n (holdSym s0 true o k (s.wall - s.elapsed n u))
    let gone := s1.plan.episodes.filter fun e => !(e.origin = o && e.num = k && e.counted && e.released)
    unitOk 2 u = true → s.takesSymbol n u = true → (o, k, true) ∉ s.plan.holdSeen →
    (late = 0 → exec (.releaseSymbol n u) s = .next s1) ∧
    (late ≠ 0 → late / max 1 s.clkTu ≤ s1.plan.debt → exec (.releaseSymbol n u) s =
      .next { s1 with plan := { s1.plan with episodes := gone, debt := s1.plan.debt - late / max 1 s.clkTu } })) ∧
  (∀ (o : BitVec 24) (k : BitVec 8) (e : Episode) (s : State),
    let late := (s.wall - e.applyAt) / max 1 s.clkTu
    let s1 : State := { s with plan := { s.plan with
      counterWasStopped := true
      wasHeld := true
      episodes := modFirst (fun x => x.origin = o && x.num = k && !x.counted)
        (fun x => { x with counted := true, countedAt := if x.origin = s.selfOrigin then x.countedAt else s.wall }) s.plan.episodes } }
    let s2 := if s.running then s1.logEvent 4 (e.cause.toNat + e.origin.toNat * 256) else s1
    s.plan.episodes.find? (fun e => e.origin = o && e.num = k && !e.counted) = some e → e.applyAt ≤ s.wall →
    exec (.holdApply o k) s = .next ((if e.cause = 0xF#4 then s2.enterFaultStop else s2).addDebt late)) ∧
  (∀ (o : BitVec 24) (k : BitVec 8) (e : Episode) (s : State),
    let late := (s.wall - e.releaseAt) / max 1 s.clkTu
    let s1 : State := { s with plan := { s.plan with
      debt := s.plan.debt - late
      episodes := s.plan.episodes.filter (fun e => !(e.origin = o && e.num = k && e.counted && e.released)) } }
    let r := s1.fault 0x105 0xB o.toNat
    s.plan.episodes.find? (fun e => e.origin = o && e.num = k && e.counted && e.released) = some e → e.releaseAt ≤ s.wall →
    exec (.releaseApply o k) s =
      .next (if late ≤ s.plan.debt then s1 else s1.faultHold r (some (r.contWith (late - s.plan.debt))))) ∧
  (∀ (e : Episode) (s : State), s.plan.localCauses = [] → s.ownEpisode = some e →
    let s0 : State := { s with plan := { s.plan with
      episodes := s.plan.episodes.map (fun x => if x = e then { x with released := true, releaseAt := s.wall + 24 * s.clkTu } else x)
      holdSeen := seenIns s.plan.holdSeen (e.origin, e.num, true) } }
    exec .episodeRelease s = .next (s0.flood 12 (holdSym s true e.origin e.num s.wall))) ∧
  (∀ s : State, s.alive = true → s.plan.counterWasStopped = true → s.depth = 0 → s.plan.debt = 0 → s.paused = false →
    s.plan.localCauses = [] → s.windowBusy = none → s.refreshBusy = none →
    let s1 : State := { s with plan := { s.plan with counterWasStopped := false, wasHeld := false } }
    exec .counterResume s = .next (if s.plan.wasHeld then s1.logEvent 5 s.plan.holdEpisodes.toNat else s1))

/-- HOLD_LIMIT, for an episode whose length on this chip has reached a nonzero PLAN.HOLD_LIMIT and has not raised it
yet, marks it and records F-0303 naming origin and cause, and where the episode is the chip's own also F-0403 for
every partition whose stall it showed. A write of PLAN.HOLD_LIMIT takes effect at once on the episodes in progress.
THROTTLE_EVAL, at the count of the next comparison, raises the level by one up to MAX_LEVEL where the temperature is
TEMP_C or more, lowers it by one at TEMP_C - 3 or less, and where the level is not 0 and a plan runs raises cause
THERMAL for n x 4,096 clk; THERMAL_HOLD_END clears it. A write of PLAN.THROTTLE sets TEMP_C and MAX_LEVEL and lowers a
level above it. (02_plan_time_and_statue_hold.md) -/
def Obligations.HoldLimitAndThermalComplete : Prop :=
  (∀ (o : BitVec 24) (k : BitVec 8) (e : Episode) (s : State),
    s.plan.episodes.find? (fun e => e.origin = o && e.num = k && s.limitReached e) = some e →
    let s1 : State := { s with plan := { s.plan with
      episodes := s.plan.episodes.map fun x => if x = e then { x with limitRaised := true } else x } }
    let s2 := s1.logFault (s1.fault 0x303 0xB (e.origin.toNat + e.cause.toNat * 2 ^ 24))
    exec (.holdLimit o k) s = .next (if e.origin = s.selfOrigin then s2.raiseStall e.num else s2)) ∧
  (∀ (v : BitVec 32) (s : State), s.ready = true →
    let s1 : State := { s with plan := { s.plan with holdLimit := v.setWidth 20 } }
    (∀ e ∈ s.plan.episodes, s1.limitReached e = false) → exec (.holdLimitWrite v) s = .next s1) ∧
  (∀ (tj : BitVec 8) (s : State), s.alive = true → s.plan.throttleEvalAt ≤ s.plan.geyser →
    let n := s.plan.throttleLevel.toNat
    let n' := if s.plan.throttleTemp.toNat ≤ tj.toNat then min (n + 1) (max n s.plan.throttleMax.toNat)
      else if tj.toNat + 3 ≤ s.plan.throttleTemp.toNat then n - 1 else n
    let s1 : State := { s with
      plan := { s.plan with throttleLevel := BitVec.ofNat 4 n', throttleEvalAt := s.plan.throttleEvalAt + 65536 }
      pins := { s.pins with tj := tj }
      top := { s.top with tempC := tj } }
    ((n' = 0 ∨ s.launchedParts = []) → exec (.throttleEval tj) s = .next s1) ∧
    (n' ≠ 0 → s.launchedParts ≠ [] → exec (.throttleEval tj) s =
      .next (({ s1 with plan := { s1.plan with thermalEnd := some (s.wall + n' * 4096 * s.clkTu) } } : State).raiseCause 0x6#4 .thermal))) ∧
  (∀ (e : Nat) (s : State), s.plan.thermalEnd = some e → e ≤ s.wall →
    exec .thermalHoldEnd s = .next { s with plan := { s.plan with
      thermalEnd := none
      localCauses := s.plan.localCauses.filter fun c => c.src ≠ .thermal || c.code = 0xF#4 } }) ∧
  (∀ (v : BitVec 32) (s : State), s.ready = true →
    exec (.throttleWrite v) s = .next { s with plan := { s.plan with
      throttleTemp := v.setWidth 8
      throttleMax := BitVec.ofNat 4 (v.toNat / 2 ^ 12)
      throttleLevel := if v.toNat / 2 ^ 12 % 16 < s.plan.throttleLevel.toNat then BitVec.ofNat 4 (v.toNat / 2 ^ 12)
        else s.plan.throttleLevel } })

/-- ALIGN_START, at the root with no launched plan, sends the count in 1/16 pc on every active job port and is
aligned. An ALIGN symbol whose three units pass, first seen, by a port with a calibrated latency, sets the count to
its value plus the hop and goes on by the other ports with that value; without a calibrated latency F-0306 is recorded
and the chip is not aligned. LAUNCH_ARM, in state ALIGNED with LAUNCH_AT at least 24 pc ahead, readies each launching
partition and is ARMED, and a plan that declares MIRROR also sends its BARRIER; less than 24 pc ahead it records
F-0305. LAUNCH, at the armed count, starts every launching partition, a mirror pair waiting for its barrier. A BARRIER
symbol names the release pc. LAUNCH_BARRIER_RELEASE, at that pc, starts a mirror pair armed for it, whose partner's
symbol has come, or lets a sequencer's halves start. That a symbol is three units and is seen once is the model's
reading (notes/assumptions/33.md). (02_plan_time_and_statue_hold.md) -/
def Obligations.LaunchCommandsComplete : Prop :=
  (∀ s : State, s.launchedParts = [] → s.plan.state.toNat ≤ 2 → s.fab.jobValid = true → s.map.upRoot = true →
    exec .alignStart s = .next ((({ s with plan := { s.plan with
      nextSym := s.plan.nextSym + 1
      state := 2
      alignOk := true } } : State)).flood 12
        (valueSym s 3 s.selfOrigin s.plan.nextSym (s.plan.geyser * 16 + s.plan.alignFrac.toNat)))) ∧
  (∀ (n : PortId) (u lo hi : BitVec 64) (s : State), s.mayAlign = true → s.takesValue 3 n u lo hi = true →
    let v := unitData lo + unitData hi * 2 ^ 49
    let s1 := s.rememberSym 3 u
    let c := (v % 2 ^ 68 + s.hop16 n) % 2 ^ 68
    let s2 : State := { s1 with plan := { s1.plan with state := 0, alignOk := false } }
    ((s.link n).calHold ≠ 0 → exec (.alignSymbol n u lo hi) s = .next ((({ s1 with plan := { s1.plan with
      geyser := c / 16
      alignFrac := BitVec.ofNat 4 (c % 16)
      throttleEvalAt := ceilDiv (c / 16) 65536 * 65536
      state := 2
      alignOk := true } } : State)).flood n (valueSym s1 3 (unitOrigin u) (unitNum u) c))) ∧
    ((s.link n).calHold = 0 → exec (.alignSymbol n u lo hi) s =
      .next (s2.logFault (s2.fault 0x306 0xC (v / 16 % 2 ^ 32) none 3)))) ∧
  (∀ s : State, s.ready = true → s.plan.state = 2#3 →
    let g := s.plan.launchAt.toNat
    let s1 := s.launching.foldl (fun s p => s.primePart g p) s
    let s2 : State := { s1 with plan := { s1.plan with armed := some g, state := 3 } }
    let n := coordDim s2.pcie.self 0 % 2
    let s3 : State := { s2 with plan := { s2.plan with nextSym := s2.plan.nextSym + 1 } }
    (g < s.plan.geyser + 24 → exec .launchArm s = .next (s.logFault (s.fault 0x305 0xC (g % 2 ^ 32) none 2))) ∧
    (s.plan.geyser + 24 ≤ g → s2.mirrorLaunch = false → exec .launchArm s = .next s2) ∧
    (s.plan.geyser + 24 ≤ g → s2.mirrorLaunch = true → exec .launchArm s = .next (if (s2.link n).fab.role = 1 ∧ (s2.link n).state = 5 then
      s3.modLink n fun l => { l with inlineOut := l.inlineOut ++ [valueSym s3 4 s2.selfOrigin s2.plan.nextSym g] } else s3))) ∧
  (∀ (g : Nat) (s : State), s.plan.armed = some g → s.plan.geyser = g → s.mirrorLaunch = false →
    let serves := s.launching.any fun p => ((s.img p).map (fun i => decide (0 < i.fs))).getD false
    let s1 := s.launching.foldl (fun s p =>
      let unit := (s.pt p).resumeUnit.getD 0
      let s0 : State := if (s.pt p).resumeUnit.isNone then s
        else { s with dig := { s.dig with recState := if s.dig.logReplayTo.isEmpty then 0 else 4, recPhase := 0 } }
      (s0.startTiles p).modPt p fun b => { b with
        launched := some g
        relaunchAt := none
        resumeUnit := none
        tickAt := g
        frameBase := unit * s.unitFrames p
        stepBase := unit
        faultStop := false }) s
    exec .launch s = .next { s1 with plan := { s1.plan with
      armed := none
      state := 4
      launchBarrier := if serves then some g else none } }) ∧
  (∀ (n : PortId) (u lo hi : BitVec 64) (s : State), s.takesValue 4 n u lo hi = true →
    let s1 := s.rememberSym 4 u
    exec (.barrierSymbol n u lo hi) s = .next { s1 with plan := { s1.plan with
      launchBarrier := some ((unitData lo + unitData hi * 2 ^ 49) % 2 ^ 64) } }) ∧
  (∀ (g : Nat) (s : State), s.plan.launchBarrier = some g → g ≤ s.plan.geyser →
    ((s.plan.armed = none ∨ s.mirrorLaunch = false) →
      exec .launchBarrierRelease s = .next { s with plan := { s.plan with launchBarrier := none } }) ∧
    (s.plan.armed = some g → s.plan.geyser = g → s.mirrorLaunch = true →
      let s1 := s.launching.foldl (fun s p => s.startPart g p) s
      exec .launchBarrierRelease s = .next { s1 with plan := { s1.plan with armed := none, state := 4, launchBarrier := none } }))

/-- CLK.STEP_CTRL.ARM, with none armed or in progress, arms STEP_TARGET for STEP_AT where it is a tick common to the
launched plans and not passed; not common, it records F-0801 and reads REJECTED; passed, it raises F-0304 and the
fault hold. STEP_SWITCH, at the armed count with no record or Curtain of that tick left, rejects a step above the
highest any Stage plan declares with F-0801, does nothing but disarm where the step is in force, and otherwise stops
the counter for 6,400 link-reference periods, raising CORE_VID first for a faster step. STEP_SWITCH_END then puts the
step in force and logs event 6. (02_plan_time_and_statue_hold.md) -/
def Obligations.FrequencyStepsComplete : Prop :=
  (∀ s : State, s.ready = true → s.clk.armed = none → s.clk.switching = none →
    let g := s.clk.stepAt.toNat
    let s1 : State := { s with clk := { s.clk with rejected := true, armed := none } }
    (s.commonTick g = false → exec .stepArm s = .next (s1.logFault (s1.fault 0x801 0xC (g % 2 ^ 32) none 1))) ∧
    (s.commonTick g = true → g < s.plan.geyser → exec .stepArm s = .next (s.faultHold (s.fault 0x304 0xC (g % 2 ^ 32) none 1))) ∧
    (s.commonTick g = true → s.plan.geyser ≤ g →
      exec .stepArm s = .next { s with clk := { s.clk with armed := some (g, s.clk.stepTarget) } })) ∧
  (∀ (g : Nat) (tgt : BitVec 3) (s : State), s.clk.armed = some (g, tgt) → s.plan.geyser = g → s.recordLeft g = false →
    s.curtainLeft g = false → s.paused = false →
    let s1 : State := { s with clk := { s.clk with rejected := true, armed := none } }
    (s.stepMax < tgt.toNat → exec .stepSwitch s = .next (s1.logFault (s1.fault 0x801 0xC (g % 2 ^ 32) none 1))) ∧
    (tgt.toNat ≤ s.stepMax → tgt = s.clk.stepCur → exec .stepSwitch s = .next { s with clk := { s.clk with armed := none } }) ∧
    (tgt.toNat ≤ s.stepMax → tgt ≠ s.clk.stepCur → exec .stepSwitch s = .next { s with
      clk := { s.clk with
        armed := none
        switching := some (s.wall + 6400 * tuLinkRef, tgt) }
      plan := { s.plan with counterWasStopped := true }
      pins := { s.pins with coreVid := if s.clk.stepCur.toNat < tgt.toNat then tgt else s.pins.coreVid } })) ∧
  (∀ (e : Nat) (tgt : BitVec 3) (s : State), s.clk.switching = some (e, tgt) → e ≤ s.wall →
    exec .stepSwitchEnd s = .next (({ s with
      clk := { s.clk with switching := none, stepCur := tgt }
      pins := { s.pins with coreVid := tgt } } : State).logEvent 6 (s.clk.stepCur.toNat + tgt.toNat * 256)))

/-- SNAP_CAPTURE copies the captured registers as they stand, with AT_TICK 0 and COUNT one more, unless it falls in
the clk of a tick capture, when the two are one. SNAP_ARM_AT, with none armed, arms ARM_AT where it is not passed and
is a tick common to the launched plans, and otherwise reads AT_REJECTED. SNAP_TICK_CAPTURE at the armed count disarms
and captures with AT_TICK 1. FAULT_LOG_CLEAR empties the log and keeps the counters. FAULT_LOG_POP reads the last word
of the oldest record, which then leaves the log. (18_register_conventions_and_map.md) -/
def Obligations.SnapshotsAndFaultLogComplete : Prop :=
  (∀ s : State, s.alive = true → s.snap.lastAt ≠ some (s.wall, true) →
    exec .snapCapture s = .next { s with snap := { s.snap with
      hold := s.snapshot
      held := !s.running
      atTick := false
      count := s.snap.count + 1
      lastAt := some (s.wall, false) } }) ∧
  (∀ s : State, s.alive = true → s.snap.lastAt = some (s.wall, true) →
    exec .snapCapture s = .next { s with snap := { s.snap with
      hold := s.snapshot
      held := !s.running
      lastAt := some (s.wall, false) } }) ∧
  (∀ s : State, s.alive = true → s.snap.armed = none →
    let g := s.snap.armAt.toNat
    (s.plan.geyser ≤ g → s.commonTick g = true → exec .snapArmAt s = .next { s with snap := { s.snap with armed := some g } }) ∧
    ((g < s.plan.geyser ∨ s.commonTick g = false) →
      exec .snapArmAt s = .next { s with snap := { s.snap with atRejected := true } })) ∧
  (∀ s : State, s.alive = true → s.snap.armed = some s.plan.geyser → s.snap.lastAt ≠ some (s.wall, false) →
    exec .snapTickCapture s = .next { s with snap := { s.snap with
      armed := none
      hold := s.snapshot
      held := !s.running
      atTick := true
      count := s.snap.count + 1
      lastAt := some (s.wall, true) } }) ∧
  (∀ s : State, s.alive = true → exec .faultLogClear s = .next { s with top := { s.top with log := [] } }) ∧
  (∀ (r : FaultRec) (rest : List FaultRec) (s : State), s.alive = true → s.top.log = r :: rest →
    exec .faultLogPop s = .next { s with
      pcie := { s.pcie with readback := BitVec.ofNat 64 (fieldN r.bytes 28 4 % 2 ^ 32) }
      top := { s.top with log := rest } }) ∧
  (∀ s : State, s.alive = true → s.top.log = [] →
    exec .faultLogPop s = .next { s with pcie := { s.pcie with readback := 0 } })

/-- Each of the six budget operations, with none armed in the selected partition's bank, arms its OP with the customer
and value registers as they stand; with one armed it writes only the OP field. BUD_BKT_SEL records the selection in
the selected partition's bank and copies there the 32 bytes of that customer's bucket, all zero where it has never
been used. Nothing else changes. (10_budgets_and_speculation.md) -/
def Obligations.BudgetCommandsComplete : Prop :=
  (∀ (c : Instr) (op : Nat) (s : State),
    (c, op) ∈ [(.budOpGrant, 0), (.budOpSetBalance, 1), (.budOpSetSpring, 2), (.budOpSetCap, 3), (.budOpSetPageQuota, 4),
      (.budOpSetReserve, 5)] → s.ready = true →
    let p := s.bud.psel.toNat
    let b := s.bd p
    (b.opArmed = none → exec c s = .next (s.modBd p fun b => { b with
      opCode := BitVec.ofNat 3 op
      opArmed := some { op := BitVec.ofNat 3 op, cust := b.opCust, val := b.opVal } })) ∧
    (b.opArmed ≠ none → exec c s = .next (s.modBd p fun b => { b with opCode := BitVec.ofNat 3 op }))) ∧
  (∀ (v : BitVec 32) (s : State), s.ready = true →
    let b := s.bkt (v.toNat % 65536)
    ∃ copy : Vector (BitVec 32) 8,
      exec (.budBktSel v) s = .next (s.modBd s.bud.psel.toNat fun b => { b with bktSel := BitVec.ofNat 16 (v.toNat % 65536), bktCopy := copy }) ∧
      (copy.toList.flatMap fun w => bytesOf 4 w.toNat) =
        bytesOf 8 (BitVec.ofInt 64 b.granted).toNat ++ bytesOf 8 b.charged ++ bytesOf 8 (BitVec.ofInt 64 b.balance).toNat
          ++ bytesOf 4 b.spring.toNat ++ bytesOf 4 b.cap.toNat)

/-- CRC_COMPUTE on a unit in COMPUTE mode with no run starts one with the configuration as it stands; on a busy unit
either command queues one further run. CRC_CHECK starts a run where the conditions on LEN, BLOCK and the counter hold,
and otherwise sets CFG_ERR and DONE. A COMPUTE run's end leaves the register and RESULT of its bytes, taken from Init
or, with CHAIN, from the register left before; DMA_ERR marks one that ended with an error. A CHECK run's end leaves
what its blocks give. What register a CHECK run or an errored run leaves for CHAIN the spec does not say: a free value
(notes/assumptions/9.md). (17_service_update_time_check.md) -/
def Obligations.CheckValueUnitsComplete : Prop :=
  (∀ (u : CrcIx) (s : State), s.ready = true →
    ((s.crc u).run = none → (s.crc u).cur.check = false →
      exec (.crcCompute u) s = .next (s.modCrc u fun x => { x with run := some x.cur })) ∧
    ((s.crc u).run ≠ none → exec (.crcCompute u) s = .next (s.modCrc u fun x => { x with queued := true }) ∧
      exec (.crcCheck u) s = .next (s.modCrc u fun x => { x with queued := true })) ∧
    ((s.crc u).run = none → (s.crc u).cur.check = true →
      ((s.crc u).cur.startable = true → exec (.crcCheck u) s = .next (s.modCrc u fun x => { x with run := some x.cur })) ∧
      ((s.crc u).cur.startable = false → exec (.crcCheck u) s = .next (s.modCrc u fun x => { x with
        cfgErr := true
        done := true })))) ∧
  (∀ (u : CrcIx) (data : List (BitVec 8)) (err : Bool) (r : CrcRun) (s : State), (s.crc u).run = some r → s.alive = true →
    (s.fn 0).bme = true → (err = true ∨ data.length = r.len.toNat) →
    (err = false → r.check = false → exec (.crcRunDone u data err) s = .next (s.modCrc u fun x =>
      let reg := crcRun r.poly (if bit r.cfg 7 then x.reg else crcInit r.poly) data
      ({ x with reg := reg, result := crcOut r.poly reg } : CrcRegs).endRun)) ∧
    (err = false → r.check = true → exec (.crcRunDone u data err) s =
      .next ((s.draw 64).2.modCrc u fun x => { x.checkRun r data with reg := (s.draw 64).1 }.endRun)) ∧
    (err = true → exec (.crcRunDone u data err) s =
      .next ((s.draw 64).2.modCrc u fun x => { x with dmaErr := true, reg := (s.draw 64).1 }.endRun)))

/-- TIME_INC_COMMIT puts the pair written in force where it lies within 7.5 to 8.5 ns and otherwise sets INC_REJECT.
TIME_ADJUST, of an increment in that range and a count of ticks other than 0, starts the temporary increment, else
INC_REJECT; TIME_ADJUST_END, with no ticks left, leaves the domain without one. TIME_SET_A and TIME_SET_B keep the
value for the next tick. TIME_ACTIVE_WRITE chooses the domain that drives PPS_OUT. PPS_OUT raises the pin for
PPS_WIDTH us, PPS_OUT_END lowers it. PPS_IN captures both domains, logs event 8 and signals vector 6. The loss of the
reference sets its flag and records F-0802; its restoration clears the flag. (17_service_update_time_check.md) -/
def Obligations.TimeDomainCommandsComplete : Prop :=
  (∀ (b : Bool) (v : BitVec 32) (s : State), s.ready = true →
    let ns := (s.time.dom b).wrNs
    let x := ns.toNat * 2 ^ 32 + v.toNat
    (15 * 2 ^ 31 ≤ x ∧ x ≤ 17 * 2 ^ 31 → exec (.timeIncCommit b v) s =
      .next { s with time := s.time.modDom b fun d => { d with wrFrac := v, incNs := ns, incFrac := v } }) ∧
    (¬(15 * 2 ^ 31 ≤ x ∧ x ≤ 17 * 2 ^ 31) → exec (.timeIncCommit b v) s =
      .next { s with time := { s.time.modDom b fun d => { d with wrFrac := v } with incReject := true } })) ∧
  (∀ (b : Bool) (s : State), s.ready = true →
    let t : TimeRegs := { s.time with adjDom := b }
    let x := s.time.adjNs.toNat * 2 ^ 32 + s.time.adjFrac.toNat
    (15 * 2 ^ 31 ≤ x ∧ x ≤ 17 * 2 ^ 31 ∧ s.time.adjTicks ≠ 0 → exec (.timeAdjust b) s =
      .next { s with time := t.modDom b fun d => { d with
        adjNs := s.time.adjNs
        adjFrac := s.time.adjFrac
        adjLeft := s.time.adjTicks } }) ∧
    (¬(15 * 2 ^ 31 ≤ x ∧ x ≤ 17 * 2 ^ 31 ∧ s.time.adjTicks ≠ 0) → exec (.timeAdjust b) s =
      .next { s with time := { t with incReject := true } })) ∧
  (∀ (b : Bool) (s : State), (s.time.dom b).adjLeft = 0 → exec (.timeAdjustEnd b) s =
    .next { s with time := s.time.modDom b fun d => { d with adjNs := 8, adjFrac := 0 } }) ∧
  (∀ s : State, s.ready = true →
    exec .timeSetA s = .next { s with time := { s.time with a := { s.time.a with setPending := some s.time.setNs } } } ∧
    exec .timeSetB s = .next { s with time := { s.time with b := { s.time.b with setPending := some s.time.setNs } } } ∧
    ∀ b : Bool, exec (.timeActiveWrite b) s = .next { s with time := { s.time with active := b } }) ∧
  (∀ s : State, s.alive = true → s.time.ppsDue = true → s.time.ppsOutEn = true → exec .ppsOut s = .next { s with
    time := { s.time with
      ppsDue := false
      ppsEnd := some (s.wall + s.time.ppsWidth.toNat * tuUs) }
    pins := { s.pins with ppsOut := true } }) ∧
  (∀ (e : Nat) (s : State), s.alive = true → s.time.ppsEnd = some e → e ≤ s.wall → exec .ppsOutEnd s = .next { s with
    time := { s.time with ppsEnd := none }
    pins := { s.pins with ppsOut := false } }) ∧
  (∀ s : State, s.alive = true → exec .ppsIn s = .next (({ s with time := { s.time with
    a := { s.time.a with ppsIn := s.capture false }
    b := { s.time.b with ppsIn := s.capture true } } } : State).logEvent 8 0 |>.signal 0 6)) ∧
  (∀ s : State, s.alive = true →
    let s1 : State := { s with time := { s.time with
      refOk := false
      refLost := true } }
    (s.time.refLost = false → exec .timeRefLost s = .next (s1.logFault (s1.fault 0x802 0 0))) ∧
    exec .timeRefRestored s = .next { s with time := { s.time with
      refOk := true
      refLost := false } })

/-- A write of TIME.TRIG_CTRL sets the selected trigger's action and domain and clears the flags written 1, and with
ARM, on one not armed, arms it with its fields as they stand, late where its domain has reached the time. A trigger
whose domain has reached its time, with no lower one due, fires: CAPTURE only logs, ARM_LAUNCH does what PLAN.CTRL.ARM
does, START_ALIGN what the root's alignment does and ARM_STEP what CLK.STEP_CTRL.ARM does, and each disarms, sets its
flags, logs event 9 and signals vector 6. A pop reads the last word of the oldest log entry, which leaves the log. The
outcome code that event 9 carries is a free value (notes/assumptions/9.md). (17_service_update_time_check.md) -/
def Obligations.TriggersComplete : Prop :=
  (∀ (v : BitVec 32) (s : State), s.ready = true →
    let j := s.time.trigSel.toNat
    let s1 := s.modTrig j fun t => { t with
      action := v.setWidth 2
      dom := bit v 2
      fired := t.fired && !bit v 4
      late := t.late && !bit v 5
      refused := t.refused && !bit v 6 }
    let t := s1.trig j
    ((bit v 3 = false ∨ t.armed ≠ none) → exec (.triggerArm v) s = .next s1) ∧
    (bit v 3 = true → t.armed = none → exec (.triggerArm v) s = .next (s1.modTrig j fun t => { t with armed := some {
      time := t.fireAt
      action := t.action
      dom := t.dom
      late := decide (t.fireAt.toNat ≤ (s.time.dom t.dom).ns.toNat)
      notBefore := s.time.nextTick } }))) ∧
  (∀ (j : TrigIx) (a : TrigArm) (s : State), s.alive = true → (s.trig j).armed = some a → a.notBefore ≤ s.wall →
    (a.late = true ∨ a.time.toNat ≤ (s.time.dom a.dom).ns.toNat) → (∀ i < j.val, (s.trig i).armed = none) →
    (a.action = 0#2 → exec (.triggerCapture j) s = .next (s.fireTrigger j 0 false)) ∧
    (s.ready = true → exec .launchArm s = .next s.launchArm ∧ exec .stepArm s = .next s.stepArm) ∧
    exec .alignStart s = .next s.alignStart ∧
    (a.action = 1#2 → exec (.triggerArmLaunch j) s =
      .next (s.launchArm.fireTrigger j 1 (s.plan.state ≠ 2#3 || s.launchArm.plan.armed.isNone))) ∧
    (a.action = 2#2 → exec (.triggerStartAlign j) s = .next (s.alignStart.fireTrigger j 2 (!s.map.upRoot || !s.mayAlign))) ∧
    (a.action = 3#2 → exec (.triggerArmStep j) s =
      .next (s.stepArm.fireTrigger j 3 (s.clk.armed.isSome || s.clk.switching.isSome || s.stepArm.clk.armed.isNone)))) ∧
  (∀ (j act : Nat) (r : Bool) (a : TrigArm) (s : State), (s.trig j).armed = some a →
    let s1 := s.modTrig j fun t => { t with
      armed := none
      fired := true
      late := t.late || a.late
      refused := t.refused || r }
    s.fireTrigger j act r = ((s1.draw 8).2.logEvent 9 (j + act * 256 + (s1.draw 8).1.toNat * 65536)).signal 0 6) ∧
  (∀ (e : TimeEvent) (rest : List TimeEvent) (s : State), s.ready = true → s.time.log = e :: rest →
    exec .timeLogPop s = .next { s with
      pcie := { s.pcie with readback := (e.word 7).setWidth 64 }
      time := { s.time with log := rest } })

/-- DIG.CKPT_CTRL.ARM, with none armed, arms GEYSER_AT, pause and slot where a restartable plan runs and the count is
a unit tick of every one; else it reads REJECTED; passed, it raises F-0304. CHECKPOINT_PAUSE, at the armed count,
stops the counter for the pause (156.25 link-reference periods each microsecond), empties the slot, builds the next
generation, CRCs with it, and sends it to the buddy. CHECKPOINT_PAUSE_END, when the pause is over, makes the
generation complete in its slot where the buddy acknowledged it and neither a fault hold nor a declared chip fell in
the pause, and otherwise records F-0210 and keeps the slot empty. The EXT of that F-0304 the spec does not give: a
free value (notes/assumptions/9.md). (14_determinism_and_faults.md) -/
def Obligations.CheckpointsComplete : Prop :=
  (∀ s : State, s.ready = true → s.dig.ckptArmed = none →
    let g := s.dig.ckptAt.toNat
    let ok := !s.restartParts.isEmpty && s.restartParts.all fun p => s.isUnitTick p g
    (ok = false → exec .ckptArm s = .next { s with dig := { s.dig with ckptRejected := true } }) ∧
    (ok = true → g < s.plan.geyser → exec .ckptArm s =
      .next ((s.draw 3).2.faultHold ((s.draw 3).2.fault 0x304 0xC (g % 2 ^ 32) none (s.draw 3).1.toNat))) ∧
    (ok = true → s.plan.geyser ≤ g → exec .ckptArm s =
      .next { s with dig := { s.dig with ckptArmed := some (g, s.dig.ckptPause.toNat, s.dig.ckptSlot) } })) ∧
  (∀ (g us : Nat) (slot : Bool) (s : State), s.alive = true → s.dig.ckptArmed = some (g, us, slot) → s.plan.geyser = g →
    s.dig.ckptPausing = none →
    let x := (s.generation (s.dig.ckptNext + 1)).sealed
    exec .checkpointPause s = .next (({ s with
      plan := { s.plan with counterWasStopped := true }
      dig := { s.dig with
        ckptPausing := some (s.wall + ceilDiv (us * 625) 4 * tuLinkRef, slot)
        ckptNext := x.gen
        ckptWriting := some x
        buddyAcked := false
        ckptAbort := false
        slots := vset s.dig.slots (bn slot) none } } : State).sendBuddy 1 (bn slot) x.gen.toNat x.units)) ∧
  (∀ (e : Nat) (slot : Bool) (x : CkptGen) (s : State), s.dig.ckptPausing = some (e, slot) → s.dig.ckptWriting = some x → e ≤ s.wall →
    let d : DigRegs := { s.dig with
      ckptArmed := none
      ckptPausing := none
      ckptWriting := none
      buddyAcked := false
      ckptAbort := false }
    let ok := s.dig.buddyAcked && !s.dig.ckptAbort && !s.faultHeld
    let s1 : State := { s with dig := { d with ckptIncomplete := true } }
    (ok = true → exec .checkpointPauseEnd s = .next { s with dig := { d with
      slots := vset d.slots (bn slot) (some { x with complete := true })
      ckptGen := x.gen
      ckptStep := x.stepNo } }) ∧
    (ok = false → exec .checkpointPauseEnd s = .next (s1.logFault (s.fault 0x210 0x12 x.gen.toNat none (bn slot)))))

/-- CKPT_WRITE takes the oldest delivered H packet of its type: the buddy's acknowledgement of the generation being
written is noted; data, for an item with the fields its head names, are added in order to what this chip keeps for its
buddy, older generations of the same partition and Ash entries below the floor going, and an item that is then whole
is acknowledged. CKPT_READ sends the whole generation asked for, or every whole Ash entry, as CKPT_DATA. CKPT_DATA in
phase 4 of a rollback adds to what was fetched, and the generation that RESTORE_GEN names, once whole, is restored
with the Ash log taken over, and its plans await their launch in phase 5; a log with a gap fails with class 3, an
answer without units with class 1. BULK hands its packet to the firmware. The layout of these packets is the model's
(notes/assumptions/41.md). (12_fabric.md; 14_determinism_and_faults.md) -/
def Obligations.BuddyPacketsComplete : Prop :=
  (∀ (p : Packet) (s : State), s.hPacket 0 (· ≠ 2) = some p →
    let s0 := s.consume p
    let h := buddyHead (p.payload.headD 0)
    let mine := s.dig.ckptPausing.isSome && (s.dig.ckptWriting.map fun (x : CkptGen) => decide (x.gen.toNat = h.2.2.2.2.1)).getD false
    let keep (x : BuddyItem) : Bool :=
      if h.1 = 1 then !(x.kind = 1 && x.part = h.2.1 && x.tag ≠ h.2.2.2.2.1) else !(x.kind = 0 && x.tag < s.dig.ashFloor.toNat)
    let items := addUnits (s.dig.buddy.filter keep) h (p.payload.drop 1)
    let s1 : State := { s0 with dig := { s0.dig with buddy := items } }
    let whole := items.any fun x => x.kind = h.1 && x.part = h.2.1 && x.tag = h.2.2.2.2.1 && x.whole
    (h.1 = 3 → exec .ckptWrite s = .next { s0 with dig := { s0.dig with buddyAcked := s.dig.buddyAcked || mine } }) ∧
    (h.1 ≠ 3 → whole = false → exec .ckptWrite s = .next s1) ∧
    (h.1 ≠ 3 → whole = true → exec .ckptWrite s = .next (s1.inject (s1.flatPacket 3 0 p.src
      [lineOfBytes (bytesOf 1 (h.1 + 2) ++ bytesOf 1 h.2.1 ++ bytesOf 2 0 ++ bytesOf 4 0 ++ bytesOf 8 h.2.2.2.2.1)])))) ∧
  (∀ (p : Packet) (s : State), s.hPacket 1 (fun _ => true) = some p →
    let s0 := s.consume p
    let h := buddyHead (p.payload.headD 0)
    let cuts (us : List Line) := (if us.isEmpty then [[]] else chunksOf 127 (us.length / 127 + 1) us).zipIdx
    let send (kind part tag : Nat) (us : List Line) (s : State) : State := (cuts us).foldl (fun s x =>
      s.inject (s.flatPacket 3 2 p.src (lineOfBytes (bytesOf 1 kind ++ bytesOf 1 part ++ bytesOf 2 x.1.length
        ++ bytesOf 4 (127 * x.2) ++ bytesOf 8 tag ++ bytesOf 4 us.length) :: x.1))) s
    (h.1 = 1 → exec .ckptRead s = .next (send 1 h.2.1 h.2.2.2.2.1
      (((s.dig.buddy.find? fun x => x.kind = 1 && x.tag = h.2.2.2.2.1 && x.whole).map (·.units)).getD []) s0)) ∧
    (h.1 ≠ 1 → exec .ckptRead s = .next ((s.dig.buddy.filter fun x => x.kind = 0 && x.whole).foldl
      (fun s x => send 0 x.part x.tag x.units s) s0))) ∧
  (∀ (p : Packet) (s : State), s.hPacket 2 (fun _ => true) = some p → s.dig.recPhase = 4 →
    let s0 := s.consume p
    let items := addUnits s.dig.fetched (buddyHead (p.payload.headD 0)) (p.payload.drop 1)
    let s1 : State := { s0 with dig := { s0.dig with fetched := items } }
    let found := items.find? fun y => y.kind = 1 && y.tag = s.dig.restoreGen.toNat && y.whole
    (found = none → exec .ckptData s = .next s1) ∧
    (∀ y : BuddyItem, found = some y → y.units = [] → exec .ckptData s = .next (s1.recoveryFail 1)) ∧
    (∀ y : BuddyItem, found = some y → y.units ≠ [] →
      let g := readGen y.units
      let s2 := g.seqs.foldl (fun s q => s.restoreSeq q) (s1.adoptAsh items)
      let s3 := g.steps.foldl (fun s x => s.restoreWords x.1 ((s.img x.1).getD Image.reset) g.words) s2
      let r := g.steps.foldl (fun (s : Option State) x => s.bind fun s => s.resumePart x.1 x.2) (some s3)
      (∀ t : State, r = some t → exec .ckptData s = .next { t with dig := { t.dig with recPhase := 5, fetched := [] } }) ∧
      (r = none → exec .ckptData s = .next (s3.recoveryFail 3)))) ∧
  (∀ (p : Packet) (s : State), s.hPacket 3 (fun _ => true) = some p →
    exec .bulk s = .next { s with fab := { s.fab with
      delivered := s.fab.delivered.erase p
      bulk := s.fab.bulk ++ [p] } })

/-- STEP_REPLAY, inside a hold, on a launched restartable partition with AUTO and no rollback called for: where the
words met call for replay and fewer than two were made, the unit, its digests and its region words are restored, the
attempt is counted, the memory causes go and the unit awaits LAUNCH_AT'; without its log entry it fails with class 3;
after two attempts, or where they call for it, a rollback is called for; where they call for a reload it waits for
RO_DONE; a plan that cannot restart fails with class 4. RELAUNCH at LAUNCH_AT' starts the unit. RO_DONE replays the
unit that waited, or ends phase 3. ROLLBACK, when called for, counts, enters phase 1 and does what REBIND does; a plan
that cannot restart fails. A write of RESTORE_GEN in phase 4 restores from the chip's own complete generation where
its rank did not move. A new declared chip is kept and spread, makes a pausing checkpoint incomplete and restarts a
bind; a rank of a restartable launched job calls for a rollback. (14_determinism_and_faults.md) -/
def Obligations.RecoveryCommandsComplete : Prop :=
  (∀ (p : PartId) (i : Image) (s : State), s.alive = true → 0 < s.depth → (s.pt p).stage.image = some i → (s.pt p).state = 1#3 →
    (s.pt p).launched ≠ none → (s.pt p).faultStop = false → s.dig.cfgAuto = true → s.dig.recState ≠ 3#3 →
    let want : State := { s with dig := { s.dig with
      recState := 3
      recPart := BitVec.ofNat 4 p
      roNeeded := false } }
    let n := s.unitNo p
    let entry := s.dig.ash.find? fun e => e.part.toNat = p.val && e.stepNo.toNat = n
    let lone := (match i.serving with
      | some sv => s.leads p sv && !(s.pt p).stage.copyB
      | none => false) && entry.isNone
    let g := s.tickFrom p (s.plan.geyser + s.plan.armLead.toNat)
    let first := (s.pt p).frameBase + s.framesSince p s.plan.geyser / max 1 (s.unitFrames p) * s.unitFrames p
    let s1 := (s.resetUnit p g i).discardDigests p first
    let s2 := match i.serving, entry with
      | some sv, some e => s1.regionNow p i (s1.regionOfEntry p sv e)
      | _, _ => s1
    let same := s2.dig.recPart.toNat = p.val && s2.dig.recUnit = n
    let s3 : State := { s2 with
      dig := { s2.dig with
        recState := 1
        recPart := BitVec.ofNat 4 p
        recUnit := n
        recAttempt := if same then s2.dig.recAttempt + 1 else 1
        roNeeded := false
        stepReplays := satInc s2.dig.stepReplays }
      plan := { s2.plan with localCauses := s2.plan.localCauses.filter fun c => match c.src with
        | .memErr q _ _ => decide (q ≠ p.val)
        | _ => true } }
    (i.restartable = false → s.poisonMet p ≠ [] → exec (.stepReplay p) s = .next (s.recoveryFail 4)) ∧
    (i.restartable = true → s.recoveryNeeded p i = .rollback → exec (.stepReplay p) s = .next want) ∧
    (i.restartable = true → s.recoveryNeeded p i = .reload → exec (.stepReplay p) s = .next { s with dig := { s.dig with
      recState := 2
      recPart := BitVec.ofNat 4 p.val
      roNeeded := true
      roDone := false } }) ∧
    (i.restartable = true → s.recoveryNeeded p i = .replay → 2 ≤ s.attempts p → exec (.stepReplay p) s = .next want) ∧
    (i.restartable = true → s.recoveryNeeded p i = .replay → s.attempts p < 2 → lone = true →
      exec (.stepReplay p) s = .next (s.recoveryFail 3)) ∧
    (i.restartable = true → s.recoveryNeeded p i = .replay → s.attempts p < 2 → lone = false →
      exec (.stepReplay p) s = .next (s3.modPt p fun b => { b with
        relaunchAt := some g
        resumeUnit := some n }))) ∧
  (∀ (p : PartId) (i : Image) (s : State), s.alive = true → (s.pt p).stage.image = some i → (s.pt p).faultStop = false →
    (s.pt p).relaunchAt = some s.plan.geyser →
    let s1 := (s.startPart s.plan.geyser p).modSq p fun q => { q with doneTick := some s.plan.geyser }
    (i.serving = none → exec (.relaunch p) s = .next s1) ∧
    (∀ sv : Serving, i.serving = some sv →
      let r := s1.drawDone s.plan.geyser 40960
      exec (.relaunch p) s = .next (r.2.mailboxes p sv.mbox (s1.planRead p i sv.header) (s.plan.geyser + r.1)))) ∧
  (∀ (i : Image) (s : State), s.ready = true → s.dig.recPhase ≠ 1 → (∀ p < 16, (s.pt p).rebound = none) → s.dig.roNeeded = true →
    let p := s.dig.recPart.toNat
    let s1 : State := { s with dig := { s.dig with
      roDone := true
      roNeeded := false } }
    (s.dig.recState = 2#3 → s.img p = some i → s1.attempts p < 2 → exec .roDone s = .next (s1.replayUnit p i)) ∧
    (s.dig.recState ≠ 2#3 → s.dig.recPhase = 3 → exec .roDone s = .next { s1 with dig := { s1.dig with recPhase := 4 } })) ∧
  (∀ (p : PartId) (env : BindEnv) (i : Image) (s : State), s.alive = true → (s.pt p).stage.image = some i → (s.pt p).state = 1#3 →
    (s.pt p).launched ≠ none →
    (s.dig.recState = 3#3 ∨ s.map.declared ≠ [] ∨ ((s.pt p).faultStop = true ∧ s.dig.cfgRollback = true)) →
    s.dig.recPhase = 0 → s.dig.ckptPausing = none →
    let s1 : State := { s with dig := { s.dig with
      recState := 3
      recPhase := 1
      recPart := BitVec.ofNat 4 p.val
      recRanks := (s.pt p).stage.ranks
      fetched := []
      logReplayTo := []
      rollbacks := satInc s.dig.rollbacks } }
    (i.restartable = true → exec (.rollback p env) s = .next (s1.startRun p true env) ∧
      (s.top.fwReady = true → exec (.rollback p env) s = exec (.rebind p env) s1)) ∧
    (i.restartable = false → exec (.rollback p env) s = .next (s.recoveryFail 4))) ∧
  (∀ (v : BitVec 32) (s : State), s.ready = true → s.dig.recPhase ≠ 1 → (∀ p < 16, (s.pt p).rebound = none) →
    let s1 : State := { s with dig := { s.dig with restoreGen := v } }
    let own := s.dig.slots.toList.findSome? fun y => y.bind fun z => if z.gen = v && z.complete then some z else none
    (s.dig.recPhase ≠ 4 → exec (.restoreGenWrite v) s = .next s1) ∧
    (s.dig.recPhase = 4 → (s.pt s.dig.recPart.toNat).stage.rankMoved = false →
      (own = none → exec (.restoreGenWrite v) s = .next (s1.recoveryFail 1)) ∧
      (∀ z : CkptGen, own = some z → exec (.restoreGenWrite v) s = .next (s1.restoreGen z))) ∧
    (s.dig.recPhase = 4 → (s.pt s.dig.recPart.toNat).stage.rankMoved = true → exec (.restoreGenWrite v) s = .next s1.phase4)) ∧
  (∀ (a : BitVec 24) (s : State), s.alive = true → a &&& 0xFFFC00#24 = a → a ∉ s.map.declared →
    let ranks := ((List.range 16).flatMap fun p => (s.pt p).stage.ranks).eraseDups
    let s1 : State := { s with map := { s.map with
      declared := insertBy (fun x y => x.toNat < y.toNat) a s.map.declared
      chipState := if a = s.selfOrigin then 2 else s.map.chipState } }
    let s2 := (ranks.filter fun r => r ≠ s.selfOrigin && r ≠ a).foldl (fun s r => s.ventSend r ([1] ++ bytesOf 3 a.toNat)) s1
    let s3 : State := { s2 with dig := { s2.dig with ckptAbort := s2.dig.ckptAbort || s2.dig.ckptPausing.isSome } }
    let s4 := s3.restartRun s.runDigest
    ((s4.dig.cfgAuto = false ∨ a ∉ ranks ∨ (s4.launchedParts = [] ∧ s4.dig.recPhase = 0)) → exec (.chipDeclaredFailed a) s = .next s4) ∧
    (∀ (p : Nat) (ps : List Nat), s4.dig.cfgAuto = true → a ∈ ranks → s4.launchedParts = p :: ps → s4.dig.recPhase = 0 →
      (s4.bothLost = true → exec (.chipDeclaredFailed a) s = .next (s4.recoveryFail 2)) ∧
      (s4.bothLost = false → s4.restartParts = [] → exec (.chipDeclaredFailed a) s = .next (s4.recoveryFail 4)) ∧
      (s4.bothLost = false → s4.restartParts ≠ [] →
        let s5 := (p :: ps).foldl (fun s q => s.modPt q fun b => { b with relaunchAt := none, resumeUnit := none }) s4
        exec (.chipDeclaredFailed a) s = .next { s5 with dig := { s5.dig with
          recState := 3
          recPart := BitVec.ofNat 4 p
          roNeeded := false } })))

/-- P_SLOT_START, at the pc where a P_START cell of an ACTIVE port begins, sends the oldest P packet queued for the
cell's owner, counts P_IDLE where there is none and raises a slot overrun where the cells cannot hold it.
RELAY_TRANSMIT at the begin of a FWD run that holds it sends the packet that waited longest. OPEN_PACKET_TRANSMIT, on
a free port with no planned packet first, sends the first buffered packet of the first class in turn that XOFF does
not stop, where it fits before the next planned cell, and moves the rotation on. Sending gives the packet the next
sequence number and its CRCs, a replay entry and, where it does not run, the ACK timer, and takes the wire for the
packet's length at 200 GB/s. (12_fabric.md) -/
def Obligations.FabricTransmissionComplete : Prop :=
  (∀ (n : PortId) (i b cells : Nat) (s : State),
    s.cellNow = some (i, b, cells) → s.running = true → (s.link n).state = 5#3 → s.plan.geyser = b →
    (s.link n).fab.code i = 1 → (s.link n).fab.lastCell ≠ b →
    let s1 := s.modLink n fun l => { l with fab := { l.fab with lastCell := b } }
    let found := ((s.link n).fab.pQueue.find? fun q => !q.relay && some q.part = s1.cellOwner n i).filter fun q => decide (q.readyAt ≤ s.plan.geyser)
    let room := s1.runBytes (1 + (s.link n).fab.runLen 2 cells (i + 1))
    (found = none → exec (.pSlotStart n) s =
      .next (s1.modLink n fun l => { l with counters := { l.counters with pIdle := satInc l.counters.pIdle } })) ∧
    (∀ q : PQueued, found = some q → room < q.pkt.wire →
      let r := s1.fault 0x110 8 (n + q.pkt.ltile.toNat * 16 + q.pkt.tag.toNat * 4096)
      exec (.pSlotStart n) s = .next (s1.faultHold r (some (r.contWith i)))) ∧
    (∀ q : PQueued, found = some q → q.pkt.wire ≤ room → (s1.link n).resendFrom = none → (s1.link n).roomFor q.pkt = true →
      let s2 := (s1.modLink n fun l => { l with fab := { l.fab with
        pQueue := l.fab.pQueue.erase q
        fwd := (l.fab.pQueue.erase q).any (·.relay) } }).dropRelayed q.via q.pkt
      exec (.pSlotStart n) s = .next (s2.transmit n q.pkt))) ∧
  (∀ (n : PortId) (run : Nat) (q : PQueued) (s : State), s.fwdRun n = some run → s.relayHead n = some q → (s.link n).state = 5#3 →
    (s.link n).resendFrom = none → (s.link n).fab.busyUntil - s.wall + wireTime q.pkt.wire ≤ wireTime (s.runBytes run) →
    (s.link n).roomFor q.pkt = true →
    let s2 := (s.modLink n fun l => { l with fab := { l.fab with
      pQueue := l.fab.pQueue.erase q
      fwd := (l.fab.pQueue.erase q).any (·.relay) } }).dropRelayed q.via q.pkt
    exec (.relayTransmit n) s = .next (s2.transmit n q.pkt)) ∧
  (∀ (n : PortId) (c : Nat) (o : OQueued) (s : State), s.portFree n = true → s.plannedFirst n = false →
    ((s.classOrder n).1.findSome? fun c => (s.openHead n c).map fun o => (c, o)) = some (c, o) →
    (s.running = true → ∀ left, s.openLeft n = some left → wireTime o.pkt.wire ≤ left * s.clkTu) →
    (s.link n).roomFor o.pkt = true →
    exec (.openPacketTransmit n) s = .next (((s.modLink n fun l => { l with fab := { l.fab with
      openQ := l.fab.openQ.erase o
      rotation := if (s.classOrder n).2 then BitVec.ofNat 2 (c % 3 + 1) else l.fab.rotation } }).transmit n o.pkt).admitOpen n)) ∧
  (∀ (n : Nat) (p : Packet) (s : State), n < 12 →
    let l := s.link n
    let q := p.seal l.txNext
    (s.transmit n p).link n = { l with
      txNext := l.txNext + 1
      replay := l.replay ++ [{ seq := l.txNext, pkt := q }]
      tAckAt := some (l.tAckAt.getD (s.wall + l.tAck))
      counters := { l.counters with cnt := vset l.counters.cnt p.clsN (satInc (vget l.counters.cnt p.clsN 0)) }
      fab := { l.fab with
        wireOut := some q
        busyUntil := max s.wall l.fab.busyUntil + ceilDiv (p.wire * tuNs) 200 } } ∧
    (∀ m < 12, m ≠ n → (s.transmit n p).link m = s.link m))

/-- The oldest accepted P packet of a port leaves its list: of a reserved type it is dropped and counted, of another
job or by a boundary port dropped, counted and recorded as F-0113, and otherwise it is accepted into the pool, whose
area it must fit (F-030C) and whose key must be free (F-030B) where its rank entry is valid and ends here. A packet
whose rank is reached through this chip is pooled and queued at that port 16 pc later as a relay, a FAILED chip
dropping it, and an entry that gives neither raises F-0111. The oldest accepted open packet likewise, and otherwise it
is delivered, queued at the port of its route after 16 clk, dropped where there is none, or recorded as F-0111, and
the port's FLOW state is brought up to date. FLAT_DATA_WRITE sets or deletes the selected exception entry, a reserved
PORT leaving it as it is. FLOW of an ACTIVE port sets the classes that its neighbour stops. FLOW_REFRESH after 256
codewords sends the current state again. (12_fabric.md; 13_link_layer.md) -/
def Obligations.FabricReceptionComplete : Prop :=
  (∀ (n : PortId) (p : Packet) (s : State), ((s.link n).fab.accepted.find? fun p => p.clsN = 0) = some p →
    let s1 := s.takeAccepted n p
    (p.typeOk = false → exec (.pPacketReceive n) s = .next (s1.countDrop n)) ∧
    (p.typeOk = true → s1.foreign n p = true → exec (.pPacketReceive n) s = .next (s1.dropForeign n p)) ∧
    (p.typeOk = true → s1.foreign n p = false → exec (.pPacketReceive n) s = .next (s1.acceptP n p))) ∧
  (∀ (n : Nat) (p : Packet) (s : State),
    let obj := n + p.ltile.toNat * 16 + p.tag.toNat * 4096
    let e := s.rankEntry n (p.dest.toNat % 65536)
    (s.link n).fab.pArea ≥ s.poolUsed n 0 + p.stored →
    (rkValid e = false → s.acceptP n p = s.faultHold (s.fault 0x111 9 (n + p.dest.toNat * 256))) ∧
    (rkValid e = true → bit e 19 = true →
      ((∃ d ∈ s.recvDir, d.ltile = p.ltile ∧ d.tag = p.tag) → s.acceptP n p = s.faultHold (s.fault 0x30B 8 obj)) ∧
      ((∀ d ∈ s.recvDir, ¬(d.ltile = p.ltile ∧ d.tag = p.tag)) → s.acceptP n p =
        let s1 := s.modLink n fun l => { l with fab := { l.fab with
          pool := l.fab.pool ++ [{ pkt := p, landedAt := s.plan.geyser, freeAt := none, relayPort := none }] } }
        { s1 with recvDir := s.recvDir ++ [{ ltile := p.ltile, tag := p.tag, port := n }] })) ∧
    (rkValid e = true → bit e 19 = false → bit e 18 = false → s.acceptP n p = s.faultHold (s.fault 0x111 9 (n + p.dest.toNat * 256))) ∧
    (rkValid e = true → bit e 19 = false → bit e 18 = true → s.map.chipState = 2#2 → s.acceptP n p = s.countDrop n) ∧
    (rkValid e = true → bit e 19 = false → bit e 18 = true → s.map.chipState ≠ 2#2 → (s.link (field e 17 14)).fab.role ≠ 3#2 → s.acceptP n p =
      (s.modLink n fun l => { l with fab := { l.fab with
        pool := l.fab.pool ++ [{ pkt := { p with relayed := true }, landedAt := s.plan.geyser, freeAt := none, relayPort := some (field e 17 14) }] } }).queueP
          (field e 17 14) { p with relayed := true } (s.plan.geyser + 16) true n 16)) ∧
  (∀ (n : Nat) (p : Packet) (s : State), (s.link n).fab.pArea < s.poolUsed n 0 + p.stored →
    s.acceptP n p = s.faultHold (s.fault 0x30C 8 (n + p.ltile.toNat * 16 + p.tag.toNat * 4096))) ∧
  (∀ (n : PortId) (p : Packet) (s : State), ((s.link n).fab.accepted.find? fun p => p.clsN ≠ 0) = some p →
    let s1 := s.takeAccepted n p
    (p.typeOk = false → exec (.openPacketReceive n) s = .next ((s1.countDrop n).flowUpdate n)) ∧
    (p.typeOk = true → s1.foreign n p = true → exec (.openPacketReceive n) s = .next ((s1.dropForeign n p).flowUpdate n)) ∧
    (p.typeOk = true → s1.foreign n p = false → exec (.openPacketReceive n) s = .next ((s1.routeOpen p n).flowUpdate n))) ∧
  (∀ (n m : Nat) (p : Packet) (s : State), n < 12 →
    let o : OQueued := { OQueued.reset with
      pkt := p
      readyAt := s.wall + 16 * s.clkTu
      newRing := !(n / 2 = m / 2 && n ≠ m)
      via := n }
    (s.route p n = .deliver → s.routeOpen p n = { s with fab := { s.fab with delivered := s.fab.delivered ++ [p] } }) ∧
    (s.route p n = .invalid → s.routeOpen p n = s.faultHold (s.fault 0x111 9 (n + p.dest.toNat * 256))) ∧
    ((s.route p n = .nowhere ∨ (s.route p n = .port m ∧ s.map.chipState = 2#2)) → s.routeOpen p n = s.countDrop n) ∧
    (s.route p n = .port m → s.map.chipState ≠ 2#2 → (s.link m).fab.role ≠ 3#2 → s.routeOpen p n =
      (s.modLink m fun l => { l with fab := { l.fab with openQ := l.fab.openQ ++ [o] } }).admitOpen m) ∧
    (s.route p n = .port m → s.map.chipState ≠ 2#2 → (s.link m).fab.role = 3#2 → s.routeOpen p n =
      if p.clsN = 1 then s.faultHold (s.fault 0x112 9 (m + p.dest.toNat * 256)) else s.countDrop m)) ∧
  (∀ (v : BitVec 32) (s : State), s.ready = true →
    let port := v.toNat / 2 ^ 28
    let i := s.fab.flatSel.toNat
    (12 ≤ port ∧ port ≤ 14 → exec (.flatDataWrite v) s = .next s) ∧
    (¬(12 ≤ port ∧ port ≤ 14) → exec (.flatDataWrite v) s = .next { s with fab := { s.fab with
      exceptions := if v = 0xF0000000#32 then alDel i s.fab.exceptions else alSet i v s.fab.exceptions } })) ∧
  (∀ (n : PortId) (v : BitVec 16) (s : State), (s.link n).state = 5#3 →
    exec (.flow n v) s = .next (s.modLink n fun l => { l with fab := { l.fab with xoffRcvd := v.setWidth 3 } }) ∧
    (256 ≤ (s.link n).sinceFlow → exec (.flowRefresh n) s = .next (s.modLink n fun l => { l with
      sinceFlow := 0
      ctlOut := l.ctlOut ++ [.flowRefresh (l.fab.xoffSent.setWidth 16)] })))

/-- A delivered fragment that does not verify discards its message, counts it and records F-0603 with the sender. A
fragment of a message already taken from this sender in this epoch is acknowledged again where it is the first and has
no further effect. The last missing fragment of a new message hands the whole message to the firmware, remembers its
identifier and acknowledges it; any other fragment is kept. An acknowledgement ends its message's retries. A message
not acknowledged is sent again each 50 ms in its fragments, up to 8 times, where the chip holds the key of its epoch,
and then its destination is reported unreachable. How an acknowledgement is laid out is the model's
(notes/assumptions/35.md), and the cipher is a free function (notes/assumptions/10.md). (12_fabric.md;
15_partitions_and_security.md) -/
def Obligations.VentMessagesComplete : Prop :=
  (∀ (k : Packet) (s : State),
    (s.deliveredOf fun k => k.clsN = 2 && k.type = 0#4 && natAt k.bytes 5 1 ≠ 0) = some k →
    let s0 := s.consume k
    let b := k.bytes
    let src := BitVec.ofNat 24 (natAt b 8 3)
    let msgId := BitVec.ofNat 32 (natAt b 0 4)
    let ident := (BitVec.ofNat 32 (natAt b 16 4), src, msgId)
    let ack (s : State) : State := s.inject (s.flatPacket 2 0 src (linesOfBytes (padWord (ventHeader msgId 0 0 0 s.pcie.self))))
    let s1 : State := { s0 with
      sec := { s0.sec with ventFail := satInc s0.sec.ventFail }
      vent := { s0.vent with parts := s0.vent.parts.filter fun x => !(x.1 = src && x.2.1 = msgId) } }
    let r := s1.fault 0x603 0x12 msgId.toNat
    let fail := s1.logFault r (some (r.contWith src.toNat))
    exec .ventMessage s = .next (match s0.ventOpen b with
      | none => fail
      | some pt =>
        let parts := s.vent.parts.filter (fun x => !(x.1 = src && x.2.1 = msgId && x.2.2.1 = natAt b 4 1)) ++ [(src, msgId, natAt b 4 1, pt)]
        let mine := parts.filter fun x => x.1 = src && x.2.1 = msgId
        let body := (List.range (natAt b 5 1)).flatMap fun i => ((mine.find? fun x => x.2.2.1 = i).map (·.2.2.2)).getD []
        if s.vent.seen.contains ident then (if natAt b 4 1 = 0 then ack s0 else s0)
        else if belowWindow s.vent.seen ident then fail
        else if mine.length < natAt b 5 1 then { s0 with vent := { s0.vent with parts := parts } }
        else ack { s0 with vent := { s0.vent with
          parts := parts.filter fun x => !(x.1 = src && x.2.1 = msgId)
          seen := rememberMsg s.vent.seen ident
          inbox := s.vent.inbox ++ [(src, body)] } })) ∧
  (∀ (m : BitVec 32) (k : Packet) (s : State),
    (s.deliveredOf fun k => k.clsN = 2 && k.type = 0#4 && natAt k.bytes 5 1 = 0 && natAt k.bytes 0 4 = m.toNat) = some k →
    exec (.ventAck m) s = .next { s with
      fab := { s.fab with delivered := s.fab.delivered.erase k }
      vent := { s.vent with out := s.vent.out.filter fun x => x.msgId ≠ m } }) ∧
  (∀ (id : BitVec 32) (m : VentOut) (s : State),
    (s.vent.out.find? fun m => m.msgId = id && decide (m.retryAt ≤ s.wall)) = some m →
    let m' : VentOut := { m with
      tries := m.tries + 1
      retryAt := s.wall + 50 * tuMs }
    let s1 : State := { s with vent := { s.vent with out := s.vent.out.map fun x => if x = m then m' else x } }
    let cuts := chunksOf 8128 8 m.body
    (m.tries < 8 → s.mgmtKey m.epoch.toNat = none → exec (.ventRetryTimeout id) s = .next s1) ∧
    (m.tries < 8 → s.mgmtKey m.epoch.toNat ≠ none → exec (.ventRetryTimeout id) s =
      .next (cuts.zipIdx.foldl (fun s x => s.inject (s.ventPacket m.epoch m.dest m.msgId x.2 cuts.length x.1)) s1)) ∧
    (8 ≤ m.tries → exec (.ventRetryTimeout id) s = .next { s with vent := { s.vent with
      out := s.vent.out.erase m
      unreachable := s.vent.unreachable ++ [m.dest] } }))

/-- FRAME_TICK, at a frame tick of an active partition not yet taken, logs event 1 where the frame number is a
multiple of the rate, checks that every running stream has executed its FEND, or has halted, and completed that
instruction and its moves (the first that has not raises F-0301 naming tile, engine and pc), begins the streams' next
frame, sends the frame digest of a mirror pair, and runs the conservation checks, which change nothing where every
identity holds; a partition that waits to relaunch only runs those. MIRROR_DIGEST compares the partner's digest and
count for a frame that has ended here: equal, the frame is the last compared and its entries are marked; different,
F-030E and its entries go to the partner. MIRROR_ENTRIES sets MISMATCH to the first entry in log order that differs,
once. MIRROR_DIGEST_LATE raises the cause LOSS at the tick that ends the second frame after. The object of F-030E's
continuation is a free value (notes/assumptions/9.md). (01_architecture.md; 14_determinism_and_faults.md;
17_service_update_time_check.md) -/
def Obligations.FrameTicksAndMirrorsComplete : Prop :=
  (∀ (p : PartId) (s : State), s.alive = true → (s.pt p).state = 1#3 → s.isTick p s.plan.geyser = true → (s.pt p).tickAt ≠ s.plan.geyser →
    let s1 := s.modPt p fun b => { b with tickAt := s.plan.geyser }
    let s2 := if s1.framesSince p s.plan.geyser % 2 ^ s.time.tickLog2.toNat = 0 then s1.logEvent 1 p else s1
    ((s.pt p).relaunchAt = none → exec (.frameTick p) s = .next (((s2.frameWork p).sendDigest p).conserve p)) ∧
    ((s.pt p).relaunchAt ≠ none → exec (.frameTick p) s = .next (s2.conserve p))) ∧
  (∀ (p : Nat) (s : State),
    let x := (s.pt p).stage
    ((∀ t ∈ s.tilesOf p, s.overrun t s.plan.geyser = none) → s.frameWork p = (s.tilesOf p).foldl (fun s t => s.modTile t fun x => { x with
      mx := { x.mx with fendAt := none }
      vx := { x.vx with fendAt := none }
      mv := { x.mv with fendAt := none } }) s) ∧
    (∀ i : Image, s.img p = some i → i.mirror = false → s.sendDigest p = s) ∧
    (∀ i : Image, s.img p = some i → i.mirror = true →
      let f : BitVec 32 := BitVec.ofNat 32 (s.frameNo p - 1)
      let es := s.frameEntries p f
      let s1 := s.toPartner x.copyB (s.sPacket 3 x.rank.toNat [digestUnit f es.length (frameDigest es) 0 0])
      s.sendDigest p = { s1 with dig := { s1.dig with mirrorEnds := s1.dig.mirrorEnds ++ [(f, s1.plan.geyser + 2 * s1.frameLen p)] } }) ∧
    ((∀ n < 12, s.brokenPort n = []) → s.brokenPart p = [] → s.tableOk = true → s.conserve p = s)) ∧
  (∀ (t g : Nat) (e : Eng) (s : State),
    let x := (s.tile t).stream e
    s.overrunPc t e g = none ↔ (x.running = false ∨ ((x.fendAt ≠ none ∨ x.halted = true) ∧
      ∀ f ∈ x.flights, ({ s := s, t := t, e := e, f := f } : Ctx).unfinished g = false))) ∧
  (∀ (p t : Nat) (x : Nat × Nat) (rest : List Nat) (s : State), s.tilesOf p = t :: rest → s.overrun t s.plan.geyser = some x →
    let s1 := (t :: rest).foldl (fun s t => s.modTile t fun x => { x with
      mx := x.mx.nextFrame
      vx := x.vx.nextFrame
      mv := x.mv.nextFrame }) s
    s.frameWork p = s1.faultHold ((s1.fault 0x301 1 x.2 (some p)).waits t x.1 (BitVec.ofNat 32 x.2))) ∧
  (∀ (k : Packet) (p : Nat) (s : State), s.digestPacket 0 = some k → s.mirrorPart = some p →
    let u := k.payload.headD 0
    let f : BitVec 32 := BitVec.ofNat 32 (field u 31 0)
    let s1 := (s.consume k).mirrorDone f
    let es := s1.frameEntries p f
    let same := field u 63 32 = es.length ∧ field u 127 64 = (frameDigest es).toNat
    (∃ e ∈ s.dig.mirrorEnds, e.1 = f) →
    (same → exec .mirrorDigest s = .next { s1 with dig := { s1.dig with
      mirrorOk := f
      log := s1.dig.log.map fun e => if e.2.part.toNat = p ∧ e.2.frame = f then (e.1, { e.2 with compared := true }) else e } }) ∧
    (¬same →
      let d := s1.draw 32
      let r := d.2.fault 0x30E 0x11 f.toNat (some p)
      let s2 := d.2.faultHold r (some (r.contWith (d.1.toNat % 2 ^ 24)))
      let mine := s2.frameEntries p f
      let x := (s2.pt p).stage
      let cuts := chunksOf 508 (mine.length / 508 + 1) mine
      exec .mirrorDigest s = .next ((if cuts.isEmpty then [[]] else cuts).zipIdx.foldl (fun s y =>
        s.toPartner x.copyB (s.sPacket 3 x.rank.toNat
          (digestUnit f mine.length (frameDigest mine) 1 (508 * y.2) :: linesOfBytes (y.1.flatMap DigEntry.bytes)))) s2))) ∧
  (∀ (k : Packet) (p : Nat) (s : State), s.digestPacket 1 = some k → s.mirrorPart = some p →
    let s1 := s.consume k
    let u := k.payload.headD 0
    let f : BitVec 32 := BitVec.ofNat 32 (field u 31 0)
    let n := min 508 (field u 63 32 - field u 191 160)
    let bs := (k.payload.drop 1).flatMap bytesOfLine
    let d := firstDiff (s1.frameEntries p f) ((List.range n).map fun i => (bs.drop (16 * i)).take 16) (field u 191 160) (field u 63 32)
    ((s.dig.mismatchValid = true ∨ d = none) → exec .mirrorEntries s = .next s1) ∧
    (∀ layer ltile : Nat, s.dig.mismatchValid = false → d = some (layer, ltile) → exec .mirrorEntries s = .next { s1 with dig := { s1.dig with
      mismatch := BitVec.ofNat 28 (layer + ltile * 2 ^ 16 + p * 2 ^ 24)
      mismatchValid := true
      mismatchFrame := f } })) ∧
  (∀ (f : BitVec 32) (s : State), s.alive = true → (∃ e ∈ s.dig.mirrorEnds, e.1 = f ∧ e.2 ≤ s.plan.geyser) →
    exec (.mirrorDigestLate f) s = .next (s.raiseCause 1 (.mirrorLate f.toNat)))

/-- On an ACTIVE port: an ACK whose next number lies in the window of unacknowledged numbers frees the entries up to
its value; a NAK in the window also stops the packet in transmission and replays from its number; behind the window
within 4,096 either is ignored; in no window the link goes down and F-0102 names the number. REPLAY makes the receiver
REPLAYING until the announced number. A packet whose trailer fails is lost and answered by one NAK. While a lost
packet is missed, others are ignored but, in a replay, the expected one and earlier ones. Otherwise the packet that
carries the expected number is accepted, counted and, if open, updates FLOW, unless its pool has no room, when it is
counted and NAKed; a number up to 4,095 ahead is NAKed once; one up to 4,096 behind is acknowledged and discarded; any
other is F-0102. The ACK timer announces the next number, restarts and replays; a pending NAK repeats; ACK follows 32
packets or its interval. (13_link_layer.md) -/
def Obligations.LinkAcknowledgementComplete : Prop :=
  (∀ (n : PortId) (v : BitVec 16) (s : State), (s.link n).state = 5#3 →
    let l := s.link n
    let d := (v - l.txOldest).toNat
    let w := (l.txNext - l.txOldest).toNat
    let d1 := (v + 1 - l.txOldest).toNat
    (d1 ≤ w → exec (.ack n v) s = .next (s.modLink n fun l => l.freeTo (v + 1) s.wall)) ∧
    (w < d1 → 65536 - 4096 ≤ d1 → exec (.ack n v) s = .next s) ∧
    (w < d1 → d1 < 65536 - 4096 → exec (.ack n v) s =
      .next ((s.goDown n 3).logFault ((s.goDown n 3).fault 0x102 7 (portObj n v.toNat)))) ∧
    (d ≤ w → exec (.nak n v) s = .next (s.modLink n fun l => { l.freeTo v s.wall with
      resendFrom := some v
      fab := { l.fab with busyUntil := min l.fab.busyUntil s.wall }
      counters := { l.counters with replays := satInc l.counters.replays } })) ∧
    (w < d → 65536 - 4096 ≤ d → exec (.nak n v) s = .next s) ∧
    (w < d → d < 65536 - 4096 → exec (.nak n v) s =
      .next ((s.goDown n 3).logFault ((s.goDown n 3).fault 0x102 7 (portObj n v.toNat)))) ∧
    exec (.replay n v) s = .next (s.modLink n fun l => { l with
      replaySeen := true
      replayUntil := if v = l.rxExpected then none else some v })) ∧
  (∀ (n : PortId) (p : Packet) (s : State), (s.link n).state = 5#3 →
    let l := s.link n
    let d := (p.lseq - l.rxExpected).toNat
    let heard := l.lost = false ∨ (l.replaying = true ∧ (d = 0 ∨ 61440 ≤ d))
    let ix := p.clsN + 4
    let s1 := s.modLink n fun l => { l with
      rxExpected := l.rxExpected + 1
      nakPending := false
      lost := false
      replayUntil := l.replayUntil.filter (· ≠ l.rxExpected + 1)
      sinceAck := l.sinceAck + 1
      ackAt := some (l.ackAt.getD (s.wall + 64 * tuNs))
      counters := { l.counters with cnt := vset l.counters.cnt ix (satInc (vget l.counters.cnt ix 0)) }
      fab := { l.fab with accepted := l.fab.accepted ++ [p] } }
    (p.trailerOk = false → exec (.linkPacketCheck n p) s = .next (s.modLink n fun l => Link.nakOnce { l with
      lost := true
      counters := { l.counters with crcErr := satInc l.counters.crcErr } } s.wall)) ∧
    (p.trailerOk = true → ¬heard → exec (.linkPacketCheck n p) s = .next s) ∧
    (p.trailerOk = true → heard → d = 0 → s.noRoom n p = false →
      exec (.linkPacketCheck n p) s = .next (if p.clsN = 0 then s1 else s1.flowUpdate n)) ∧
    (p.trailerOk = true → heard → d = 0 → s.noRoom n p = true → exec (.linkPacketCheck n p) s =
      .next (s.modLink n fun l => { l.nakOnce s.wall with
        lost := false
        counters := { l.counters with poolNak := satInc l.counters.poolNak } })) ∧
    (p.trailerOk = true → heard → 1 ≤ d → d ≤ 4095 → exec (.linkPacketCheck n p) s =
      .next (s.modLink n fun l => l.nakOnce s.wall)) ∧
    (p.trailerOk = true → heard → 61440 ≤ d → exec (.linkPacketCheck n p) s =
      .next (s.modLink n fun l => { l.sendAck with lost := false })) ∧
    (p.trailerOk = true → heard → 4096 ≤ d → d < 61440 → exec (.linkPacketCheck n p) s =
      .next ((s.goDown n 3).logFault ((s.goDown n 3).fault 0x102 7 (portObj n p.lseq.toNat))))) ∧
  (∀ (n : PortId) (s : State), (s.link n).state = 5#3 →
    (∀ t : Nat, (s.link n).tAckAt = some t → t ≤ s.wall → (s.link n).replay ≠ [] →
      exec (.ackTimerExpiry n) s = .next (s.modLink n fun l => { l.say (.replay l.txNext) with
        resendFrom := some l.txOldest
        tAckAt := some (s.wall + l.tAck)
        counters := { l.counters with
          ackTimeouts := satInc l.counters.ackTimeouts
          replays := satInc l.counters.replays } })) ∧
    ((s.link n).nakPending = true → (s.link n).nakAt ≤ s.wall → exec (.nakRepeat n) s = .next (s.modLink n fun l => l.sendNak s.wall)) ∧
    ((s.link n).sinceAck ≠ 0 → (32 ≤ (s.link n).sinceAck ∨ ∃ t, (s.link n).ackAt = some t ∧ t ≤ s.wall) →
      exec (.ackInterval n) s = .next (s.modLink n Link.sendAck)))

/-- LINK_DOWN of an ACTIVE port makes it RETRAIN, counts, records F-0101 with the cause and, on a job port, raises
cause LINK_DOWN. An uncorrectable codeword is counted and loses packets, and eight within 1,024 codewords bring the
port down. Enabling a disabled port starts full training; disabling it leads to DISABLED; FULL_TRAIN trains an enabled
port again, and FORCE_RETRAIN takes an ACTIVE port down or begins a retraining again. DECLARE_FAILED discards what the
port holds and leaves it FAILED. An exchange of calibration stamps counts and keeps the raw latencies. Lanes not
locked after 20 ms are excluded where eight remain, and otherwise training starts again after 100 ms. Which number a
forced retrain has as F-0101's cause is the model's (notes/assumptions/36.md). (13_link_layer.md) -/
def Obligations.LinkTrainingComplete : Prop :=
  (∀ (n : PortId) (c : DownCause) (s : State), (s.link n).state = 5#3 →
    let job := (s.link n).fab.role = 1#2
    let s1 := s.modLink n fun l => { l with
      inlineOut := []
      resendFrom := none
      catchUp := false
      replaySeen := false
      retraining := true
      calCount := 0
      trainAt := s.wall
      uncorrWin := []
      downHeld := l.downHeld || decide job
      lanes := { l.lanes with
        armed := none
        request := none
        verifying := none
        verifyBad := false }
      counters := { l.counters with retrains := satInc l.counters.retrains } }
    let s2 := s1.setLinkState n 6
    let code := match c with
      | .lockLost => 1
      | .uncorrectable => 2
      | .nakLimit => 3
      | .pattern => 4
    let s3 := s2.logFault (s1.fault 0x101 7 (n + code * 16))
    (¬job → exec (.linkDown n c) s = .next s3) ∧ (job → exec (.linkDown n c) s = .next (s3.raiseCause 0x8 (.linkDown n)))) ∧
  (∀ (n : PortId) (s : State), (s.link n).state = 5#3 →
    let s1 := s.modLink n fun l => { l with
      lost := true
      uncorrWin := (l.uncorrWin.filter fun c => l.rxCodewords < c + 1024) ++ [l.rxCodewords]
      lanes := { l.lanes with verifyBad := l.lanes.verifyBad || l.lanes.verifying.isSome }
      counters := { l.counters with fecUncorr := satInc l.counters.fecUncorr } }
    ((s1.link n).uncorrWin.length < 8 → exec (.uncorrectableCodeword n) s = .next s1) ∧
    (8 ≤ (s1.link n).uncorrWin.length → exec (.uncorrectableCodeword n) s = .next (s1.goDown n 2))) ∧
  (∀ (n : Nat) (s : State), n < 12 →
    let l := s.link n
    (s.discardPackets n).link n = { l with
      replay := []
      resendFrom := none
      tAckAt := none
      nakPending := false
      replayUntil := none
      sinceAck := 0
      ackAt := none
      lost := false
      fab := { l.fab with
        pQueue := l.fab.pQueue.filter fun q => !(q.relay && q.via = n)
        openQ := l.fab.openQ.filter fun o => !(o.via = n && !o.inBuf)
        pool := []
        accepted := [] } } ∧
    (s.discardPackets n).recvDir = s.recvDir.filter fun d => d.port ≠ n) ∧
  (∀ (n : PortId) (s : State), s.ready = true →
    let train (s : State) (byReq : Bool) : State :=
      let l := s.link n
      let s2 := ((s.discardPackets n).modLink n fun y => { y with
        fullTrain := byReq
        retraining := false
        catchUp := false
        inlineOut := []
        ctlOut := []
        calCount := 0
        trainAt := s.wall
        neighbourValid := false
        lanes := { LinkLanes.reset with
          thresh := y.lanes.thresh
          auto := y.lanes.auto
          sel := y.lanes.sel } }).setLinkState n 1
      if (!l.replay.isEmpty || !l.fab.pool.isEmpty || !l.fab.accepted.isEmpty) && l.fab.role = 1#2 then
        s2.faultHold (s2.fault 0x104 0 0) else s2
    ((s.link n).enable = false → exec (.linkEnable n true) s =
      .next (train (s.modLink n fun l => { l with enable := true }) false)) ∧
    ((s.link n).enable = true → exec (.linkEnable n true) s = .next (s.modLink n fun l => { l with enable := true })) ∧
    exec (.linkEnable n false) s = .next (((s.modLink n fun l => { l with enable := false }).modLink n fun l => { l with
      fullTrain := false
      retraining := false
      inlineOut := []
      ctlOut := [] }).setLinkState n 0) ∧
    ((s.link n).enable = true → exec (.fullTrain n) s = .next (train s true)) ∧
    ((s.link n).state = 5#3 → exec (.forceRetrain n) s = .next (s.goDown n 5)) ∧
    ((s.link n).state ≠ 5#3 → (s.link n).retraining = true → exec (.forceRetrain n) s = .next ((s.modLink n fun l => { l with
      trainAt := s.wall
      calCount := 0
      counters := { l.counters with retrains := satInc l.counters.retrains } }).setLinkState n 6)) ∧
    exec (.declareFailed n) s = .next (((s.discardPackets n).modLink n fun l => { l with
      fullTrain := false
      retraining := false
      catchUp := false
      inlineOut := []
      ctlOut := []
      fab := { l.fab with
        pQueue := []
        openQ := []
        fwd := false
        role := 3 } }).setLinkState n 7)) ∧
  (∀ (n : PortId) (stamp : BitVec 16) (raw : CalRaw) (s : State), (s.link n).training = true → (s.link n).trainAt ≤ s.wall →
    ((s.link n).retraining = true ∨ s.pcie.selfValid = true) →
    exec (.cal n stamp raw) s = .next ((s.passStates n 4).modLink n fun l => { l with
      rawHold := raw.hold
      rawData := raw.data
      rawSym := raw.sym
      calCount := l.calCount + 1
      ctlOut := l.ctlOut ++ [.cal stamp] })) ∧
  (∀ (n : PortId) (locked : BitVec 9) (s : State), (s.link n).state = 1#3 → (s.link n).trainAt + 20 * tuMs ≤ s.wall →
    (∀ x : LinkLanes, (s.link n).lanes.lockWith locked = some x →
      exec (.laneLockTimeout n locked) s = .next ((s.modLink n fun l => { l with lanes := x }).setLinkState n 2)) ∧
    ((s.link n).lanes.lockWith locked = none → exec (.laneLockTimeout n locked) s = .next (s.modLink n fun l => { l with
      lanes := { l.lanes with locked := locked }
      trainAt := l.trainAt + 100 * tuMs })))

/-- TRAINING_DONE of a training port, after 256 round trips, whose lanes lock and whose neighbour is the one wired
there takes the neighbour, the highest common version, and starts both sequences at 0, ACTIVE, with LINK_DOWN's cause
cleared and FLOW brought up to date; another neighbour fails the port with F-0114, and no common version with F-0107.
RETRAIN_DONE of a retraining port, after 64, with the same neighbour and a pad from 0 to 32 ns that restores the
recorded latency goes on ACTIVE with ACK, REPLAY and the replay; without such a pad it retrains again with F-0106, and
another neighbour fails it. An attempt not ACTIVE after 2 ms starts again 10 ms later. Caught up, and on the upstream
port with the PLL locked, the port's cause of hold is cleared. (13_link_layer.md; 12_fabric.md) -/
def Obligations.LinkReturnsComplete : Prop :=
  (∀ (n : PortId) (id : LinkIdent) (locked : BitVec 9) (x : LinkLanes) (s : State),
    (s.link n).training = true → (s.link n).retraining = false → s.pcie.selfValid = true → (s.link n).trainAt ≤ s.wall →
    256 ≤ (s.link n).calCount → (s.link n).lanes.lockWith locked = some x →
    let s1 := ((s.modLink n fun l => { l with lanes := x }).passStates n 3).modLink n fun l => { l with
      neighbour := id.addr
      neighbourPort := id.port
      neighbourValid := true }
    let s2 := s1.passStates n 4
    let r := s1.fault 0x114 7 n
    (s1.wired n ≠ (id.addr, id.port.toNat) → exec (.trainingDone n id locked) s =
      .next ((s1.failPort n).logFault r (some (r.contWith id.addr.toNat)))) ∧
    (s1.wired n = (id.addr, id.port.toNat) → commonVersion (s.link n) id = none → exec (.trainingDone n id locked) s =
      .next ((s1.failPort n).logFault (s1.fault 0x107 7 (portObj n (id.verMin.toNat + id.verMax.toNat * 256))))) ∧
    (∀ v : BitVec 8, s1.wired n = (id.addr, id.port.toNat) → commonVersion (s.link n) id = some v →
      exec (.trainingDone n id locked) s = .next ((((s2.modLink n fun l => { l with
        codewordAt := s2.wall
        sinceFlow := 0
        lost := false
        uncorrWin := []
        retraining := false
        fullTrain := false
        verUsed := v
        txNext := 0
        txOldest := 0
        rxExpected := 0
        rxAcked := 0
        downHeld := false
        ctlOut := []
        fab := { l.fab with
          role := if l.fab.role = 3#2 then 0 else l.fab.role
          xoffSent := 0
          xoffRcvd := 0 } }).setLinkState n 5).clearCause (.linkDown n)).flowUpdate n))) ∧
  (∀ (n : PortId) (id : LinkIdent) (locked : BitVec 9) (x : LinkLanes) (s : State),
    (s.link n).training = true → (s.link n).retraining = true → (s.link n).trainAt ≤ s.wall → 64 ≤ (s.link n).calCount →
    (s.link n).lanes.lockWith locked = some x →
    let s1 := s.modLink n fun l => { l with lanes := x }
    let s2 := s1.setLinkState n 6
    let same := (s.link n).neighbour = id.addr ∧ (s.link n).neighbourPort = id.port
    let s3 := s1.passStates n 3
    let s4 := s1.passStates n 4
    let r := s3.fault 0x114 7 n
    (¬same → exec (.retrainDone n id locked) s = .next ((s3.failPort n).logFault r (some (r.contWith id.addr.toNat)))) ∧
    (same → (s.link n).newPad = none → exec (.retrainDone n id locked) s =
      .next (s2.logFault (s1.fault 0x106 7 (portObj n (s.link n).rawHold)))) ∧
    (∀ pad : BitVec 12, same → (s.link n).newPad = some pad → exec (.retrainDone n id locked) s =
      .next ((s4.modLink n fun l => { l with
        codewordAt := s4.wall
        sinceFlow := 0
        lost := false
        uncorrWin := []
        retraining := false
        fullTrain := false
        ctlOut := [.replay l.txNext, .ack (l.rxExpected - 1)]
        rxAcked := l.rxExpected - 1
        sinceAck := 0
        ackAt := none
        catchUp := true
        replaySeen := false
        replayUntil := none
        resendFrom := if l.replay.isEmpty then none else some l.txOldest
        tAckAt := if l.replay.isEmpty then none else some (s4.wall + l.tAck)
        pad := pad }).setLinkState n 5))) ∧
  (∀ (n : PortId) (s : State), (s.link n).training = true → (s.link n).retraining = true → (s.link n).trainAt + 2 * tuMs ≤ s.wall →
    exec (.retrainTimeout n) s = .next ((s.modLink n fun l => { l with
      trainAt := s.wall + 10 * tuMs
      calCount := 0
      counters := { l.counters with retrains := satInc l.counters.retrains } }).setLinkState n 6)) ∧
  (∀ (n : PortId) (pll : Bool) (s : State), (s.link n).state = 5#3 → (s.link n).catchUp = true → (s.link n).replaySeen = true →
    (s.link n).replayUntil = none → (s.isUpstream n = false ∨ pll = true) →
    exec (.linkCatchUp n pll) s = .next ((s.modLink n fun l => { l with
      catchUp := false
      downHeld := false }).clearCause (.linkDown n))) ∧
  (∀ l : Link, (l.calHold ≠ 0 → l.rawHold ≤ l.calHold.toNat → l.calHold.toNat - l.rawHold ≤ 2048 →
      l.newPad = some (BitVec.ofNat 12 (l.calHold.toNat - l.rawHold))) ∧
    (l.calHold ≠ 0 → (l.calHold.toNat < l.rawHold ∨ 2048 < l.calHold.toNat - l.rawHold) → l.newPad = none))

/-- On an ACTIVE port: the end of an error window adds each lane's count to the lane's total, and each lane in use
above THRESH has its swap started, or records F-0108 where the spare is in use. LANE_SWAP_REQ requests the selected
lane where the spare is free and no swap is under way. A request is copied onto lane 8 and answered; its
acknowledgement arms the swap; an unanswered request repeats. The swap is made at a frame tick under a LINK_DOWN cause
on a job port, at once on another. 256 good codewords later the sender is told, the cause cleared and the spare
carries the lane; bad, the lane set reverts, the port retrains and F-0109 names the lane. LANE_DONE sends idle on the
replaced lane and LANE_REVERT ends that. (13_link_layer.md) -/
def Obligations.SpareLanesComplete : Prop :=
  (∀ (n : PortId) (counts : List (BitVec 32)) (k : BitVec 32) (s : State), (s.link n).state = 5#3 →
    let c (i : Nat) : Nat := (counts.getD i 0).toNat
    let s1 := s.modLink n fun l => { l with
      counters := { l.counters with
        fecCorr := satAdd l.counters.fecCorr k.toNat
        laneErr := Vector.ofFn fun i => satAdd l.counters.laneErr[i] (c i.val) } }
    exec (.laneErrorWindow n counts k) s =
      .next (((s.link n).lanes.inUse.filter fun i => (s.link n).lanes.thresh.toNat < c i).foldl (fun s i => s.laneDegrades n i) s1)) ∧
  (∀ (n lane : Nat) (s : State),
    let x := (s.link n).lanes
    (x.spareFree = false → s.laneDegrades n lane = s.logFault (s.fault 0x108 7 (n + lane * 16))) ∧
    (x.spareFree = true → x.auto = true → x.swapping = false → s.laneDegrades n lane = s.requestLane n lane) ∧
    (x.spareFree = true → (x.auto = false ∨ x.swapping = true) → s.laneDegrades n lane = s)) ∧
  (∀ (n : PortId) (s : State), s.ready = true → (s.link n).state = 5#3 → (s.link n).lanes.spareFree = true →
    (s.link n).lanes.swapping = false → (s.link n).lanes.sel.toNat < 8 →
    exec (.laneSwapReq n) s = .next (s.modLink n fun l => { l with
      ctlOut := l.ctlOut ++ [.lane 1 (BitVec.ofNat 4 (s.link n).lanes.sel.toNat)]
      lanes := { l.lanes with
        request := some (BitVec.ofNat 4 (s.link n).lanes.sel.toNat)
        retryAt := s.wall + 10 * tuUs } })) ∧
  (∀ (n : PortId) (i : LaneIx) (s : State), (s.link n).state = 5#3 →
    exec (.laneReq n i) s = .next (s.modLink n fun l => { l with
      ctlOut := l.ctlOut ++ [.lane 2 (BitVec.ofNat 4 i)]
      lanes := { l.lanes with sendCopy := some (BitVec.ofNat 4 i) } }) ∧
    ((s.link n).lanes.request = some (BitVec.ofNat 4 i) → exec (.laneAck n i) s = .next (s.modLink n fun l => { l with lanes := { l.lanes with
      request := none
      armed := some (BitVec.ofNat 4 i) } })) ∧
    exec (.laneDone n i) s = .next (s.modLink n fun l => { l with lanes := { l.lanes with
      sendCopy := none
      sendIdle := some (BitVec.ofNat 4 i) } }) ∧
    exec (.laneRevert n i) s = .next (s.modLink n fun l => { l with lanes := { l.lanes with
      sendCopy := none
      sendIdle := l.lanes.sendIdle.filter (· ≠ BitVec.ofNat 4 i) } })) ∧
  (∀ (n : PortId) (lane : BitVec 4) (s : State), (s.link n).state = 5#3 → (s.link n).lanes.request = some lane →
    (s.link n).lanes.retryAt ≤ s.wall → exec (.laneSymbolRetry n) s = .next (s.modLink n fun l => { l with
      ctlOut := l.ctlOut ++ [.lane 1 lane]
      lanes := { l.lanes with
        request := some lane
        retryAt := s.wall + 10 * tuUs } })) ∧
  (∀ (n : PortId) (lane : BitVec 4) (s : State), (s.link n).state = 5#3 → (s.link n).lanes.armed = some lane →
    let s1 := s.modLink n fun l => { l with
      downHeld := decide ((s.link n).fab.role = 1#2)
      lanes := { l.lanes with
        armed := none
        replaced := lane
        verifying := some (lane, l.rxCodewords)
        verifyBad := false } }
    ((s.link n).fab.role = 1#2 → s.anyTick = true → exec (.laneSwap n) s = .next (s1.raiseCause 0x8 (.linkDown n))) ∧
    ((s.link n).fab.role ≠ 1#2 → exec (.laneSwap n) s = .next s1)) ∧
  (∀ (n : PortId) (good : Bool) (lane : BitVec 4) (start : Nat) (s : State), (s.link n).state = 5#3 →
    (s.link n).lanes.verifying = some (lane, start) → start + 256 ≤ (s.link n).rxCodewords →
    let ok := good && !(s.link n).lanes.verifyBad
    let s1 := (s.modLink n fun l => { l with
        lastCtl := .lane 4 lane
        lanes := { l.lanes with
          replaced := 0xF
          verifying := none } }).goDown n 2
    (ok = true → exec (.laneSwapVerify n good) s = .next ((s.modLink n fun l => { l with
      downHeld := false
      ctlOut := l.ctlOut ++ [.lane 3 lane]
      lanes := { l.lanes with verifying := none } }).clearCause (.linkDown n))) ∧
    (ok = false → exec (.laneSwapVerify n good) s = .next (s1.logFault (s1.fault 0x109 7 (n + lane.toNat * 16)))))

/-- PART_ENABLE of an OFF partition puts the pending resources in force and, where they break a rule, records F-0601
with the lowest field and is OFF; where they overlap a partition being scrubbed, or the reset scrub has not ended, it
is WAIT_RESOURCES; else it is ACTIVE with all keys empty but a fresh one in slot 0 and its budget range set. During a
scrub an enable is chained. TEARDOWN of an ACTIVE partition checks its sync state, empties its pools, stops its tiles
with their watches, closes its rounds, clears its tables, sets and keys, ends its run of the mapper, its plan and,
where none is left, the job's holds, and begins its scrub; it takes back a chained or a waiting enable. SCRUB_DONE,
after the scrub's time, erases every tile and pseudo-channel, makes each pseudo-channel whose writes failed unusable
with F-0604, and is OFF, or enables again where that was chained; waiting partitions and binds go on. The scrub's time
and F-0604's word are the model's (notes/assumptions/46.md). (15_partitions_and_security.md) -/
def Obligations.PartitionsComplete : Prop :=
  (∀ (p : PartId) (s : State), s.ready = true → (s.pt p).state = 0#3 →
    let r := (s.pt p).pendRes.getD (s.pt p).res
    let s1 := s.modPt p fun b => { b with
      res := r
      pendRes := none }
    (∀ f : Nat, s1.enableFails p r = some f → exec (.partEnable p) s =
      .next ((s1.logFault (s1.fault 0x601 0xE (p + f * 256) (some p.val))).setPartState p 0)) ∧
    (s1.enableFails p r = none → s1.enableWaits p r = true → exec (.partEnable p) s = .next (s1.setPartState p 4)) ∧
    (s1.enableFails p r = none → s1.enableWaits p r = false → exec (.partEnable p) s =
      .next ((((s1.rng 512).2.modPt p fun b => { b with
        keys := { PartKeys.reset with xts := vset b.keys.xts 0 (some (s1.rng 512).1) } }).modBd p fun b => { b with
          base := r.bktBase
          count := r.bktCount }).setPartState p 1))) ∧
  (∀ (p : PartId) (s : State), s.ready = true →
    ((s.pt p).state = 2#3 → exec (.partEnable p) s = .next (s.setPartState p 3)) ∧
    ((s.pt p).state = 1#3 →
      let s1 := (s.syncCheck p).emptyPools p
      let s2 := (rowTiles (s.pt p).res.rows).foldl (fun s t => (s.modTile t Tile.stop).modTs t fun _ => TileSync.reset) s1
      let s3 := s2.modSy p fun y => { y with barriers := Vector.replicate 32 Barrier.reset }
      let s4 := ((s3.clearTables p).dropRun p false).setWings p 0
      let s5 := s4.modPt p fun b => { b with
        stage := CfgSet.reset
        wings := CfgSet.reset
        rebound := none
        keys := PartKeys.reset
        wlRunning := none
        curtainArm := none
        curtainPause := none
        launched := none
        relaunchAt := none
        resumeUnit := none
        faultStop := false
        stageReady := []
        epoch := 0
        scrubStart := s4.wall
        scrubEnd := s4.wall + scrubTime }
      exec (.teardown p) s = .next (s5.setPartState p 2).leaveJob.refreshFabric) ∧
    ((s.pt p).state = 3#3 → exec (.teardown p) s = .next (s.setPartState p 2)) ∧
    ((s.pt p).state = 4#3 → exec (.teardown p) s = .next (s.setPartState p 0))) ∧
  (∀ (p : PartId) (fails : List (StackId × ChId)) (s : State), s.alive = true → (s.pt p).scrubEnd ≤ s.wall →
    let s1 := (fails.filter fun x => (s.pt p).res.slice.getLsbD x.2.val).foldl (fun s x => s.scrubFailed p x.1 x.2) (s.erase p)
    ((s.pt p).state = 2#3 → exec (.scrubDone p fails) s = .next (s1.setPartState p 0).retryWaiting.continueRun) ∧
    ((s.pt p).state = 3#3 → exec (.scrubDone p fails) s = .next (s1.enable p).retryWaiting.continueRun)) ∧
  (∀ (p k c : Nat) (s : State),
    let w := s.draw 26
    let s1 := w.2.modChan k c fun x => { x with usable := false }
    s.scrubFailed p k c = s1.logFault (s1.fault 0x604 5 (stackObj c w.1.toNat) (some p) k))

/-- WINGS_LOAD of an active partition with no load running keeps its source and starts LOADING, or waits behind an
armed Curtain. WINGS_LOAD_DONE puts what came into Wings, LOADED once image and parameters are present, or leaves it
EMPTY with ERROR, and signals vector 4. CURTAIN_ARM needs Wings BOUND, else F-0310; with no plan launched it exchanges
the sets at once; else its count must be a frame tick, and a boundary of a serving plan, else F-0310, and not passed,
else F-0304. CURTAIN at the armed count, with no record of that tick left, exchanges: with equal images the parameters
only, else the image Curtain, which checks the sync state, loads the new plan's tiles and pauses them for PAUSE_US of
the shared reference; the old Stage is then BOUND in Wings with the budget values now in force; an open watch or round
raises F-0405 instead, and Wings is BOUND again. After the pause the new plan runs, under a DATA_LATE cause where a
preload is not complete. That Wings is BOUND again is the model's (notes/assumptions/58.md).
(15_partitions_and_security.md; 02_plan_time_and_statue_hold.md; 11_synchronisation.md) -/
def Obligations.WingsAndCurtainsComplete : Prop :=
  (∀ (p : PartId) (s : State), s.ready = true → (s.pt p).state = 1#3 → (s.pt p).wlRunning = none →
    let s1 := s.modPt p fun b => { b with wlRunning := some (b.wlAddr, b.wlLen, b.wlTarget) }
    ((s.pt p).wingsState = 5#3 → exec (.wingsLoad p) s = .next (s1.setWings p 6)) ∧
    ((s.pt p).wingsState ≠ 5#3 → exec (.wingsLoad p) s =
      .next (((s1.dropRun p true).modPt p fun b => { b with wings := { b.wings with mapped := false } }).setWings p 1))) ∧
  (∀ (p : PartId) (r : LoadResult) (run : BitVec 64 × BitVec 32 × Bool) (s : State), s.alive = true →
    (s.pt p).wlRunning = some run → (s.pt p).wingsState = 1#3 →
    let s1 := s.modPt p fun x => { x with wlRunning := none }
    (loadInto (s.pt p).wings run r = none → exec (.wingsLoadDone p r) s = .next ((s1.loadFailed p (r = .error)).signal 0 4)) ∧
    (∀ w : CfgSet, loadInto (s.pt p).wings run r = some w →
      let s2 := s1.modPt p fun x => { x with wings := w }
      exec (.wingsLoadDone p r) s = .next ((if w.image.isSome && w.params.isSome then s2.setWings p 2 else s2).signal 0 4))) ∧
  (∀ (p : PartId) (s : State), s.ready = true →
    let g := (s.pt p).curtainAt.toNat
    let s1 := s.modPt p fun b => { b with curtainRejected := true }
    let reject := s1.logFault (s1.fault 0x310 0xC (g % 2 ^ 32) (some p.val))
    ((s.pt p).wingsState ≠ 4#3 → exec (.curtainArm p) s = .next reject) ∧
    ((s.pt p).wingsState = 4#3 → (s.pt p).launched = none → exec (.curtainArm p) s =
      .next ((((s.exchange p).installMapping p).loadTiles p).writeProfiles p)) ∧
    ((s.pt p).wingsState = 4#3 → (s.pt p).launched ≠ none →
      let ok := s.isTick p g && (s.stepFrames p = 0 || s.isBoundary p g)
      (ok = false → exec (.curtainArm p) s = .next reject) ∧
      (ok = true → g < s.plan.geyser → exec (.curtainArm p) s =
        .next (s.faultHold (s.fault 0x304 0xC (g % 2 ^ 32) (some p.val) 0))) ∧
      (ok = true → s.plan.geyser ≤ g → exec (.curtainArm p) s =
        .next ((s.modPt p fun x => { x with curtainArm := some g }).setWings p 5)))) ∧
  (∀ (p : PartId) (c : Nat) (s : State), s.alive = true → (s.pt p).curtainArm = some c → s.plan.geyser = c → s.recordLeft c = false →
    (∀ x : Nat × Nat × Option Nat, firstSync (s.openSync p) = some x →
      let s1 := s.modPt p fun b => { b with curtainArm := none }
      let s2 := if (s1.pt p).wlRunning.isSome then s1.beginLoad p else s1.setWings p 4
      exec (.curtain p) s = .next (s2.faultHold (s2.fault 0x405 3 (x.2.1 + x.1 * 65536) (some p.val)))) ∧
    (firstSync (s.openSync p) = none → (s.pt p).sameImage = true → exec (.curtain p) s =
      .next ((((s.exchange p).installMapping p).keepRunning s p).writeProfiles p)) ∧
    (firstSync (s.openSync p) = none → (s.pt p).sameImage = false →
      let s1 := (s.keepReturns p).syncCheck p
      let s2 := (s1.tilesOf p).foldl (fun s t => s.modTs t fun _ => TileSync.reset) s1
      let s3 := s2.exchange p
      let s4 := s3.modPt p fun b => { b with
        launched := some c
        relaunchAt := none
        resumeUnit := none
        tickAt := c
        frameBase := s.frameNo p
        stepBase := s.unitNo p
        stageReady := []
        epoch := 0
        curtainPause := some (s3.wall + ceilDiv (((s3.img p).map (·.pauseUs)).getD 1 * 625) 4 * tuLinkRef, c) }
      let s5 := (((s4.installMapping p).loadTiles p).writeProfiles p).primeTiles p c
      exec (.curtain p) s = .next { s5 with plan := { s5.plan with counterWasStopped := true } })) ∧
  (∀ (p : PartId) (s : State), (s.img p).bind (·.serving) = none →
    let b := s.pt p
    let s1 := s.modPt p fun b => { b with
      stage := b.wings
      wings := { b.stage with params := b.stage.params.map fun (q : Params) => { q with bud := (s.bd p).cfg } }
      rebound := none
      curtainArm := none
      curtains := satInc b.curtains }
    let s2 := s1.modBd p fun x => match b.wings.params with
      | some q => { x with cfg := q.bud }
      | none => x
    let s3 := s2.modSq p fun q => { q with declChecked := false }
    let s4 := if b.wings.image.any (·.serving.isSome) && !keepsRequests b.stage b.wings then s3.resetRequests p else s3
    s.exchange p = if b.wlRunning.isSome then s4.beginLoad p else s4.setWings p (if b.stage.image.isSome then 4 else 0)) ∧
  (∀ (p : PartId) (ready : Bool) (e c : Nat) (s : State), s.alive = true → (s.pt p).curtainPause = some (e, c) → e ≤ s.wall →
    let s1 := (s.modPt p fun b => { b with curtainPause := none }).startTiles p
    exec (.curtainPauseEnd p ready) s = .next (if ready then s1 else s1.raiseCause 1 (.preload p))) ∧
  (∀ (p : PartId) (s : State), (s.pt p).curtainPause = none → exec (.curtainPauseEnd p true) s = .next (s.clearCause (.preload p)))

/-- FLR puts the partition's function and its vectors at their reset values, discards and counts its queued writes,
discards its intake fields, the cancellations that wait and its staging reads, and ends within 100 ms. A hot reset
takes the link down and puts every function's configuration at its reset values. Bus Master Enable lets the function
be a master and issues staging reads. Unmasking a vector clears its mask and pending bits with MSI-X enabled and
signals a message that was pending. D3hot is entered while every partition is OFF, or becomes pending and is entered
once they are. A refused access is counted, a read also completing unsupported. The oldest queued write of a bus
master leaves while the link is up. Training ends in L0 at a speed and width of the endpoint. When FLR ends is a free
value (notes/assumptions/49.md), and the MSI-X enable is presumed (notes/assumptions/6.md). (16_host_interface.md) -/
def Obligations.HostLinkCommandsComplete : Prop :=
  (∀ (p : PartId) (s : State), s.alive = true →
    let f := p.val + 1
    let s1 := (s.draw 64).2.modFn f fun x => { x with
      bme := false
      msixEn := false
      d3Pending := false
      d3 := false
      msixTable := Vector.replicate 8 0
      mask := 0xFF
      pba := 0
      flrEnd := some (s.wall + (s.draw 64).1.toNat % (100 * tuMs + 1)) }
    let s2 : State := { s1 with pcie := { s1.pcie with
      outq := s.pcie.outq.filter fun w => w.fn ≠ f
      discarded := satAdd s.pcie.discarded (s.pcie.outq.filter fun w => w.fn = f).length
      stgReads := s.pcie.stgReads.filter fun r => r.part.toNat ≠ p.val } }
    exec (.flr p) s = .next (issueStaging 4096 (s2.modSq p fun q => { q with
      intake := []
      marked := []
      hdr := { q.hdr with
        base := 0
        log2 := 0
        seqword := 0
        irq := false } }))) ∧
  (∀ s : State, s.alive = true → exec .hotReset s = .next { s with pcie := { s.pcie with
    up := false
    speed := 0
    width := 0
    flit := false
    training := true
    fns := s.pcie.fns.map fun x => { x with
      bme := false
      msixEn := false
      d3Pending := false
      d3 := false } } }) ∧
  (∀ (f : FnId) (s : State), s.alive = true →
    exec (.busMasterEnable f) s = .next (issueStaging 4096 (s.modFn f fun x => { x with bme := true })) ∧
    ∀ v : VecIx,
      let s1 := s.modFn f fun x => { x with
        msixEn := true
        mask := x.mask &&& ~~~(BitVec.ofNat 8 (2 ^ v.val))
        pba := x.pba &&& ~~~(BitVec.ofNat 8 (2 ^ v.val)) }
      exec (.msixUnmask f v) s = .next (if (s.fn f).pba.getLsbD v then s1.signal f v else s1)) ∧
  (∀ s : State,
    let s1 := s.modFn 0 fun x => { x with
      d3Pending := false
      d3 := true }
    (s.alive = true → s.allOff = true → exec .d3hotRequest s = .next s1) ∧
    (s.alive = true → s.allOff = false → exec .d3hotRequest s = .next (s.modFn 0 fun x => { x with d3Pending := true })) ∧
    ((s.fn 0).d3Pending = true → s.allOff = true → exec .d3hotEntry s = .next s1)) ∧
  (∀ (w : Bool) (s : State), s.alive = true → exec (.invalidAccess w) s = .next { s with pcie := { s.pcie with
    accessErr := satInc s.pcie.accessErr
    unsupported := s.pcie.unsupported || !w } }) ∧
  (∀ (f : FnId) (w : OutWrite) (s : State), s.alive = true → s.pcie.up = true → (s.fn f).bme = true →
    (s.pcie.outq.find? fun w => w.fn = f.val) = some w →
    exec (.outboundQueueSend f) s = .next { s with pcie := { s.pcie with
      outq := s.pcie.outq.erase w
      sent := [w] } }) ∧
  (∀ (speed : BitVec 3) (width : BitVec 5) (flit : Bool) (s : State), s.alive = true → s.pcie.training = true →
    1 ≤ speed.toNat → speed.toNat ≤ 6 → width.toNat ∈ [1, 2, 4, 8, 16] → (speed = 6#3 → flit = true) →
    exec (.pcieLinkUp speed width flit) s = .next { s with pcie := { s.pcie with
      up := true
      training := false
      speed := speed
      width := width
      flit := flit } })

/-- SYS_RESET, PERST and an undervoltage put every register at its reset value but the fuses, the flash, the version
floor, the chip secret, the identity record and the model's own counter and queue, with the part in reset and its
outputs high-impedance; releasing the last input that holds it lets it leave reset, while another keeps it. A tile's
reset scrub leaves it zero and empty, a stack's every pseudo-channel zero. A rail fault, a lost clock and a
temperature limit are recorded once each as F-0805, F-0803 and F-0804 and drive ALERT_N; without LINK_REFCLK every
port goes down. A thermal trip stops every clock. ALERT_N is released below 102 and 92 degrees with every rail and
clock good. Registers with no reset value given read 0 (notes/assumptions/3.md). (19_electrical_and_package.md;
03_tile_and_mesh.md) -/
def Obligations.PowerAndResetComplete : Prop :=
  (∀ s : State,
    let asserted : Pins := { Pins.reset with
      sysResetN := s.pins.sysResetN
      perstN := s.pins.perstN
      inReset := s.pins.inReset
      uvReset := s.pins.uvReset
      hiZ := true }
    exec .sysReset s = .next { s.cold with pins := { asserted with
      sysResetN := false
      inReset := true } } ∧
    exec .perst s = .next { s.cold with pins := { asserted with
      perstN := false
      inReset := true } } ∧
    (∀ r : RailIx, exec (.railUndervoltage r) s = .next { s.cold with pins := { asserted with uvReset := true } }) ∧
    (s.pins.inReset = true → s.pins.uvReset = false → exec .resetRelease s = .next { s.cold with pins := Pins.reset }) ∧
    (s.pins.inReset = true → s.pins.uvReset = true → exec .resetRelease s = .next { s with pins := { s.pins with
      sysResetN := true
      perstN := true
      inReset := false } }) ∧
    (s.pins.uvReset = true → s.pins.inReset = false → exec .railRestored s = .next { s.cold with pins := Pins.reset }) ∧
    (s.pins.uvReset = true → s.pins.inReset = true → exec .railRestored s = .next { s with pins := { s.pins with uvReset := false } })) ∧
  (∀ s : State, s.cold.fuses = s.fuses ∧ s.cold.flash = s.flash ∧ s.cold.sec.secret = s.sec.secret ∧
    s.cold.sec.identityRec = s.sec.identityRec ∧ s.cold.fwu.floor = s.fwu.floor ∧ s.cold.plan = PlanRegs.reset ∧
    s.cold.clk = ClkRegs.reset ∧ s.cold.snap = SnapRegs.reset ∧ s.cold.top.log = [] ∧ s.cold.wall = 0) ∧
  (∀ (t : TileId) (s : State), s.alive = true → s.fwu.booted = true → (s.tile t).state = 1#3 → (s.tile t).scrubbed = false →
    let s1 := s.modTile t Tile.scrub
    exec (.tileResetScrubDone t) s = .next ({ s1 with top := { s1.top with
      scrubbed := s1.top.scrubbed || s1.tilesScrubbed } } : State).retryWaiting.continueRun) ∧
  (∀ (k : StackId) (s : State), s.alive = true → (s.stk k).state = 2#2 → (s.stk k).scrubbed = false →
    exec (.stackResetScrubDone k) s = .next (s.modStk k fun y => { y with
      ch := y.ch.map Channel.scrub
      scrubbed := true }).retryWaiting.continueRun) ∧
  (∀ (r : RailIx) (s : State), s.alive = true → nsHas r.val s.pins.railBad = false →
    let s1 : State := { s with pins := { s.pins with railBad := nsIns r.val s.pins.railBad } }
    exec (.railFault r) s = .next (s1.logFault (s1.fault 0x805 0x12 r.val)).alert) ∧
  (∀ (link : Bool) (s : State), s.alive = true → (if link then s.pins.linkRefLost else s.pins.sysRefLost) = false →
    let s1 : State := { s with pins := { s.pins with
      linkRefLost := s.pins.linkRefLost || link
      sysRefLost := s.pins.sysRefLost || !link } }
    let s2 := if link then s1.dropPorts else s1
    exec (.refclkLost link) s = .next (s2.logFault (s2.fault 0x803 0x12 (bn link))).alert) ∧
  (∀ (x : SensorIx) (t : BitVec 8) (s : State), s.alive = true → (if 20 ≤ x.val then 95 else 105) ≤ t.toNat →
    exec (.thermalLimit x t) s = .next ((s.sense x t).logFault ((s.sense x t).fault 0x804 0x12 x.val)).alert ∧
    exec (.thermalTrip x) s = .next { s with pins := { s.pins with
      tripped := true
      thermTripN := false } }) ∧
  (∀ (tj : BitVec 8) (ts : List (BitVec 8)) (s : State), s.alive = true → tj.toNat < 102 → ts.length = 8 → (∀ t ∈ ts, t.toNat < 92) →
    let s1 := ts.zipIdx.foldl (fun s x => s.modStk x.2 fun y => y.warm x.1) s
    exec (.alertNRelease tj ts) s = .next { s1 with
      top := { s1.top with tempC := tj }
      pins := { s1.pins with
        tj := tj
        alertN := true
        railBad := []
        sysRefLost := false
        linkRefLost := false } })

/-- In a part out of reset: a misaligned access is counted and refused. REGISTER_WRITE by the physical function below
0x2000000 writes the register; a virtual function clears the W1C bits of its status page. While FW_READY is 0, a block
other than TOP, SNAP, PCIE, FWU and SEC ignores writes and reads its reset values. A read delivers the value as it
stands and clears or pops what it clears. BIT_ALIAS_ACCESS reads the bit in bit 0 and nothing else changes; written 1
it sets an RW bit or acts as a write of only that bit to a WO or W1S bit, written 0 it clears an RW bit and leaves a
WO or W1S bit, and a W1C bit is cleared by 0 and ignores 1, a read-only bit ignores both. SEQ_ENTRY_SEL records the
index and copies the 64 bytes of that entry. (18_register_conventions_and_map.md; 16_host_interface.md;
09_serving_steps.md) -/
def Obligations.RegisterAccessesComplete : Prop :=
  (∀ (off : BitVec 26) (v : BitVec 32) (w : Bool) (f : FnId) (s : State), s.alive = true → off.toNat % 4 ≠ 0 →
    let refused (w : Bool) : State := { s with pcie := { s.pcie with
      accessErr := satInc s.pcie.accessErr
      unsupported := s.pcie.unsupported || !w } }
    exec (.registerWrite f off v) s = .next (refused true) ∧ exec (.rcCounterRead f off) s = .next (refused false) ∧
    (0x2000000 ≤ off.toNat → exec (.bitAliasAccess off w v) s = .next (refused w))) ∧
  (∀ (off : BitVec 26) (v : BitVec 32) (s : State), s.alive = true → off.toNat % 4 = 0 → off.toNat < 0x2000000 →
    (exec (.registerWrite 0 off v) s = .next (s.writeReg off.toNat v)) ∧
    (s.top.fwReady = false → earlyBlock off.toNat = false →
      exec (.registerWrite 0 off v) s = .next s ∧
      exec (.rcCounterRead 0 off) s = .next { s with pcie := { s.pcie with readback := (s.blank.readBlock off.toNat).setWidth 64 } }) ∧
    ((s.top.fwReady = true ∨ earlyBlock off.toNat = true) → exec (.rcCounterRead 0 off) s =
      .next { s.afterRead off.toNat with pcie := { (s.afterRead off.toNat).pcie with readback := (s.readBlock off.toNat).setWidth 64 } })) ∧
  (∀ (f : FnId) (v : BitVec 32) (s : State), s.alive = true → f.val ≠ 0 →
    exec (.registerWrite f 0x1004 v) s = .next (s.modFn f fun x => { x with lastFaultValid := x.lastFaultValid && !bit v 16 }) ∧
    exec (.registerWrite f 0x1008 v) s = .next (s.modFn f fun x => { x with
      evState := x.evState && !bit v 0
      evFault := x.evFault && !bit v 1 }) ∧
    ∀ off : BitVec 26, off.toNat % 4 = 0 → exec (.rcCounterRead f off) s =
      .next { s with pcie := { s.pcie with readback := (s.readFn f off.toNat).setWidth 64 } }) ∧
  (∀ (off : BitVec 26) (v : BitVec 32) (s : State), s.alive = true → off.toNat % 4 = 0 → 0x2000000 ≤ off.toNat →
    let o := (off.toNat - 0x2000000) / 128 * 4
    let b := (off.toNat - 0x2000000) / 4 % 32
    let acc := accOf o
    let one : BitVec 32 := BitVec.ofNat 32 (2 ^ b)
    let rest := s.writtenReg o &&& acc.rw
    exec (.bitAliasAccess off false v) s = .next { s with pcie := { s.pcie with
      readback := BitVec.ofNat 64 (if bit (s.readReg o) b then 1 else 0) } } ∧
    (bit acc.rw b = true → bit v 0 = true → exec (.bitAliasAccess off true v) s = .next (s.writeReg o (rest ||| one))) ∧
    (bit acc.rw b = true → bit v 0 = false → exec (.bitAliasAccess off true v) s = .next (s.writeReg o (rest &&& ~~~one))) ∧
    (bit acc.rw b = false → bit acc.act b = true → bit v 0 = true → exec (.bitAliasAccess off true v) s =
      .next (s.writeReg o (rest ||| one))) ∧
    (bit acc.rw b = false → bit acc.act b = true → bit acc.w1c b = false → bit v 0 = false → exec (.bitAliasAccess off true v) s = .next s) ∧
    (bit acc.rw b = false → bit acc.act b = false → bit acc.w1c b = true → exec (.bitAliasAccess off true v) s =
      .next (if bit v 0 then s else s.writeReg o (rest ||| one))) ∧
    (bit acc.rw b = false → bit acc.act b = false → bit acc.w1c b = false → exec (.bitAliasAccess off true v) s = .next s)) ∧
  (∀ (v : BitVec 32) (s : State), s.ready = true →
    ∃ copy : Vector (BitVec 32) 16, (∀ k (h : k < 16), copy[k] = BitVec.ofNat 32 (fieldN (s.ent (v.toNat % 16384)).bytes (4 * k) 4)) ∧
      exec (.seqEntrySel v) s = .next { s with seq := { s.seq with entrySel := BitVec.ofNat 14 (v.toNat % 16384), entryCopy := copy } })

/-- ATTESTATION_REQUEST, once the ROM has given the part its identity, makes the report of the chip, or of the
partition named unless it is being scrubbed: a new counter value, DONE and vector 3; before that, or refused, it only
clears DONE. KEY_DELIVERY takes the record in SEC.BUF: the key it wraps is installed in the partition's slot or as a
management key; where it wraps none, SEC.DELIVER shows the failure and F-0602 names subject and slot; vector 3 follows
either way. MGMT_PROMOTE makes the next management key the current one and forgets what was received under any other
epoch. The ciphers and signatures are free functions (notes/assumptions/10.md), so what they open or sign is not
stated. (15_partitions_and_security.md) -/
def Obligations.SecurityCommandsComplete : Prop :=
  (∀ s : State, s.alive = true → s.sec.identity = true →
    let s1 : State := { s with sec := { s.sec with reqDone := false } }
    (s.sec.reqChip = true → exec .attestationRequest s = .next (s1.makeReport none)) ∧
    (s.sec.reqChip = false → (s.pt s.sec.reqPart.toNat).state ≠ 2#3 → (s.pt s.sec.reqPart.toNat).state ≠ 3#3 →
      exec .attestationRequest s = .next (s1.makeReport (some s.sec.reqPart.toNat))) ∧
    (s.sec.reqChip = false → ((s.pt s.sec.reqPart.toNat).state = 2#3 ∨ (s.pt s.sec.reqPart.toNat).state = 3#3) →
      exec .attestationRequest s = .next s1)) ∧
  (∀ s : State, s.sec.identity = false → exec .attestationRequest s = .next { s with sec := { s.sec with reqDone := false } }) ∧
  (∀ s : State,
    let t := s.makeReport none
    t.sec.counter = s.sec.counter + 1 ∧ t.sec.reqDone = true ∧ t.sec.secret = s.sec.secret ∧ t.parts = s.parts) ∧
  (∀ s : State, s.alive = true →
    let r := Memory.readBytes s.sec.input 0 1200
    let who := subjectOf (fieldN r 2 1)
    let p : Option Nat := match who with
      | .part p => some p
      | _ => none
    let failed := ({ s with sec := { s.sec with deliverFailed := true } } : State).logFault
      (s.fault 0x602 0xE (fieldN r 2 1 % 16 + fieldN r 3 1 * 256) p)
    exec .keyDelivery s = .next ((match s.unwrapKey r, who with
      | some key, .part p => s.installKey p (fieldN r 3 1) key
      | some key, .chip => s.installMgmt (BitVec.ofNat 32 (fieldN r 4 4)) key
      | _, _ => failed).signal 0 3) ∧
    (s.pairOf who = none → exec .keyDelivery s = .next (failed.signal 0 3))) ∧
  (∀ (k : BitVec 32 × BitVec 256) (s : State), s.sec.mgmtNext = some k → exec .mgmtPromote s = .next { s with
    sec := { s.sec with
      mgmtCur := some k
      mgmtNext := none }
    vent := { s.vent with seen := s.vent.seen.filter fun x => x.1 = k.1 } })

/-- While the part is out of reset, its Ethernet link up and its ROM booted: a write request in octet mode with a
block size of 1,024 to 1,428 erases the staging slot, is RECEIVING and answers OACK with vector 7, is answered error 2
on a trial boot not confirmed and error 3 during a transfer, and any other is dropped and counted; ARP and echo to the
K2's address are answered; any other frame is dropped and counted. A PTP event message of type 0 to 3 is stamped by
the chosen domain, or counted lost while 64 stamps wait, and a pop reads the oldest stamp's fraction. The I3C address
commits once. A target without a dynamic address takes one. BYPASS selects its one-bit register, IDCODE 0x1B2C6A4F,
SAMPLE_PRELOAD the cells, EXTEST drives the pins. When frames are answered at all is the model's reading
(notes/assumptions/50.md), and the JTAG details are presumed (notes/assumptions/6.md).
(17_service_update_time_check.md; 16_host_interface.md) -/
def Obligations.ServicePortComplete : Prop :=
  (∀ (mac : BitVec 48) (octet : Bool) (blk : Nat) (s : State), s.frameServed = true →
    let dropped : State := { s with svc := { s.svc with rxDrop := satInc s.svc.rxDrop } }
    let ok := octet && decide (1024 ≤ blk) && decide (blk ≤ 1428)
    let locked := s.fwu.trial && !s.fwu.confirmed
    let began : State := { s with
      fwu := { s.fwu with
        tftp := some mac
        stage := 1 }
      flash := s.flash.setSlot (!s.fwu.running) Slot48.reset
      svc := { s.svc with frameOut := some (.tftpOack mac blk) } }
    exec (.tftpWriteRequest mac octet none) s = .next dropped ∧ exec .serviceFrameDrop s = .next dropped ∧
    (ok = false → exec (.tftpWriteRequest mac octet (some blk)) s = .next dropped) ∧
    (ok = true → locked = true → exec (.tftpWriteRequest mac octet (some blk)) s =
      .next { s with svc := { s.svc with frameOut := some (.tftpError mac 2) } }) ∧
    (ok = true → locked = false → s.fwu.tftp ≠ none → exec (.tftpWriteRequest mac octet (some blk)) s =
      .next { s with svc := { s.svc with frameOut := some (.tftpError mac 3) } }) ∧
    (ok = true → locked = false → s.fwu.tftp = none → exec (.tftpWriteRequest mac octet (some blk)) s = .next (began.signal 0 7))) ∧
  (∀ (mac : BitVec 48) (ip : BitVec 32) (body : List (BitVec 8)) (s : State), s.frameServed = true →
    exec (.arpRequest mac ip s.svc.ipv4) s = .next { s with svc := { s.svc with frameOut := some (.arp mac ip s.svc.ipv4) } } ∧
    exec (.icmpEcho mac ip s.svc.ipv4 body) s = .next { s with svc := { s.svc with frameOut := some (.echo mac ip body) } }) ∧
  (∀ (tx : Bool) (ty : BitVec 4) (id : BitVec 16) (s : State), s.alive = true → s.svc.ethLink = true → s.svc.ptpEn = true → ty.toNat ≤ 3 →
    (64 ≤ s.svc.ptpFifo.length → exec (.ptpEventTimestamp tx ty id) s = .next { s with svc := { s.svc with ptpLost := satInc s.svc.ptpLost } }) ∧
    (s.svc.ptpFifo.length < 64 → exec (.ptpEventTimestamp tx ty id) s = .next { s with svc := { s.svc with
      ptpFifo := s.svc.ptpFifo ++ [{
        ns := s.capture s.svc.ptpDom
        frac := (s.time.dom s.svc.ptpDom).frac
        seqId := id
        msgType := ty
        tx := tx }] } })) ∧
  (∀ (x : PtpStamp) (rest : List PtpStamp) (s : State), s.ready = true → s.svc.ptpFifo = x :: rest →
    exec .ptpTsPop s = .next { s with
      pcie := { s.pcie with readback := x.frac.setWidth 64 }
      svc := { s.svc with ptpFifo := rest } }) ∧
  (∀ (a : BitVec 24) (d : BitVec 7) (up : Bool) (s : State), s.alive = true →
    (s.pcie.selfValid = false → exec (.i3cCommitAddress a) s = .next { s with
      svc := { s.svc with i3cChip := a }
      pcie := { s.pcie with
        self := a
        selfValid := true } }) ∧
    (s.pcie.selfValid = true → exec (.i3cCommitAddress a) s = .next { s with svc := { s.svc with i3cChip := a } }) ∧
    (s.svc.i3cAssigned = false → exec (.entdaa d) s = .next { s with svc := { s.svc with
      i3cAddr := d
      i3cAssigned := true } }) ∧
    exec (.sgmiiLinkChange up) s = .next { s with svc := { s.svc with ethLink := up } }) ∧
  (∀ (cells : List Bool) (s : State),
    exec .bypass s = .next { s with svc := { s.svc with
      jtagIr := .bypass
      jtagDr := 0
      extest := false } } ∧
    exec .idcode s = .next { s with svc := { s.svc with
      jtagIr := .idcode
      jtagDr := 0x1B2C6A4F
      extest := false } } ∧
    exec (.samplePreload cells) s = .next { s with svc := { s.svc with
      jtagIr := .samplePreload
      jtagDr := 0
      extest := false
      jtagPins := cells } } ∧
    exec .extest s = .next { s with svc := { s.svc with
      jtagIr := .extest
      jtagDr := 0
      extest := true } })

/-- ROM_BOOT, once after reset, loads the whole slot that the governing record and the checks choose, with its
manifest's values and stacks that train from then on (notes/assumptions/67.md), records F-0607 where it fell back, and
halts where the slot fails its checks. FW_LOAD_DONE enables every port and lets every block take accesses. A
transfer's end acknowledges and stores the image: verified, it is PENDING and STAGED; else FAILED with the failed
check and F-0605; vector 7 follows. SELFTEST_PASS marks the self-test and confirms where the host need not.
HEALTH_CONFIRM of a trial boot, within its time and after the self-test, makes TRIAL active, records the READY stacks
and signals vector 7. Expired, F-0606. CANCEL_STAGE clears PENDING and is IDLE. SVN_COMMIT raises the floor to the
running SVN while TRIAL is 0. An update of the boot record governs from then on. What a record written afresh holds is
partly free (notes/assumptions/4.md). (17_service_update_time_check.md; 19_electrical_and_package.md) -/
def Obligations.FirmwareUpdateComplete : Prop :=
  (∀ s : State, s.alive = true → s.fwu.booted = false → s.fwu.halted = false →
    let p := match s.flash.governing with
      | some r => s.pickSlot r
      | none => s.pickFresh
    let x := p.2.flash.slot p.1.slot
    let t : State := { p.2 with
      fwu := { p.2.fwu with
        running := p.1.slot
        trial := ((p.2.flash.governing.map (·.trial)).getD 0xFF) ≠ 0xFF#8
        fellBack := p.1.fell
        version := x.version
        svn := x.svn
        planAbi := x.planAbi
        hostConfirm := x.hostConfirm
        digest := x.digest
        booted := true
        fwFallback := p.1.fell }
      stackBanks := p.2.stackBanks.map fun y => if y.state = 0#2 then { y with state := 1 } else y
      links := p.2.links.map fun l => { l with
        verMin := x.linkMin
        verMax := x.linkMax } }
    (p.2.verifies p.1.slot = false → exec .romBoot s = .next { p.2 with fwu := { p.2.fwu with halted := true } }) ∧
    (p.2.verifies p.1.slot = true → p.1.fell = false → exec .romBoot s = .next t) ∧
    (p.2.verifies p.1.slot = true → p.1.fell = true → exec .romBoot s = .next (t.logFault (t.fault 0x607 0x12 (bn p.1.left))))) ∧
  (∀ s : State, s.alive = true → s.fwu.booted = true → s.top.fwReady = false →
    let s1 := (List.range 12).foldl (fun s n => s.writeEnable n true) s
    exec .fwLoadDone s = .next { s1 with
      top := { s1.top with fwReady := true }
      sec := { s1.sec with identity := true } }) ∧
  (∀ (mac : BitVec 48) (img : Slot48) (s : State), s.alive = true → s.fwu.tftp = some mac →
    let b := !s.fwu.running
    let x : Slot48 := { img with present := true }
    let k := x.failedStep s.fwu.floor
    let s1 : State := { s with
      flash := s.flash.setSlot b x
      fwu := { s.fwu with tftp := none }
      svc := { s.svc with frameOut := some (.tftpAck mac) } }
    let good := s1.updateRec fun r => { r with pending := if b then 1 else 0 }
    let bad : State := { s1 with fwu := { s1.fwu with
      stage := 4
      failCode := BitVec.ofNat 3 k } }
    (k = 0 → exec (.tftpTransferEnd img) s = .next (({ good with fwu := { good.fwu with
      stage := 3
      staged := img.version } } : State).signal 0 7)) ∧
    (k ≠ 0 → exec (.tftpTransferEnd img) s = .next ((bad.logFault (bad.fault 0x605 0x12 (bn b) none k)).signal 0 7))) ∧
  (∀ (host : Bool) (s : State), s.alive = true → s.fwu.booted = true → s.fwu.trial = true → s.fwu.confirmed = false → 0 < s.confirmLeft →
    (host = true ∨ s.fwu.hostConfirm = false) →
    let ok : BitVec 8 := ofBits 8 ((List.range 8).filter fun k => (s.stk k).state = 2#2)
    let f (r : BootRec) : BootRec := { r with
      active := r.trial
      trial := 0xFF
      stackOk := ok }
    let s1 := s.updateRec f
    let s2 : State := { s with fwu := { s.fwu with selftest := true } }
    (s.fwu.selftest = true → exec (.healthConfirm host) s = .next (({ s1 with fwu := { s1.fwu with confirmed := true } } : State).signal 0 7)) ∧
    (s.selftestHolds = true → s.fwu.hostConfirm = false → exec .selftestPass s =
      .next (({ s2.updateRec f with fwu := { (s2.updateRec f).fwu with confirmed := true } } : State).signal 0 7))) ∧
  (∀ s : State, s.alive = true → s.fwu.booted = true → s.selftestHolds = true → s.fwu.hostConfirm = true →
    exec .selftestPass s = .next { s with fwu := { s.fwu with selftest := true } }) ∧
  (∀ s : State, s.alive = true →
    let s1 : State := { s with fwu := { s.fwu with expired := true } }
    let s2 : State := { s with fwu := { s.fwu with
      stage := 0
      tftp := none } }
    (s.fwu.trial = true → s.fwu.confirmed = false → s.fwu.expired = false → s.confirmLeft = 0 →
      exec .fwConfirmExpired s = .next ((s1.logFault (s1.fault 0x606 0x12 (bn s.fwu.running))).signal 0 7)) ∧
    exec .cancelStage s = .next (s2.updateRec fun r => { r with pending := 0xFF }) ∧
    (s.fwu.booted = true → s.fwu.trial = false → s.fwu.floor.toNat < s.fwu.svn.toNat →
      exec .svnCommit s = .next { s with fwu := { s.fwu with floor := s.fwu.svn } }) ∧
    (s.fwu.booted = true → (s.fwu.trial = true ∨ s.fwu.svn.toNat ≤ s.fwu.floor.toNat) → exec .svnCommit s = .next s)) ∧
  (∀ (r : BootRec) (f : BootRec → BootRec) (s : State), s.flash.governing = some r → (f r).seq = r.seq → r.seq.toNat + 1 < 2 ^ 32 →
    (s.updateRec f).flash.governing = some { f r with
      valid := true
      seq := r.seq + 1 })

/-- STACK_ECC_WRITEBACK admits a queued write-back. PATROL_SCRUB of a ready stack reads its next word: a correctable
error is counted and queued, an uncorrectable one poisoned and logged as F-0205. REFRESH_DEBT_TICK raises the debt by
1, at most to 8, and marks REFRESH_PENDING at 8. REFRESH_IDLE refreshes a pseudo-channel that no launched plan uses at
+1 or more. REFRESH_WINDOW, in the first pc of a window, makes the refreshes that fit it, not below a debt of -8,
after those still in progress (notes/assumptions/61.md). FORCED_REFRESH refreshes every pending pseudo-channel of the
stack and every one at +4 or more, and no other; HOLD_REFRESH every one at +6 or more during a hold, and at +1 or more
in a step switch that it fits. STACK_HOT sets HOT at 85 degrees, clears it at 82 and else keeps it. STACK_TRAIN with
result 0 makes every pseudo-channel usable with debt 0; with another the stack is FAILED, the chip FORWARD_ONLY and
F-0207 logged. (07_stacked_memory.md) -/
def Obligations.StackUpkeepComplete : Prop :=
  (∀ (k : StackId) (c : ChId) (word : BitVec 26) (s : State),
    let x := 32 * k.val + c.val
    let s1 := if s.running then s.modPch x fun z => { z with openPcs := z.openPcs ++ [s.plan.geyser] } else s
    ((s.pch x).openQueue.any fun o => o.kind = .writeBack && o.word = word.toNat) = true → s.openFree x = true →
    exec (.stackEccWriteback k c word) s = .next (s1.modPch x fun z => { z with
      correctable := alDel word.toNat z.correctable
      openQueue := z.openQueue.filter fun o => !(o.kind = .writeBack && o.word = word.toNat) })) ∧
  (∀ (k : StackId) (c : ChId) (s : State),
    let x := 32 * k.val + c.val
    let y := s.stk k
    let w := y.scrubWord.toNat
    let s1 := if s.running then s.modPch x fun z => { z with openPcs := z.openPcs ++ [s.plan.geyser] } else s
    let done := y.scrubCh ||| 2 ^ c.val
    let t := s1.modStk k fun z => z.scrubbedCh c
    y.state = 2#2 → y.scrubCh.testBit c.val = false → (s.pch x).noBetter 6 = true →
    (y.winGo.any fun a => a.ch = c.val && y.winLeft.isNone) = false → s.openFree x = true →
    ((s.pch x).unreadable w s.plan.geyser = false →
      exec (.patrolScrub k c) s = .next (match (s.pch x).ceDie w with
        | some die => t.stackCE x w die
        | none => t)) ∧
    ((s.pch x).unreadable w s.plan.geyser = true →
      exec (.patrolScrub k c) s = .next (if nsHas w (s.pch x).bad then t.stackUE x w ((t.chanOwner x).map (·.1)) else t)) ∧
    (done ≠ 2 ^ 32 - 1 → y.scrubbedCh c = { y with scrubCh := done }) ∧
    (done = 2 ^ 32 - 1 → w + 1 ≠ 37748736 → y.scrubbedCh c = { y with
      scrubCh := 0
      scrubWord := y.scrubWord + 1 }) ∧
    (done = 2 ^ 32 - 1 → w + 1 = 37748736 → y.scrubbedCh c = { y with
      scrubCh := 0
      scrubWord := 0
      scrubPasses := y.scrubPasses + 1 })) ∧
  (∀ (k : StackId) (c : ChId) (s : State), (s.stk k).state = 2#2 → (s.chan k c).debtAt ≤ s.wall →
    exec (.refreshDebtTick k c) s = .next (s.modChan k c fun z => { z with
      debt := min 8 (z.debt + 1)
      debtAt := z.debtAt + (if (s.stk k).hot then 3900 * tuNs else 7800 * tuNs)
      pending := z.pending || decide (min 8 (z.debt + 1) = 8)
      pendingPc := if !z.pending && min 8 (z.debt + 1) = 8 then s.plan.geyser else z.pendingPc })) ∧
  (∀ (k : StackId) (c : ChId) (s : State),
    let x := 32 * k.val + c.val
    s.alive = true → s.chanOwner x = none → 1 ≤ (s.pch x).debt → s.refreshing x = false →
    exec (.refreshIdle k c) s = .next (s.modPch x fun z => { z with
      debt := z.debt - 1
      refreshEnd := some (s.wall + 128 * s.clkTu + 320 * tuNs, 1) })) ∧
  (∀ (k : StackId) (c : ChId) (p l : Nat) (s : State),
    let x := 32 * k.val + c.val
    s.running = true → s.chanOwner x = some (p, l) → s.windowPhase p (s.lchDecl p l) s.plan.geyser = 0 →
    let n := ((s.lchDecl p l).len - 128) * s.clkTu / (320 * tuNs)
    let m := min n ((s.pch x).debt + 8).toNat
    let s1 := s.modChan k c fun z => { z with winN := n }
    (m = 0 → exec (.refreshWindow k c) s = .next s1) ∧
    (0 < m → s.refreshing x = false → exec (.refreshWindow k c) s = .next (s1.modChan k c fun z => { z with
      debt := z.debt - m
      refreshEnd := some (s.wall + 128 * s.clkTu + m * (320 * tuNs), m) })) ∧
    ∀ e q : Nat, 0 < m → (s.pch x).refreshEnd = some (e, q) → s.wall < e →
      exec (.refreshWindow k c) s = .next (s1.modChan k c fun z => { z with
        debt := z.debt - m
        refreshEnd := some (max (s.wall + 128 * s.clkTu) e + m * (320 * tuNs), q + m) })) ∧
  (∀ (k : StackId) (c₀ : ChId) (s : State), s.alive = true → (s.chan k c₀).pending = true →
    s.refreshing (32 * k.val + c₀.val) = false →
    (s.running = false ∨ (s.chan k c₀).pendingPc + 1184 ≤ s.plan.geyser) →
    ∃ t : State, exec (.forcedRefresh k) s = .next t ∧ t = { s with stackBanks := t.stackBanks } ∧
      (∀ k' : Nat, k' ≠ k.val → t.stk k' = s.stk k') ∧
      (t.stk k).refreshForced = satAdd (s.stk k).refreshForced ((List.range 32).filter fun c =>
        !s.refreshing (32 * k.val + c) && (s.chan k c).pending).length ∧
      (∀ c : ChId, s.refreshing (32 * k.val + c.val) = false → ((s.chan k c).pending = true ∨ 4 ≤ (s.chan k c).debt) →
        t.chan k c = { s.chan k c with
          debt := (s.chan k c).debt - 1
          refreshEnd := some (s.wall + 128 * s.clkTu + 320 * tuNs, 1)
          forced := true }) ∧
      (∀ c : ChId, (s.refreshing (32 * k.val + c.val) = true ∨ ((s.chan k c).pending = false ∧ (s.chan k c).debt < 4)) →
        t.chan k c = s.chan k c)) ∧
  (∀ (k : StackId) (s : State), s.alive = true →
    let refreshed (least : Int) (hold : Bool) (t : State) : Prop := t = { s with stackBanks := t.stackBanks } ∧
      (∀ k' : Nat, k' ≠ k.val → t.stk k' = s.stk k') ∧
      (∀ c : ChId, t.chan k c = if s.refreshing (32 * k.val + c.val) = false ∧ least ≤ (s.chan k c).debt then
        { s.chan k c with
          debt := (s.chan k c).debt - 1
          refreshEnd := some (s.wall + 128 * s.clkTu + 320 * tuNs, 1)
          inHold := (s.chan k c).inHold || hold }
        else s.chan k c)
    (s.held = true → s.clk.switching = none → ∃ t : State, exec (.holdRefresh k) s = .next t ∧ refreshed 6 true t) ∧
    ∀ (e : Nat) (st : BitVec 3), s.clk.switching = some (e, st) → s.wall + 128 * s.clkTu + 320 * tuNs ≤ e →
      ∃ t : State, exec (.holdRefresh k) s = .next t ∧ refreshed 1 false t) ∧
  (∀ (k : StackId) (x : BitVec 8) (s : State), exec (.stackHot k x) s = .next (s.modStk k fun y => { y with
    tempC := x
    hot := decide (85 ≤ x.toNat) || (y.hot && decide (82 < x.toNat)) })) ∧
  (∀ (k : StackId) (s : State), s.alive = true → (s.stk k).state.toNat ≤ 1 →
    exec (.stackTrain k 0) s = .next (s.modStk k fun y => { y with
      state := 2
      trainResult := 0
      ch := y.ch.map fun c => { c with
        usable := true
        debt := 0
        debtAt := s.wall + (if y.hot then 3900 * tuNs else 7800 * tuNs) } }) ∧
    ∀ x : BitVec 8, x ≠ 0 →
      let s1 := s.modStk k fun y => { y with
        state := 3
        trainResult := x
        ch := y.ch.map fun c => { c with usable := false } }
      let t : State := { s1 with map := { s1.map with chipState := if s1.map.chipState = 2#2 then 2 else 1 } }
      exec (.stackTrain k x) s = .next (t.logFault (t.fault 0x207 5 x.toNat none k)))

/-- STK_WIN_READ and STK_WIN_WRITE take the address, data and direction into an access that waits; a second GO is
ignored, and a GO into a slice being scrubbed ends at once with ERROR. STK_WIN_ACCESS admits the waiting access where
no better access waits: a read takes the word, a write stores the whole word. Once 222 or 150 admission cycles have
passed, GO reads 0, and a read shows its word or ERROR. STACK_OPEN_ACCESS admits the best queued access, the first
come among equals. A SEALED_LOAD of a record whose every check passes has its words queued as open writes and its
nonce remembered for its key (the target of an Ember record is a chunk frame, notes/assumptions/34.md); any other is
discarded with F-0208. STAGING_EPOCH at the tick of epoch m > 0 fills half (m + 1) mod 2; at launch both.
STAGING_COMPLETION with an error raises F-0209 and counts it; else it counts the bytes and queues the words of a plain
descriptor, and with the last words ends the read, a sealed record being checked then. (07_stacked_memory.md;
16_host_interface.md) -/
def Obligations.StackAccessesComplete : Prop :=
  (∀ (k : StackId) (s : State), s.ready = true →
    let a := (s.stk k).winAddr
    let go (wr : Bool) : State := s.modStk k fun y => { y with
      winWrite := wr
      winGo := some { word := a.toNat % 2 ^ 26, ch := a.toNat / 2 ^ 26 % 32, write := wr, data := y.winData }
      winLeft := none
      winGot := none }
    let no (wr : Bool) : State := s.modStk k fun y => { y with
      winWrite := wr
      winError := true }
    ((s.stk k).winGo = none → s.sliceScrubs (a.toNat / 2 ^ 26 % 32) = false →
      exec (.stkWinRead k) s = .next (go false) ∧ exec (.stkWinWrite k) s = .next (go true)) ∧
    ((s.stk k).winGo = none → s.sliceScrubs (a.toNat / 2 ^ 26 % 32) = true →
      exec (.stkWinRead k) s = .next (no false) ∧ exec (.stkWinWrite k) s = .next (no true)) ∧
    ((s.stk k).winGo ≠ none →
      exec (.stkWinRead k) s = .next (s.modStk k fun y => { y with winWrite := false }) ∧
      exec (.stkWinWrite k) s = .next (s.modStk k fun y => { y with winWrite := true }))) ∧
  (∀ (k : StackId) (a : WinAcc) (s : State), (s.stk k).winGo = some a → (s.stk k).winLeft = none → s.sliceScrubs a.ch = false →
    let x := 32 * k.val + a.ch
    (s.pch x).noBetter 5 = true → s.openFree x = true →
    let s1 := if s.running then s.modPch x fun z => { z with openPcs := z.openPcs ++ [s.plan.geyser] } else s
    let taken (got : Option (BitVec 512)) : State := s1.modStk k fun y => { y with
      winLeft := some (if a.write then 150 else 222)
      winGot := got }
    (a.write = false → (s.pch x).unreadable a.word s.plan.geyser = false →
      let t := taken (some ((s.pch x).wordAtPc a.word s.plan.geyser))
      exec (.stkWinAccess k) s = .next (match (s.pch x).ceDie a.word with
        | some die => t.stackCE x a.word die
        | none => t)) ∧
    (a.write = false → (s.pch x).unreadable a.word s.plan.geyser = true → exec (.stkWinAccess k) s = .next (
      if nsHas a.word (s.pch x).bad then (taken none).stackUE x a.word (((taken none).chanOwner x).map (·.1)) else taken none)) ∧
    (a.write = true → exec (.stkWinAccess k) s = .next (if (taken none).running then (taken none).modPch x fun z => { z with
        pend := pendIns { PendWrite.reset with due := s1.plan.geyser + 150, word := a.word, data := some a.data, unit := 5 } z.pend
        correctable := alDel a.word z.correctable
        openQueue := z.openQueue.filter fun o => !(o.kind = .writeBack && o.word = a.word) }
      else (taken none).modPch x fun z => z.store a.word a.data))) ∧
  (∀ (k : StackId) (a : WinAcc) (s : State), (s.stk k).winGo = some a → (s.stk k).winLeft = some 0 →
    exec (.stkWinAccess k) s = .next (s.modStk k fun y => { y with
      winGo := none
      winLeft := none
      winGot := none
      winError := if a.write then y.winError else y.winGot.isNone
      winData := if a.write then y.winData else y.winGot.getD y.winData })) ∧
  (∀ (k : StackId) (c : ChId) (o : OpenReq) (pre post : List OpenReq) (s : State),
    let x := 32 * k.val + c.val
    (s.pch x).openQueue = pre ++ o :: post →
    (∀ y ∈ pre, o.kind.rank < y.kind.rank) → (∀ y ∈ post, o.kind.rank ≤ y.kind.rank) → o.kind ≠ .writeBack →
    s.openFree x = true →
    let s1 := if s.running then s.modPch x fun z => { z with openPcs := z.openPcs ++ [s.plan.geyser] } else s
    let t := s1.modPch x fun z => { z with openQueue := z.openQueue.erase o }
    exec (.stackOpenAccess k c) s = .next (State.stageSettle (match o.data with
      | some d => t.openWrite x o.word d
      | none => t) o.tag)) ∧
  (∀ (p : PartId) (rec : List (BitVec 8)) (i : Image) (s : State), s.img p = some i →
    let r := sealedOf rec
    (i.regions[r.region]? = none → exec (.sealedLoad p rec) s = .next (s.sealFailed p 0 r.region r.target)) ∧
    ∀ g : Region, i.regions[r.region]? = some g →
    (∀ locs, s.sealedLocs p i g r.target r.count = some locs →
      let k := (locs.headD ((0, 0), 0)).1.1 / 32
      exec (.sealedLoad p rec) s = .next (match s.openSealed p r k with
        | some pt => (locs.zip (linesOfBytes pt)).foldl (fun s w => s.modPch w.1.1.1 fun c => { c with
            openQueue := c.openQueue ++ [{
              kind := .sealedLoad
              word := w.1.1.2
              data := some (s.atRest p g.slot w.1.2 w.2)
              tag := none }] })
            (s.modStk k fun y => y.remember ((s.sealKey p r).getD 0) r.nonce)
        | none => s.sealFailed p k r.region r.target)) ∧
    (s.sealedLocs p i g r.target r.count = none →
      exec (.sealedLoad p rec) s = .next (s.sealFailed p ((s.planLoc p i r.target).1 / 32) r.region r.target))) ∧
  (∀ (p : PartId) (i : Image) (l : Nat) (s : State), s.img p = some i → (s.pt p).launched = some l → i.stageTable.isEmpty = false →
    s.isTick p s.plan.geyser = true → s.framesSince p s.plan.geyser % max 1 i.epochFrames = 0 →
    let m := (s.plan.geyser - l) / max 1 (s.frameLen p * i.epochFrames)
    (s.pt p).epoch = m →
    let t := s.modPt p fun b => { b with epoch := m + 1 }
    exec (.stagingEpoch p) s = .next (if m = 0 then (t.fillHalf p 0).fillHalf p 1 else t.fillHalf p ((m + 1) % 2))) ∧
  (∀ (p : PartId) (h : HalfIx) (d : DescIx) (data : List (BitVec 512)) (r : StageRead) (s : State),
    s.pcie.stgReads.find? (fun r => r.part.toNat = p.val && r.half = h.val && r.desc = d.val) = some r →
    let t := (((s.img p).getD Image.reset).stageTable[d.val]?).getD StageDesc.reset
    let s1 := s.modFn (p.val + 1) fun f => { f with stgBytes := f.stgBytes + BitVec.ofNat 64 (64 * data.length) }
    let s2 := if t.sealed then s1 else s1.stageWords p h d r.done data
    let drop (s : State) : State := { s with pcie := { s.pcie with stgReads := s.pcie.stgReads.erase r } }
    exec (.stagingCompletion p h d data true) s = .next (issueStaging 4096 ((drop { s with pcie := { s.pcie with
      cplErr := satInc s.pcie.cplErr } }).stagingError p d)) ∧
    (r.done + data.length ≤ t.length → exec (.stagingCompletion p h d data false) s = .next { s2 with pcie := { s2.pcie with
      stgReads := s2.pcie.stgReads.map fun x => if x = r then { r with
        done := r.done + data.length
        buf := if t.sealed then r.buf ++ data else r.buf } else x } }) ∧
    (r.done + data.length = t.length + 1 → exec (.stagingCompletion p h d data false) s = .next (issueStaging 4096 (
      if t.sealed then ((drop s2).loadSealed p ((r.buf ++ data).flatMap bytesOfLine) (some (p.val, h.val, d.val))).1 else drop s2))))

/-- BIND, of Wings LOADED, BINDING or BOUND, takes the health map and the job's records into a run, clears the last
code and makes Wings BINDING; with a run in progress it starts again. REBIND does so on a Stage plan, and returns
Wings BOUND or ARMED to LOADED. A run of a partition that waits for a scrub waits (notes/assumptions/37.md). With time
it goes on by one phase: with every record gathered and every neighbour in agreement it checks, and no check failing,
no chip's configuration differing and no latency beyond its limit, it maps; an embedding ends it, with the mapped set
in Wings, which are BOUND, or kept for the re-bound Stage; else it ends with the code. HEALTH_RECORD_TIMEOUT, 2 s
after the start, records a silent chip of the job as FAILED. HEALTH_DISAGREE, 5 s after the last record, ends the run
with code 0x24 and the lowest neighbour that differs, and Wings of a bind return to LOADED. (08_placement.md;
15_partitions_and_security.md) -/
def Obligations.BindRunsComplete : Prop :=
  (∀ (p : PartId) (env : BindEnv) (s : State), s.ready = true → (s.pt p).state = 1#3 →
    let s0 : State := { s with map := { s.map with part := BitVec.ofNat 4 p.val } }
    let s1 := match s0.map.run with
      | some r => if r.rebind then s0 else s0.setWings r.part.toNat 2
      | none => s0
    let t (rebind : Bool) : State := { s1 with map := { s1.map with
      chipState := s0.bindHealth
      state := 1
      restart := s0.map.run.isSome
      code := 0
      failLtile := 0
      failStream := 0
      failObj := 0
      records := env.records
      digests := env.digests
      peerConfigs := env.peers
      run := some (s1.mapRun p rebind) } }
    let u := (t true).modPt p fun b => { b with rebound := none }
    let v := u.modPt p fun b => { b with
      wings := { b.wings with mapped := false }
      curtainArm := none }
    let w := ((t true).pt p).wingsState
    ((s.pt p).wings.image.isSome = true → ((s.pt p).wingsState = 2#3 ∨ (s.pt p).wingsState = 3#3 ∨ (s.pt p).wingsState = 4#3) →
      exec (.bindRun p env) s = .next (((t false).modPt p fun b => { b with wings := { b.wings with mapped := false } }).setWings p 3)) ∧
    ((s.pt p).stage.image.isSome = true → w ≠ 4#3 → w ≠ 5#3 → w ≠ 6#3 → exec (.rebind p env) s = .next u) ∧
    ((s.pt p).stage.image.isSome = true → (w = 4#3 ∨ w = 5#3) → exec (.rebind p env) s = .next (v.setWings p 2)) ∧
    ((s.pt p).stage.image.isSome = true → w = 6#3 → exec (.rebind p env) s = .next (v.setWings p 1))) ∧
  (∀ (r : MapRun) (s : State), s.map.run = some r → s.bindWaits r.part.toNat = true → s.continueRun = s) ∧
  (∀ (r : MapRun) (s : State), s.map.run = some r → s.bindWaits r.part.toNat = false →
    let r1 := { r with since := some (r.since.getD s.wall) }
    let s1 : State := { s with map := { s.map with run := some r1 } }
    let c := s1.jobCtx r1
    let p := r.part.toNat
    let b := s1.pt p
    let x := s1.runSet r1 c
    let check := c.img.check s.clk.stepCur.toNat b.res.poolPages.toNat b.res.devArea.toNat
      (x.bind fun x => if x.rankValid then some x.rank.toNat else none) ((x.map fun x => s1.cellClash p x).getD false) (s1.runDet r1)
    let s2 := s1.recordCal r1.own
    let mapped : State := State.signal { s1 with map := { s1.map with
      state := 4
      restart := false
      run := none } } 0 2
    (s.map.state = 1#3 → c.gathered = false → s.continueRun = s1) ∧
    (s.map.state = 1#3 → c.gathered = true → (s1.disagree c).isEmpty = true → s.continueRun = { s1 with map := { s1.map with
      run := some { r1 with gatheredAt := some (r.gatheredAt.getD s.wall) }
      jhmDigest := c.digest
      state := 2 } }) ∧
    (s.map.state = 2#3 → check = none → s1.cfgDiffers c = [] → s2.calExceeds c = [] →
      s.continueRun = { s2 with map := { s2.map with state := 3 } }) ∧
    (∀ (code : Nat) (loc : CheckLoc), s.map.state = 2#3 → check = some (code, loc) → s.continueRun = s1.failRun r1 code loc loc.pc) ∧
    (∀ (m : RankMap) (y : CfgSet), s.map.state = 3#3 → s1.runEmbed r1 c = .inl m → x = some y →
      s.continueRun = if r.rebind then mapped.modPt p fun b => { b with rebound := some y }
        else (mapped.modPt p fun b => { b with wings := y }).setWings p 4) ∧
    (∀ e : Nat × BitVec 24, s.map.state = 3#3 → s1.runEmbed r1 c = .inr e → s.continueRun = s1.failRun r1 e.1 noLoc e.2.toNat)) ∧
  (∀ (chip : BitVec 24) (r : MapRun) (a : Nat) (s : State), s.map.run = some r → s.map.state = 1#3 → r.since = some a →
    a + 2000 * tuMs ≤ s.wall → (s.jobCtx r).chips.contains chip = true → ((s.jobCtx r).recs.any fun x => x.addr = chip) = false →
    exec (.healthRecordTimeout chip) s = .next { s with map := { s.map with
      records := insertBy (fun a b => a.addr.toNat < b.addr.toNat) { HealthRec.reset with
        addr := chip
        state := 2 } s.map.records } }) ∧
  (∀ (r : MapRun) (a : BitVec 24) (g : Nat) (s : State), s.map.run = some r → s.map.state = 1#3 → r.gatheredAt = some g →
    g + 5000 * tuMs ≤ s.wall → a ∈ s.disagree (s.jobCtx r) → (∀ x ∈ s.disagree (s.jobCtx r), a.toNat ≤ x.toNat) →
    let t : State := State.signal { s with map := { s.map with
      state := 5
      code := 0x24
      failLtile := 0
      failStream := 3
      failObj := BitVec.ofNat 32 a.toNat
      restart := false
      run := none } } 0 2
    exec .healthDisagree s = .next (if r.rebind then t
      else (t.modPt r.part.toNat fun b => { b with wings := { b.wings with mapped := false } }).setWings r.part.toNat 2))

/-- BOUNDARY_WORK while an Ash entry of the partition is not confirmed raises a DATA_LATE cause that waits for it. At
a unit tick of a plan without serving it appends the unit's entry; with no buddy the entry is the last of the log and
confirmed, where it finds room. For a serving plan chained register writes and the host's posts take effect first,
with the new step number; a chip that does not lead does no more; the lead chip ends with F-0211 where log replay
finds no entry, holds where the return area cannot be read or a record does not fit its slot, and else does the
boundary's work, after which the step runs on the chosen slots, LAST_DECODE and LAST_PREFILL count them, and the work
is done within 40,960 pc of the tick (a free time, notes/assumptions/40.md). ASH_CONFIRM marks the entry and, when
none is pending, ends the hold. GROUP_MESSAGE on a chip that does not lead, or holds copy B, writes its words, done
within 16,384 pc more; a lead of copy B sends them on. (09_serving_steps.md; 14_determinism_and_faults.md) -/
def Obligations.BoundaryWorkComplete : Prop :=
  (∀ (p : PartId) (posted : List (Nat × BitVec 8)) (k : Nat) (i : Image) (s : State), s.mayBoundary p = some k → s.img p = some i →
    let s₀ : State := { s with dig := { s.dig with ashWait := nsDel p.val s.dig.ashWait } }
    let n := s.unitNo p
    (alGet p.val s.dig.logReplayTo = none → s.ashPending p = true → exec (.boundaryWork p posted) s =
      .next { s.raiseCause 1 (.ashWait p) with dig := { s.dig with ashWait := nsIns p.val s.dig.ashWait } }) ∧
    (alGet p.val s.dig.logReplayTo = none → s.ashPending p = false → i.serving = none →
      exec (.boundaryWork p posted) s = .next ((s₀.modSq p fun q => { q with doneTick := some k }).appendAsh { AshEntry.reset with
        stepNo := BitVec.ofNat 64 n
        part := BitVec.ofNat 4 p.val
        t := if (s.sq p).tdom then s.time.b.ns else s.time.a.ns
        geyser := BitVec.ofNat 64 k })) ∧
    (∀ sv, i.serving = some sv → (s.ashPending p = false ∨ (alGet p.val s.dig.logReplayTo).isSome = true) →
      ((s.sq p).declChecked = true ∨ sv.bad (s.pt p).res.tableCount.toNat (s.unitLen p) i.planWords = none) →
      let u := ((s₀.modSq p fun q => { q.takeChained with
        stepNo := BitVec.ofNat 64 n
        intake := posted.foldl hostWrite q.intake
        declChecked := true }).logEvent 2 (p + n % 2 ^ 32 * 256))
      ((s.leads p sv = false ∨ (s.pt p).stage.copyB = true) →
        exec (.boundaryWork p posted) s = .next (u.modSq p fun q => { q with doneTick := some k })) ∧
      (s.leads p sv = true → (s.pt p).stage.copyB = false →
        (u.replayEntry p n = some none → exec (.boundaryWork p posted) s = .next (u.recoveryFail 3)) ∧
        (∀ logged : Option AshEntry, (u.replayEntry p n = none ∧ logged = none ∨ u.replayEntry p n = some logged ∧ logged ≠ none) →
          let e := logged.getD AshEntry.reset
          let b : Bnd := {
            s := u
            p := p
            tick := k
            i := i
            sv := sv
            t := (logged.map AshEntry.t).getD (if (u.sq p).tdom then s.time.b.ns else s.time.a.ns)
            n := n
            units := []
            outs := []
            reps := []
            subs := []
            led := []
            writes := []
            pageWrites := []
            prompts := []
            fetches := []
            slots := []
            tl := 0
            ctl := e.ctl.toNat
            sub := e.sub.toNat
            prompt := e.prompt.toNat
            space := 0
            logged := logged }
          exec (.boundaryWork p posted) s = .next (match b.unreadable, b.mismatch with
            | some t, _ => t
            | none, some t => t
            | none, none => ({ b with s := u.modSq p fun q => { q with doneTick := some k } } : Bnd).lead))))) ∧
  (∀ b : Bnd, b.p < 16 →
    let q := b.lead.sq b.p
    q.inStep = true ∧ q.oldReturns = [] ∧
      q.lastDecode = BitVec.ofNat 15 (q.slots.countP fun x => decide (x.kind = 1#8)) ∧
      q.lastPrefill = BitVec.ofNat 15 (q.slots.countP fun x => decide (x.kind ≠ 1#8)) ∧
      b.tick ≤ q.busyUntil ∧ q.boundaryPc = BitVec.ofNat 32 (q.busyUntil - b.tick) ∧
      (b.lead.plan.geyser ≤ b.tick + 40960 → q.busyUntil ≤ b.tick + 40960)) ∧
  (∀ (e : AshEntry) (s : State), s.buddyChip = none →
    let t := s.appendAsh e
    if s.ashCap e.part.toNat < s.ashUsed e.part.toNat + e.size then t.dig.ash = s.dig.ash ∧ t.dig.recReason = 3
    else t.dig.ash.getLast? = some { e with confirmed := true } ∧ t.dig.ashConfirmed = e.stepNo) ∧
  (∀ (p : PartId) (n : BitVec 64) (s : State),
    (s.dig.ash.any fun e => e.part.toNat = p.val && e.stepNo = n && !e.confirmed) = true →
    let t : State := { s with dig := { s.dig with
      ash := s.dig.ash.map fun e => { e with confirmed := e.confirmed || decide (e.part.toNat = p.val ∧ e.stepNo = n) }
      ashConfirmed := n } }
    exec (.ashConfirm p n) s = .next (if t.ashPending p then t else t.clearCause (.ashWait p))) ∧
  (∀ (p : PartId) (msg : GroupMsg) (k : Nat) (i : Image) (sv : Serving) (s : State), s.unitTick p = some k → s.img p = some i →
    i.serving = some sv → s.alive = true → (s.pt p).state = 1#3 → (s.pt p).faultStop = false → (s.leads p sv = false ∨ (s.pt p).stage.copyB = true) →
    msg.stepNo = BitVec.ofNat 64 (s.unitNo p) →
    let d : State := { s with fab := { s.fab with delivered := s.fab.delivered.filter fun x => !(x.clsN = 1 && x.type = 2) } }
    let d' := if s.leads p sv then d.sendGroup p i sv msg else d
    let now := d'.plan.geyser - k
    let r := d'.drawDone k (now + 16384)
    let q := k + r.1
    r.1 ≤ now + 16384 ∧ exec (.groupMessage p msg) s = .next (((r.2.regionWrite p i k q (msg.pageWrites ++ msg.prompts ++
      sv.batchWords msg.header msg.slots msg.fetch)).mailboxes p sv.mbox msg.header q).modSq p fun x => { x with
        busyUntil := q
        boundaryPc := BitVec.ofNat 32 r.1 }))

/-- From every state in which the memory of every tile and of every pseudo-channel of every stack is in canonical form
(addresses strictly rising, no entry equal to what an unlisted address reads as, which is 0 by
notes/assumptions/5.md), every step that answers a next state answers one in which they are, so that equal memories
are equal data. (03_tile_and_mesh.md; 07_stacked_memory.md) -/
def Obligations.EveryStepKeepsTheMemoriesCanonical : Prop :=
  ∀ s t : State, s.tileMemOk → s.stackMemOk → step s = .next t → t.tileMemOk ∧ t.stackMemOk

/-- FWU.SVN_FLOOR, a value from 0 to 63, never decreases: no step from any state answers a next state whose floor is
lower. Once the ROM has loaded a slot, SVN_COMMIT and a write of 1 to its bit of FWU.CTRL raise the floor to the
running SVN while TRIAL is 0, and change nothing while TRIAL is 1. An image with an SVN below the floor fails the
checks, whatever slot it lies in. (R457) -/
def Obligations.TheSvnFloorNeverDecreases : Prop :=
  (∀ s t : State, step s = .next t → s.fwu.floor.toNat ≤ t.fwu.floor.toNat) ∧
  (∀ s : State, s.fwu.floor.toNat ≤ 63) ∧
  (∀ s : State, s.alive = true → s.fwu.booted = true → s.fwu.trial = false →
    let t : State := { s with fwu := { s.fwu with floor := if s.fwu.svn.toNat ≤ s.fwu.floor.toNat then s.fwu.floor else s.fwu.svn } }
    exec .svnCommit s = .next t ∧ exec (.registerWrite 0 0x4000C 2) s = .next t) ∧
  (∀ s : State, s.alive = true → s.fwu.trial = true →
    exec .svnCommit s = .next s ∧ exec (.registerWrite 0 0x4000C 2) s = .next s) ∧
  (∀ (x : Slot48) (floor : BitVec 6), x.svn.toNat < floor.toNat → 0 < x.failedStep floor)

/-- FW_READY is 0 after reset, and only FW_LOAD_DONE, after the ROM has loaded the boot slot, makes it 1;
TOP.STATUS.FW_READY reads it. A register of TOP, SNAP, PCIE, FWU or SEC reads and is written the same whatever
FW_READY is. While it is 0, an aligned read of any other block delivers the register's reset value and clears nothing,
and a write changes nothing. (R480) -/
def Obligations.FirmwareReadyGatesTheBlocks : Prop :=
  State.reset.top.fwReady = false ∧
  (∀ (c : Instr) (s t : State), exec c s = .next t → s.top.fwReady = false → t.top.fwReady = true →
    c = .fwLoadDone ∧ s.fwu.booted = true) ∧
  (∀ s : State, s.alive = true → s.fwu.booted = true → s.top.fwReady = false →
    ∃ t : State, exec .fwLoadDone s = .next t ∧ t.top.fwReady = true) ∧
  (∀ s : State, bit (s.readReg 0x10) 0 = s.top.fwReady) ∧
  (∀ (off : BitVec 26) (v : BitVec 32) (s : State), s.alive = true → off.toNat % 4 = 0 → off.toNat < 0x2000000 →
    (earlyBlock off.toNat = true ↔ off.toNat / 65536 = 0 ∨ off.toNat / 65536 = 3 ∨ off.toNat / 65536 = 4 ∨
      off.toNat / 65536 = 6 ∨ off.toNat / 65536 = 0x30) ∧
    (earlyBlock off.toNat = true → exec (.registerWrite 0 off v) s = .next (s.writeBlock off.toNat v) ∧
      exec (.rcCounterRead 0 off) s = .next ((s.afterRead off.toNat).deliverRead (s.readBlock off.toNat))) ∧
    (earlyBlock off.toNat = false → s.top.fwReady = false → exec (.registerWrite 0 off v) s = .next s ∧
      exec (.rcCounterRead 0 off) s = .next (s.deliverRead (s.blank.readBlock off.toNat)))) ∧
  (∀ s : State, s.blank = { State.reset with
    fuses := s.fuses
    tiles := Vector.ofFn fun t : Fin 160 => if s.fuses.disabled.contains t.val then { Tile.reset with state := 0 } else Tile.reset })

/-- For a tile that the fuses disable (its STATE is 0, DISABLED) and every aligned offset o of its aperture of 4,096
bytes at 0x400000 + 4,096 n, a read through BAR0 delivers the tile's physical number at o = 0 (TILE.ID) and 0 at every
other offset, so that TILE.STATUS.STATE reads DISABLED, and changes nothing else; a write changes nothing. This holds
before and after firmware is ready. (R81) -/
def Obligations.ADisabledTileShowsOnlyItsNumber : Prop :=
  ∀ (n : TileId) (o : BitVec 12) (off : BitVec 26) (v : BitVec 32) (s : State), s.alive = true →
    s.fuses.disabled.contains n.val = true → (s.tile n).state = 0#3 → o.toNat % 4 = 0 → off.toNat = 0x400000 + 4096 * n.val + o.toNat →
    exec (.rcCounterRead 0 off) s = .next { s with pcie := { s.pcie with readback := if o.toNat = 0 then BitVec.ofNat 64 n.val else 0 } } ∧
    exec (.registerWrite 0 off v) s = .next s

/-- In every state whose fuses name a product of the spec, TOP.ID reads GRADE 0x1 with TILES 0xA0 or GRADE 0x2 with
TILES 0x90, even where a tile has failed in service. TOP.ID reads the same in the state that any command or step
answers, every reset of the part included. (R483) -/
def Obligations.TheIdentityWordNamesTheGrade : Prop :=
  (∀ s : State, s.fuses.legal →
    let id := s.readReg 0
    (field id 3 0 = 0x1 ∧ field id 15 8 = 0xA0) ∨ (field id 3 0 = 0x2 ∧ field id 15 8 = 0x90)) ∧
  (∀ s t : State, step s = .next t → t.readReg 0 = s.readReg 0) ∧
  (∀ (c : Instr) (s t : State), exec c s = .next t → t.readReg 0 = s.readReg 0)

/-- For a partition that is not OFF, a write to ROWS, SLICE, TABLE, BUCKETS (base and count), POOL, DEVAREA or JOB
changes only the pending copy, and CFG_PENDING reads 1. An enable takes the pending copy. ENABLE written with 1 during
teardown makes the state SCRUB_THEN_START at once, and with 0 makes it SCRUBBING again; neither these nor any register
write changes when the scrub ends. When the scrub of SCRUB_THEN_START ends the pending copy applies, the check of R400
runs, and the state becomes ACTIVE where it passes and nothing is still being scrubbed. (R401; R411) -/
def Obligations.PendingConfigurationAndChainedRestart : Prop :=
  (∀ (v : BitVec 32) (s : State), s.ready = true →
    let p := s.part.psel.toNat
    let put (f : PartRes → PartRes) : State := s.modPt p fun b => { b with pendRes := some (f (b.pendRes.getD b.res)) }
    (s.pt p).state ≠ 0#3 →
      exec (.registerWrite 0 0xE000C v) s = .next (put fun r => { r with rows := v.setWidth 16 }) ∧
      exec (.registerWrite 0 0xE0010 v) s = .next (put fun r => { r with slice := v }) ∧
      exec (.registerWrite 0 0xE0014 v) s = .next (put fun r => { r with
        tableBase := v.setWidth 14
        tableCount := BitVec.ofNat 15 (v.toNat / 65536) }) ∧
      exec (.registerWrite 0 0xE0018 v) s = .next (put fun r => { r with bktBase := v.setWidth 16 }) ∧
      exec (.registerWrite 0 0xE001C v) s = .next (put fun r => { r with bktCount := v.setWidth 17 }) ∧
      exec (.registerWrite 0 0xE0020 v) s = .next (put fun r => { r with
        poolPages := v.setWidth 24
        encrypt := v.getLsbD 24 }) ∧
      exec (.registerWrite 0 0xE0024 v) s = .next (put fun r => { r with devArea := v.setWidth 26 }) ∧
      exec (.registerWrite 0 0xE0028 v) s = .next (put fun r => { r with job := v.setWidth 8 }) ∧
      ∀ f : PartRes → PartRes, bit ((put f).readReg 0xE0008) 3 = true) ∧
  (∀ (p : PartId) (s : State),
    let r := (s.pt p).pendRes.getD (s.pt p).res
    let t := s.enable p
    (t.pt p).res = r ∧ (t.pt p).pendRes = none ∧
      (t.pt p).state = if (s.enableFails p r).isSome then 0#3 else if s.enableWaits p r then 4#3 else 1#3) ∧
  (∀ (p : PartId) (s : State), s.ready = true →
    ((s.pt p).state = 2#3 → exec (.partEnable p) s = .next (s.setPartState p 3)) ∧
    ((s.pt p).state = 3#3 → exec (.partEnable p) s = .next s ∧ exec (.teardown p) s = .next (s.setPartState p 2)) ∧
    ∀ st : BitVec 3, ((s.setPartState p st).pt p).state = st ∧ ((s.setPartState p st).pt p).scrubEnd = (s.pt p).scrubEnd) ∧
  (∀ (p : PartId) (off : BitVec 26) (v : BitVec 32) (s t : State), (s.pt p).state = 2#3 ∨ (s.pt p).state = 3#3 →
    exec (.registerWrite 0 off v) s = .next t → (t.pt p).scrubEnd = (s.pt p).scrubEnd) ∧
  (∀ (p : PartId) (fails : List (StackId × ChId)) (s : State), s.alive = true → (s.pt p).state = 3#3 → (s.pt p).scrubEnd ≤ s.wall →
    let s₁ := (fails.filter fun x => (s.pt p).res.slice.getLsbD x.2.val).foldl (fun s x => s.scrubFailed p x.1 x.2) (s.erase p)
    exec (.scrubDone p fails) s = .next (s₁.enable p).retryWaiting.continueRun ∧ s₁.parts = s.parts)

/-- In one clk without a pause, the hold debt and the clk that the counter was stopped for holds grow together by
exactly the number of episodes that stand, so that the counter stops for the sum of their durations; in a clk of a
pause (the model's choice, notes/assumptions/1.md) each standing episode adds one clk of debt. The counter advances by
one exactly when the part has a clock, no hold, debt or pause stands and it is not about to resume. PLAN.HOLD_DEBT
reads the debt saturated. (02_plan_time_and_statue_hold.md) -/
def Obligations.HoldDepthAndDebtStopTheCounter : Prop :=
  (∀ s : State, s.paused = false →
    s.countClk.plan.debt + (if s.held then 1 else 0) = s.plan.debt + s.depth ∧
    s.countClk.plan.holdClk = s.plan.holdClk + (if s.held then 1 else 0)) ∧
  (∀ s : State, s.paused = true → s.countClk.plan.debt = s.plan.debt + s.depth ∧ s.countClk.plan.holdClk = s.plan.holdClk) ∧
  (∀ s : State, s.countClk.plan.geyser = s.plan.geyser +
    (if s.alive = true ∧ s.depth = 0 ∧ s.plan.debt = 0 ∧ s.paused = false ∧ s.plan.counterWasStopped = false then 1 else 0)) ∧
  (∀ s : State, s.countClk = { s with plan := { s.plan with
    geyser := s.countClk.plan.geyser
    debt := s.countClk.plan.debt
    holdClk := s.countClk.plan.holdClk } }) ∧
  (∀ s : State, s.top.fwReady = true → (s.readReg 0x80034).toNat = min s.plan.debt 0xFFFFFFFF)

/-- With the frame of a CT.LOOP of b instructions and n further repetitions on top of the loop stack, the instruction
issued j b + i places after the first of the body is the one at the body's place i, with n - j repetitions left, for
every repetition j up to n; after the last one of the last repetition the frame is gone and the loop around it
decides. A CT.LOOP that issues pushes that frame with the count that it names, and an instruction that neither
branches nor jumps moves the stream by this rule. (04_instruction_set_baseline.md) -/
def Obligations.ALoopRunsItsBodyEachTime : Prop :=
  (∀ (a q b n i j : Nat) (rest : List LoopFrame), 0 < b → i < b → j ≤ n →
    Nat.repeat (fun x : Nat × Nat × List LoopFrame => loopNext x.1 x.2.1 x.2.2) (j * b + i)
        (a, q, { start := q, startPc := a, last := q + b - 1, left := n } :: rest) =
      (a + i, q + i, { start := q, startPc := a, last := q + b - 1, left := n - j } :: rest)) ∧
  (∀ (a q b pc : Nat) (rest : List LoopFrame), 0 < b →
    loopNext pc (q + b - 1) ({ start := q, startPc := a, last := q + b - 1, left := 0 } :: rest) = loopNext pc (q + b - 1) rest) ∧
  (∀ pc seq : Nat, loopNext pc seq [] = (pc + 1, seq + 1, [])) ∧
  (∀ (fr : Front) (p lwait iter body : Nat), fr.next p lwait (.loop iter body) = [{ fr with
    pc := fr.pc + 1
    seq := fr.seq + 1
    last := p
    extra := lwait
    loops := { start := fr.seq + 1, startPc := fr.pc + 1, last := fr.seq + body, left := iter } :: fr.loops }]) ∧
  (∀ (fr : Front) (p lwait : Nat), fr.join = none → fr.next p lwait .seq = [{ fr with
    pc := (loopNext fr.pc fr.seq fr.loops).1
    seq := (loopNext fr.pc fr.seq fr.loops).2.1
    last := p
    extra := lwait
    loops := (loopNext fr.pc fr.seq fr.loops).2.2 }])

/-- A grant, negative ones included, and a charge keep GRANTED = CHARGED + BALANCE in every bucket in which it holds.
Spring never grants a negative amount, grants no more than SPRING, leaves a bucket at or above CAP as it is and takes
none above it. A change of one bucket leaves every other bucket as it is and raises F-0704 exactly where it breaks the
identity. A budget operation ADD or SET by an owner of the bucket leaves the balance at the sum or at the value named.
A teardown zeroes every bucket of the partition's range and no other. (10_budgets_and_speculation.md;
15_partitions_and_security.md) -/
def Obligations.GrantsAndChargesKeepTheLedgerIdentity : Prop :=
  (∀ (b : Bucket) (g : Int) (c : Nat), b.conserved = true →
    (b.grant g).conserved = true ∧ (b.grant g).granted = b.granted + g ∧ (b.grant g).balance = b.balance + g ∧
      (b.grant g).charged = b.charged ∧
    (b.charge c).conserved = true ∧ (b.charge c).charged = b.charged + c ∧ (b.charge c).balance = b.balance - (c : Int) ∧
      (b.charge c).granted = b.granted) ∧
  (∀ b : Bucket, 0 ≤ b.springNow ∧ b.springNow ≤ b.spring.toNat ∧ ((b.cap.toNat : Int) ≤ b.balance → b.springNow = 0) ∧
    (b.balance ≤ (b.cap.toNat : Int) → (b.grant b.springNow).balance ≤ (b.cap.toNat : Int)) ∧
    (b.springNow < b.spring.toNat → b.balance ≤ (b.cap.toNat : Int) → (b.grant b.springNow).balance = (b.cap.toNat : Int))) ∧
  (∀ (p c : Nat) (f : Bucket → Bucket) (s : State), (f (s.bkt c)).conserved = true →
    s.changeBkt p c f = s.setBkt c (f (s.bkt c)) ∧ (s.changeBkt p c f).bkt c = f (s.bkt c) ∧
      ∀ k : Nat, k ≠ c → (s.changeBkt p c f).bkt k = s.bkt k) ∧
  (∀ (p c : Nat) (f : Bucket → Bucket) (s : State), (f (s.bkt c)).conserved = false →
    s.changeBkt p c f = (s.setBkt c (f (s.bkt c))).ledgerFault p c) ∧
  (∀ (p c : Nat) (v : Int) (s : State), s.ownsBkt p c = true → (s.bkt c).conserved = true → -(2 ^ 62) ≤ v → v ≤ 2 ^ 62 →
    (∃ t : State, s.budgetOp p 1 c v = some (t, v - (s.bkt c).balance) ∧ (t.bkt c).balance = v) ∧
    (-(2 ^ 62) ≤ (s.bkt c).balance + v → (s.bkt c).balance + v ≤ 2 ^ 62 →
      ∃ t : State, s.budgetOp p 0 c v = some (t, v) ∧ (t.bkt c).balance = (s.bkt c).balance + v)) ∧
  (∀ (p : PartId) (s : State), s.ready = true → (s.pt p).state = 1#3 →
    ∃ t : State, exec (.teardown p) s = .next t ∧ ∀ c : Nat, t.bkt c = if s.ownsBkt p c then Bucket.reset else s.bkt c)

/-- The control field made from a link symbol, with a LANE of OP 1 to 4, decodes to that symbol (a repeated flow state
to the flow state), and its top bit is INLINE; TYPE 0x7 decodes to none. Whatever inline units and bytes of the packet
stream it takes, a codeword body has 640 bytes and a message 5,140 bits, which begin with the control field. A
descrambler that holds what the scrambler holds gives back every message. The parity of a message has 30 symbols, and
an encoded codeword begins with its message. The order of the scrambler's register and the coefficients of the code
are presumed (notes/assumptions/79.md). (13_link_layer.md) -/
def Obligations.CodewordsCarryTheirSymbolsAndBits : Prop :=
  (∀ (x : LinkSym) (inline : Bool),
    (match x with
      | .lane op _ => 1 ≤ op.toNat ∧ op.toNat ≤ 4
      | _ => True) →
    (x.field inline).getLsbD 19 = inline ∧ LinkSym.ofField (x.field inline) = some (match x with
      | .flowRefresh v => .flow v
      | y => y)) ∧
  (∀ v : BitVec 16, LinkSym.ofField (BitVec.ofNat 20 (7 * 2 ^ 16 + v.toNat)) = none) ∧
  (∀ (units : List (BitVec 64)) (stream : List (BitVec 8)), (codewordBody units stream).length = 640) ∧
  (∀ (l : Link) (stream : List (BitVec 8)), (l.message stream).length = 5140 ∧
    (l.message stream).take 20 = (List.range 20).map fun i => l.fieldOut.getLsbD i) ∧
  (∀ (m : List Bool) (reg : BitVec 58), descramble reg (scramble reg m) = m) ∧
  (∀ m : List (BitVec 10), (rsParity m).length = 30) ∧
  (∀ m : List Bool, (rsEncode m).take (symbolsOf m).length = symbolsOf m)
end

