-- ==== Sys2Proof/Laws/Fixed.lean ====
section
/-! SUPPORT. No shared operation changes the one-time memory or the queue: one lemma per operation, for the statements about
every command. -/

namespace Sys2Proof.Machine
set_option Elab.async false
set_option linter.unusedTactic false
set_option linter.unreachableTactic false
open Sys2Proof

/-- What is fixed of a state given field by field. -/
@[simp] theorem State.fixed_mk (a1 a2 a3 a4 a5 a6 a7 a8 a9 a10 a11 a12 a13 a14 a15 a16 a17 a18 a19 a20 a21 a22 a23 a24 a25
    a26 a27 a28 a29 a30 a31 a32 a33) :
    State.fixed ⟨a1, a2, a3, a4, a5, a6, a7, a8, a9, a10, a11, a12, a13, a14, a15, a16, a17, a18, a19, a20, a21, a22, a23, a24,
      a25, a26, a27, a28, a29, a30, a31, a32, a33⟩ = (a2, a29.secret, a29.identityRec, a33) := rfl

/-- The four parts are what is fixed. -/
@[simp] theorem State.fixed_eta (s : State) : (s.fuses, s.sec.secret, s.sec.identityRec, s.pending) = s.fixed := rfl

/-- A choice between two states. -/
@[simp] theorem State.fixed_ite (c : Prop) [Decidable c] (a b : State) :
    (if c then a else b).fixed = if c then a.fixed else b.fixed := apply_ite ..

/-- A fold of steps that each keep what is fixed keeps it. -/
theorem State.fixed_foldl {α : Type} (f : State → α → State) (h : ∀ s x, (f s x).fixed = s.fixed) (l : List α) (s : State) :
    (l.foldl f s).fixed = s.fixed := by
  induction l generalizing s with
  | nil => rfl
  | cons x l ih => rw [List.foldl_cons, ih, h]

@[simp] theorem State.modTile_fixed (s : State) (a1 : Nat) (a2 : Tile → Tile) : (State.modTile s a1 a2).fixed = s.fixed := by
  unfold State.modTile
  repeat' first | (simp; done) | (rw [State.fixed_foldl]; intro s x) | (rw [State.fixed_foldl]; rotate_left; intro s x) | split | simp
@[simp] theorem State.modPt_fixed (s : State) (a1 : Nat) (a2 : PartBank → PartBank) : (State.modPt s a1 a2).fixed = s.fixed := by
  unfold State.modPt
  repeat' first | (simp; done) | (rw [State.fixed_foldl]; intro s x) | (rw [State.fixed_foldl]; rotate_left; intro s x) | split | simp
@[simp] theorem State.modSq_fixed (s : State) (a1 : Nat) (a2 : SeqBank → SeqBank) : (State.modSq s a1 a2).fixed = s.fixed := by
  unfold State.modSq
  repeat' first | (simp; done) | (rw [State.fixed_foldl]; intro s x) | (rw [State.fixed_foldl]; rotate_left; intro s x) | split | simp
@[simp] theorem State.modBd_fixed (s : State) (a1 : Nat) (a2 : BudBank → BudBank) : (State.modBd s a1 a2).fixed = s.fixed := by
  unfold State.modBd
  repeat' first | (simp; done) | (rw [State.fixed_foldl]; intro s x) | (rw [State.fixed_foldl]; rotate_left; intro s x) | split | simp
@[simp] theorem State.modSy_fixed (s : State) (a1 : Nat) (a2 : SyncBank → SyncBank) : (State.modSy s a1 a2).fixed = s.fixed := by
  unfold State.modSy
  repeat' first | (simp; done) | (rw [State.fixed_foldl]; intro s x) | (rw [State.fixed_foldl]; rotate_left; intro s x) | split | simp
@[simp] theorem State.modBar_fixed (s : State) (a1 : Nat) (a2 : Nat) (a3 : Barrier → Barrier) : (State.modBar s a1 a2 a3).fixed = s.fixed := by
  unfold State.modBar
  repeat' first | (simp; done) | (rw [State.fixed_foldl]; intro s x) | (rw [State.fixed_foldl]; rotate_left; intro s x) | split | simp
@[simp] theorem State.modTs_fixed (s : State) (a1 : Nat) (a2 : TileSync → TileSync) : (State.modTs s a1 a2).fixed = s.fixed := by
  unfold State.modTs
  repeat' first | (simp; done) | (rw [State.fixed_foldl]; intro s x) | (rw [State.fixed_foldl]; rotate_left; intro s x) | split | simp
@[simp] theorem State.modLink_fixed (s : State) (a1 : Nat) (a2 : Link → Link) : (State.modLink s a1 a2).fixed = s.fixed := by
  unfold State.modLink
  repeat' first | (simp; done) | (rw [State.fixed_foldl]; intro s x) | (rw [State.fixed_foldl]; rotate_left; intro s x) | split | simp
@[simp] theorem State.modStk_fixed (s : State) (a1 : Nat) (a2 : Stack → Stack) : (State.modStk s a1 a2).fixed = s.fixed := by
  unfold State.modStk
  repeat' first | (simp; done) | (rw [State.fixed_foldl]; intro s x) | (rw [State.fixed_foldl]; rotate_left; intro s x) | split | simp
@[simp] theorem State.modChan_fixed (s : State) (a1 : Nat) (a2 : Nat) (a3 : Channel → Channel) : (State.modChan s a1 a2 a3).fixed = s.fixed := by
  unfold State.modChan
  repeat' first | (simp; done) | (rw [State.fixed_foldl]; intro s x) | (rw [State.fixed_foldl]; rotate_left; intro s x) | split | simp
@[simp] theorem State.modFn_fixed (s : State) (a1 : Nat) (a2 : PcieFn → PcieFn) : (State.modFn s a1 a2).fixed = s.fixed := by
  unfold State.modFn
  repeat' first | (simp; done) | (rw [State.fixed_foldl]; intro s x) | (rw [State.fixed_foldl]; rotate_left; intro s x) | split | simp
@[simp] theorem State.modCrc_fixed (s : State) (a1 : Nat) (a2 : CrcRegs → CrcRegs) : (State.modCrc s a1 a2).fixed = s.fixed := by
  unfold State.modCrc
  repeat' first | (simp; done) | (rw [State.fixed_foldl]; intro s x) | (rw [State.fixed_foldl]; rotate_left; intro s x) | split | simp
@[simp] theorem State.draw_fixed (s : State) (a1 : Nat) : (State.draw s a1).2.fixed = s.fixed := by
  unfold State.draw
  repeat' first | (simp; done) | (rw [State.fixed_foldl]; intro s x) | (rw [State.fixed_foldl]; rotate_left; intro s x) | split | simp
@[simp] theorem State.signal_fixed (s : State) (a1 : Nat) (a2 : Nat) : (State.signal s a1 a2).fixed = s.fixed := by
  unfold State.signal
  repeat' first | (simp; done) | (rw [State.fixed_foldl]; intro s x) | (rw [State.fixed_foldl]; rotate_left; intro s x) | split | simp
@[simp] theorem State.partEvent_fixed (s : State) (a1 : Nat) : (State.partEvent s a1).fixed = s.fixed := by
  unfold State.partEvent
  repeat' first | (simp; done) | (rw [State.fixed_foldl]; intro s x) | (rw [State.fixed_foldl]; rotate_left; intro s x) | split | simp
@[simp] theorem State.setPartState_fixed (s : State) (a1 : Nat) (a2 : BitVec 3) : (State.setPartState s a1 a2).fixed = s.fixed := by
  unfold State.setPartState
  repeat' first | (simp; done) | (rw [State.fixed_foldl]; intro s x) | (rw [State.fixed_foldl]; rotate_left; intro s x) | split | simp
@[simp] theorem State.setWings_fixed (s : State) (a1 : Nat) (a2 : BitVec 3) : (State.setWings s a1 a2).fixed = s.fixed := by
  unfold State.setWings
  repeat' first | (simp; done) | (rw [State.fixed_foldl]; intro s x) | (rw [State.fixed_foldl]; rotate_left; intro s x) | split | simp
@[simp] theorem State.logEvent_fixed (s : State) (a1 : Nat) (a2 : Nat) : (State.logEvent s a1 a2).fixed = s.fixed := by
  unfold State.logEvent
  repeat' first | (simp; done) | (rw [State.fixed_foldl]; intro s x) | (rw [State.fixed_foldl]; rotate_left; intro s x) | split | simp
@[simp] theorem State.showLastFault_fixed (s : State) (a1 : FaultRec) : (State.showLastFault s a1).fixed = s.fixed := by
  unfold State.showLastFault
  repeat' first | (simp; done) | (rw [State.fixed_foldl]; intro s x) | (rw [State.fixed_foldl]; rotate_left; intro s x) | split | simp
@[simp] theorem State.logFault_fixed (s : State) (a1 : FaultRec) (a2 : Option FaultRec) : (State.logFault s a1 a2).fixed = s.fixed := by
  unfold State.logFault
  repeat' first | (simp; done) | (rw [State.fixed_foldl]; intro s x) | (rw [State.fixed_foldl]; rotate_left; intro s x) | split | simp
@[simp] theorem State.writeFault_fixed (s : State) (a1 : FaultRec) (a2 : Option FaultRec) : (State.writeFault s a1 a2).fixed = s.fixed := by
  unfold State.writeFault
  repeat' first | (simp; done) | (rw [State.fixed_foldl]; intro s x) | (rw [State.fixed_foldl]; rotate_left; intro s x) | split | simp
@[simp] theorem State.writeFaults_fixed (s : State) : (State.writeFaults s).fixed = s.fixed := by
  unfold State.writeFaults
  repeat' first | (simp; done) | (rw [State.fixed_foldl]; intro s x) | (rw [State.fixed_foldl]; rotate_left; intro s x) | split | simp
@[simp] theorem State.flood_fixed (s : State) (a1 : Nat) (a2 : InlineSym) : (State.flood s a1 a2).fixed = s.fixed := by
  unfold State.flood
  repeat' first | (simp; done) | (rw [State.fixed_foldl]; intro s x) | (rw [State.fixed_foldl]; rotate_left; intro s x) | split | simp
@[simp] theorem State.raiseCause_fixed (s : State) (a1 : BitVec 4) (a2 : CauseSrc) : (State.raiseCause s a1 a2).fixed = s.fixed := by
  unfold State.raiseCause
  repeat' first | (simp; done) | (rw [State.fixed_foldl]; intro s x) | (rw [State.fixed_foldl]; rotate_left; intro s x) | split | simp
@[simp] theorem State.clearCause_fixed (s : State) (a1 : CauseSrc) : (State.clearCause s a1).fixed = s.fixed := by
  unfold State.clearCause
  repeat' first | (simp; done) | (rw [State.fixed_foldl]; intro s x) | (rw [State.fixed_foldl]; rotate_left; intro s x) | split | simp
@[simp] theorem State.enterFaultStop_fixed (s : State) : (State.enterFaultStop s).fixed = s.fixed := by
  unfold State.enterFaultStop
  repeat' first | (simp; done) | (rw [State.fixed_foldl]; intro s x) | (rw [State.fixed_foldl]; rotate_left; intro s x) | split | simp
@[simp] theorem State.faultHold_fixed (s : State) (a1 : FaultRec) (a2 : Option FaultRec) : (State.faultHold s a1 a2).fixed = s.fixed := by
  unfold State.faultHold
  repeat' first | (simp; done) | (rw [State.fixed_foldl]; intro s x) | (rw [State.fixed_foldl]; rotate_left; intro s x) | split | simp
@[simp] theorem State.applyHold_fixed (s : State) (a1 : BitVec 24) (a2 : BitVec 8) : (State.applyHold s a1 a2).fixed = s.fixed := by
  unfold State.applyHold
  repeat' first | (simp; done) | (rw [State.fixed_foldl]; intro s x) | (rw [State.fixed_foldl]; rotate_left; intro s x) | split | simp
@[simp] theorem State.applyRelease_fixed (s : State) (a1 : BitVec 24) (a2 : BitVec 8) : (State.applyRelease s a1 a2).fixed = s.fixed := by
  unfold State.applyRelease
  repeat' first | (simp; done) | (rw [State.fixed_foldl]; intro s x) | (rw [State.fixed_foldl]; rotate_left; intro s x) | split | simp
@[simp] theorem State.releaseOwn_fixed (s : State) : (State.releaseOwn s).fixed = s.fixed := by
  unfold State.releaseOwn
  repeat' first | (simp; done) | (rw [State.fixed_foldl]; intro s x) | (rw [State.fixed_foldl]; rotate_left; intro s x) | split | simp
@[simp] theorem State.applyOwn_fixed (s : State) : (State.applyOwn s).fixed = s.fixed := by
  unfold State.applyOwn
  repeat' first | (simp; done) | (rw [State.fixed_foldl]; intro s x) | (rw [State.fixed_foldl]; rotate_left; intro s x) | split | simp
@[simp] theorem State.resume_fixed (s : State) : (State.resume s).fixed = s.fixed := by
  unfold State.resume
  repeat' first | (simp; done) | (rw [State.fixed_foldl]; intro s x) | (rw [State.fixed_foldl]; rotate_left; intro s x) | split | simp
@[simp] theorem State.modPch_fixed (s : State) (a1 : Nat) (a2 : Channel → Channel) : (State.modPch s a1 a2).fixed = s.fixed := by
  unfold State.modPch
  repeat' first | (simp; done) | (rw [State.fixed_foldl]; intro s x) | (rw [State.fixed_foldl]; rotate_left; intro s x) | split | simp
@[simp] theorem State.poisonWord_fixed (s : State) (a1 : Nat) (a2 : Nat) : (State.poisonWord s a1 a2).fixed = s.fixed := by
  unfold State.poisonWord
  repeat' first | (simp; done) | (rw [State.fixed_foldl]; intro s x) | (rw [State.fixed_foldl]; rotate_left; intro s x) | split | simp
@[simp] theorem State.stackUE_fixed (s : State) (a1 : Nat) (a2 : Nat) (a3 : Option Nat) : (State.stackUE s a1 a2 a3).fixed = s.fixed := by
  unfold State.stackUE
  repeat' first | (simp; done) | (rw [State.fixed_foldl]; intro s x) | (rw [State.fixed_foldl]; rotate_left; intro s x) | split | simp
@[simp] theorem State.stackCE_fixed (s : State) (a1 : Nat) (a2 : Nat) (a3 : BitVec 4) : (State.stackCE s a1 a2 a3).fixed = s.fixed := by
  unfold State.stackCE
  repeat' first | (simp; done) | (rw [State.fixed_foldl]; intro s x) | (rw [State.fixed_foldl]; rotate_left; intro s x) | split | simp
@[simp] theorem State.admitWrite_fixed (s : State) (a1 : Nat) (a2 : PendWrite) : (State.admitWrite s a1 a2).fixed = s.fixed := by
  unfold State.admitWrite
  repeat' first | (simp; done) | (rw [State.fixed_foldl]; intro s x) | (rw [State.fixed_foldl]; rotate_left; intro s x) | split | simp
@[simp] theorem State.conflict_fixed (s : State) (a1 : Nat) (a2 : Nat) (a3 : Nat) (a4 : Nat × Nat × BitVec 32) (a5 : Nat × Nat × BitVec 32) : (State.conflict s a1 a2 a3 a4 a5).fixed = s.fixed := by
  unfold State.conflict
  repeat' first | (simp; done) | (rw [State.fixed_foldl]; intro s x) | (rw [State.fixed_foldl]; rotate_left; intro s x) | split | simp
@[simp] theorem State.windowConflict_fixed (s : State) (a1 : Nat) (a2 : Nat) (a3 : Nat) (a4 : Nat) (a5 : BitVec 32) : (State.windowConflict s a1 a2 a3 a4 a5).fixed = s.fixed := by
  unfold State.windowConflict
  repeat' first | (simp; done) | (rw [State.fixed_foldl]; intro s x) | (rw [State.fixed_foldl]; rotate_left; intro s x) | split | simp
@[simp] theorem State.tileUE_fixed (s : State) (a1 : Nat) (a2 : Nat) (a3 : Nat) (a4 : BitVec 32) : (State.tileUE s a1 a2 a3 a4).fixed = s.fixed := by
  unfold State.tileUE
  repeat' first | (simp; done) | (rw [State.fixed_foldl]; intro s x) | (rw [State.fixed_foldl]; rotate_left; intro s x) | split | simp
@[simp] theorem State.noteStall_fixed (s : State) (a1 : Nat) (a2 : Nat) (a3 : Nat) (a4 : BitVec 32) : (State.noteStall s a1 a2 a3 a4).fixed = s.fixed := by
  unfold State.noteStall
  repeat' first | (simp; done) | (rw [State.fixed_foldl]; intro s x) | (rw [State.fixed_foldl]; rotate_left; intro s x) | split | simp
@[simp] theorem State.syncConflict_fixed (s : State) (a1 : Nat) (a2 : Nat) (a3 : BitVec 32) (a4 : Nat) : (State.syncConflict s a1 a2 a3 a4).fixed = s.fixed := by
  unfold State.syncConflict
  repeat' first | (simp; done) | (rw [State.fixed_foldl]; intro s x) | (rw [State.fixed_foldl]; rotate_left; intro s x) | split | simp
@[simp] theorem State.lateUse_fixed (s : State) (a1 : Nat) (a2 : Eng) (a3 : BitVec 4) (a4 : List Nat) (a5 : BitVec 32) : (State.lateUse s a1 a2 a3 a4 a5).fixed = s.fixed := by
  unfold State.lateUse
  repeat' first | (simp; done) | (rw [State.fixed_foldl]; intro s x) | (rw [State.fixed_foldl]; rotate_left; intro s x) | split | simp
@[simp] theorem State.checkPlan_fixed (s : State) (a1 : Nat) (a2 : Eng) (a3 : Front) (a4 : Flight) (a5 : Plan) : (State.checkPlan s a1 a2 a3 a4 a5).fixed = s.fixed := by
  unfold State.checkPlan
  repeat' first | (simp; done) | (rw [State.fixed_foldl]; intro s x) | (rw [State.fixed_foldl]; rotate_left; intro s x) | split | simp
@[simp] theorem State.check_fixed (s : State) (a1 : Nat) (a2 : Eng) (a3 : Nat) (a4 : IWord) (a5 : Bool) (a6 : Ctx → Plan) (a7 : Front) : (State.check s a1 a2 a3 a4 a5 a6 a7).fixed = s.fixed := by
  unfold State.check
  repeat' first | (simp; done) | (rw [State.fixed_foldl]; intro s x) | (rw [State.fixed_foldl]; rotate_left; intro s x) | split | simp
@[simp] theorem State.runInstr_fixed (s : State) (a1 : Nat) (a2 : Eng) (a3 : Nat) (a4 : IWord) (a5 : Bool) (a6 : Ctx → Plan) : (State.runInstr s a1 a2 a3 a4 a5 a6).fixed = s.fixed := by
  unfold State.runInstr
  repeat' first | (simp; done) | (rw [State.fixed_foldl]; intro s x) | (rw [State.fixed_foldl]; rotate_left; intro s x) | split | simp
@[simp] theorem State.flowUpdate_fixed (s : State) (a1 : Nat) : (State.flowUpdate s a1).fixed = s.fixed := by
  unfold State.flowUpdate
  repeat' first | (simp; done) | (rw [State.fixed_foldl]; intro s x) | (rw [State.fixed_foldl]; rotate_left; intro s x) | split | simp
@[simp] theorem State.admitOpen_fixed (s : State) (a1 : Nat) : (State.admitOpen s a1).fixed = s.fixed := by
  unfold State.admitOpen
  repeat' first | (simp; done) | (rw [State.fixed_foldl]; intro s x) | (rw [State.fixed_foldl]; rotate_left; intro s x) | split | simp
@[simp] theorem State.countDrop_fixed (s : State) (a1 : Nat) : (State.countDrop s a1).fixed = s.fixed := by
  unfold State.countDrop
  repeat' first | (simp; done) | (rw [State.fixed_foldl]; intro s x) | (rw [State.fixed_foldl]; rotate_left; intro s x) | split | simp
@[simp] theorem State.routeOpen_fixed (s : State) (a1 : Packet) (a2 : Nat) : (State.routeOpen s a1 a2).fixed = s.fixed := by
  unfold State.routeOpen
  repeat' first | (simp; done) | (rw [State.fixed_foldl]; intro s x) | (rw [State.fixed_foldl]; rotate_left; intro s x) | split | simp
@[simp] theorem State.inject_fixed (s : State) (a1 : Packet) : (State.inject s a1).fixed = s.fixed := by
  unfold State.inject
  repeat' first | (simp; done) | (rw [State.fixed_foldl]; intro s x) | (rw [State.fixed_foldl]; rotate_left; intro s x) | split | simp
@[simp] theorem State.queueP_fixed (s : State) (a1 : Nat) (a2 : Packet) (a3 : Nat) (a4 : Bool) (a5 : Nat) (a6 : Nat) : (State.queueP s a1 a2 a3 a4 a5 a6).fixed = s.fixed := by
  unfold State.queueP
  repeat' first | (simp; done) | (rw [State.fixed_foldl]; intro s x) | (rw [State.fixed_foldl]; rotate_left; intro s x) | split | simp
@[simp] theorem State.sendP_fixed (s : State) (a1 : Nat) (a2 : Packet) (a3 : Nat) : (State.sendP s a1 a2 a3).fixed = s.fixed := by
  unfold State.sendP
  repeat' first | (simp; done) | (rw [State.fixed_foldl]; intro s x) | (rw [State.fixed_foldl]; rotate_left; intro s x) | split | simp
@[simp] theorem State.countStall_fixed (s : State) (a1 : Nat) : (State.countStall s a1).fixed = s.fixed := by
  unfold State.countStall
  repeat' first | (simp; done) | (rw [State.fixed_foldl]; intro s x) | (rw [State.fixed_foldl]; rotate_left; intro s x) | split | simp
@[simp] theorem State.transmit_fixed (s : State) (a1 : Nat) (a2 : Packet) : (State.transmit s a1 a2).fixed = s.fixed := by
  unfold State.transmit
  repeat' first | (simp; done) | (rw [State.fixed_foldl]; intro s x) | (rw [State.fixed_foldl]; rotate_left; intro s x) | split | simp
@[simp] theorem State.retransmit_fixed (s : State) (a1 : Nat) (a2 : Packet) : (State.retransmit s a1 a2).fixed = s.fixed := by
  unfold State.retransmit
  repeat' first | (simp; done) | (rw [State.fixed_foldl]; intro s x) | (rw [State.fixed_foldl]; rotate_left; intro s x) | split | simp
@[simp] theorem State.dropRelayed_fixed (s : State) (a1 : Nat) (a2 : Packet) : (State.dropRelayed s a1 a2).fixed = s.fixed := by
  unfold State.dropRelayed
  repeat' first | (simp; done) | (rw [State.fixed_foldl]; intro s x) | (rw [State.fixed_foldl]; rotate_left; intro s x) | split | simp
@[simp] theorem State.takeP_fixed (s : State) (a1 : Nat) (a2 : PQueued) : (State.takeP s a1 a2).fixed = s.fixed := by
  unfold State.takeP
  repeat' first | (simp; done) | (rw [State.fixed_foldl]; intro s x) | (rw [State.fixed_foldl]; rotate_left; intro s x) | split | simp
@[simp] theorem State.slotOverrun_fixed (s : State) (a1 : Nat) (a2 : Nat) (a3 : Packet) : (State.slotOverrun s a1 a2 a3).fixed = s.fixed := by
  unfold State.slotOverrun
  repeat' first | (simp; done) | (rw [State.fixed_foldl]; intro s x) | (rw [State.fixed_foldl]; rotate_left; intro s x) | split | simp
@[simp] theorem State.acceptP_fixed (s : State) (a1 : Nat) (a2 : Packet) : (State.acceptP s a1 a2).fixed = s.fixed := by
  unfold State.acceptP
  repeat' first | (simp; done) | (rw [State.fixed_foldl]; intro s x) | (rw [State.fixed_foldl]; rotate_left; intro s x) | split | simp
@[simp] theorem State.dropForeign_fixed (s : State) (a1 : Nat) (a2 : Packet) : (State.dropForeign s a1 a2).fixed = s.fixed := by
  unfold State.dropForeign
  repeat' first | (simp; done) | (rw [State.fixed_foldl]; intro s x) | (rw [State.fixed_foldl]; rotate_left; intro s x) | split | simp
@[simp] theorem State.takeAccepted_fixed (s : State) (a1 : Nat) (a2 : Packet) : (State.takeAccepted s a1 a2).fixed = s.fixed := by
  unfold State.takeAccepted
  repeat' first | (simp; done) | (rw [State.fixed_foldl]; intro s x) | (rw [State.fixed_foldl]; rotate_left; intro s x) | split | simp
@[simp] theorem State.freePools_fixed (s : State) : (State.freePools s).fixed = s.fixed := by
  unfold State.freePools
  repeat' first | (simp; done) | (rw [State.fixed_foldl]; intro s x) | (rw [State.fixed_foldl]; rotate_left; intro s x) | split | simp
@[simp] theorem State.consume_fixed (s : State) (a1 : Packet) : (State.consume s a1).fixed = s.fixed := by
  unfold State.consume
  repeat' first | (simp; done) | (rw [State.fixed_foldl]; intro s x) | (rw [State.fixed_foldl]; rotate_left; intro s x) | split | simp
@[simp] theorem State.syncObject_fixed (s : State) (a1 : Nat) (a2 : Nat) : (State.syncObject s a1 a2).fixed = s.fixed := by
  unfold State.syncObject
  repeat' first | (simp; done) | (rw [State.fixed_foldl]; intro s x) | (rw [State.fixed_foldl]; rotate_left; intro s x) | split | simp
@[simp] theorem State.registerWatch_fixed (s : State) (a1 : Nat) (a2 : Nat) (a3 : BitVec 32) (a4 : Nat) (a5 : Nat) (a6 : Bool) (a7 : Nat) : (State.registerWatch s a1 a2 a3 a4 a5 a6 a7).fixed = s.fixed := by
  unfold State.registerWatch
  repeat' first | (simp; done) | (rw [State.fixed_foldl]; intro s x) | (rw [State.fixed_foldl]; rotate_left; intro s x) | split | simp
@[simp] theorem State.sidePort_fixed (s : State) (a1 : Nat) (a2 : Nat) : (State.sidePort s a1 a2).fixed = s.fixed := by
  unfold State.sidePort
  repeat' first | (simp; done) | (rw [State.fixed_foldl]; intro s x) | (rw [State.fixed_foldl]; rotate_left; intro s x) | split | simp
@[simp] theorem State.deliverAll_fixed (s : State) (a1 : Bool) : (State.deliverAll s a1).fixed = s.fixed := by
  unfold State.deliverAll
  repeat' first | (simp; done) | (rw [State.fixed_foldl]; intro s x) | (rw [State.fixed_foldl]; rotate_left; intro s x) | split | simp
@[simp] theorem State.sendBar_fixed (s : State) (a1 : Nat) (a2 : Nat) (a3 : Nat) (a4 : Nat) (a5 : BarDecl) : (State.sendBar s a1 a2 a3 a4 a5).fixed = s.fixed := by
  unfold State.sendBar
  repeat' first | (simp; done) | (rw [State.fixed_foldl]; intro s x) | (rw [State.fixed_foldl]; rotate_left; intro s x) | split | simp
@[simp] theorem State.releaseBar_fixed (s : State) (a1 : Nat) (a2 : Nat) (a3 : Nat) (a4 : BarDecl) (a5 : Nat) : (State.releaseBar s a1 a2 a3 a4 a5).fixed = s.fixed := by
  unfold State.releaseBar
  repeat' first | (simp; done) | (rw [State.fixed_foldl]; intro s x) | (rw [State.fixed_foldl]; rotate_left; intro s x) | split | simp
@[simp] theorem State.checkBar_fixed (s : State) (a1 : Nat) (a2 : Nat) (a3 : Nat) (a4 : BarDecl) : (State.checkBar s a1 a2 a3 a4).fixed = s.fixed := by
  unfold State.checkBar
  repeat' first | (simp; done) | (rw [State.fixed_foldl]; intro s x) | (rw [State.fixed_foldl]; rotate_left; intro s x) | split | simp
@[simp] theorem State.misuse_fixed (s : State) (a1 : Nat) (a2 : Nat) (a3 : BitVec 32) (a4 : Nat) : (State.misuse s a1 a2 a3 a4).fixed = s.fixed := by
  unfold State.misuse
  repeat' first | (simp; done) | (rw [State.fixed_foldl]; intro s x) | (rw [State.fixed_foldl]; rotate_left; intro s x) | split | simp
@[simp] theorem State.barObjects_fixed (s : State) (a1 : Nat) (a2 : BarDecl) : (State.barObjects s a1 a2).fixed = s.fixed := by
  unfold State.barObjects
  repeat' first | (simp; done) | (rw [State.fixed_foldl]; intro s x) | (rw [State.fixed_foldl]; rotate_left; intro s x) | split | simp
@[simp] theorem State.arrive_fixed (s : State) (a1 : Nat) (a2 : Nat) (a3 : BitVec 32) (a4 : Nat) : (State.arrive s a1 a2 a3 a4).fixed = s.fixed := by
  unfold State.arrive
  repeat' first | (simp; done) | (rw [State.fixed_foldl]; intro s x) | (rw [State.fixed_foldl]; rotate_left; intro s x) | split | simp
@[simp] theorem State.erEvent_fixed (s : State) (a1 : Nat) : (State.erEvent s a1).fixed = s.fixed := by
  unfold State.erEvent
  repeat' first | (simp; done) | (rw [State.fixed_foldl]; intro s x) | (rw [State.fixed_foldl]; rotate_left; intro s x) | split | simp
@[simp] theorem State.appendDigest_fixed (s : State) (a1 : DigEntry) : (State.appendDigest s a1).fixed = s.fixed := by
  unfold State.appendDigest
  repeat' first | (simp; done) | (rw [State.fixed_foldl]; intro s x) | (rw [State.fixed_foldl]; rotate_left; intro s x) | split | simp
@[simp] theorem State.closeDigest_fixed (s : State) (a1 : Nat) (a2 : BitVec 16) : (State.closeDigest s a1 a2).fixed = s.fixed := by
  unfold State.closeDigest
  repeat' first | (simp; done) | (rw [State.fixed_foldl]; intro s x) | (rw [State.fixed_foldl]; rotate_left; intro s x) | split | simp
@[simp] theorem State.releaseFolds_fixed (s : State) (a1 : Nat) : (State.releaseFolds s a1).fixed = s.fixed := by
  unfold State.releaseFolds
  repeat' first | (simp; done) | (rw [State.fixed_foldl]; intro s x) | (rw [State.fixed_foldl]; rotate_left; intro s x) | split | simp
@[simp] theorem State.claimPacket_fixed (s : State) (a1 : Nat) (a2 : Nat) (a3 : Nat) (a4 : BitVec 12) (a5 : Nat) : (State.claimPacket s a1 a2 a3 a4 a5).fixed = s.fixed := by
  unfold State.claimPacket
  repeat' first | (simp; done) | (rw [State.fixed_foldl]; intro s x) | (rw [State.fixed_foldl]; rotate_left; intro s x) | split | simp
@[simp] theorem State.chunkDone_fixed (s : State) (a1 : Ctx) (a2 : Nat) (a3 : Bool) (a4 : EmberResult) : (State.chunkDone s a1 a2 a3 a4).fixed = s.fixed := by
  unfold State.chunkDone
  repeat' first | (simp; done) | (rw [State.fixed_foldl]; intro s x) | (rw [State.fixed_foldl]; rotate_left; intro s x) | split | simp
@[simp] theorem State.modStream_fixed (s : State) (a1 : Nat) (a2 : Eng) (a3 : Stream → Stream) : (State.modStream s a1 a2 a3).fixed = s.fixed := by
  unfold State.modStream
  repeat' first | (simp; done) | (rw [State.fixed_foldl]; intro s x) | (rw [State.fixed_foldl]; rotate_left; intro s x) | split | simp
@[simp] theorem State.modFlight_fixed (s : State) (a1 : Ctx) (a2 : Flight → Flight) : (State.modFlight s a1 a2).fixed = s.fixed := by
  unfold State.modFlight
  repeat' first | (simp; done) | (rw [State.fixed_foldl]; intro s x) | (rw [State.fixed_foldl]; rotate_left; intro s x) | split | simp
@[simp] theorem State.delay_fixed (s : State) (a1 : Ctx) (a2 : Nat) (a3 : Nat) (a4 : Nat) : (State.delay s a1 a2 a3 a4).fixed = s.fixed := by
  unfold State.delay
  repeat' first | (simp; done) | (rw [State.fixed_foldl]; intro s x) | (rw [State.fixed_foldl]; rotate_left; intro s x) | split | simp
@[simp] theorem State.noteRead_fixed (s : State) (a1 : Ctx) (a2 : Got) : (State.noteRead s a1 a2).fixed = s.fixed := by
  unfold State.noteRead
  repeat' first | (simp; done) | (rw [State.fixed_foldl]; intro s x) | (rw [State.fixed_foldl]; rotate_left; intro s x) | split | simp
@[simp] theorem State.serveWindow_fixed (s : State) (a1 : Nat) (a2 : WinReq) : (State.serveWindow s a1 a2).fixed = s.fixed := by
  unfold State.serveWindow
  repeat' first | (simp; done) | (rw [State.fixed_foldl]; intro s x) | (rw [State.fixed_foldl]; rotate_left; intro s x) | split | simp
@[simp] theorem State.beginWindow_fixed (s : State) (a1 : Nat) (a2 : Nat) (a3 : Bool) : (State.beginWindow s a1 a2 a3).fixed = s.fixed := by
  unfold State.beginWindow
  repeat' first | (simp; done) | (rw [State.fixed_foldl]; intro s x) | (rw [State.fixed_foldl]; rotate_left; intro s x) | split | simp
@[simp] theorem State.takeWindow_fixed (s : State) (a1 : Nat) (a2 : Nat) : (State.takeWindow s a1 a2).fixed = s.fixed := by
  unfold State.takeWindow
  repeat' first | (simp; done) | (rw [State.fixed_foldl]; intro s x) | (rw [State.fixed_foldl]; rotate_left; intro s x) | split | simp
@[simp] theorem State.checkCodes_fixed (s : State) (a1 : Nat) (a2 : Eng) : (State.checkCodes s a1 a2).fixed = s.fixed := by
  unfold State.checkCodes
  repeat' first | (simp; done) | (rw [State.fixed_foldl]; intro s x) | (rw [State.fixed_foldl]; rotate_left; intro s x) | split | simp
@[simp] theorem State.issue_fixed (s : State) (a1 : Nat) (a2 : Eng) (a3 : Flight) : (State.issue s a1 a2 a3).fixed = s.fixed := by
  unfold State.issue
  repeat' first | (simp; done) | (rw [State.fixed_foldl]; intro s x) | (rw [State.fixed_foldl]; rotate_left; intro s x) | split | simp
@[simp] theorem State.issueStream_fixed (s : State) (a1 : Nat) (a2 : Eng) : (State.issueStream s a1 a2).fixed = s.fixed := by
  unfold State.issueStream
  repeat' first | (simp; done) | (rw [State.fixed_foldl]; intro s x) | (rw [State.fixed_foldl]; rotate_left; intro s x) | split | simp
@[simp] theorem State.takeRetries_fixed (s : State) (a1 : Job) : (State.takeRetries s a1).fixed = s.fixed := by
  unfold State.takeRetries
  repeat' first | (simp; done) | (rw [State.fixed_foldl]; intro s x) | (rw [State.fixed_foldl]; rotate_left; intro s x) | split | simp
@[simp] theorem State.portConflict_fixed (s : State) (a1 : Nat) (a2 : Ctx) (a3 : Ctx) : (State.portConflict s a1 a2 a3).fixed = s.fixed := by
  unfold State.portConflict
  repeat' first | (simp; done) | (rw [State.fixed_foldl]; intro s x) | (rw [State.fixed_foldl]; rotate_left; intro s x) | split | simp
@[simp] theorem State.sendPacket_fixed (s : State) (a1 : Job) : (State.sendPacket s a1).fixed = s.fixed := by
  unfold State.sendPacket
  repeat' first | (simp; done) | (rw [State.fixed_foldl]; intro s x) | (rw [State.fixed_foldl]; rotate_left; intro s x) | split | simp
@[simp] theorem State.passBeats_fixed (s : State) (a1 : Nat) : (State.passBeats s a1).fixed = s.fixed := by
  unfold State.passBeats
  repeat' first | (simp; done) | (rw [State.fixed_foldl]; intro s x) | (rw [State.fixed_foldl]; rotate_left; intro s x) | split | simp
@[simp] theorem State.notServed_fixed (s : State) (a1 : Use) : (State.notServed s a1).fixed = s.fixed := by
  unfold State.notServed
  repeat' first | (simp; done) | (rw [State.fixed_foldl]; intro s x) | (rw [State.fixed_foldl]; rotate_left; intro s x) | split | simp
@[simp] theorem State.readWord_fixed (s : State) (a1 : Nat) (a2 : Nat) (a3 : Nat) (a4 : BitVec 32) : (State.readWord s a1 a2 a3 a4).2.fixed = s.fixed := by
  unfold State.readWord
  repeat' first | (simp; done) | (rw [State.fixed_foldl]; intro s x) | (rw [State.fixed_foldl]; rotate_left; intro s x) | split | simp
@[simp] theorem State.makeRead_fixed (s : State) (a1 : Use) : (State.makeRead s a1).fixed = s.fixed := by
  unfold State.makeRead
  repeat' first | (simp; done) | (rw [State.fixed_foldl]; intro s x) | (rw [State.fixed_foldl]; rotate_left; intro s x) | split | simp
@[simp] theorem State.makeWrite_fixed (s : State) (a1 : Use) : (State.makeWrite s a1).fixed = s.fixed := by
  unfold State.makeWrite
  repeat' first | (simp; done) | (rw [State.fixed_foldl]; intro s x) | (rw [State.fixed_foldl]; rotate_left; intro s x) | split | simp
@[simp] theorem State.passSlots_fixed (s : State) (served : List Use) (before : State) (t : Nat) (e : Eng) :
    (s.passSlots served before t e).fixed = s.fixed := by
  unfold State.passSlots
  split
  · rfl
  · split
    · rfl
    · simp

@[simp] theorem Served.serve_fixed (r : Served) (u : Use) : (r.serve u).s.fixed = r.s.fixed := by
  unfold Served.serve
  dsimp only
  split
  · split <;> simp
  · split
    · simp
    · dsimp only; split <;> simp
theorem Served.fixed_foldl (l : List Use) (r : Served) : (l.foldl Served.serve r).s.fixed = r.s.fixed := by
  induction l generalizing r with
  | nil => rfl
  | cons x l ih => rw [List.foldl_cons, ih, Served.serve_fixed]
@[simp] theorem State.banks_fixed (s : State) (ts : List Nat) (jobs : List Job) : (s.banks ts jobs).fixed = s.fixed := by
  unfold State.banks
  extract_lets r s1 s2
  have hr : r.s.fixed = s.fixed := by
    rw [show r = _ from rfl, Served.fixed_foldl]
    exact State.fixed_foldl _ (fun s x => State.passBeats_fixed ..) _ _
  have h2 : s2.fixed = s.fixed := by
    rw [show s2 = _ from rfl, State.fixed_foldl _ (fun s x => State.makeWrite_fixed ..), show s1 = _ from rfl,
      State.fixed_foldl _ (fun s x => State.makeRead_fixed ..)]
    exact hr
  rw [State.fixed_foldl]
  · exact h2
  · intro a t
    exact State.fixed_foldl (fun a e => a.passSlots r.uses s t e) (fun a e => State.passSlots_fixed ..) _ _

@[simp] theorem State.arriveAt_fixed (s : State) (a1 : Ctx) (a2 : StackAcc) : (State.arriveAt s a1 a2).fixed = s.fixed := by
  unfold State.arriveAt
  repeat' first | (simp; done) | (rw [State.fixed_foldl]; intro s x) | (rw [State.fixed_foldl]; rotate_left; intro s x) | split | simp
@[simp] theorem State.seqClash_fixed (s : State) (a1 : Nat × Ctx) : (State.seqClash s a1).fixed = s.fixed := by
  unfold State.seqClash
  repeat' first | (simp; done) | (rw [State.fixed_foldl]; intro s x) | (rw [State.fixed_foldl]; rotate_left; intro s x) | split | simp
@[simp] theorem Chans.serve_fixed (r : Chans) (j : Job) : (r.serve j).s.fixed = r.s.fixed := by
  unfold Chans.serve
  generalize (List.filter _ _) = l
  induction l generalizing r with
  | nil => rfl
  | cons x l ih =>
    rw [List.foldl_cons, ih]
    split <;> simp
theorem Chans.fixed_foldl (l : List Job) (r : Chans) : (l.foldl Chans.serve r).s.fixed = r.s.fixed := by
  induction l generalizing r with
  | nil => rfl
  | cons x l ih => rw [List.foldl_cons, ih, Chans.serve_fixed]
@[simp] theorem State.stacks_fixed (s : State) (jobs : List Job) : (s.stacks jobs).fixed = s.fixed := by
  unfold State.stacks
  dsimp only
  rw [State.fixed_foldl _ (fun s x => State.seqClash_fixed ..), Chans.fixed_foldl]

/-- What a plan does beside its accesses keeps what is fixed. -/
theorem planOf_acts_fixed (op : Nat) (w : IWord) (c : Ctx) : ∀ a ∈ (planOf op w c).acts, ∀ s : State, (a.2 s).fixed = s.fixed := by
  have kv : ∀ k : KvMap, ∀ a ∈ k.acts, ∀ s : State, (a.2 s).fixed = s.fixed := by
    intro k a ha s
    cases k <;> simp only [KvMap.acts, List.mem_singleton, List.not_mem_nil] at ha
    subst ha; simp
  have one : ∀ (q : Nat) (f : State → State), (∀ s, (f s).fixed = s.fixed) → ∀ a ∈ [(q, f)], ∀ s : State, (a.2 s).fixed = s.fixed := by
    intro q f h a ha s
    rw [List.mem_singleton] at ha
    subst ha; exact h s
  have none : ∀ a ∈ ([] : List (Nat × (State → State))), ∀ s : State, (a.2 s).fixed = s.fixed := by intro a ha; cases ha
  unfold planOf
  split
  all_goals first
    | exact none
    | (apply one; intro s; simp; done)
    | exact kv _
    | skip
  · unfold planSend; dsimp only; split <;> exact none
  · unfold planFrecv
    dsimp only
    split <;> (apply one; intro s; simp)
  · intro a ha s
    simp only [planEld, Plan.landIn, List.mem_map] at ha
    obtain ⟨x, -, rfl⟩ := ha
    simp
  · unfold planStrf
    dsimp only
    split <;> exact none
theorem State.act_fixed (s : State) (j : Job) (h : ∀ a ∈ j.pl.acts, ∀ s : State, (a.2 s).fixed = s.fixed) :
    (s.act j).fixed = s.fixed := by
  unfold State.act
  have : ∀ (l : List (Nat × (State → State))) (s : State), (∀ a ∈ l, ∀ s : State, (a.2 s).fixed = s.fixed) →
      (l.foldl (fun s a => a.2 s) s).fixed = s.fixed := by
    intro l
    induction l with
    | nil => intro s _; rfl
    | cons x l ih =>
      intro s h
      rw [List.foldl_cons, ih _ (fun a ha => h a (List.mem_cons_of_mem _ ha)), h x (List.mem_cons_self ..)]
  exact this _ _ (fun a ha => h a (List.mem_filter.mp ha).1)
theorem State.jobs_acts_fixed (s : State) (ts : List Nat) : ∀ j ∈ s.jobs ts, ∀ a ∈ j.pl.acts, ∀ s : State, (a.2 s).fixed = s.fixed := by
  intro j hj
  simp only [State.jobs, List.mem_flatMap, List.mem_map] at hj
  obtain ⟨t, -, e, -, f, -, rfl⟩ := hj
  exact planOf_acts_fixed _ _ _
theorem State.acts_fixed (js : List Job) (s : State) (h : ∀ j ∈ js, ∀ a ∈ j.pl.acts, ∀ s : State, (a.2 s).fixed = s.fixed) :
    (js.foldl State.act s).fixed = s.fixed := by
  induction js generalizing s with
  | nil => rfl
  | cons x l ih =>
    rw [List.foldl_cons, ih _ (fun j hj => h j (List.mem_cons_of_mem _ hj)), State.act_fixed _ _ (h x (List.mem_cons_self ..))]
@[simp] theorem Beats.serve_fixed (b : Beats) (j : Job) : (b.serve j).s.fixed = b.s.fixed := by
  unfold Beats.serve
  dsimp only
  generalize (List.filter _ _) = l
  have : ∀ (l : List (Nat × Nat)) (x : Beats), (l.foldl (fun (b : Beats) x => match b.ports.find? fun y => y.1 = x.2 with
    | some y => { b with s := (b.s.portConflict x.2 y.2 j.c).delay j.c 3 x.1 x.2 }
    | none => { b with
        ports := b.ports ++ [(x.2, j.c)]
        jobs := b.jobs.map fun k => if k.c.t = j.c.t && decide (k.c.e = j.c.e) && k.c.f.is j.c.f then
          { k with beats := k.beats ++ [x] } else k }) x).s.fixed = x.s.fixed := by
    intro l
    induction l with
    | nil => intro x; rfl
    | cons y l ih =>
      intro x
      rw [List.foldl_cons, ih]
      split <;> simp
  exact this l _
@[simp] theorem Beats.serveSeq_fixed (b : Beats) (t : Nat) : (b.serveSeq t).s.fixed = b.s.fixed := by
  unfold Beats.serveSeq
  dsimp only
  split
  · rfl
  · split <;> simp
theorem Beats.fixed_serve (l : List Job) (b : Beats) : (l.foldl Beats.serve b).s.fixed = b.s.fixed := by
  induction l generalizing b with
  | nil => rfl
  | cons x l ih => rw [List.foldl_cons, ih, Beats.serve_fixed]
theorem Beats.fixed_serveSeq (l : List Nat) (b : Beats) : (l.foldl Beats.serveSeq b).s.fixed = b.s.fixed := by
  induction l generalizing b with
  | nil => rfl
  | cons x l ih => rw [List.foldl_cons, ih, Beats.serveSeq_fixed]

@[simp] theorem State.hostCheck_fixed (s : State) (a1 : Job) : (State.hostCheck s a1).fixed = s.fixed := by
  unfold State.hostCheck
  repeat' first | (simp; done) | (rw [State.fixed_foldl]; intro s x) | (rw [State.fixed_foldl]; rotate_left; intro s x) | split | simp
@[simp] theorem State.windowPc_fixed (s : State) (a1 : Nat) : (State.windowPc s a1).fixed = s.fixed := by
  unfold State.windowPc
  repeat' first | (simp; done) | (rw [State.fixed_foldl]; intro s x) | (rw [State.fixed_foldl]; rotate_left; intro s x) | split | simp
@[simp] theorem State.results_fixed (s : State) (a1 : Job) : (State.results s a1).fixed = s.fixed := by
  unfold State.results
  repeat' first | (simp; done) | (rw [State.fixed_foldl]; intro s x) | (rw [State.fixed_foldl]; rotate_left; intro s x) | split | simp
@[simp] theorem State.takeArm_fixed (s : State) (a1 : Nat) (a2 : Eng) (a3 : Flight) (a4 : Nat) (a5 : Nat) (a6 : Bool) : (State.takeArm s a1 a2 a3 a4 a5 a6).fixed = s.fixed := by
  unfold State.takeArm
  repeat' first | (simp; done) | (rw [State.fixed_foldl]; intro s x) | (rw [State.fixed_foldl]; rotate_left; intro s x) | split | simp
@[simp] theorem State.follow_fixed (s : State) (a1 : Job) : (State.follow s a1).fixed = s.fixed := by
  unfold State.follow
  repeat' first | (simp; done) | (rw [State.fixed_foldl]; intro s x) | (rw [State.fixed_foldl]; rotate_left; intro s x) | split | simp
@[simp] theorem State.retire_fixed (s : State) (a1 : Job) : (State.retire s a1).fixed = s.fixed := by
  unfold State.retire
  repeat' first | (simp; done) | (rw [State.fixed_foldl]; intro s x) | (rw [State.fixed_foldl]; rotate_left; intro s x) | split | simp
@[simp] theorem State.runPc_fixed (s : State) : s.runPc.fixed = s.fixed := by
  unfold State.runPc
  extract_lets ts s1 jobs s2 b s3 s4 s5 s6 s7 last s8 s9
  split
  · rfl
  · have h1 : s1.fixed = s.fixed := State.fixed_foldl _ (fun s t => State.fixed_foldl _ (fun s e => by simp) _ _) _ _
    have h2 : s2.fixed = s.fixed := (State.fixed_foldl _ (fun s j => State.takeRetries_fixed ..) _ _).trans h1
    have hb : b.s.fixed = s.fixed := by
      rw [show b = _ from rfl, Beats.fixed_serveSeq, Beats.fixed_serve]; exact h2
    have h3 : s3.fixed = s.fixed := (State.banks_fixed ..).trans hb
    have h4 : s4.fixed = s.fixed := (State.fixed_foldl _ (fun s j => State.sendPacket_fixed ..) _ _).trans h3
    have h5 : s5.fixed = s.fixed := (State.stacks_fixed ..).trans h4
    have h6 : s6.fixed = s.fixed := (State.acts_fixed _ _ (State.jobs_acts_fixed _ _)).trans h5
    have h7 : s7.fixed = s.fixed := by
      rw [show s7 = _ from rfl, State.fixed_foldl _ (fun s t => State.windowPc_fixed ..), State.fixed_foldl _ (fun s j => State.hostCheck_fixed ..)]
      exact h6
    rw [State.fixed_foldl _ (fun s j => State.retire_fixed ..), State.fixed_foldl _ (fun s j => State.follow_fixed ..),
      State.fixed_foldl _ (fun s j => State.results_fixed ..)]
    exact h7

@[simp] theorem State.parityDetect_fixed (s : State) (a1 : Nat) (a2 : BitVec 2) (a3 : Bool) (a4 : BitVec 32) : (State.parityDetect s a1 a2 a3 a4).fixed = s.fixed := by
  unfold State.parityDetect
  repeat' first | (simp; done) | (rw [State.fixed_foldl]; intro s x) | (rw [State.fixed_foldl]; rotate_left; intro s x) | split | simp
@[simp] theorem State.parityFinish_fixed (s : State) (a1 : Nat) (a2 : BitVec 2) (a3 : Bool) : (State.parityFinish s a1 a2 a3).fixed = s.fixed := by
  unfold State.parityFinish
  repeat' first | (simp; done) | (rw [State.fixed_foldl]; intro s x) | (rw [State.fixed_foldl]; rotate_left; intro s x) | split | simp
@[simp] theorem State.queueWindow_fixed (s : State) (a1 : Nat) (a2 : List WinReq) : (State.queueWindow s a1 a2).fixed = s.fixed := by
  unfold State.queueWindow
  repeat' first | (simp; done) | (rw [State.fixed_foldl]; intro s x) | (rw [State.fixed_foldl]; rotate_left; intro s x) | split | simp
@[simp] theorem State.winRead_fixed (s : State) (a1 : Nat) (a2 : Nat) (a3 : Bool) : (State.winRead s a1 a2 a3).fixed = s.fixed := by
  unfold State.winRead
  repeat' first | (simp; done) | (rw [State.fixed_foldl]; intro s x) | (rw [State.fixed_foldl]; rotate_left; intro s x) | split | simp
@[simp] theorem State.winWrite_fixed (s : State) (a1 : Nat) (a2 : Nat) (a3 : Nat) (a4 : Bool) : (State.winWrite s a1 a2 a3 a4).fixed = s.fixed := by
  unfold State.winWrite
  repeat' first | (simp; done) | (rw [State.fixed_foldl]; intro s x) | (rw [State.fixed_foldl]; rotate_left; intro s x) | split | simp
@[simp] theorem State.queueFe_fixed (s : State) (a1 : Nat) (a2 : WinKind) (a3 : BitVec 32) : (State.queueFe s a1 a2 a3).fixed = s.fixed := by
  unfold State.queueFe
  repeat' first | (simp; done) | (rw [State.fixed_foldl]; intro s x) | (rw [State.fixed_foldl]; rotate_left; intro s x) | split | simp
@[simp] theorem State.ifReady_fixed (s : State) (a1 : State → State) (h1 : ∀ x0, (a1 x0).fixed = x0.fixed) : (State.ifReady s a1).fixed = s.fixed := by
  unfold State.ifReady
  repeat' first | (simp [h1]; done) | (rw [State.fixed_foldl]; intro s x) | (rw [State.fixed_foldl]; rotate_left; intro s x) | split | simp [h1]
@[simp] theorem State.addDebt_fixed (s : State) (a1 : Nat) : (State.addDebt s a1).fixed = s.fixed := by
  unfold State.addDebt
  repeat' first | (simp; done) | (rw [State.fixed_foldl]; intro s x) | (rw [State.fixed_foldl]; rotate_left; intro s x) | split | simp
@[simp] theorem State.subDebt_fixed (s : State) (a1 : Nat) (a2 : BitVec 24) : (State.subDebt s a1 a2).fixed = s.fixed := by
  unfold State.subDebt
  repeat' first | (simp; done) | (rw [State.fixed_foldl]; intro s x) | (rw [State.fixed_foldl]; rotate_left; intro s x) | split | simp
@[simp] theorem State.raiseStall_fixed (s : State) (a1 : BitVec 8) : (State.raiseStall s a1).fixed = s.fixed := by
  unfold State.raiseStall
  repeat' first | (simp; done) | (rw [State.fixed_foldl]; intro s x) | (rw [State.fixed_foldl]; rotate_left; intro s x) | split | simp
@[simp] theorem State.raiseLimit_fixed (s : State) (a1 : Episode) : (State.raiseLimit s a1).fixed = s.fixed := by
  unfold State.raiseLimit
  repeat' first | (simp; done) | (rw [State.fixed_foldl]; intro s x) | (rw [State.fixed_foldl]; rotate_left; intro s x) | split | simp
@[simp] theorem State.writeHoldLimit_fixed (s : State) (a1 : BitVec 32) : (State.writeHoldLimit s a1).fixed = s.fixed := by
  unfold State.writeHoldLimit
  repeat' first | (simp; done) | (rw [State.fixed_foldl]; intro s x) | (rw [State.fixed_foldl]; rotate_left; intro s x) | split | simp
@[simp] theorem State.writeThrottle_fixed (s : State) (a1 : BitVec 32) : (State.writeThrottle s a1).fixed = s.fixed := by
  unfold State.writeThrottle
  repeat' first | (simp; done) | (rw [State.fixed_foldl]; intro s x) | (rw [State.fixed_foldl]; rotate_left; intro s x) | split | simp
@[simp] theorem State.setCount_fixed (s : State) (a1 : Nat) : (State.setCount s a1).fixed = s.fixed := by
  unfold State.setCount
  repeat' first | (simp; done) | (rw [State.fixed_foldl]; intro s x) | (rw [State.fixed_foldl]; rotate_left; intro s x) | split | simp
@[simp] theorem State.alignStart_fixed (s : State) : (State.alignStart s).fixed = s.fixed := by
  unfold State.alignStart
  repeat' first | (simp; done) | (rw [State.fixed_foldl]; intro s x) | (rw [State.fixed_foldl]; rotate_left; intro s x) | split | simp
@[simp] theorem State.rememberSym_fixed (s : State) (a1 : Nat) (a2 : BitVec 64) : (State.rememberSym s a1 a2).fixed = s.fixed := by
  unfold State.rememberSym
  repeat' first | (simp; done) | (rw [State.fixed_foldl]; intro s x) | (rw [State.fixed_foldl]; rotate_left; intro s x) | split | simp
@[simp] theorem State.primePart_fixed (s : State) (a1 : Nat) (a2 : Nat) : (State.primePart s a1 a2).fixed = s.fixed := by
  unfold State.primePart
  repeat' first | (simp; done) | (rw [State.fixed_foldl]; intro s x) | (rw [State.fixed_foldl]; rotate_left; intro s x) | split | simp
@[simp] theorem State.sendBarrier_fixed (s : State) (a1 : Nat) : (State.sendBarrier s a1).fixed = s.fixed := by
  unfold State.sendBarrier
  repeat' first | (simp; done) | (rw [State.fixed_foldl]; intro s x) | (rw [State.fixed_foldl]; rotate_left; intro s x) | split | simp
@[simp] theorem State.launchArm_fixed (s : State) : (State.launchArm s).fixed = s.fixed := by
  unfold State.launchArm
  repeat' first | (simp; done) | (rw [State.fixed_foldl]; intro s x) | (rw [State.fixed_foldl]; rotate_left; intro s x) | split | simp
@[simp] theorem State.startTiles_fixed (s : State) (a1 : Nat) : (State.startTiles s a1).fixed = s.fixed := by
  unfold State.startTiles
  repeat' first | (simp; done) | (rw [State.fixed_foldl]; intro s x) | (rw [State.fixed_foldl]; rotate_left; intro s x) | split | simp
@[simp] theorem State.startPart_fixed (s : State) (a1 : Nat) (a2 : Nat) : (State.startPart s a1 a2).fixed = s.fixed := by
  unfold State.startPart
  repeat' first | (simp; done) | (rw [State.fixed_foldl]; intro s x) | (rw [State.fixed_foldl]; rotate_left; intro s x) | split | simp
@[simp] theorem State.startAll_fixed (s : State) (a1 : Nat) : (State.startAll s a1).fixed = s.fixed := by
  unfold State.startAll
  repeat' first | (simp; done) | (rw [State.fixed_foldl]; intro s x) | (rw [State.fixed_foldl]; rotate_left; intro s x) | split | simp
@[simp] theorem State.clearBarrier_fixed (s : State) : (State.clearBarrier s).fixed = s.fixed := by
  unfold State.clearBarrier
  repeat' first | (simp; done) | (rw [State.fixed_foldl]; intro s x) | (rw [State.fixed_foldl]; rotate_left; intro s x) | split | simp
@[simp] theorem State.rejectStep_fixed (s : State) (a1 : Nat) : (State.rejectStep s a1).fixed = s.fixed := by
  unfold State.rejectStep
  repeat' first | (simp; done) | (rw [State.fixed_foldl]; intro s x) | (rw [State.fixed_foldl]; rotate_left; intro s x) | split | simp
@[simp] theorem State.tickPassed_fixed (s : State) (a1 : Nat) (a2 : Nat) (a3 : Option Nat) : (State.tickPassed s a1 a2 a3).fixed = s.fixed := by
  unfold State.tickPassed
  repeat' first | (simp; done) | (rw [State.fixed_foldl]; intro s x) | (rw [State.fixed_foldl]; rotate_left; intro s x) | split | simp
@[simp] theorem State.stepArm_fixed (s : State) : (State.stepArm s).fixed = s.fixed := by
  unfold State.stepArm
  repeat' first | (simp; done) | (rw [State.fixed_foldl]; intro s x) | (rw [State.fixed_foldl]; rotate_left; intro s x) | split | simp
@[simp] theorem State.writeFlat_fixed (s : State) (a1 : BitVec 32) : (State.writeFlat s a1).fixed = s.fixed := by
  unfold State.writeFlat
  repeat' first | (simp; done) | (rw [State.fixed_foldl]; intro s x) | (rw [State.fixed_foldl]; rotate_left; intro s x) | split | simp
@[simp] theorem State.ventTransmit_fixed (s : State) (a1 : VentOut) : (State.ventTransmit s a1).fixed = s.fixed := by
  unfold State.ventTransmit
  repeat' first | (simp; done) | (rw [State.fixed_foldl]; intro s x) | (rw [State.fixed_foldl]; rotate_left; intro s x) | split | simp
@[simp] theorem State.ventSend_fixed (s : State) (a1 : BitVec 24) (a2 : List (BitVec 8)) : (State.ventSend s a1 a2).fixed = s.fixed := by
  unfold State.ventSend
  repeat' first | (simp; done) | (rw [State.fixed_foldl]; intro s x) | (rw [State.fixed_foldl]; rotate_left; intro s x) | split | simp
@[simp] theorem State.ventFail_fixed (s : State) (a1 : BitVec 24) (a2 : BitVec 32) : (State.ventFail s a1 a2).fixed = s.fixed := by
  unfold State.ventFail
  repeat' first | (simp; done) | (rw [State.fixed_foldl]; intro s x) | (rw [State.fixed_foldl]; rotate_left; intro s x) | split | simp
@[simp] theorem State.ventAck_fixed (s : State) (a1 : BitVec 24) (a2 : BitVec 32) : (State.ventAck s a1 a2).fixed = s.fixed := by
  unfold State.ventAck
  repeat' first | (simp; done) | (rw [State.fixed_foldl]; intro s x) | (rw [State.fixed_foldl]; rotate_left; intro s x) | split | simp
@[simp] theorem State.setLinkState_fixed (s : State) (a1 : Nat) (a2 : BitVec 3) : (State.setLinkState s a1 a2).fixed = s.fixed := by
  unfold State.setLinkState
  repeat' first | (simp; done) | (rw [State.fixed_foldl]; intro s x) | (rw [State.fixed_foldl]; rotate_left; intro s x) | split | simp
@[simp] theorem State.goDown_fixed (s : State) (a1 : Nat) (a2 : Nat) : (State.goDown s a1 a2).fixed = s.fixed := by
  unfold State.goDown
  repeat' first | (simp; done) | (rw [State.fixed_foldl]; intro s x) | (rw [State.fixed_foldl]; rotate_left; intro s x) | split | simp
@[simp] theorem State.seqProtocol_fixed (s : State) (a1 : Nat) (a2 : BitVec 16) : (State.seqProtocol s a1 a2).fixed = s.fixed := by
  unfold State.seqProtocol
  repeat' first | (simp; done) | (rw [State.fixed_foldl]; intro s x) | (rw [State.fixed_foldl]; rotate_left; intro s x) | split | simp
@[simp] theorem State.discardPackets_fixed (s : State) (a1 : Nat) : (State.discardPackets s a1).fixed = s.fixed := by
  unfold State.discardPackets
  repeat' first | (simp; done) | (rw [State.fixed_foldl]; intro s x) | (rw [State.fixed_foldl]; rotate_left; intro s x) | split | simp
@[simp] theorem State.failPort_fixed (s : State) (a1 : Nat) : (State.failPort s a1).fixed = s.fixed := by
  unfold State.failPort
  repeat' first | (simp; done) | (rw [State.fixed_foldl]; intro s x) | (rw [State.fixed_foldl]; rotate_left; intro s x) | split | simp
@[simp] theorem State.badTrailer_fixed (s : State) (a1 : Nat) : (State.badTrailer s a1).fixed = s.fixed := by
  unfold State.badTrailer
  repeat' first | (simp; done) | (rw [State.fixed_foldl]; intro s x) | (rw [State.fixed_foldl]; rotate_left; intro s x) | split | simp
@[simp] theorem State.acceptNext_fixed (s : State) (a1 : Nat) (a2 : Packet) : (State.acceptNext s a1 a2).fixed = s.fixed := by
  unfold State.acceptNext
  repeat' first | (simp; done) | (rw [State.fixed_foldl]; intro s x) | (rw [State.fixed_foldl]; rotate_left; intro s x) | split | simp
@[simp] theorem State.passStates_fixed (s : State) (a1 : Nat) (a2 : Nat) : (State.passStates s a1 a2).fixed = s.fixed := by
  unfold State.passStates
  repeat' first | (simp; done) | (rw [State.fixed_foldl]; intro s x) | (rw [State.fixed_foldl]; rotate_left; intro s x) | split | simp
@[simp] theorem State.startTraining_fixed (s : State) (a1 : Nat) (a2 : Bool) : (State.startTraining s a1 a2).fixed = s.fixed := by
  unfold State.startTraining
  repeat' first | (simp; done) | (rw [State.fixed_foldl]; intro s x) | (rw [State.fixed_foldl]; rotate_left; intro s x) | split | simp
@[simp] theorem State.writeEnable_fixed (s : State) (a1 : Nat) (a2 : Bool) : (State.writeEnable s a1 a2).fixed = s.fixed := by
  unfold State.writeEnable
  repeat' first | (simp; done) | (rw [State.fixed_foldl]; intro s x) | (rw [State.fixed_foldl]; rotate_left; intro s x) | split | simp
@[simp] theorem State.fullTrainReq_fixed (s : State) (a1 : Nat) : (State.fullTrainReq s a1).fixed = s.fixed := by
  unfold State.fullTrainReq
  repeat' first | (simp; done) | (rw [State.fixed_foldl]; intro s x) | (rw [State.fixed_foldl]; rotate_left; intro s x) | split | simp
@[simp] theorem State.forceRetrain_fixed (s : State) (a1 : Nat) : (State.forceRetrain s a1).fixed = s.fixed := by
  unfold State.forceRetrain
  repeat' first | (simp; done) | (rw [State.fixed_foldl]; intro s x) | (rw [State.fixed_foldl]; rotate_left; intro s x) | split | simp
@[simp] theorem State.declarePort_fixed (s : State) (a1 : Nat) : (State.declarePort s a1).fixed = s.fixed := by
  unfold State.declarePort
  repeat' first | (simp; done) | (rw [State.fixed_foldl]; intro s x) | (rw [State.fixed_foldl]; rotate_left; intro s x) | split | simp
@[simp] theorem State.wiringMismatch_fixed (s : State) (a1 : Nat) (a2 : LinkIdent) : (State.wiringMismatch s a1 a2).fixed = s.fixed := by
  unfold State.wiringMismatch
  repeat' first | (simp; done) | (rw [State.fixed_foldl]; intro s x) | (rw [State.fixed_foldl]; rotate_left; intro s x) | split | simp
@[simp] theorem State.requestLane_fixed (s : State) (a1 : Nat) (a2 : Nat) : (State.requestLane s a1 a2).fixed = s.fixed := by
  unfold State.requestLane
  repeat' first | (simp; done) | (rw [State.fixed_foldl]; intro s x) | (rw [State.fixed_foldl]; rotate_left; intro s x) | split | simp
@[simp] theorem State.laneDegrades_fixed (s : State) (a1 : Nat) (a2 : Nat) : (State.laneDegrades s a1 a2).fixed = s.fixed := by
  unfold State.laneDegrades
  repeat' first | (simp; done) | (rw [State.fixed_foldl]; intro s x) | (rw [State.fixed_foldl]; rotate_left; intro s x) | split | simp
@[simp] theorem State.laneSwapReq_fixed (s : State) (a1 : Nat) : (State.laneSwapReq s a1).fixed = s.fixed := by
  unfold State.laneSwapReq
  repeat' first | (simp; done) | (rw [State.fixed_foldl]; intro s x) | (rw [State.fixed_foldl]; rotate_left; intro s x) | split | simp
@[simp] theorem State.countOpen_fixed (s : State) (a1 : Nat) : (State.countOpen s a1).fixed = s.fixed := by
  unfold State.countOpen
  repeat' first | (simp; done) | (rw [State.fixed_foldl]; intro s x) | (rw [State.fixed_foldl]; rotate_left; intro s x) | split | simp
@[simp] theorem State.openWrite_fixed (s : State) (a1 : Nat) (a2 : Nat) (a3 : Line) : (State.openWrite s a1 a2 a3).fixed = s.fixed := by
  unfold State.openWrite
  repeat' first | (simp; done) | (rw [State.fixed_foldl]; intro s x) | (rw [State.fixed_foldl]; rotate_left; intro s x) | split | simp
@[simp] theorem State.stageSettle_fixed (s : State) (a1 : Option (Nat × Nat × Nat)) : (State.stageSettle s a1).fixed = s.fixed := by
  unfold State.stageSettle
  repeat' first | (simp; done) | (rw [State.fixed_foldl]; intro s x) | (rw [State.fixed_foldl]; rotate_left; intro s x) | split | simp
@[simp] theorem State.beginRefresh_fixed (s : State) (a1 : Nat) (a2 : Nat) (a3 : Nat) (a4 : Bool) (a5 : Bool) : (State.beginRefresh s a1 a2 a3 a4 a5).fixed = s.fixed := by
  unfold State.beginRefresh
  repeat' first | (simp; done) | (rw [State.fixed_foldl]; intro s x) | (rw [State.fixed_foldl]; rotate_left; intro s x) | split | simp
@[simp] theorem State.stkGo_fixed (s : State) (a1 : Nat) : (State.stkGo s a1).fixed = s.fixed := by
  unfold State.stkGo
  repeat' first | (simp; done) | (rw [State.fixed_foldl]; intro s x) | (rw [State.fixed_foldl]; rotate_left; intro s x) | split | simp
@[simp] theorem State.admitWindow_fixed (s : State) (a1 : Nat) (a2 : WinAcc) : (State.admitWindow s a1 a2).fixed = s.fixed := by
  unfold State.admitWindow
  repeat' first | (simp; done) | (rw [State.fixed_foldl]; intro s x) | (rw [State.fixed_foldl]; rotate_left; intro s x) | split | simp
@[simp] theorem State.sealFailed_fixed (s : State) (a1 : Nat) (a2 : Nat) (a3 : Nat) (a4 : Nat) : (State.sealFailed s a1 a2 a3 a4).fixed = s.fixed := by
  unfold State.sealFailed
  repeat' first | (simp; done) | (rw [State.fixed_foldl]; intro s x) | (rw [State.fixed_foldl]; rotate_left; intro s x) | split | simp
@[simp] theorem State.loadSealed_fixed (s : State) (a1 : Nat) (a2 : List (BitVec 8)) (a3 : Option (Nat × Nat × Nat)) : (State.loadSealed s a1 a2 a3).1.fixed = s.fixed := by
  unfold State.loadSealed
  repeat' first | (simp; done) | (rw [State.fixed_foldl]; intro s x) | (rw [State.fixed_foldl]; rotate_left; intro s x) | split | simp
@[simp] theorem State.stagingError_fixed (s : State) (a1 : Nat) (a2 : Nat) : (State.stagingError s a1 a2).fixed = s.fixed := by
  unfold State.stagingError
  repeat' first | (simp; done) | (rw [State.fixed_foldl]; intro s x) | (rw [State.fixed_foldl]; rotate_left; intro s x) | split | simp
@[simp] theorem issueStaging_fixed (k : Nat) (s : State) : (issueStaging k s).fixed = s.fixed := by
  induction k generalizing s with
  | zero => rfl
  | succ k ih => unfold issueStaging; repeat' first | rfl | split | simp [ih]

@[simp] theorem State.fillHalf_fixed (s : State) (a1 : Nat) (a2 : Nat) : (State.fillHalf s a1 a2).fixed = s.fixed := by
  unfold State.fillHalf
  repeat' first | (simp; done) | (rw [State.fixed_foldl]; intro s x) | (rw [State.fixed_foldl]; rotate_left; intro s x) | split | simp
@[simp] theorem State.stageWords_fixed (s : State) (a1 : Nat) (a2 : Nat) (a3 : Nat) (a4 : Nat) (a5 : List Line) : (State.stageWords s a1 a2 a3 a4 a5).fixed = s.fixed := by
  unfold State.stageWords
  repeat' first | (simp; done) | (rw [State.fixed_foldl]; intro s x) | (rw [State.fixed_foldl]; rotate_left; intro s x) | split | simp
@[simp] theorem State.recordCal_fixed (s : State) (a1 : HealthRec) : (State.recordCal s a1).fixed = s.fixed := by
  unfold State.recordCal
  repeat' first | (simp; done) | (rw [State.fixed_foldl]; intro s x) | (rw [State.fixed_foldl]; rotate_left; intro s x) | split | simp
@[simp] theorem State.failRun_fixed (s : State) (a1 : MapRun) (a2 : Nat) (a3 : CheckLoc) (a4 : Nat) : (State.failRun s a1 a2 a3 a4).fixed = s.fixed := by
  unfold State.failRun
  repeat' first | (simp; done) | (rw [State.fixed_foldl]; intro s x) | (rw [State.fixed_foldl]; rotate_left; intro s x) | split | simp
@[simp] theorem State.enterPhase_fixed (s : State) (a1 : BitVec 3) : (State.enterPhase s a1).fixed = s.fixed := by
  unfold State.enterPhase
  repeat' first | (simp; done) | (rw [State.fixed_foldl]; intro s x) | (rw [State.fixed_foldl]; rotate_left; intro s x) | split | simp
@[simp] theorem State.agreeRun_fixed (s : State) (a1 : MapRun) (a2 : JobCtx) : (State.agreeRun s a1 a2).fixed = s.fixed := by
  unfold State.agreeRun
  repeat' first | (simp; done) | (rw [State.fixed_foldl]; intro s x) | (rw [State.fixed_foldl]; rotate_left; intro s x) | split | simp
@[simp] theorem State.checkRun_fixed (s : State) (a1 : MapRun) (a2 : JobCtx) : (State.checkRun s a1 a2).fixed = s.fixed := by
  unfold State.checkRun
  repeat' first | (simp; done) | (rw [State.fixed_foldl]; intro s x) | (rw [State.fixed_foldl]; rotate_left; intro s x) | split | simp
@[simp] theorem State.placeRun_fixed (s : State) (a1 : MapRun) (a2 : JobCtx) : (State.placeRun s a1 a2).fixed = s.fixed := by
  unfold State.placeRun
  repeat' first | (simp; done) | (rw [State.fixed_foldl]; intro s x) | (rw [State.fixed_foldl]; rotate_left; intro s x) | split | simp
@[simp] theorem State.refreshFabric_fixed (s : State) : (State.refreshFabric s).fixed = s.fixed := by
  unfold State.refreshFabric
  repeat' first | (simp; done) | (rw [State.fixed_foldl]; intro s x) | (rw [State.fixed_foldl]; rotate_left; intro s x) | split | simp
@[simp] theorem State.bindTiles_fixed (s : State) (a1 : Nat) : (State.bindTiles s a1).fixed = s.fixed := by
  unfold State.bindTiles
  repeat' first | (simp; done) | (rw [State.fixed_foldl]; intro s x) | (rw [State.fixed_foldl]; rotate_left; intro s x) | split | simp
@[simp] theorem State.keepRunning_fixed (s old : State) (p : Nat) : (s.keepRunning old p).fixed = s.fixed := by
  unfold State.keepRunning
  rw [State.fixed_foldl]
  intro s x
  dsimp only
  split <;> simp

@[simp] theorem State.loadTiles_fixed (s : State) (a1 : Nat) : (State.loadTiles s a1).fixed = s.fixed := by
  unfold State.loadTiles
  repeat' first | (simp; done) | (rw [State.fixed_foldl]; intro s x) | (rw [State.fixed_foldl]; rotate_left; intro s x) | split | simp
@[simp] theorem State.installMapping_fixed (s : State) (a1 : Nat) : (State.installMapping s a1).fixed = s.fixed := by
  unfold State.installMapping
  repeat' first | (simp; done) | (rw [State.fixed_foldl]; intro s x) | (rw [State.fixed_foldl]; rotate_left; intro s x) | split | simp
@[simp] theorem State.continueRun_fixed (s : State) : (State.continueRun s).fixed = s.fixed := by
  unfold State.continueRun
  repeat' first | (simp; done) | (rw [State.fixed_foldl]; intro s x) | (rw [State.fixed_foldl]; rotate_left; intro s x) | split | simp
@[simp] theorem State.startRun_fixed (s : State) (a1 : Nat) (a2 : Bool) (a3 : BindEnv) : (State.startRun s a1 a2 a3).fixed = s.fixed := by
  unfold State.startRun
  repeat' first | (simp; done) | (rw [State.fixed_foldl]; intro s x) | (rw [State.fixed_foldl]; rotate_left; intro s x) | split | simp
@[simp] theorem State.restartRun_fixed (s : State) (a1 : BitVec 512) : (State.restartRun s a1).fixed = s.fixed := by
  unfold State.restartRun
  repeat' first | (simp; done) | (rw [State.fixed_foldl]; intro s x) | (rw [State.fixed_foldl]; rotate_left; intro s x) | split | simp
@[simp] theorem State.setBkt_fixed (s : State) (a1 : Nat) (a2 : Bucket) : (State.setBkt s a1 a2).fixed = s.fixed := by
  unfold State.setBkt
  repeat' first | (simp; done) | (rw [State.fixed_foldl]; intro s x) | (rw [State.fixed_foldl]; rotate_left; intro s x) | split | simp
@[simp] theorem State.ledgerFault_fixed (s : State) (a1 : Nat) (a2 : Nat) : (State.ledgerFault s a1 a2).fixed = s.fixed := by
  unfold State.ledgerFault
  repeat' first | (simp; done) | (rw [State.fixed_foldl]; intro s x) | (rw [State.fixed_foldl]; rotate_left; intro s x) | split | simp
@[simp] theorem State.changeBkt_fixed (s : State) (a1 : Nat) (a2 : Nat) (a3 : Bucket → Bucket) : (State.changeBkt s a1 a2 a3).fixed = s.fixed := by
  unfold State.changeBkt
  repeat' first | (simp; done) | (rw [State.fixed_foldl]; intro s x) | (rw [State.fixed_foldl]; rotate_left; intro s x) | split | simp
@[simp] theorem State.budGo_fixed (s : State) (a1 : Nat) : (State.budGo s a1).fixed = s.fixed := by
  unfold State.budGo
  repeat' first | (simp; done) | (rw [State.fixed_foldl]; intro s x) | (rw [State.fixed_foldl]; rotate_left; intro s x) | split | simp
@[simp] theorem State.budOp_fixed (s : State) (a1 : Nat) : (State.budOp s a1).fixed = s.fixed := by
  unfold State.budOp
  repeat' first | (simp; done) | (rw [State.fixed_foldl]; intro s x) | (rw [State.fixed_foldl]; rotate_left; intro s x) | split | simp
@[simp] theorem State.bktSel_fixed (s : State) (a1 : BitVec 32) : (State.bktSel s a1).fixed = s.fixed := by
  unfold State.bktSel
  repeat' first | (simp; done) | (rw [State.fixed_foldl]; intro s x) | (rw [State.fixed_foldl]; rotate_left; intro s x) | split | simp
@[simp] theorem State.setEnt_fixed (s : State) (a1 : Nat) (a2 : Entry) : (State.setEnt s a1 a2).fixed = s.fixed := by
  unfold State.setEnt
  repeat' first | (simp; done) | (rw [State.fixed_foldl]; intro s x) | (rw [State.fixed_foldl]; rotate_left; intro s x) | split | simp
@[simp] theorem State.entrySel_fixed (s : State) (a1 : BitVec 32) : (State.entrySel s a1).fixed = s.fixed := by
  unfold State.entrySel
  repeat' first | (simp; done) | (rw [State.fixed_foldl]; intro s x) | (rw [State.fixed_foldl]; rotate_left; intro s x) | split | simp
@[simp] theorem State.setDeficit_fixed (s : State) (a1 : Nat) (a2 : ℤ) : (State.setDeficit s a1 a2).fixed = s.fixed := by
  unfold State.setDeficit
  repeat' first | (simp; done) | (rw [State.fixed_foldl]; intro s x) | (rw [State.fixed_foldl]; rotate_left; intro s x) | split | simp
@[simp] theorem State.regionWrite_fixed (s : State) (a1 : Nat) (a2 : Image) (a3 : Nat) (a4 : Nat) (a5 : List (Nat × Line)) : (State.regionWrite s a1 a2 a3 a4 a5).fixed = s.fixed := by
  unfold State.regionWrite
  repeat' first | (simp; done) | (rw [State.fixed_foldl]; intro s x) | (rw [State.fixed_foldl]; rotate_left; intro s x) | split | simp
@[simp] theorem State.mailboxes_fixed (s : State) (a1 : Nat) (a2 : Nat) (a3 : Line) (a4 : Nat) : (State.mailboxes s a1 a2 a3 a4).fixed = s.fixed := by
  unfold State.mailboxes
  repeat' first | (simp; done) | (rw [State.fixed_foldl]; intro s x) | (rw [State.fixed_foldl]; rotate_left; intro s x) | split | simp
@[simp] theorem State.drawDone_fixed (s : State) (a1 : Nat) (a2 : Nat) : (State.drawDone s a1 a2).2.fixed = s.fixed := by
  unfold State.drawDone
  repeat' first | (simp; done) | (rw [State.fixed_foldl]; intro s x) | (rw [State.fixed_foldl]; rotate_left; intro s x) | split | simp
@[simp] theorem State.toPartner_fixed (s : State) (a1 : Bool) (a2 : Packet) : (State.toPartner s a1 a2).fixed = s.fixed := by
  unfold State.toPartner
  repeat' first | (simp; done) | (rw [State.fixed_foldl]; intro s x) | (rw [State.fixed_foldl]; rotate_left; intro s x) | split | simp
@[simp] theorem State.sendGroup_fixed (s : State) (a1 : Nat) (a2 : Image) (a3 : Serving) (a4 : GroupMsg) : (State.sendGroup s a1 a2 a3 a4).fixed = s.fixed := by
  unfold State.sendGroup
  repeat' first | (simp; done) | (rw [State.fixed_foldl]; intro s x) | (rw [State.fixed_foldl]; rotate_left; intro s x) | split | simp
@[simp] theorem State.showAshFree_fixed (s : State) : (State.showAshFree s).fixed = s.fixed := by
  unfold State.showAshFree
  repeat' first | (simp; done) | (rw [State.fixed_foldl]; intro s x) | (rw [State.fixed_foldl]; rotate_left; intro s x) | split | simp
@[simp] theorem State.sendBuddy_fixed (s : State) (a1 : Nat) (a2 : Nat) (a3 : Nat) (a4 : List Line) : (State.sendBuddy s a1 a2 a3 a4).fixed = s.fixed := by
  unfold State.sendBuddy
  repeat' first | (simp; done) | (rw [State.fixed_foldl]; intro s x) | (rw [State.fixed_foldl]; rotate_left; intro s x) | split | simp
@[simp] theorem State.appendAsh_fixed (s : State) (a1 : AshEntry) : (State.appendAsh s a1).fixed = s.fixed := by
  unfold State.appendAsh
  repeat' first | (simp; done) | (rw [State.fixed_foldl]; intro s x) | (rw [State.fixed_foldl]; rotate_left; intro s x) | split | simp
@[simp] theorem State.recoveryFail_fixed (s : State) (a1 : Nat) : (State.recoveryFail s a1).fixed = s.fixed := by
  unfold State.recoveryFail
  repeat' first | (simp; done) | (rw [State.fixed_foldl]; intro s x) | (rw [State.fixed_foldl]; rotate_left; intro s x) | split | simp
/-- A choice between two boundary records keeps what both keep. -/
@[simp] theorem Bnd.ite_s (c : Prop) [Decidable c] (a b : Bnd) : (if c then a else b).s = if c then a.s else b.s := apply_ite ..
theorem State.budgetOp_fixed (s : State) (p op cust : Nat) (val : Int) (r : State × Int) (h : s.budgetOp p op cust val = some r) :
    r.1.fixed = s.fixed := by
  unfold State.budgetOp at h
  dsimp only at h
  repeat' split at h
  all_goals first
    | (cases h; done)
    | (cases h; exact State.changeBkt_fixed ..)
    | (cases h; exact State.modBd_fixed ..)
/-- A fold over boundary records that each keep what is fixed keeps it. -/
theorem Bnd.fixed_foldl {α : Type} (f : Bnd → α → Bnd) (h : ∀ b x, (f b x).s.fixed = b.s.fixed) (l : List α) (b : Bnd) :
    (l.foldl f b).s.fixed = b.s.fixed := by
  induction l generalizing b with
  | nil => rfl
  | cons x l ih => rw [List.foldl_cons, ih, h]

@[simp] theorem Bnd.log_fixed (b : Bnd) (us : List Line) : (b.log us).s.fixed = b.s.fixed := by
  unfold Bnd.log
  repeat' first | (simp [*]; done) | (rw [State.fixed_foldl]; intro s x) | (rw [State.fixed_foldl]; rotate_left; intro s x) | (rw [Bnd.fixed_foldl]; intro b x) | (rw [Bnd.fixed_foldl]; rotate_left; intro b x) | split | simp [*]
@[simp] theorem Bnd.reply_fixed (b : Bnd) (id : Nat) (st : Nat) : (b.reply id st).s.fixed = b.s.fixed := by
  unfold Bnd.reply
  repeat' first | (simp [*]; done) | (rw [State.fixed_foldl]; intro s x) | (rw [State.fixed_foldl]; rotate_left; intro s x) | (rw [Bnd.fixed_foldl]; intro b x) | (rw [Bnd.fixed_foldl]; rotate_left; intro b x) | split | simp [*]
@[simp] theorem Bnd.replySub_fixed (b : Bnd) (id : Nat) (st : Nat) : (b.replySub id st).s.fixed = b.s.fixed := by
  unfold Bnd.replySub
  repeat' first | (simp [*]; done) | (rw [State.fixed_foldl]; intro s x) | (rw [State.fixed_foldl]; rotate_left; intro s x) | (rw [Bnd.fixed_foldl]; intro b x) | (rw [Bnd.fixed_foldl]; rotate_left; intro b x) | split | simp [*]
@[simp] theorem Bnd.note_fixed (b : Bnd) (c : Nat) (g : Int) (ch : Nat) (sp : Int) : (b.note c g ch sp).s.fixed = b.s.fixed := by
  unfold Bnd.note
  repeat' first | (simp [*]; done) | (rw [State.fixed_foldl]; intro s x) | (rw [State.fixed_foldl]; rotate_left; intro s x) | (rw [Bnd.fixed_foldl]; intro b x) | (rw [Bnd.fixed_foldl]; rotate_left; intro b x) | split | simp [*]
@[simp] theorem Bnd.findMarks_fixed (b : Bnd) : (b.findMarks).s.fixed = b.s.fixed := by
  unfold Bnd.findMarks
  repeat' first | (simp [*]; done) | (rw [State.fixed_foldl]; intro s x) | (rw [State.fixed_foldl]; rotate_left; intro s x) | (rw [Bnd.fixed_foldl]; intro b x) | (rw [Bnd.fixed_foldl]; rotate_left; intro b x) | split | simp [*]
@[simp] theorem Bnd.cancel_fixed (b : Bnd) (id : Nat) (waiting : List (BitVec 32 × BitVec 64)) : (b.cancel id waiting).s.fixed = b.s.fixed := by
  unfold Bnd.cancel
  repeat' first | (simp [*]; done) | (rw [State.fixed_foldl]; intro s x) | (rw [State.fixed_foldl]; rotate_left; intro s x) | (rw [Bnd.fixed_foldl]; intro b x) | (rw [Bnd.fixed_foldl]; rotate_left; intro b x) | split | simp [*]
@[simp] theorem Bnd.logOp_fixed (b : Bnd) (op : Nat) (cust : Nat) (val : Nat) : (b.logOp op cust val).s.fixed = b.s.fixed := by
  unfold Bnd.logOp
  repeat' first | (simp [*]; done) | (rw [State.fixed_foldl]; intro s x) | (rw [State.fixed_foldl]; rotate_left; intro s x) | (rw [Bnd.fixed_foldl]; intro b x) | (rw [Bnd.fixed_foldl]; rotate_left; intro b x) | split | simp [*]
@[simp] theorem Bnd.deadline_fixed (b : Bnd) (id : Nat) (dl : Nat) : (b.deadline id dl).s.fixed = b.s.fixed := by
  unfold Bnd.deadline
  repeat' first | (simp [*]; done) | (rw [State.fixed_foldl]; intro s x) | (rw [State.fixed_foldl]; rotate_left; intro s x) | (rw [Bnd.fixed_foldl]; intro b x) | (rw [Bnd.fixed_foldl]; rotate_left; intro b x) | split | simp [*]
theorem Bnd.budget_fixed (b : Bnd) (op cust : Nat) (val : Int) (b' : Bnd) (h : b.budget op cust val = some b') : b'.s.fixed = b.s.fixed := by
  simp only [Bnd.budget, Option.map_eq_some_iff] at h
  obtain ⟨r, hr, rfl⟩ := h
  have := State.budgetOp_fixed b.s b.p op cust val r hr
  split <;> simp [this]
@[simp] theorem Bnd.control_fixed (b : Bnd) (r : List (BitVec 8)) (waiting : List (BitVec 32 × BitVec 64)) : (b.control r waiting).s.fixed = b.s.fixed := by
  unfold Bnd.control
  dsimp only
  split
  · split
    · rename_i h
      split at h
      · simp [Bnd.budget_fixed _ _ _ _ _ h]
      · cases h
    · simp
  · repeat' first | (simp; done) | split
@[simp] theorem Bnd.operator_fixed (b : Bnd) : b.operator.s.fixed = b.s.fixed := by
  unfold Bnd.operator
  split
  · rfl
  · split
    · rfl
    · dsimp only
      split
      · rename_i h
        simp [Bnd.budget_fixed _ _ _ _ _ h]
      · simp
@[simp] theorem Bnd.params_fixed (b : Bnd) : b.params.s.fixed = b.s.fixed := by
  unfold Bnd.params
  split
  · rfl
  · dsimp only; split <;> split <;> simp
@[simp] theorem Bnd.freePages_fixed (b : Bnd) (i : Nat) : (b.freePages i).s.fixed = b.s.fixed := by
  unfold Bnd.freePages
  repeat' first | (simp [*]; done) | (rw [State.fixed_foldl]; intro s x) | (rw [State.fixed_foldl]; rotate_left; intro s x) | (rw [Bnd.fixed_foldl]; intro b x) | (rw [Bnd.fixed_foldl]; rotate_left; intro b x) | split | simp [*]
@[simp] theorem Bnd.settle_fixed (b : Bnd) (rets : List (Slot × Ret)) (i : Nat) (e : Entry) :
    (b.settle rets i e).s.fixed = b.s.fixed := by
  unfold Bnd.settle
  extract_lets l ret ch c b1 dec e1
  have h : b1.s.fixed = b.s.fixed := by
    show (if ch = 0 then b else _ : Bnd).s.fixed = _
    split
    · rfl
    · simp
  clear_value b1 e1
  split
  · exact (State.setEnt_fixed ..).trans h
  · extract_lets e2 rec unit b2 b3
    have h3 : b3.s.fixed = b.s.fixed := h
    split
    · exact (State.setEnt_fixed ..).trans h3
    · exact (State.setEnt_fixed ..).trans ((Bnd.freePages_fixed ..).trans h3)
@[simp] theorem Bnd.outcomes_fixed (b : Bnd) : (b.outcomes).s.fixed = b.s.fixed := by
  unfold Bnd.outcomes
  repeat' first | (simp [*]; done) | (rw [State.fixed_foldl]; intro s x) | (rw [State.fixed_foldl]; rotate_left; intro s x) | (rw [Bnd.fixed_foldl]; intro b x) | (rw [Bnd.fixed_foldl]; rotate_left; intro b x) | split | simp [*]
@[simp] theorem Bnd.depths_fixed (b : Bnd) : b.depths.s.fixed = b.s.fixed := by
  unfold Bnd.depths
  extract_lets rets ver seen c
  have hc : c.s.fixed = b.s.fixed := State.modBd_fixed ..
  split
  · exact hc
  · rw [Bnd.fixed_foldl, hc]
    intro b x
    extract_lets e c
    split
    · rfl
    · exact State.setEnt_fixed ..
@[simp] theorem Bnd.spring_fixed (b : Bnd) : (b.spring).s.fixed = b.s.fixed := by
  unfold Bnd.spring
  repeat' first | (simp [*]; done) | (rw [State.fixed_foldl]; intro s x) | (rw [State.fixed_foldl]; rotate_left; intro s x) | (rw [Bnd.fixed_foldl]; intro b x) | (rw [Bnd.fixed_foldl]; rotate_left; intro b x) | split | simp [*]
@[simp] theorem Bnd.ledger_fixed (b : Bnd) : (b.ledger).s.fixed = b.s.fixed := by
  unfold Bnd.ledger
  repeat' first | (simp [*]; done) | (rw [State.fixed_foldl]; intro s x) | (rw [State.fixed_foldl]; rotate_left; intro s x) | (rw [Bnd.fixed_foldl]; intro b x) | (rw [Bnd.fixed_foldl]; rotate_left; intro b x) | split | simp [*]
@[simp] theorem Bnd.admit_fixed (b : Bnd) (i : Nat) (x : Submit) : (b.admitOne i x).s.fixed = b.s.fixed := by
  unfold Bnd.admitOne
  repeat' first | (simp [*]; done) | (rw [State.fixed_foldl]; intro s x) | (rw [State.fixed_foldl]; rotate_left; intro s x) | (rw [Bnd.fixed_foldl]; intro b x) | (rw [Bnd.fixed_foldl]; rotate_left; intro b x) | split | simp [*]
@[simp] theorem Bnd.admitAll_fixed (xs : List Submit) (l : List Nat) (b : Bnd) : (Bnd.admitAll xs l b).s.fixed = b.s.fixed := by
  induction xs generalizing l b with
  | nil => rfl
  | cons x xs ih =>
    unfold Bnd.admitAll
    extract_lets id take q bid len room
    have ht (b : Bnd) : (take b).s.fixed = b.s.fixed := State.modSq_fixed ..
    split
    · rw [ih]; exact (State.modSq_fixed ..).trans ((ht _).trans (Bnd.replySub_fixed ..))
    · split
      · rw [ih, ht]; exact Bnd.replySub_fixed ..
      · split
        · rfl
        · split
          · rfl
          · split
            · rw [ih, ht]; exact Bnd.replySub_fixed ..
            · rw [ih, ht]; exact Bnd.admit_fixed ..
theorem Bnd.stringsFit_fixed (b : Bnd) (set : BitVec 32) (v : Nat) (b' : Bnd) (h : b.stringsFit set = some (v, b')) : b'.s.fixed = b.s.fixed := by
  unfold Bnd.stringsFit at h
  split at h
  · cases h; rfl
  · dsimp only at h
    split at h
    · cases h; exact State.modSq_fixed ..
    · split at h
      · cases h
      · split at h
        · cases h
        · cases h; exact State.modSq_fixed ..
@[simp] theorem Bnd.pagesFit_fixed (b : Bnd) (i upto : Nat) : (b.pagesFit i upto).2.s.fixed = b.s.fixed := by
  unfold Bnd.pagesFit
  extract_lets e need pages y had mine s1 s2 s3 base first ws units
  split
  · exact State.setEnt_fixed ..
  · split
    · exact State.setEnt_fixed ..
    · show s3.fixed = b.s.fixed
      simp only [s3, s2, s1, State.modBd_fixed, State.modSq_fixed, State.setEnt_fixed]
@[simp] theorem Bnd.tryEntry_fixed (b : Bnd) (i : Nat) : (b.tryEntry i).s.fixed = b.s.fixed := by
  unfold Bnd.tryEntry
  extract_lets e l decoding depth d left n pos0
  split
  · rfl
  · rename_i h
    have e := Bnd.stringsFit_fixed _ _ _ _ h
    extract_lets r
    split
    · exact (Bnd.pagesFit_fixed ..).trans e
    · exact (Bnd.pagesFit_fixed ..).trans e
@[simp] theorem Bnd.pass_fixed (b : Bnd) (xs : List (Nat × Entry)) : (b.pass xs).s.fixed = b.s.fixed := by
  unfold Bnd.pass
  repeat' first | (simp [*]; done) | (rw [State.fixed_foldl]; intro s x) | (rw [State.fixed_foldl]; rotate_left; intro s x) | (rw [Bnd.fixed_foldl]; intro b x) | (rw [Bnd.fixed_foldl]; rotate_left; intro b x) | split | simp [*]
@[simp] theorem Bnd.batch_fixed (b : Bnd) (o : Bool) : (b.batch o).s.fixed = b.s.fixed := by
  unfold Bnd.batch
  repeat' first | (simp [*]; done) | (rw [State.fixed_foldl]; intro s x) | (rw [State.fixed_foldl]; rotate_left; intro s x) | (rw [Bnd.fixed_foldl]; intro b x) | (rw [Bnd.fixed_foldl]; rotate_left; intro b x) | split | simp [*]
@[simp] theorem Bnd.logBatch_fixed (b : Bnd) : (b.logBatch).s.fixed = b.s.fixed := by
  unfold Bnd.logBatch
  repeat' first | (simp [*]; done) | (rw [State.fixed_foldl]; intro s x) | (rw [State.fixed_foldl]; rotate_left; intro s x) | (rw [Bnd.fixed_foldl]; intro b x) | (rw [Bnd.fixed_foldl]; rotate_left; intro b x) | split | simp [*]
@[simp] theorem Bnd.emit_fixed (b : Bnd) (r : ResultRec) : (b.emit r).s.fixed = b.s.fixed := by
  unfold Bnd.emit
  repeat' first | (simp [*]; done) | (rw [State.fixed_foldl]; intro s x) | (rw [State.fixed_foldl]; rotate_left; intro s x) | (rw [Bnd.fixed_foldl]; intro b x) | (rw [Bnd.fixed_foldl]; rotate_left; intro b x) | split | simp [*]
@[simp] theorem Bnd.writeOuts_fixed (b : Bnd) : (b.writeOuts).s.fixed = b.s.fixed := by
  unfold Bnd.writeOuts
  repeat' first | (simp [*]; done) | (rw [State.fixed_foldl]; intro s x) | (rw [State.fixed_foldl]; rotate_left; intro s x) | (rw [Bnd.fixed_foldl]; intro b x) | (rw [Bnd.fixed_foldl]; rotate_left; intro b x) | split | simp [*]
@[simp] theorem Bnd.writeReplies_fixed (b : Bnd) (rs : List ResultRec) : (b.writeReplies rs).s.fixed = b.s.fixed := by
  unfold Bnd.writeReplies
  repeat' first | (simp [*]; done) | (rw [State.fixed_foldl]; intro s x) | (rw [State.fixed_foldl]; rotate_left; intro s x) | (rw [Bnd.fixed_foldl]; intro b x) | (rw [Bnd.fixed_foldl]; rotate_left; intro b x) | split | simp [*]
@[simp] theorem Bnd.seqWord_fixed (b : Bnd) (w : Bool) : (b.seqWord w).s.fixed = b.s.fixed := by
  unfold Bnd.seqWord
  repeat' first | (simp [*]; done) | (rw [State.fixed_foldl]; intro s x) | (rw [State.fixed_foldl]; rotate_left; intro s x) | (rw [Bnd.fixed_foldl]; intro b x) | (rw [Bnd.fixed_foldl]; rotate_left; intro b x) | split | simp [*]
@[simp] theorem Bnd.config_fixed (b : Bnd) : (b.config).s.fixed = b.s.fixed := by
  unfold Bnd.config
  repeat' first | (simp [*]; done) | (rw [State.fixed_foldl]; intro s x) | (rw [State.fixed_foldl]; rotate_left; intro s x) | (rw [Bnd.fixed_foldl]; intro b x) | (rw [Bnd.fixed_foldl]; rotate_left; intro b x) | split | simp [*]
@[simp] theorem Bnd.overrun_fixed (b : Bnd) (k : Nat) : (b.overrun k).s.fixed = b.s.fixed := by
  unfold Bnd.overrun
  repeat' first | (simp [*]; done) | (rw [State.fixed_foldl]; intro s x) | (rw [State.fixed_foldl]; rotate_left; intro s x) | (rw [Bnd.fixed_foldl]; intro b x) | (rw [Bnd.fixed_foldl]; rotate_left; intro b x) | split | simp [*]
@[simp] theorem Bnd.checkRing_fixed (b : Bnd) (o : Bool) (k : Nat) : (b.checkRing o k).s.fixed = b.s.fixed := by
  unfold Bnd.checkRing; split <;> simp
@[simp] theorem Bnd.useCounts_fixed (b : Bnd) (x y z : Nat) : (b.useCounts x y z).s.fixed = b.s.fixed := rfl
@[simp] theorem Bnd.readCounts_fixed (b : Bnd) : b.readCounts.s.fixed = b.s.fixed := by
  unfold Bnd.readCounts
  split
  · rfl
  · rw [Bnd.useCounts_fixed, Bnd.checkRing_fixed, Bnd.checkRing_fixed, Bnd.checkRing_fixed]
@[simp] theorem Bnd.endReplay_fixed (b : Bnd) (e : AshEntry) : (b.endReplay e).s.fixed = b.s.fixed := by
  unfold Bnd.endReplay
  repeat' first | (simp [*]; done) | (rw [State.fixed_foldl]; intro s x) | (rw [State.fixed_foldl]; rotate_left; intro s x) | (rw [Bnd.fixed_foldl]; intro b x) | (rw [Bnd.fixed_foldl]; rotate_left; intro b x) | split | simp [*]
theorem Bnd.mismatch_fixed (b : Bnd) (t : State) (h : b.mismatch = some t) : t.fixed = b.s.fixed := by
  unfold Bnd.mismatch at h
  split at h
  · cases h
  · simp only [Option.map_eq_some_iff] at h
    obtain ⟨x, -, rfl⟩ := h
    simp
theorem Bnd.unreadable_fixed (b : Bnd) (t : State) (h : b.unreadable = some t) : t.fixed = b.s.fixed := by
  unfold Bnd.unreadable at h
  split at h
  · cases h
  · simp only [Option.map_eq_some_iff] at h
    obtain ⟨x, -, rfl⟩ := h
    simp
@[simp] theorem Bnd.settleAll_fixed (b : Bnd) : b.settleAll.s.fixed = b.s.fixed := by
  unfold Bnd.settleAll
  extract_lets b1 w b2 b3
  have h1 : b1.s.fixed = b.s.fixed := by simp [b1]
  have h2 : b2.s.fixed = b.s.fixed := by
    rw [show b2 = _ from rfl, Bnd.fixed_foldl _ (fun b r => Bnd.control_fixed ..)]; exact h1
  have h3 : b3.s.fixed = b.s.fixed := (State.modSq_fixed ..).trans h2
  clear_value b3
  simp [h3]
@[simp] theorem Bnd.measure_fixed (b : Bnd) (c : Bool) : (b.measure c).s.fixed = b.s.fixed := rfl
@[simp] theorem Bnd.lead_fixed (b : Bnd) : b.lead.fixed = b.s.fixed := by
  unfold Bnd.lead
  repeat' first | (simp [*]; done) | (rw [State.fixed_foldl]; intro s x) | (rw [State.fixed_foldl]; rotate_left; intro s x) | (rw [Bnd.fixed_foldl]; intro b x) | (rw [Bnd.fixed_foldl]; rotate_left; intro b x) | split | simp [*]
@[simp] theorem State.serveBoundary_fixed (s : State) (p n : Nat) (i : Image) (sv : Serving) (tick : Nat) (posted : List (Nat × BitVec 8)) :
    (s.serveBoundary p n i sv tick posted).fixed = s.fixed := by
  unfold State.serveBoundary
  dsimp only
  split
  · simp
  · split
    · simp
    · split
      · simp
      · split
        · rename_i h; rw [Bnd.unreadable_fixed _ _ h]; simp
        · split
          · rename_i h; rw [Bnd.mismatch_fixed _ _ h]; simp
          · simp

@[simp] theorem State.resetUnit_fixed (s : State) (a1 : Nat) (a2 : Nat) (a3 : Image) : (State.resetUnit s a1 a2 a3).fixed = s.fixed := by
  unfold State.resetUnit
  repeat' first | (simp; done) | (rw [State.fixed_foldl]; intro s x) | (rw [State.fixed_foldl]; rotate_left; intro s x) | split | simp
@[simp] theorem State.discardDigests_fixed (s : State) (a1 : Nat) (a2 : Nat) : (State.discardDigests s a1 a2).fixed = s.fixed := by
  unfold State.discardDigests
  repeat' first | (simp; done) | (rw [State.fixed_foldl]; intro s x) | (rw [State.fixed_foldl]; rotate_left; intro s x) | split | simp
@[simp] theorem State.regionNow_fixed (s : State) (a1 : Nat) (a2 : Image) (a3 : List (Nat × Line)) : (State.regionNow s a1 a2 a3).fixed = s.fixed := by
  unfold State.regionNow
  repeat' first | (simp; done) | (rw [State.fixed_foldl]; intro s x) | (rw [State.fixed_foldl]; rotate_left; intro s x) | split | simp
@[simp] theorem State.replayUnit_fixed (s : State) (a1 : Nat) (a2 : Image) : (State.replayUnit s a1 a2).fixed = s.fixed := by
  unfold State.replayUnit
  repeat' first | (simp; done) | (rw [State.fixed_foldl]; intro s x) | (rw [State.fixed_foldl]; rotate_left; intro s x) | split | simp
@[simp] theorem State.wantRollback_fixed (s : State) (a1 : Nat) : (State.wantRollback s a1).fixed = s.fixed := by
  unfold State.wantRollback
  repeat' first | (simp; done) | (rw [State.fixed_foldl]; intro s x) | (rw [State.fixed_foldl]; rotate_left; intro s x) | split | simp
@[simp] theorem State.relaunch_fixed (s : State) (a1 : Nat) (a2 : Nat) (a3 : Image) : (State.relaunch s a1 a2 a3).fixed = s.fixed := by
  unfold State.relaunch
  repeat' first | (simp; done) | (rw [State.fixed_foldl]; intro s x) | (rw [State.fixed_foldl]; rotate_left; intro s x) | split | simp
@[simp] theorem State.ckptArm_fixed (s : State) : (State.ckptArm s).fixed = s.fixed := by
  unfold State.ckptArm
  repeat' first | (simp; done) | (rw [State.fixed_foldl]; intro s x) | (rw [State.fixed_foldl]; rotate_left; intro s x) | split | simp
@[simp] theorem State.ackBuddy_fixed (s : State) (a1 : BitVec 24) (a2 : Nat) (a3 : Nat) (a4 : Nat) : (State.ackBuddy s a1 a2 a3 a4).fixed = s.fixed := by
  unfold State.ackBuddy
  repeat' first | (simp; done) | (rw [State.fixed_foldl]; intro s x) | (rw [State.fixed_foldl]; rotate_left; intro s x) | split | simp
@[simp] theorem State.sendItem_fixed (s : State) (a1 : Nat) (a2 : BitVec 24) (a3 : Nat) (a4 : Nat) (a5 : Nat) (a6 : List Line) : (State.sendItem s a1 a2 a3 a4 a5 a6).fixed = s.fixed := by
  unfold State.sendItem
  repeat' first | (simp; done) | (rw [State.fixed_foldl]; intro s x) | (rw [State.fixed_foldl]; rotate_left; intro s x) | split | simp
@[simp] theorem State.endFaultHold_fixed (s : State) : (State.endFaultHold s).fixed = s.fixed := by
  unfold State.endFaultHold
  repeat' first | (simp; done) | (rw [State.fixed_foldl]; intro s x) | (rw [State.fixed_foldl]; rotate_left; intro s x) | split | simp
@[simp] theorem State.rollPart_fixed (s : State) (a1 : Nat) (a2 : Image) : (State.rollPart s a1 a2).fixed = s.fixed := by
  unfold State.rollPart
  repeat' first | (simp; done) | (rw [State.fixed_foldl]; intro s x) | (rw [State.fixed_foldl]; rotate_left; intro s x) | split | simp
@[simp] theorem State.takeRebound_fixed (s : State) (a1 : Nat) : (State.takeRebound s a1).fixed = s.fixed := by
  unfold State.takeRebound
  repeat' first | (simp; done) | (rw [State.fixed_foldl]; intro s x) | (rw [State.fixed_foldl]; rotate_left; intro s x) | split | simp
@[simp] theorem State.endByRebind_fixed (s : State) (a1 : Nat) : (State.endByRebind s a1).fixed = s.fixed := by
  unfold State.endByRebind
  repeat' first | (simp; done) | (rw [State.fixed_foldl]; intro s x) | (rw [State.fixed_foldl]; rotate_left; intro s x) | split | simp
@[simp] theorem State.settleRebound_fixed (s : State) : (State.settleRebound s).fixed = s.fixed := by
  unfold State.settleRebound
  repeat' first | (simp; done) | (rw [State.fixed_foldl]; intro s x) | (rw [State.fixed_foldl]; rotate_left; intro s x) | split | simp
@[simp] theorem State.rollAdvance_fixed (s : State) : (State.rollAdvance s).fixed = s.fixed := by
  unfold State.rollAdvance
  repeat' first | (simp; done) | (rw [State.fixed_foldl]; intro s x) | (rw [State.fixed_foldl]; rotate_left; intro s x) | split | simp
@[simp] theorem State.restoreWords_fixed (s : State) (a1 : Nat) (a2 : Image) (a3 : List (Nat × Nat × Line)) : (State.restoreWords s a1 a2 a3).fixed = s.fixed := by
  unfold State.restoreWords
  repeat' first | (simp; done) | (rw [State.fixed_foldl]; intro s x) | (rw [State.fixed_foldl]; rotate_left; intro s x) | split | simp
@[simp] theorem State.restoreSeq_fixed (s : State) (a1 : CkptSeq) : (State.restoreSeq s a1).fixed = s.fixed := by
  unfold State.restoreSeq
  repeat' first | (simp; done) | (rw [State.fixed_foldl]; intro s x) | (rw [State.fixed_foldl]; rotate_left; intro s x) | split | simp
theorem State.resumePart_fixed (s : State) (p : Nat) (st : BitVec 64) (t : State) (h : s.resumePart p st = some t) :
    t.fixed = s.fixed := by
  unfold State.resumePart at h
  dsimp only at h
  repeat' split at h
  all_goals first
    | (cases h; done)
    | (cases h; simp)

/-- A fold of steps that may fail keeps what is fixed where each step does. -/
theorem State.fixed_foldl_bind {α : Type} (f : State → α → Option State) (h : ∀ s x t, f s x = some t → t.fixed = s.fixed)
    (l : List α) (o : Option State) (t : State) (ht : l.foldl (fun o x => o.bind fun s => f s x) o = some t) :
    ∃ s, o = some s ∧ t.fixed = s.fixed := by
  induction l generalizing o with
  | nil => exact ⟨t, ht, rfl⟩
  | cons x l ih =>
    obtain ⟨u, hu, he⟩ := ih _ ht
    cases o with
    | none => cases hu
    | some s => exact ⟨s, rfl, he.trans (h s x u hu)⟩

@[simp] theorem State.restoreGen_fixed (s : State) (g : CkptGen) : (s.restoreGen g).fixed = s.fixed := by
  unfold State.restoreGen
  dsimp only
  split
  · rw [State.recoveryFail_fixed, State.fixed_foldl _ (fun s x => State.restoreWords_fixed ..), State.fixed_foldl _ (fun s x => State.restoreSeq_fixed ..)]
  · rename_i h
    obtain ⟨u, hu, he⟩ := State.fixed_foldl_bind (fun s (x : Nat × BitVec 64) => s.resumePart x.1 x.2)
      (fun s x t h => State.resumePart_fixed s x.1 x.2 t h) _ _ _ h
    cases hu
    simp only [State.fixed_mk, State.fixed_eta, he]
    rw [State.fixed_foldl _ (fun s x => State.restoreWords_fixed ..), State.fixed_foldl _ (fun s x => State.restoreSeq_fixed ..)]

@[simp] theorem State.adoptAsh_fixed (s : State) (a1 : List BuddyItem) : (State.adoptAsh s a1).fixed = s.fixed := by
  unfold State.adoptAsh
  repeat' first | (simp; done) | (rw [State.fixed_foldl]; intro s x) | (rw [State.fixed_foldl]; rotate_left; intro s x) | split | simp
@[simp] theorem State.phase4_fixed (s : State) : (State.phase4 s).fixed = s.fixed := by
  unfold State.phase4
  repeat' first | (simp; done) | (rw [State.fixed_foldl]; intro s x) | (rw [State.fixed_foldl]; rotate_left; intro s x) | split | simp
@[simp] theorem State.writeRestoreGen_fixed (s : State) (a1 : BitVec 32) : (State.writeRestoreGen s a1).fixed = s.fixed := by
  unfold State.writeRestoreGen
  repeat' first | (simp; done) | (rw [State.fixed_foldl]; intro s x) | (rw [State.fixed_foldl]; rotate_left; intro s x) | split | simp
@[simp] theorem State.writeRoDone_fixed (s : State) : (State.writeRoDone s).fixed = s.fixed := by
  unfold State.writeRoDone
  repeat' first | (simp; done) | (rw [State.fixed_foldl]; intro s x) | (rw [State.fixed_foldl]; rotate_left; intro s x) | split | simp
@[simp] theorem State.frameWork_fixed (s : State) (a1 : Nat) : (State.frameWork s a1).fixed = s.fixed := by
  unfold State.frameWork
  repeat' first | (simp; done) | (rw [State.fixed_foldl]; intro s x) | (rw [State.fixed_foldl]; rotate_left; intro s x) | split | simp
@[simp] theorem State.conserve_fixed (s : State) (a1 : Nat) : (State.conserve s a1).fixed = s.fixed := by
  unfold State.conserve
  repeat' first | (simp; done) | (rw [State.fixed_foldl]; intro s x) | (rw [State.fixed_foldl]; rotate_left; intro s x) | split | simp
@[simp] theorem State.sendDigest_fixed (s : State) (a1 : Nat) : (State.sendDigest s a1).fixed = s.fixed := by
  unfold State.sendDigest
  repeat' first | (simp; done) | (rw [State.fixed_foldl]; intro s x) | (rw [State.fixed_foldl]; rotate_left; intro s x) | split | simp
@[simp] theorem State.mirrorDone_fixed (s : State) (a1 : BitVec 32) : (State.mirrorDone s a1).fixed = s.fixed := by
  unfold State.mirrorDone
  repeat' first | (simp; done) | (rw [State.fixed_foldl]; intro s x) | (rw [State.fixed_foldl]; rotate_left; intro s x) | split | simp
@[simp] theorem State.mirrorDiffers_fixed (s : State) (a1 : Nat) (a2 : BitVec 32) : (State.mirrorDiffers s a1 a2).fixed = s.fixed := by
  unfold State.mirrorDiffers
  repeat' first | (simp; done) | (rw [State.fixed_foldl]; intro s x) | (rw [State.fixed_foldl]; rotate_left; intro s x) | split | simp
@[simp] theorem State.rng_fixed (s : State) (a1 : Nat) : (State.rng s a1).2.fixed = s.fixed := by
  unfold State.rng
  repeat' first | (simp; done) | (rw [State.fixed_foldl]; intro s x) | (rw [State.fixed_foldl]; rotate_left; intro s x) | split | simp
@[simp] theorem State.checkEnable_fixed (s : State) (a1 : Nat) : (State.checkEnable s a1).fixed = s.fixed := by
  unfold State.checkEnable
  repeat' first | (simp; done) | (rw [State.fixed_foldl]; intro s x) | (rw [State.fixed_foldl]; rotate_left; intro s x) | split | simp
@[simp] theorem State.enable_fixed (s : State) (a1 : Nat) : (State.enable s a1).fixed = s.fixed := by
  unfold State.enable
  repeat' first | (simp; done) | (rw [State.fixed_foldl]; intro s x) | (rw [State.fixed_foldl]; rotate_left; intro s x) | split | simp
@[simp] theorem State.partEnable_fixed (s : State) (a1 : Nat) : (State.partEnable s a1).fixed = s.fixed := by
  unfold State.partEnable
  repeat' first | (simp; done) | (rw [State.fixed_foldl]; intro s x) | (rw [State.fixed_foldl]; rotate_left; intro s x) | split | simp
@[simp] theorem State.syncCheck_fixed (s : State) (a1 : Nat) : (State.syncCheck s a1).fixed = s.fixed := by
  unfold State.syncCheck
  repeat' first | (simp; done) | (rw [State.fixed_foldl]; intro s x) | (rw [State.fixed_foldl]; rotate_left; intro s x) | split | simp
@[simp] theorem State.dropRun_fixed (s : State) (a1 : Nat) (a2 : Bool) : (State.dropRun s a1 a2).fixed = s.fixed := by
  unfold State.dropRun
  repeat' first | (simp; done) | (rw [State.fixed_foldl]; intro s x) | (rw [State.fixed_foldl]; rotate_left; intro s x) | split | simp
@[simp] theorem State.emptyPools_fixed (s : State) (a1 : Nat) : (State.emptyPools s a1).fixed = s.fixed := by
  unfold State.emptyPools
  repeat' first | (simp; done) | (rw [State.fixed_foldl]; intro s x) | (rw [State.fixed_foldl]; rotate_left; intro s x) | split | simp
@[simp] theorem State.clearTables_fixed (s : State) (a1 : Nat) : (State.clearTables s a1).fixed = s.fixed := by
  unfold State.clearTables
  repeat' first | (simp; done) | (rw [State.fixed_foldl]; intro s x) | (rw [State.fixed_foldl]; rotate_left; intro s x) | split | simp
@[simp] theorem State.leaveJob_fixed (s : State) : (State.leaveJob s).fixed = s.fixed := by
  unfold State.leaveJob
  repeat' first | (simp; done) | (rw [State.fixed_foldl]; intro s x) | (rw [State.fixed_foldl]; rotate_left; intro s x) | split | simp
@[simp] theorem State.beginScrub_fixed (s : State) (a1 : Nat) : (State.beginScrub s a1).fixed = s.fixed := by
  unfold State.beginScrub
  repeat' first | (simp; done) | (rw [State.fixed_foldl]; intro s x) | (rw [State.fixed_foldl]; rotate_left; intro s x) | split | simp
@[simp] theorem State.partDisable_fixed (s : State) (a1 : Nat) : (State.partDisable s a1).fixed = s.fixed := by
  unfold State.partDisable
  repeat' first | (simp; done) | (rw [State.fixed_foldl]; intro s x) | (rw [State.fixed_foldl]; rotate_left; intro s x) | split | simp
@[simp] theorem State.scrubFailed_fixed (s : State) (a1 : Nat) (a2 : Nat) (a3 : Nat) : (State.scrubFailed s a1 a2 a3).fixed = s.fixed := by
  unfold State.scrubFailed
  repeat' first | (simp; done) | (rw [State.fixed_foldl]; intro s x) | (rw [State.fixed_foldl]; rotate_left; intro s x) | split | simp
@[simp] theorem State.erase_fixed (s : State) (a1 : Nat) : (State.erase s a1).fixed = s.fixed := by
  unfold State.erase
  repeat' first | (simp; done) | (rw [State.fixed_foldl]; intro s x) | (rw [State.fixed_foldl]; rotate_left; intro s x) | split | simp
@[simp] theorem State.retryWaiting_fixed (s : State) : (State.retryWaiting s).fixed = s.fixed := by
  unfold State.retryWaiting
  repeat' first | (simp; done) | (rw [State.fixed_foldl]; intro s x) | (rw [State.fixed_foldl]; rotate_left; intro s x) | split | simp
@[simp] theorem State.beginLoad_fixed (s : State) (a1 : Nat) : (State.beginLoad s a1).fixed = s.fixed := by
  unfold State.beginLoad
  repeat' first | (simp; done) | (rw [State.fixed_foldl]; intro s x) | (rw [State.fixed_foldl]; rotate_left; intro s x) | split | simp
@[simp] theorem State.wingsGo_fixed (s : State) (a1 : Nat) : (State.wingsGo s a1).fixed = s.fixed := by
  unfold State.wingsGo
  repeat' first | (simp; done) | (rw [State.fixed_foldl]; intro s x) | (rw [State.fixed_foldl]; rotate_left; intro s x) | split | simp
@[simp] theorem State.loadFailed_fixed (s : State) (a1 : Nat) (a2 : Bool) : (State.loadFailed s a1 a2).fixed = s.fixed := by
  unfold State.loadFailed
  repeat' first | (simp; done) | (rw [State.fixed_foldl]; intro s x) | (rw [State.fixed_foldl]; rotate_left; intro s x) | split | simp
@[simp] theorem State.resetRequests_fixed (s : State) (a1 : Nat) : (State.resetRequests s a1).fixed = s.fixed := by
  unfold State.resetRequests
  repeat' first | (simp; done) | (rw [State.fixed_foldl]; intro s x) | (rw [State.fixed_foldl]; rotate_left; intro s x) | split | simp
@[simp] theorem State.lastBoundary_fixed (s : State) (p : Nat) (i : Image) (sv : Serving) :
    (s.lastBoundary p i sv).fixed = s.fixed := by
  unfold State.lastBoundary
  dsimp only
  split
  · rename_i h; rw [Bnd.mismatch_fixed _ _ h]; simp
  · simp

@[simp] theorem State.endServing_fixed (s : State) (a1 : Nat) : (State.endServing s a1).fixed = s.fixed := by
  unfold State.endServing
  repeat' first | (simp; done) | (rw [State.fixed_foldl]; intro s x) | (rw [State.fixed_foldl]; rotate_left; intro s x) | split | simp
@[simp] theorem State.keepReturns_fixed (s : State) (a1 : Nat) : (State.keepReturns s a1).fixed = s.fixed := by
  unfold State.keepReturns
  repeat' first | (simp; done) | (rw [State.fixed_foldl]; intro s x) | (rw [State.fixed_foldl]; rotate_left; intro s x) | split | simp
@[simp] theorem State.writeProfiles_fixed (s : State) (a1 : Nat) : (State.writeProfiles s a1).fixed = s.fixed := by
  unfold State.writeProfiles
  repeat' first | (simp; done) | (rw [State.fixed_foldl]; intro s x) | (rw [State.fixed_foldl]; rotate_left; intro s x) | split | simp
@[simp] theorem State.exchange_fixed (s : State) (a1 : Nat) : (State.exchange s a1).fixed = s.fixed := by
  unfold State.exchange
  repeat' first | (simp; done) | (rw [State.fixed_foldl]; intro s x) | (rw [State.fixed_foldl]; rotate_left; intro s x) | split | simp
@[simp] theorem State.curtainNow_fixed (s : State) (a1 : Nat) : (State.curtainNow s a1).fixed = s.fixed := by
  unfold State.curtainNow
  repeat' first | (simp; done) | (rw [State.fixed_foldl]; intro s x) | (rw [State.fixed_foldl]; rotate_left; intro s x) | split | simp
@[simp] theorem State.paramCurtain_fixed (s : State) (a1 : Nat) : (State.paramCurtain s a1).fixed = s.fixed := by
  unfold State.paramCurtain
  repeat' first | (simp; done) | (rw [State.fixed_foldl]; intro s x) | (rw [State.fixed_foldl]; rotate_left; intro s x) | split | simp
@[simp] theorem State.primeTiles_fixed (s : State) (a1 : Nat) (a2 : Nat) : (State.primeTiles s a1 a2).fixed = s.fixed := by
  unfold State.primeTiles
  repeat' first | (simp; done) | (rw [State.fixed_foldl]; intro s x) | (rw [State.fixed_foldl]; rotate_left; intro s x) | split | simp
@[simp] theorem State.imageCurtain_fixed (s : State) (a1 : Nat) (a2 : Nat) : (State.imageCurtain s a1 a2).fixed = s.fixed := by
  unfold State.imageCurtain
  repeat' first | (simp; done) | (rw [State.fixed_foldl]; intro s x) | (rw [State.fixed_foldl]; rotate_left; intro s x) | split | simp
@[simp] theorem State.rejectCurtain_fixed (s : State) (a1 : Nat) (a2 : Nat) : (State.rejectCurtain s a1 a2).fixed = s.fixed := by
  unfold State.rejectCurtain
  repeat' first | (simp; done) | (rw [State.fixed_foldl]; intro s x) | (rw [State.fixed_foldl]; rotate_left; intro s x) | split | simp
@[simp] theorem State.curtainArm_fixed (s : State) (a1 : Nat) : (State.curtainArm s a1).fixed = s.fixed := by
  unfold State.curtainArm
  repeat' first | (simp; done) | (rw [State.fixed_foldl]; intro s x) | (rw [State.fixed_foldl]; rotate_left; intro s x) | split | simp
@[simp] theorem State.curtainOpen_fixed (s : State) (a1 : Nat) (a2 : Nat × Nat × Option Nat) : (State.curtainOpen s a1 a2).fixed = s.fixed := by
  unfold State.curtainOpen
  repeat' first | (simp; done) | (rw [State.fixed_foldl]; intro s x) | (rw [State.fixed_foldl]; rotate_left; intro s x) | split | simp
@[simp] theorem State.makeReport_fixed (s : State) (a1 : Option Nat) : (State.makeReport s a1).fixed = s.fixed := by
  unfold State.makeReport
  repeat' first | (simp; done) | (rw [State.fixed_foldl]; intro s x) | (rw [State.fixed_foldl]; rotate_left; intro s x) | split | simp
@[simp] theorem State.requestReport_fixed (s : State) : (State.requestReport s).fixed = s.fixed := by
  unfold State.requestReport
  repeat' first | (simp; done) | (rw [State.fixed_foldl]; intro s x) | (rw [State.fixed_foldl]; rotate_left; intro s x) | split | simp
@[simp] theorem State.installKey_fixed (s : State) (a1 : Nat) (a2 : Nat) (a3 : BitVec 256) : (State.installKey s a1 a2 a3).fixed = s.fixed := by
  unfold State.installKey
  repeat' first | (simp; done) | (rw [State.fixed_foldl]; intro s x) | (rw [State.fixed_foldl]; rotate_left; intro s x) | split | simp
@[simp] theorem State.installMgmt_fixed (s : State) (a1 : BitVec 32) (a2 : BitVec 256) : (State.installMgmt s a1 a2).fixed = s.fixed := by
  unfold State.installMgmt
  repeat' first | (simp; done) | (rw [State.fixed_foldl]; intro s x) | (rw [State.fixed_foldl]; rotate_left; intro s x) | split | simp
@[simp] theorem State.deliver_fixed (s : State) : (State.deliver s).fixed = s.fixed := by
  unfold State.deliver
  repeat' first | (simp; done) | (rw [State.fixed_foldl]; intro s x) | (rw [State.fixed_foldl]; rotate_left; intro s x) | split | simp
@[simp] theorem State.promote_fixed (s : State) : (State.promote s).fixed = s.fixed := by
  unfold State.promote
  repeat' first | (simp; done) | (rw [State.fixed_foldl]; intro s x) | (rw [State.fixed_foldl]; rotate_left; intro s x) | split | simp
@[simp] theorem State.writeMgmtTx_fixed (s : State) (a1 : BitVec 32) : (State.writeMgmtTx s a1).fixed = s.fixed := by
  unfold State.writeMgmtTx
  repeat' first | (simp; done) | (rw [State.fixed_foldl]; intro s x) | (rw [State.fixed_foldl]; rotate_left; intro s x) | split | simp
@[simp] theorem State.enterD3_fixed (s : State) : (State.enterD3 s).fixed = s.fixed := by
  unfold State.enterD3
  repeat' first | (simp; done) | (rw [State.fixed_foldl]; intro s x) | (rw [State.fixed_foldl]; rotate_left; intro s x) | split | simp
@[simp] theorem State.sendFrame_fixed (s : State) (a1 : EthFrame) : (State.sendFrame s a1).fixed = s.fixed := by
  unfold State.sendFrame
  repeat' first | (simp; done) | (rw [State.fixed_foldl]; intro s x) | (rw [State.fixed_foldl]; rotate_left; intro s x) | split | simp
@[simp] theorem State.dropFrame_fixed (s : State) : (State.dropFrame s).fixed = s.fixed := by
  unfold State.dropFrame
  repeat' first | (simp; done) | (rw [State.fixed_foldl]; intro s x) | (rw [State.fixed_foldl]; rotate_left; intro s x) | split | simp
@[simp] theorem State.beginTransfer_fixed (s : State) (a1 : BitVec 48) (a2 : Nat) : (State.beginTransfer s a1 a2).fixed = s.fixed := by
  unfold State.beginTransfer
  repeat' first | (simp; done) | (rw [State.fixed_foldl]; intro s x) | (rw [State.fixed_foldl]; rotate_left; intro s x) | split | simp
@[simp] theorem State.popPtp_fixed (s : State) : (State.popPtp s).fixed = s.fixed := by
  unfold State.popPtp
  repeat' first | (simp; done) | (rw [State.fixed_foldl]; intro s x) | (rw [State.fixed_foldl]; rotate_left; intro s x) | split | simp
@[simp] theorem State.jtag_fixed (s : State) (a1 : JtagIr) (a2 : BitVec 32) : (State.jtag s a1 a2).fixed = s.fixed := by
  unfold State.jtag
  repeat' first | (simp; done) | (rw [State.fixed_foldl]; intro s x) | (rw [State.fixed_foldl]; rotate_left; intro s x) | split | simp
@[simp] theorem State.updateRec_fixed (s : State) (a1 : BootRec → BootRec) : (State.updateRec s a1).fixed = s.fixed := by
  unfold State.updateRec
  repeat' first | (simp; done) | (rw [State.fixed_foldl]; intro s x) | (rw [State.fixed_foldl]; rotate_left; intro s x) | split | simp
@[simp] theorem State.pickSlot_fixed (s : State) (a1 : BootRec) : (State.pickSlot s a1).2.fixed = s.fixed := by
  unfold State.pickSlot
  repeat' first | (simp; done) | (rw [State.fixed_foldl]; intro s x) | (rw [State.fixed_foldl]; rotate_left; intro s x) | split | simp
@[simp] theorem State.pickFresh_fixed (s : State) : (State.pickFresh s).2.fixed = s.fixed := by
  unfold State.pickFresh
  repeat' first | (simp; done) | (rw [State.fixed_foldl]; intro s x) | (rw [State.fixed_foldl]; rotate_left; intro s x) | split | simp
@[simp] theorem State.loadSlot_fixed (s : State) (a1 : BootPick) : (State.loadSlot s a1).fixed = s.fixed := by
  unfold State.loadSlot
  repeat' first | (simp; done) | (rw [State.fixed_foldl]; intro s x) | (rw [State.fixed_foldl]; rotate_left; intro s x) | split | simp
@[simp] theorem State.confirm_fixed (s : State) : (State.confirm s).fixed = s.fixed := by
  unfold State.confirm
  repeat' first | (simp; done) | (rw [State.fixed_foldl]; intro s x) | (rw [State.fixed_foldl]; rotate_left; intro s x) | split | simp
@[simp] theorem State.healthConfirm_fixed (s : State) (a1 : Bool) : (State.healthConfirm s a1).fixed = s.fixed := by
  unfold State.healthConfirm
  repeat' first | (simp; done) | (rw [State.fixed_foldl]; intro s x) | (rw [State.fixed_foldl]; rotate_left; intro s x) | split | simp
@[simp] theorem State.cancelStage_fixed (s : State) : (State.cancelStage s).fixed = s.fixed := by
  unfold State.cancelStage
  repeat' first | (simp; done) | (rw [State.fixed_foldl]; intro s x) | (rw [State.fixed_foldl]; rotate_left; intro s x) | split | simp
@[simp] theorem State.svnCommit_fixed (s : State) : (State.svnCommit s).fixed = s.fixed := by
  unfold State.svnCommit
  repeat' first | (simp; done) | (rw [State.fixed_foldl]; intro s x) | (rw [State.fixed_foldl]; rotate_left; intro s x) | split | simp
@[simp] theorem State.incRejected_fixed (s : State) : (State.incRejected s).fixed = s.fixed := by
  unfold State.incRejected
  repeat' first | (simp; done) | (rw [State.fixed_foldl]; intro s x) | (rw [State.fixed_foldl]; rotate_left; intro s x) | split | simp
@[simp] theorem State.modDom_fixed (s : State) (a1 : Bool) (a2 : Domain → Domain) : (State.modDom s a1 a2).fixed = s.fixed := by
  unfold State.modDom
  repeat' first | (simp; done) | (rw [State.fixed_foldl]; intro s x) | (rw [State.fixed_foldl]; rotate_left; intro s x) | split | simp
@[simp] theorem State.incCommit_fixed (s : State) (a1 : Bool) (a2 : BitVec 32) : (State.incCommit s a1 a2).fixed = s.fixed := by
  unfold State.incCommit
  repeat' first | (simp; done) | (rw [State.fixed_foldl]; intro s x) | (rw [State.fixed_foldl]; rotate_left; intro s x) | split | simp
@[simp] theorem State.adjust_fixed (s : State) : (State.adjust s).fixed = s.fixed := by
  unfold State.adjust
  repeat' first | (simp; done) | (rw [State.fixed_foldl]; intro s x) | (rw [State.fixed_foldl]; rotate_left; intro s x) | split | simp
@[simp] theorem State.setDomain_fixed (s : State) (a1 : Bool) : (State.setDomain s a1).fixed = s.fixed := by
  unfold State.setDomain
  repeat' first | (simp; done) | (rw [State.fixed_foldl]; intro s x) | (rw [State.fixed_foldl]; rotate_left; intro s x) | split | simp
@[simp] theorem State.ppsLow_fixed (s : State) : (State.ppsLow s).fixed = s.fixed := by
  unfold State.ppsLow
  repeat' first | (simp; done) | (rw [State.fixed_foldl]; intro s x) | (rw [State.fixed_foldl]; rotate_left; intro s x) | split | simp
@[simp] theorem State.modTrig_fixed (s : State) (a1 : Nat) (a2 : Trigger → Trigger) : (State.modTrig s a1 a2).fixed = s.fixed := by
  unfold State.modTrig
  repeat' first | (simp; done) | (rw [State.fixed_foldl]; intro s x) | (rw [State.fixed_foldl]; rotate_left; intro s x) | split | simp
@[simp] theorem State.armTrigger_fixed (s : State) (a1 : Nat) : (State.armTrigger s a1).fixed = s.fixed := by
  unfold State.armTrigger
  repeat' first | (simp; done) | (rw [State.fixed_foldl]; intro s x) | (rw [State.fixed_foldl]; rotate_left; intro s x) | split | simp
@[simp] theorem State.writeTrigger_fixed (s : State) (a1 : BitVec 32) : (State.writeTrigger s a1).fixed = s.fixed := by
  unfold State.writeTrigger
  repeat' first | (simp; done) | (rw [State.fixed_foldl]; intro s x) | (rw [State.fixed_foldl]; rotate_left; intro s x) | split | simp
@[simp] theorem State.fireTrigger_fixed (s : State) (a1 : Nat) (a2 : Nat) (a3 : Bool) : (State.fireTrigger s a1 a2 a3).fixed = s.fixed := by
  unfold State.fireTrigger
  repeat' first | (simp; done) | (rw [State.fixed_foldl]; intro s x) | (rw [State.fixed_foldl]; rotate_left; intro s x) | split | simp
@[simp] theorem State.popTimeLog_fixed (s : State) : (State.popTimeLog s).fixed = s.fixed := by
  unfold State.popTimeLog
  repeat' first | (simp; done) | (rw [State.fixed_foldl]; intro s x) | (rw [State.fixed_foldl]; rotate_left; intro s x) | split | simp
@[simp] theorem State.crcGo_fixed (s : State) (a1 : Nat) (a2 : Bool) : (State.crcGo s a1 a2).fixed = s.fixed := by
  unfold State.crcGo
  repeat' first | (simp; done) | (rw [State.fixed_foldl]; intro s x) | (rw [State.fixed_foldl]; rotate_left; intro s x) | split | simp
@[simp] theorem State.takeSnap_fixed (s : State) (a1 : Bool) : (State.takeSnap s a1).fixed = s.fixed := by
  unfold State.takeSnap
  repeat' first | (simp; done) | (rw [State.fixed_foldl]; intro s x) | (rw [State.fixed_foldl]; rotate_left; intro s x) | split | simp
@[simp] theorem State.armSnap_fixed (s : State) : (State.armSnap s).fixed = s.fixed := by
  unfold State.armSnap
  repeat' first | (simp; done) | (rw [State.fixed_foldl]; intro s x) | (rw [State.fixed_foldl]; rotate_left; intro s x) | split | simp
@[simp] theorem State.clearFaults_fixed (s : State) : (State.clearFaults s).fixed = s.fixed := by
  unfold State.clearFaults
  repeat' first | (simp; done) | (rw [State.fixed_foldl]; intro s x) | (rw [State.fixed_foldl]; rotate_left; intro s x) | split | simp
@[simp] theorem State.popFault_fixed (s : State) : (State.popFault s).fixed = s.fixed := by
  unfold State.popFault
  repeat' first | (simp; done) | (rw [State.fixed_foldl]; intro s x) | (rw [State.fixed_foldl]; rotate_left; intro s x) | split | simp

@[simp] theorem State.writeTop_fixed (s : State) (a1 : Nat) (a2 : BitVec 32) : (State.writeTop s a1 a2).fixed = s.fixed := by
  unfold State.writeTop
  repeat' first | (simp; done) | (rw [State.fixed_foldl]; intro s x) | (rw [State.fixed_foldl]; rotate_left; intro s x) | split | simp
@[simp] theorem State.writeClk_fixed (s : State) (a1 : Nat) (a2 : BitVec 32) : (State.writeClk s a1 a2).fixed = s.fixed := by
  unfold State.writeClk
  repeat' first | (simp; done) | (rw [State.fixed_foldl]; intro s x) | (rw [State.fixed_foldl]; rotate_left; intro s x) | split | simp
@[simp] theorem State.writeTimeCtrl_fixed (s : State) (a1 : BitVec 32) : (State.writeTimeCtrl s a1).fixed = s.fixed := by
  unfold State.writeTimeCtrl
  repeat' first | (simp; done) | (rw [State.fixed_foldl]; intro s x) | (rw [State.fixed_foldl]; rotate_left; intro s x) | split | simp
@[simp] theorem State.writeTime_fixed (s : State) (a1 : Nat) (a2 : BitVec 32) : (State.writeTime s a1 a2).fixed = s.fixed := by
  unfold State.writeTime
  repeat' first | (simp; done) | (rw [State.fixed_foldl]; intro s x) | (rw [State.fixed_foldl]; rotate_left; intro s x) | split | simp
@[simp] theorem State.writeSec_fixed (s : State) (a1 : Nat) (a2 : BitVec 32) : (State.writeSec s a1 a2).fixed = s.fixed := by
  unfold State.writeSec
  repeat' first | (simp; done) | (rw [State.fixed_foldl]; intro s x) | (rw [State.fixed_foldl]; rotate_left; intro s x) | split | simp
@[simp] theorem State.writeFwu_fixed (s : State) (a1 : Nat) (a2 : BitVec 32) : (State.writeFwu s a1 a2).fixed = s.fixed := by
  unfold State.writeFwu
  repeat' first | (simp; done) | (rw [State.fixed_foldl]; intro s x) | (rw [State.fixed_foldl]; rotate_left; intro s x) | split | simp
@[simp] theorem State.writeSnap_fixed (s : State) (a1 : Nat) (a2 : BitVec 32) : (State.writeSnap s a1 a2).fixed = s.fixed := by
  unfold State.writeSnap
  repeat' first | (simp; done) | (rw [State.fixed_foldl]; intro s x) | (rw [State.fixed_foldl]; rotate_left; intro s x) | split | simp
@[simp] theorem State.writePlan_fixed (s : State) (a1 : Nat) (a2 : BitVec 32) : (State.writePlan s a1 a2).fixed = s.fixed := by
  unfold State.writePlan
  repeat' first | (simp; done) | (rw [State.fixed_foldl]; intro s x) | (rw [State.fixed_foldl]; rotate_left; intro s x) | split | simp
@[simp] theorem State.writeMapCtrl_fixed (s : State) (a1 : BitVec 32) : (State.writeMapCtrl s a1).fixed = s.fixed := by
  unfold State.writeMapCtrl
  repeat' first | (simp; done) | (rw [State.fixed_foldl]; intro s x) | (rw [State.fixed_foldl]; rotate_left; intro s x) | split | simp
@[simp] theorem State.writeMap_fixed (s : State) (a1 : Nat) (a2 : BitVec 32) : (State.writeMap s a1 a2).fixed = s.fixed := by
  unfold State.writeMap
  repeat' first | (simp; done) | (rw [State.fixed_foldl]; intro s x) | (rw [State.fixed_foldl]; rotate_left; intro s x) | split | simp
@[simp] theorem State.writeSeqCtl_fixed (s : State) (a1 : Bool × Bool × BitVec 16 × BitVec 16 → Bool × Bool × BitVec 16 × BitVec 16) : (State.writeSeqCtl s a1).fixed = s.fixed := by
  unfold State.writeSeqCtl
  repeat' first | (simp; done) | (rw [State.fixed_foldl]; intro s x) | (rw [State.fixed_foldl]; rotate_left; intro s x) | split | simp
@[simp] theorem State.writeSeq_fixed (s : State) (a1 : Nat) (a2 : BitVec 32) : (State.writeSeq s a1 a2).fixed = s.fixed := by
  unfold State.writeSeq
  repeat' first | (simp; done) | (rw [State.fixed_foldl]; intro s x) | (rw [State.fixed_foldl]; rotate_left; intro s x) | split | simp
@[simp] theorem State.writeBud_fixed (s : State) (a1 : Nat) (a2 : BitVec 32) : (State.writeBud s a1 a2).fixed = s.fixed := by
  unfold State.writeBud
  repeat' first | (simp; done) | (rw [State.fixed_foldl]; intro s x) | (rw [State.fixed_foldl]; rotate_left; intro s x) | split | simp
@[simp] theorem State.writeSync_fixed (s : State) (a1 : Nat) (a2 : BitVec 32) : (State.writeSync s a1 a2).fixed = s.fixed := by
  unfold State.writeSync
  repeat' first | (simp; done) | (rw [State.fixed_foldl]; intro s x) | (rw [State.fixed_foldl]; rotate_left; intro s x) | split | simp
@[simp] theorem State.clearErFlags_fixed (s : State) (a1 : Nat) (a2 : BitVec 32) : (State.clearErFlags s a1 a2).fixed = s.fixed := by
  unfold State.clearErFlags
  repeat' first | (simp; done) | (rw [State.fixed_foldl]; intro s x) | (rw [State.fixed_foldl]; rotate_left; intro s x) | split | simp
@[simp] theorem State.writeDig_fixed (s : State) (a1 : Nat) (a2 : BitVec 32) : (State.writeDig s a1 a2).fixed = s.fixed := by
  unfold State.writeDig
  repeat' first | (simp; done) | (rw [State.fixed_foldl]; intro s x) | (rw [State.fixed_foldl]; rotate_left; intro s x) | split | simp
@[simp] theorem State.writeRes_fixed (s : State) (a1 : PartRes → PartRes) : (State.writeRes s a1).fixed = s.fixed := by
  unfold State.writeRes
  repeat' first | (simp; done) | (rw [State.fixed_foldl]; intro s x) | (rw [State.fixed_foldl]; rotate_left; intro s x) | split | simp
@[simp] theorem State.writePartCtrl_fixed (s : State) (a1 : Nat) (a2 : BitVec 32) : (State.writePartCtrl s a1 a2).fixed = s.fixed := by
  unfold State.writePartCtrl
  repeat' first | (simp; done) | (rw [State.fixed_foldl]; intro s x) | (rw [State.fixed_foldl]; rotate_left; intro s x) | split | simp
@[simp] theorem State.writePart_fixed (s : State) (a1 : Nat) (a2 : BitVec 32) : (State.writePart s a1 a2).fixed = s.fixed := by
  unfold State.writePart
  repeat' first | (simp; done) | (rw [State.fixed_foldl]; intro s x) | (rw [State.fixed_foldl]; rotate_left; intro s x) | split | simp
@[simp] theorem State.writeLnkCtrl_fixed (s : State) (a1 : Nat) (a2 : BitVec 32) : (State.writeLnkCtrl s a1 a2).fixed = s.fixed := by
  unfold State.writeLnkCtrl
  repeat' first | (simp; done) | (rw [State.fixed_foldl]; intro s x) | (rw [State.fixed_foldl]; rotate_left; intro s x) | split | simp
@[simp] theorem State.writeLnk_fixed (s : State) (a1 : Nat) (a2 : Nat) (a3 : BitVec 32) : (State.writeLnk s a1 a2 a3).fixed = s.fixed := by
  unfold State.writeLnk
  repeat' first | (simp; done) | (rw [State.fixed_foldl]; intro s x) | (rw [State.fixed_foldl]; rotate_left; intro s x) | split | simp
@[simp] theorem State.writeStk_fixed (s : State) (a1 : Nat) (a2 : Nat) (a3 : BitVec 32) : (State.writeStk s a1 a2 a3).fixed = s.fixed := by
  unfold State.writeStk
  repeat' first | (simp; done) | (rw [State.fixed_foldl]; intro s x) | (rw [State.fixed_foldl]; rotate_left; intro s x) | split | simp
@[simp] theorem State.writePcie_fixed (s : State) (a1 : Nat) (a2 : BitVec 32) : (State.writePcie s a1 a2).fixed = s.fixed := by
  unfold State.writePcie
  repeat' first | (simp; done) | (rw [State.fixed_foldl]; intro s x) | (rw [State.fixed_foldl]; rotate_left; intro s x) | split | simp
@[simp] theorem State.writeSvc_fixed (s : State) (a1 : Nat) (a2 : BitVec 32) : (State.writeSvc s a1 a2).fixed = s.fixed := by
  unfold State.writeSvc
  repeat' first | (simp; done) | (rw [State.fixed_foldl]; intro s x) | (rw [State.fixed_foldl]; rotate_left; intro s x) | split | simp
@[simp] theorem State.writeTile_fixed (s : State) (a1 : Nat) (a2 : Nat) (a3 : BitVec 32) : (State.writeTile s a1 a2 a3).fixed = s.fixed := by
  unfold State.writeTile
  repeat' first | (simp; done) | (rw [State.fixed_foldl]; intro s x) | (rw [State.fixed_foldl]; rotate_left; intro s x) | split | simp
@[simp] theorem State.writeBlock_fixed (s : State) (a1 : Nat) (a2 : BitVec 32) : (State.writeBlock s a1 a2).fixed = s.fixed := by
  unfold State.writeBlock
  repeat' first | (simp; done) | (rw [State.fixed_foldl]; intro s x) | (rw [State.fixed_foldl]; rotate_left; intro s x) | split | simp
@[simp] theorem State.writeReg_fixed (s : State) (a1 : Nat) (a2 : BitVec 32) : (State.writeReg s a1 a2).fixed = s.fixed := by
  unfold State.writeReg
  repeat' first | (simp; done) | (rw [State.fixed_foldl]; intro s x) | (rw [State.fixed_foldl]; rotate_left; intro s x) | split | simp
@[simp] theorem State.aliasWrite_fixed (s : State) (a1 : Nat) (a2 : BitVec 32) : (State.aliasWrite s a1 a2).fixed = s.fixed := by
  unfold State.aliasWrite
  repeat' first | (simp; done) | (rw [State.fixed_foldl]; intro s x) | (rw [State.fixed_foldl]; rotate_left; intro s x) | split | simp
@[simp] theorem State.readClears_fixed (s : State) (a1 : Nat) (a2 : Nat) : (State.readClears s a1 a2).fixed = s.fixed := by
  unfold State.readClears
  repeat' first | (simp; done) | (rw [State.fixed_foldl]; intro s x) | (rw [State.fixed_foldl]; rotate_left; intro s x) | split | simp
@[simp] theorem State.afterRead_fixed (s : State) (a1 : Nat) : (State.afterRead s a1).fixed = s.fixed := by
  unfold State.afterRead
  repeat' first | (simp; done) | (rw [State.fixed_foldl]; intro s x) | (rw [State.fixed_foldl]; rotate_left; intro s x) | split | simp
@[simp] theorem State.deliverRead_fixed (s : State) (a1 : BitVec 32) : (State.deliverRead s a1).fixed = s.fixed := by
  unfold State.deliverRead
  repeat' first | (simp; done) | (rw [State.fixed_foldl]; intro s x) | (rw [State.fixed_foldl]; rotate_left; intro s x) | split | simp
@[simp] theorem State.portRead_fixed (s : State) (a1 : Nat) : (State.portRead s a1).fixed = s.fixed := by
  unfold State.portRead
  repeat' first | (simp; done) | (rw [State.fixed_foldl]; intro s x) | (rw [State.fixed_foldl]; rotate_left; intro s x) | split | simp
@[simp] theorem State.portWrite_fixed (s : State) (a1 : Nat) (a2 : BitVec 32) : (State.portWrite s a1 a2).fixed = s.fixed := by
  unfold State.portWrite
  repeat' first | (simp; done) | (rw [State.fixed_foldl]; intro s x) | (rw [State.fixed_foldl]; rotate_left; intro s x) | split | simp
@[simp] theorem State.writeFn_fixed (s : State) (a1 : Nat) (a2 : Nat) (a3 : BitVec 32) : (State.writeFn s a1 a2 a3).fixed = s.fixed := by
  unfold State.writeFn
  repeat' first | (simp; done) | (rw [State.fixed_foldl]; intro s x) | (rw [State.fixed_foldl]; rotate_left; intro s x) | split | simp
@[simp] theorem State.access_fixed (s : State) (a1 : Nat) (a2 : Bool) (a3 : State → State) (h3 : ∀ x0, (a3 x0).fixed = x0.fixed) : (State.access s a1 a2 a3).fixed = s.fixed := by
  unfold State.access
  repeat' first | (simp [h3]; done) | (rw [State.fixed_foldl]; intro s x) | (rw [State.fixed_foldl]; rotate_left; intro s x) | split | simp [h3]
@[simp] theorem State.cold_fixed (s : State) : s.cold.fixed = s.fixed := rfl

@[simp] theorem State.enterReset_fixed (s : State) (a1 : Pins → Pins) : (State.enterReset s a1).fixed = s.fixed := by
  unfold State.enterReset
  repeat' first | (simp; done) | (rw [State.fixed_foldl]; intro s x) | (rw [State.fixed_foldl]; rotate_left; intro s x) | split | simp
@[simp] theorem State.leaveReset_fixed (s : State) : (State.leaveReset s).fixed = s.fixed := by
  unfold State.leaveReset
  repeat' first | (simp; done) | (rw [State.fixed_foldl]; intro s x) | (rw [State.fixed_foldl]; rotate_left; intro s x) | split | simp
@[simp] theorem State.alert_fixed (s : State) : (State.alert s).fixed = s.fixed := by
  unfold State.alert
  repeat' first | (simp; done) | (rw [State.fixed_foldl]; intro s x) | (rw [State.fixed_foldl]; rotate_left; intro s x) | split | simp
@[simp] theorem State.dropPorts_fixed (s : State) : (State.dropPorts s).fixed = s.fixed := by
  unfold State.dropPorts
  repeat' first | (simp; done) | (rw [State.fixed_foldl]; intro s x) | (rw [State.fixed_foldl]; rotate_left; intro s x) | split | simp
@[simp] theorem State.sense_fixed (s : State) (a1 : Nat) (a2 : BitVec 8) : (State.sense s a1 a2).fixed = s.fixed := by
  unfold State.sense
  repeat' first | (simp; done) | (rw [State.fixed_foldl]; intro s x) | (rw [State.fixed_foldl]; rotate_left; intro s x) | split | simp
@[simp] theorem State.countClk_fixed (s : State) : (State.countClk s).fixed = s.fixed := by
  unfold State.countClk
  repeat' first | (simp; done) | (rw [State.fixed_foldl]; intro s x) | (rw [State.fixed_foldl]; rotate_left; intro s x) | split | simp
@[simp] theorem State.endUses_fixed (s : State) : (State.endUses s).fixed = s.fixed := by
  unfold State.endUses
  repeat' first | (simp; done) | (rw [State.fixed_foldl]; intro s x) | (rw [State.fixed_foldl]; rotate_left; intro s x) | split | simp
@[simp] theorem State.landAll_fixed (s : State) (a1 : Bool) : (State.landAll s a1).fixed = s.fixed := by
  unfold State.landAll
  repeat' first | (simp; done) | (rw [State.fixed_foldl]; intro s x) | (rw [State.fixed_foldl]; rotate_left; intro s x) | split | simp
@[simp] theorem State.replayNext_fixed (s : State) (a1 : Nat) : (State.replayNext s a1).fixed = s.fixed := by
  unfold State.replayNext
  repeat' first | (simp; done) | (rw [State.fixed_foldl]; intro s x) | (rw [State.fixed_foldl]; rotate_left; intro s x) | split | simp
@[simp] theorem State.linksClk_fixed (s : State) : (State.linksClk s).fixed = s.fixed := by
  unfold State.linksClk
  repeat' first | (simp; done) | (rw [State.fixed_foldl]; intro s x) | (rw [State.fixed_foldl]; rotate_left; intro s x) | split | simp
@[simp] theorem State.timeClk_fixed (s : State) : (State.timeClk s).fixed = s.fixed := by
  unfold State.timeClk
  repeat' first | (simp; done) | (rw [State.fixed_foldl]; intro s x) | (rw [State.fixed_foldl]; rotate_left; intro s x) | split | simp
@[simp] theorem State.flrClk_fixed (s : State) : (State.flrClk s).fixed = s.fixed := by
  unfold State.flrClk
  repeat' first | (simp; done) | (rw [State.fixed_foldl]; intro s x) | (rw [State.fixed_foldl]; rotate_left; intro s x) | split | simp
@[simp] theorem State.tick_fixed (s : State) : (State.tick s).fixed = s.fixed := by
  unfold State.tick
  repeat' first | (simp; done) | (rw [State.fixed_foldl]; intro s x) | (rw [State.fixed_foldl]; rotate_left; intro s x) | split | simp


end Sys2Proof.Machine
end

