-- ==== Sys2Proof/Laws/Memory.lean ====
section
/-! SUPPORT. The laws of byte memories: reads after writes, and the canonical form that every operation keeps. -/

namespace Sys2Proof.Machine
open Sys2Proof

/-! ### The canonical form -/

/-- A memory in canonical form from `a` on is in canonical form from any lower address on. -/
theorem Memory.wfFrom_mono {m : List Host.Cell} {a b : Nat} (hb : b ≤ a) (h : Memory.wfFrom a m = true) :
    Memory.wfFrom b m = true := by
  cases m with
  | nil => rfl
  | cons c r =>
    obtain ⟨k, v⟩ := c
    simp only [Memory.wfFrom, Bool.and_eq_true, decide_eq_true_eq] at h ⊢
    exact ⟨⟨by omega, h.1.2⟩, h.2⟩

/-- A write keeps the canonical form. -/
theorem Memory.wfFrom_write {m : List Host.Cell} {lo a : Nat} (v : BitVec 8) (hlo : lo ≤ a)
    (h : Memory.wfFrom lo m = true) : Memory.wfFrom lo (Memory.write m a v) = true := by
  induction m generalizing lo with
  | nil => by_cases hv : v = 0#8 <;> simp [Memory.write, Memory.wfFrom, hv, hlo]
  | cons c r ih =>
    obtain ⟨k, b⟩ := c
    simp only [Memory.wfFrom, Bool.and_eq_true, decide_eq_true_eq] at h
    obtain ⟨⟨hk, hb⟩, hr⟩ := h
    simp only [Memory.write]
    split
    · rename_i hak
      by_cases hv : v = 0#8
      · simp [hv, Memory.wfFrom, hk, hb, hr]
      · simp [hv, Memory.wfFrom, hlo, hb, hr]; omega
    · split
      · rename_i hak
        by_cases hv : v = 0#8
        · simp [hv]; exact Memory.wfFrom_mono (by omega) hr
        · subst hak; simp [hv, Memory.wfFrom, hlo, hr]
      · simp [Memory.wfFrom, hk, hb]; exact ih (by omega) hr

/-- One byte written keeps the canonical form. -/
theorem Memory.wf_write {m : List Host.Cell} (a : Nat) (v : BitVec 8) (h : Memory.wf m = true) :
    Memory.wf (Memory.write m a v) = true := Memory.wfFrom_write v (Nat.zero_le a) h

/-- Bytes written keep the canonical form. -/
theorem Memory.wf_writeBytes (bs : List (BitVec 8)) {m : List Host.Cell} (a : Nat) (h : Memory.wf m = true) :
    Memory.wf (Memory.writeBytes m a bs) = true := by
  induction bs generalizing m a with
  | nil => exact h
  | cons b bs ih => exact ih (a + 1) (Memory.wf_write a b h)

/-- A word written keeps the canonical form. -/
theorem Memory.wf_writeLine {m : List Host.Cell} (w : Nat) (d : Line) (h : Memory.wf m = true) :
    Memory.wf (Memory.writeLine m w d) = true := Memory.wf_writeBytes _ _ h

/-- A number written keeps the canonical form. -/
theorem Memory.wf_writeNat {m : List Host.Cell} (a n v : Nat) (h : Memory.wf m = true) :
    Memory.wf (Memory.writeNat m a n v) = true := Memory.wf_writeBytes _ _ h

/-- Entries taken out keep the canonical form. -/
theorem Memory.wfFrom_filter (p : Host.Cell → Bool) {m : List Host.Cell} {lo : Nat} (h : Memory.wfFrom lo m = true) :
    Memory.wfFrom lo (m.filter p) = true := by
  induction m generalizing lo with
  | nil => rfl
  | cons c r ih =>
    obtain ⟨k, b⟩ := c
    simp only [Memory.wfFrom, Bool.and_eq_true, decide_eq_true_eq] at h
    obtain ⟨⟨hk, hb⟩, hr⟩ := h
    simp only [List.filter_cons]
    split
    · simp [Memory.wfFrom, hk, hb, ih hr]
    · exact Memory.wfFrom_mono (by omega) (ih hr)

/-- Clearing a range keeps the canonical form. -/
theorem Memory.wf_clear {m : List Host.Cell} (lo hi : Nat) (h : Memory.wf m = true) :
    Memory.wf (Memory.clear m lo hi) = true := Memory.wfFrom_filter _ h

/-- The empty memory is in canonical form. -/
@[simp] theorem Memory.wf_nil : Memory.wf [] = true := rfl

/-! ### Reads after writes -/

/-- Below the canonical range every byte reads 0. -/
theorem Memory.read_below {m : List Host.Cell} {lo a : Nat} (h : Memory.wfFrom lo m = true) (ha : a < lo) :
    Memory.read m a = 0#8 := by
  induction m generalizing lo with
  | nil => rfl
  | cons c r ih =>
    obtain ⟨k, b⟩ := c
    simp only [Memory.wfFrom, Bool.and_eq_true, decide_eq_true_eq] at h
    obtain ⟨⟨hk, -⟩, hr⟩ := h
    simp only [Memory.read]
    rw [if_neg (by omega)]
    exact ih hr (by omega)

/-- The byte written is read back. -/
theorem Memory.read_write_same {m : List Host.Cell} {lo : Nat} (a : Nat) (v : BitVec 8) (h : Memory.wfFrom lo m = true) :
    Memory.read (Memory.write m a v) a = v := by
  induction m generalizing lo with
  | nil => by_cases hv : v = 0#8 <;> simp [Memory.write, Memory.read, hv]
  | cons c r ih =>
    obtain ⟨k, b⟩ := c
    simp only [Memory.wfFrom, Bool.and_eq_true, decide_eq_true_eq] at h
    obtain ⟨⟨hk, hb⟩, hr⟩ := h
    simp only [Memory.write]
    split
    · by_cases hv : v = 0#8
      · have hn : ¬ k = a := by omega
        simp [hv, Memory.read, hn]; exact Memory.read_below hr (by omega)
      · simp [hv, Memory.read]
    · split
      · rename_i hak
        by_cases hv : v = 0#8
        · simp [hv]; exact Memory.read_below hr (by omega)
        · simp [hv, Memory.read, hak]
      · have hn : ¬ k = a := by omega
        simp [Memory.read, hn]; exact ih hr

/-- Every other byte reads as before. -/
theorem Memory.read_write_ne {m : List Host.Cell} {a c : Nat} (v : BitVec 8) (hc : c ≠ a) :
    Memory.read (Memory.write m a v) c = Memory.read m c := by
  induction m with
  | nil => by_cases hv : v = 0#8 <;> simp [Memory.write, Memory.read, hv, Ne.symm hc]
  | cons e r ih =>
    obtain ⟨k, b⟩ := e
    simp only [Memory.write]
    split
    · by_cases hv : v = 0#8 <;> simp [hv, Memory.read, Ne.symm hc]
    · split
      · rename_i hak
        have hn : ¬ k = c := by omega
        by_cases hv : v = 0#8 <;> simp [hv, Memory.read, hn, Ne.symm hc]
      · simp only [Memory.read]
        split
        · rfl
        · exact ih

/-- Bytes outside a run written read as before. -/
theorem Memory.read_writeBytes_ne (bs : List (BitVec 8)) {m : List Host.Cell} {a c : Nat} (hc : c < a ∨ a + bs.length ≤ c) :
    Memory.read (Memory.writeBytes m a bs) c = Memory.read m c := by
  induction bs generalizing m a with
  | nil => rfl
  | cons b bs ih =>
    simp only [List.length_cons] at hc
    simp only [Memory.writeBytes]
    rw [ih (by omega), Memory.read_write_ne b (by omega)]

/-- A run of 64 bytes. -/
@[simp] theorem bytesOf_length (n x : Nat) : (bytesOf n x).length = n := by
  induction n generalizing x with
  | zero => rfl
  | succ n ih => simp [bytesOf, ih]

/-- Bytes of other words read as before. -/
theorem Memory.read_writeLine_ne {m : List Host.Cell} {w c : Nat} (d : Line) (hc : c / 64 ≠ w) :
    Memory.read (Memory.writeLine m w d) c = Memory.read m c := by
  apply Memory.read_writeBytes_ne
  simp only [bytesOfLine, bytesOf_length]
  omega

end Sys2Proof.Machine
end

