-- ==== Sys2Proof/Laws/Shared.lean ====
section
/-! SUPPORT. What the operations that several commands share do, said once for each. -/

namespace Sys2Proof.Machine
open Sys2Proof

/-- What `minBy` takes is in the list. -/
theorem minBy_mem {α : Type} (f : α → Nat) : ∀ (l : List α) {y : α}, minBy f l = some y → y ∈ l
  | [], _, h => by simp [minBy] at h
  | x :: xs, y, h => by
    unfold minBy at h
    cases e : minBy f xs with
    | none => rw [e] at h; simp at h; simp [h]
    | some z =>
      rw [e] at h
      have := minBy_mem f xs e
      by_cases hc : f z < f x
      · simp [hc] at h; subst h; simp [this]
      · simp [hc] at h; simp [h]

/-- The element of a list whose key is least, where no other element has that key, is the one that `minBy` takes. -/
theorem minBy_least {α : Type} (f : α → Nat) (a : α) : ∀ l : List α, a ∈ l → (∀ x ∈ l, f a ≤ f x) →
    (∀ x ∈ l, f x = f a → x = a) → minBy f l = some a
  | [], ha, _, _ => absurd ha (by simp)
  | x :: xs, ha, h, hf => by
    unfold minBy
    by_cases hm : a ∈ xs
    · rw [minBy_least f a xs hm (fun y hy => h y (by simp [hy])) (fun y hy => hf y (by simp [hy]))]
      by_cases hx : f a < f x
      · simp [hx]
      · have := h x (by simp)
        simp [hf x (by simp) (by omega)]
    · have hx : a = x := by simpa [hm] using ha
      subst hx
      cases e : minBy f xs with
      | none => rfl
      | some y =>
        have hy : y ∈ xs := minBy_mem f xs e
        have := h y (by simp [hy])
        simp; omega
/-- A symbol flooded is queued on each port below `k` that is an active job port and not the one excepted. -/
theorem State.flood_upto (s : State) (x : Nat) (sym : InlineSym) : ∀ k, k ≤ 12 → ∀ m,
    ((List.range k).foldl (fun s n =>
      if n ≠ x && s.jobPort n then s.modLink n fun l => { l with inlineOut := l.inlineOut ++ [sym] } else s) s).link m =
    if m < k ∧ m ≠ x ∧ s.jobPort m = true then { s.link m with inlineOut := (s.link m).inlineOut ++ [sym] } else s.link m
  | 0, _, _ => by simp
  | k + 1, hk, m => by
    have ih := State.flood_upto s x sym k (by omega)
    rw [List.range_succ, List.foldl_append, List.foldl_cons, List.foldl_nil]
    have hj : ∀ n, ¬ n < k → State.jobPort ((List.range k).foldl (fun s n =>
        if n ≠ x && s.jobPort n then s.modLink n fun l => { l with inlineOut := l.inlineOut ++ [sym] } else s) s) n = s.jobPort n := by
      intro n hn
      have := ih n
      rw [if_neg (by omega)] at this
      unfold State.jobPort at this ⊢
      rw [this]
    rw [hj k (by omega)]
    by_cases hc : k ≠ x ∧ s.jobPort k = true
    · rw [if_pos (by simpa using hc)]
      by_cases hm : k = m
      · subst hm
        rw [State.link_modLink_same _ _ _ (by omega), ih k, if_neg (by omega), if_pos ⟨by omega, hc⟩]
      · rw [State.link_modLink_ne _ _ _ _ hm, ih m]
        have : (m < k + 1) = (m < k) := by simp only [eq_iff_iff]; omega
        simp only [this]
    · rw [if_neg (by simpa using hc), ih m]
      by_cases hm : m = k
      · subst hm; rw [if_neg (by omega), if_neg (by tauto)]
      · have : (m < k + 1) = (m < k) := by simp only [eq_iff_iff]; omega
        simp only [this]

/-- What a flooded symbol leaves on a port (R36). -/
theorem State.flood_link (s : State) (x : Nat) (sym : InlineSym) {m : Nat} (h : m < 12) : (s.flood x sym).link m =
    if m ≠ x ∧ s.jobPort m = true then { s.link m with inlineOut := (s.link m).inlineOut ++ [sym] } else s.link m := by
  have := State.flood_upto s x sym 12 (by omega) m
  simp only [h, true_and] at this
  exact this

end Sys2Proof.Machine
end

