-- ==== Sys2Proof/WellFormed.lean ====
section
/-! DEFINITION. What a command's operands must satisfy beyond the ranges of their types. -/

namespace Sys2Proof

/-- A tile instruction word: WAIT is 1 or more and the bits above DIGEST are 0 (R88, R89, R142). -/
def Machine.IWord.wf (w : Machine.IWord) : Bool := w.wait != 0 && !w.resv.getLsbD 1 && !w.resv.getLsbD 2

/-- A window access is aligned to its size (R81, R429). -/
def winOffsetWf (off : BitVec 12) (dbl : Bool) : Bool := off.toNat % (if dbl then 8 else 4) = 0

/-- A register offset is aligned to 4 bytes (R473). -/
def regOffsetWf (off : BitVec 26) : Bool := off.toNat % 4 = 0

/-- The checks that a command's operands must pass. The other commands have none: the types of their operands say all. -/
def Instr.wellFormed : Instr → Bool
  | .ctNop _ _ w | .ctLwait _ _ w | .ctHalt _ _ w | .ctAmov _ _ w | .ctAadd _ _ w | .ctAalu _ _ w | .ctSmov _ _ w
  | .ctSalu _ _ w | .ctXmov _ _ w | .ctSld _ _ w | .ctSst _ _ w | .ctPoll _ _ w | .ctLoop _ _ w | .ctJmp _ _ w
  | .ctFbr _ _ w | .ctBbr _ _ w | .ctFeset _ _ w | .ctBar _ _ w | .ctWatch _ _ w => w.wf
  | .mxLdw _ w | .mxMma _ w | .vxAlu _ w | .vxCvt _ w | .vxTr _ w | .vxRed _ w | .vxRng _ w | .vxReds _ w | .vxEracc _ w
  | .vxEradd _ w | .vxErcvt _ w | .vxDclose _ w | .mvCpy _ w | .mvFill _ w | .mvSend _ w | .mvSld _ w | .mvSst _ w
  | .mvFsend _ w | .mvFrecv _ w | .mvEld _ w | .mvPgath _ w | .mvPst _ w | .mvStrf _ w => w.wf
  | .tileWinRead _ off dbl => winOffsetWf off dbl
  | .tileWinWrite _ off _ dbl => winOffsetWf off dbl
  | .rcCounterRead _ off => regOffsetWf off
  | .bitAliasAccess off _ _ => regOffsetWf off
  | .registerWrite _ off _ => regOffsetWf off
  | .boundaryWork _ posted => posted.all fun x => decide (x.1 < 2 ^ 20)
  | .stagingCompletion _ _ _ data err => err || !data.isEmpty
  | _ => true

end Sys2Proof
end

