-- ==== Sys2Proof/Tests/Slice0.lean ====
section
/-! SUPPORT. The model's own tests: ill-formed commands refused, and for every statement with hypotheses a concrete state and
operands that meet them. Expected values come from the spec's rules. -/

open Sys2Proof Sys2Proof.Machine

section
set_option Elab.async false

/-! ### Ill-formed commands -/

theorem test_wait_zero_is_ill_formed :
    Instr.wellFormed (.ctNop 0 .mx { engine := 0, wait := 0, modf := 0, resv := 0, fend := false, ops := 0 }) = false := by decide
theorem test_reserved_bit_is_ill_formed :
    Instr.wellFormed (.vxAlu 0 { engine := 2, wait := 24, modf := 0, resv := 2, fend := false, ops := 0 }) = false := by decide
theorem test_top_reserved_bit_is_ill_formed :
    Instr.wellFormed (.mxLdw 0 { engine := 1, wait := 24, modf := 0, resv := 4, fend := false, ops := 0 }) = false := by decide
theorem test_instruction_is_well_formed :
    Instr.wellFormed (.vxAlu 0 { engine := 2, wait := 24, modf := 0, resv := 1, fend := false, ops := 0 }) = true := by decide
theorem test_window_read_misaligned : Instr.wellFormed (.tileWinRead 0 0x804 true) = false := by decide
theorem test_window_write_misaligned : Instr.wellFormed (.tileWinWrite 0 0x802 0 false) = false := by decide
theorem test_register_write_misaligned : Instr.wellFormed (.registerWrite 0 0x12 0) = false := by decide
theorem test_register_read_misaligned : Instr.wellFormed (.rcCounterRead 0 0x13) = false := by decide
theorem test_alias_misaligned : Instr.wellFormed (.bitAliasAccess 0x2000001 false 0) = false := by decide
theorem test_post_beyond_the_window : Instr.wellFormed (.boundaryWork 0 [(0x100000, 0)]) = false := by decide
theorem test_completion_without_data : Instr.wellFormed (.stagingCompletion 0 0 0 [] false) = false := by decide

/-! ### The queue -/

theorem test_reset_queue_is_empty : State.reset.pending = [] := rfl
theorem test_no_word_spells_a_command : decodeTableWord 32 0 = none := rfl

/-! ### Arithmetic of the spec's examples -/

/-- The example after R165: 2^24 and -2^24 about 1.0 with E_base 24. -/
theorem test_er_codes : [0x4B800000, 0x3F800000, 0xCB800000, 0x17800000].map (fun x => (toER (decodeF fp32 x) 24).1.toNat) =
    [0x10000000000000000000000000, 0x10000000000000000000, 0xFFFFFFF0000000000000000000000000, 0] := by decide +kernel
theorem test_er_sum_is_one : fromER (erAdd (erAdd (toER (decodeF fp32 0x4B800000) 24).1 (toER (decodeF fp32 0x3F800000) 24).1).1
    (toER (decodeF fp32 0xCB800000) 24).1).1 24 = 0x3F800000 := by decide +kernel
/-- The example after R174: the side word and the first code bytes of a Cinder-4 unit. -/
theorem test_cinder4_unit : (cinderEncode 1 ([0x4060, 0xBFA0, 0x4000, 0x4220, 0x3DC0] ++ List.replicate 251 0)).map BitVec.toNat =
    [0x4E7, 0, 0x42200000000000000000000000000000008300000000000000770000000000000070] := by decide +kernel
/-- The toy table after R178. -/
theorem test_ember_codes : emberCodes 4 (0x032000000322 * 2 ^ 128) =
    [(0, 2, 0), (1, 2, 1), (9, 2, 2), (2, 3, 6), (10, 3, 7)] := by decide +kernel
/-- The cycle of the example after R232. -/
theorem test_fold_cycle : foldCycle 3 4 = [(0, 0), (1, 0), (2, 0), (2, 1), (1, 1), (1, 2), (2, 2), (2, 3), (1, 3), (0, 3), (0, 2),
    (0, 1)] := by decide
/-- The example after R121: the 128 bits of an MX.MMA. -/
theorem test_mma_word :
    IWord.bits ⟨1, 0x25, 0, 0, false, BitVec.ofNat 96 (0x0C0100 * 2 ^ 72 + 0x880040 * 2 ^ 48 + 0x3FC000)⟩ 0x41 =
      0x411025000C01008800400000003FC000 := by
  decide +kernel
/-- The worked ledger after R287: a grant of -80, a charge of 1 and Spring at boundary 12. -/
theorem test_ledger_boundary_12 :
    let b : Bucket := { Bucket.reset with granted := 1020, charged := 973, balance := 47, spring := 20, cap := 100 }
    let c := (b.grant (-80)).charge 1
    let d := c.grant c.springNow
    (d.granted, d.charged, d.balance) = (960, 974, -14) := by decide
/-- The three alias words of the example after R490. -/
theorem test_alias_words : [0x2000180, 0x300028C, 0x3400110].map aliasOf = [(0xC, 0), (0x80014, 3), (0xA0008, 4)] := by decide
/-- The check values of R466, over the bytes "123456789". -/
theorem test_crc_check_values :
    (List.range 4).map (fun p => (crcOf p ((List.range 9).map fun i => BitVec.ofNat 8 (0x31 + i))).toNat) =
      [0xE3069283, 0xCBF43926, 0x6C40DF5F0B497347, 0x29B1] := by decide +kernel
/-- A CAL symbol of VALUE 0x1234 in a control field with INLINE (R344). -/
theorem test_control_field : (LinkSym.cal 0x1234).field true = 0xE1234#20 := by decide
/-- Two events of one clk stand in the order of their TYPEs, and after an event of an earlier clk (R463). -/
theorem test_events_of_one_clk :
    let e (type : BitVec 8) (at_ : Nat) : TimeEvent := { TimeEvent.reset with type := type, moment := at_ }
    (((e 2 7).into ((e 5 7).into [e 9 6])).map fun x => (x.type.toNat, x.moment)) = [(9, 6), (2, 7), (5, 7)] := by decide

/-- Tile 0 whose stream `e` has come to the check point of instruction word `w` with opcode `op`, at count 1. -/
def oneInstr (e : Eng) (op : Nat) (w : IWord) : State :=
  { State.reset with plan := { PlanRegs.reset with geyser := 1 } }.modTile 0 fun t =>
    ({ t with bound := true } : Tile).setStream e
      { Stream.reset with running := true, queue := [{ pc := 0, word := w.bits op, ready := 0, seq := 0 }] }

/-- An instruction word with WAIT 24. -/
def iw (engine : Nat) (mod : Nat) (ops : Nat) (fend : Bool := false) : IWord :=
  { engine := BitVec.ofNat 4 engine, wait := 24, modf := BitVec.ofNat 4 mod, resv := 0, fend := fend, ops := BitVec.ofNat 96 ops }

theorem oneInstr_tile (e : Eng) (op : Nat) (w : IWord) : (oneInstr e op w).tile 0 =
    ({ Tile.reset with bound := true } : Tile).setStream e
      { Stream.reset with running := true, queue := [{ pc := 0, word := w.bits op, ready := 0, seq := 0 }] } := by
  simp only [oneInstr]; rw [State.tile_modTile_same _ _ _ (by decide)]; rfl

theorem oneInstr_stream (e : Eng) (op : Nat) (w : IWord) : ((oneInstr e op w).tile 0).stream e =
    { Stream.reset with running := true, queue := [{ pc := 0, word := w.bits op, ready := 0, seq := 0 }] } := by
  rw [oneInstr_tile]; cases e <;> rfl

/-- A live stream with one check point, whose entry spells the word, has come to it. -/
theorem atCheck_of {s : State} {t : Nat} {e : Eng} {op : Nat} {w : IWord} {fr : Front} {q : QEntry}
    (h1 : s.streamLive t ((s.tile t).stream e) = true) (h2 : ((s.tile t).stream e).fronts = [fr])
    (h3 : ((s.tile t).stream e).entry fr.seq s.plan.geyser = some q) (h4 : q.word = w.bits op)
    (h5 : s.checksAt t e fr (fr.issuePc w.wait.toNat) = true) (h6 : (s.tile t).parityFails = []) : s.atCheck t e op w fr := by
  refine ⟨h1, ?_, by simp [h6]⟩
  simp [State.frontOf, h2, h3, h4, h5]

theorem oneInstr_atCheck (e : Eng) (op : Nat) (w : IWord) (h : w.wait = 24#12) :
    (oneInstr e op w).atCheck 0 e op w Front.reset := by
  refine atCheck_of (q := { pc := 0, word := w.bits op, ready := 0, seq := 0 }) ?_ (by rw [oneInstr_stream]; rfl) ?_ rfl ?_
    (by rw [oneInstr_tile]; cases e <;> rfl)
  · simp only [State.streamLive, oneInstr_stream]
    have : ((oneInstr e op w).tile 0).bound = true := by rw [oneInstr_tile]; cases e <;> rfl
    rw [this]; rfl
  · rw [oneInstr_stream]; rfl
  · rw [h]; simp [State.checksAt, Front.issuePc, Front.reset, oneInstr, PlanRegs.reset]

/-- The check point of the word is met, and the word holds no reserved field. -/
abbrev meets (e : Eng) (op : Nat) (w : IWord) (ok : Bool) : Prop :=
  ok = true ∧ (oneInstr e op w).atCheck 0 e op w Front.reset

/-- Tests that ask for empty words pass. -/
theorem oneInstr_passes (e : Eng) (op : Nat) (w : IWord) (tests : List (Nat × Bool)) (h : w.wait = 24#12)
    (ht : (tests.all fun x => !x.2) = true) : (oneInstr e op w).passes 0 e op w Front.reset tests := by
  refine ⟨oneInstr_atCheck e op w h, ?_⟩
  intro x hx
  have := List.all_eq_true.mp ht x hx
  have hfull : ((oneInstr e op w).tile 0).full = [] := by rw [oneInstr_tile]; cases e <;> rfl
  simp only [hfull, nsHas]; simp_all

/-- A state that differs in nothing that a check point looks at. -/
theorem passes_of {s s' : State} {t : Nat} {e : Eng} {op : Nat} {w : IWord} {fr : Front} {tests : List (Nat × Bool)}
    (hp : s'.plan = s.plan) (hr : s'.running = s.running) (h0 : (s'.tile t).stream e = (s.tile t).stream e)
    (h1 : (s'.tile t).bound = (s.tile t).bound) (h2 : (s'.tile t).parityFails = (s.tile t).parityFails)
    (h3 : (s'.tile t).full = (s.tile t).full) (h4 : ((s.tile t).stream e).running = true)
    (h : s.passes t e op w fr tests) : s'.passes t e op w fr tests := by
  obtain ⟨⟨a1, a2, a3⟩, a4⟩ := h
  refine ⟨⟨?_, ?_, ?_⟩, ?_⟩
  · simp only [State.streamLive, h0, h1, h4] at a1 ⊢
    simpa using a1
  · simp only [State.frontOf, State.checksAt, State.hasCause, hp, hr, h0] at a2 ⊢
    exact a2
  · rw [h2]; exact a3
  · rw [h3]; exact a4

/-- The check point of a stream that runs. -/
def Goes (s : State) (t : Nat) (e : Eng) (op : Nat) (w : IWord) (fr : Front) (tests : List (Nat × Bool)) : Prop :=
  ((s.tile t).stream e).running = true ∧ s.passes t e op w fr tests

section Goes
variable {s : State} {t n p : Nat} {e : Eng} {op : Nat} {w : IWord} {fr : Front} {tests : List (Nat × Bool)}

/-- The same of a state whose tile `f` changes. -/
theorem goes_modTile {f : Tile → Tile} (ht : t < 160) (h0 : ∀ y, (f y).stream e = y.stream e) (h1 : ∀ y, (f y).bound = y.bound)
    (h2 : ∀ y, (f y).parityFails = y.parityFails) (h3 : ∀ y, (f y).full = y.full) (h : Goes s t e op w fr tests) :
    Goes (s.modTile t f) t e op w fr tests := by
  have hm : (s.modTile t f).tile t = f (s.tile t) := State.tile_modTile_same _ _ _ ht
  exact ⟨by rw [hm, h0]; exact h.1,
    passes_of (s := s) rfl rfl (by rw [hm, h0]) (by rw [hm, h1]) (by rw [hm, h2]) (by rw [hm, h3]) h.1 h.2⟩

/-- The same of a state whose partition `f` changes, which runs on. -/
theorem goes_modPt {f : PartBank → PartBank} (hr : (s.modPt p f).paused = s.paused) (h : Goes s t e op w fr tests) :
    Goes (s.modPt p f) t e op w fr tests :=
  ⟨h.1, passes_of (s := s) rfl (by
    have h1 : (s.modPt p f).alive = s.alive ∧ (s.modPt p f).held = s.held ∧ (s.modPt p f).plan = s.plan := ⟨rfl, rfl, rfl⟩
    simp only [State.running, hr, h1]) rfl rfl rfl rfl h.1 h.2⟩

/-- The same of a state with other receive keys. -/
theorem goes_recvDir {d : List DirEnt} (h : Goes s t e op w fr tests) : Goes ({ s with recvDir := d } : State) t e op w fr tests :=
  ⟨h.1, passes_of (s := s) rfl rfl rfl rfl rfl rfl h.1 h.2⟩

/-- The same of a state whose link `f` changes. -/
theorem goes_modLink {f : Link → Link} (h : Goes s t e op w fr tests) : Goes (s.modLink n f) t e op w fr tests :=
  ⟨h.1, passes_of (s := s) rfl rfl rfl rfl rfl rfl h.1 h.2⟩

/-- One instruction by itself. -/
theorem goes_oneInstr (h : w.wait = 24#12) (ht : (tests.all fun x => !x.2) = true) :
    Goes (oneInstr e op w) 0 e op w Front.reset tests := ⟨by rw [oneInstr_stream], oneInstr_passes e op w tests h ht⟩
end Goes

/-- Partition 0 with one tile, a plain region and an Ember region, serving. -/
def movePart (b : PartBank) : PartBank := { b with
  res := { b.res with poolPages := 4 }
  stage := { b.stage with
    mapped := true
    tiles := [0]
    ranks := [0]
    image := some { Image.reset with
      n := 1
      regions := [{ Region.reset with base := 0, words := 65536 },
        { Region.reset with base := 65536, words := 2048, ember := true }]
      serving := some { Serving.reset with cacheBase := 0, cacheWords := 65536 } }
    params := some { Params.reset with stringCount := 4 } } }

/-- Tile 0 of that partition, about to issue a move, with one packet landed. -/
def oneMove (op : Nat) (w : IWord) (mem : List Host.Cell := []) : State :=
  ((({ (oneInstr .mv op w) with
      recvDir := [{ DirEnt.reset with ltile := 0, tag := 5, port := 1 }] } : State).modTile 0 fun t =>
        { t with mem := mem, logical := 0 }).modPt 0 movePart).modLink 1
    (fun l => { l with fab := { l.fab with pool := [{ PoolPkt.reset with
      pkt := { Packet.reset with ltile := 0, tag := 5, payload := [1] } }] } })

/-- Its plan is not paused. -/
theorem oneMove_paused : (State.reset.modPt 0 movePart).paused = State.reset.paused := by decide +kernel

/-- A move's check point is met, as that of an instruction by itself. -/
theorem oneMove_passes (op : Nat) (w : IWord) (mem : List Host.Cell) (tests : List (Nat × Bool)) (h : w.wait = 24#12)
    (ht : (tests.all fun x => !x.2) = true) : (oneMove op w mem).passes 0 .mv op w Front.reset tests := by
  have h1 : Goes (({ (oneInstr .mv op w) with recvDir := [{ DirEnt.reset with ltile := 0, tag := 5, port := 1 }] } : State).modTile 0
      fun t => { t with mem := mem, logical := 0 }) 0 .mv op w Front.reset tests :=
    goes_modTile (by decide) (fun _ => rfl) (fun _ => rfl) (fun _ => rfl) (fun _ => rfl) (goes_recvDir (goes_oneInstr h ht))
  have h2 : Goes (oneMove op w mem) 0 .mv op w Front.reset tests := goes_modLink (goes_modPt oneMove_paused h1)
  exact h2.2

/-- The next state that an outcome answers. -/
def nextOf : Host.Outcome State Fault Refusal → Option State
  | .next s => some s
  | _ => none

/-- A chip of job 5 with port 1 active for the job. -/
def oneJob : State := ({ State.reset with fab := { FabricRegs.reset with job := 5, jobValid := true } }).modLink 1 fun l =>
  { l with state := 5, fab := { l.fab with role := 1 } }

/-- The HOLD (1) or RELEASE (2) of episode 7 of the chip at coordinates 3 of job 5. -/
def oneUnit (type : Nat) : BitVec 64 := inlineUnit type false false 5 3 7 0

/-- Partition 0 active with a mapped Stage plan that declares MIRROR or not; the plan state given. -/
def onePlan (mirror : Bool) (st : Nat) (at_ : Nat) : State :=
  ({ oneJob with
    plan := { oneJob.plan with state := BitVec.ofNat 3 st, launchAt := BitVec.ofNat 64 at_ }
    top := { oneJob.top with fwReady := true }
    map := { oneJob.map with upRoot := true } } : State).modPt 0 fun b =>
    { b with state := 1, stage := { b.stage with mapped := true, image := some { Image.reset with mirror := mirror } } }

/-- A value symbol of episode number 9 of the chip at coordinates 3: header, low and high units of value 80. -/
def oneHead (ty : Nat) : BitVec 64 := inlineUnit ty true false 5 3 9 0

/-- The state after reset with the firmware's components loaded. -/
def readyState : State := { State.reset with top := { TopRegs.reset with fwReady := true } }

/-- A P packet of 64 bytes. -/
def pPkt : Packet := { Packet.reset with payload := [7] }

/-- Port 1 as `f` changes it, components loaded. -/
def lnkState (f : Link → Link) : State := ({ oneJob with top := { oneJob.top with fwReady := true }, wall := 20 * tuMs } : State).modLink 1 f

/-- Partition 2 ACTIVE, changed by `f`. -/
def wingsState (f : PartBank → PartBank) : State := readyState.modPt 2 fun b => f { b with state := 1 }


/-- Stack 0 ready, with pseudo-channel 0 as `f` changes it. -/
def stkState (f : Channel → Channel) : State :=
  (readyState.modStk 0 fun y => { y with state := 2 }).modChan 0 0 fun z => f { z with usable := true }

theorem wit_StepRunsTheFrontCommand : State.reset.pending = [] := rfl

theorem wit_NoCommandChangesTheOneTimeMemory :
    exec (.tileWinRead ⟨0, by decide⟩ 0#12 false) State.reset = .next State.reset := rfl

theorem wit_EveryStepKeepsTheGrade : State.reset.fuses.legal ∧ step State.reset = .next State.reset.tick := by
  exact ⟨Or.inl ⟨rfl, rfl, rfl⟩, rfl⟩

theorem wit_CtRegisterInstructionsComplete :
    meets .mx 0x01 (iw 0 0 0) (ctNopOk .mx (iw 0 0 0)) ∧
    meets .vx 0x02 (iw 0 0 0xFFFFFFFF) (ctLwaitOk .vx (iw 0 0 0xFFFFFFFF)) ∧
    meets .mv 0x04 (iw 0 0 (15 * 2 ^ 92 + 7)) (ctAmovOk .mv (iw 0 0 (15 * 2 ^ 92 + 7))) ∧
    meets .mv 0x05 (iw 0 0 (2 ^ 92 + 2 ^ 88 + 1)) (ctAaddOk .mv (iw 0 0 (2 ^ 92 + 2 ^ 88 + 1))) ∧
    meets .mv 0x06 (iw 0 11 (2 ^ 92)) (ctAaluOk .mv (iw 0 11 (2 ^ 92))) ∧
    meets .mx 0x07 (iw 0 0 (7 * 2 ^ 92)) (ctSmovOk .mx (iw 0 0 (7 * 2 ^ 92))) ∧
    meets .mx 0x08 (iw 0 15 (7 * 2 ^ 92)) (ctSaluOk .mx (iw 0 15 (7 * 2 ^ 92))) ∧
    meets .mx 0x09 (iw 0 0 (7 * 2 ^ 92)) (ctXmovOk .mx (iw 0 0 (7 * 2 ^ 92))) ∧
    meets .mx 0x09 (iw 0 1 (15 * 2 ^ 92)) (ctXmovOk .mx (iw 0 1 (15 * 2 ^ 92))) ∧
    Ctx.runs { s := State.reset, t := 0, e := .mv, f := { Flight.reset with op := 0x04, w := iw 0 0 (15 * 2 ^ 92 + 7) } } 0x04
      (iw 0 0 (15 * 2 ^ 92 + 7)) := by
  refine ⟨⟨?_, ?_⟩, ⟨?_, ?_⟩, ⟨?_, ?_⟩, ⟨?_, ?_⟩, ⟨?_, ?_⟩, ⟨?_, ?_⟩, ⟨?_, ?_⟩, ⟨?_, ?_⟩, ⟨?_, ?_⟩, ⟨rfl, rfl⟩⟩ <;>
    first | exact oneInstr_atCheck _ _ _ rfl | decide +kernel

theorem wit_CtFlowInstructionsComplete :
    meets .mx 0x03 (iw 0 0 0 true) (ctHaltOk .mx (iw 0 0 0 true)) ∧
    meets .vx 0x10 (iw 0 0 (0xFFFF * 2 ^ 64 + 0xFF * 2 ^ 56)) (ctLoopOk .vx (iw 0 0 (0xFFFF * 2 ^ 64 + 0xFF * 2 ^ 56))) ∧
    meets .mv 0x11 (iw 0 0 (9 * 2 ^ 64)) (ctJmpOk .mv (iw 0 0 (9 * 2 ^ 64))) ∧
    meets .mv 0x12 (iw 0 0 (9 * 2 ^ 64 + 5 * 2 ^ 32 + 7) true) (ctFbrOk .mv (iw 0 0 (9 * 2 ^ 64 + 5 * 2 ^ 32 + 7) true)) ∧
    meets .mv 0x13 (iw 0 0 (2 ^ 40 + 2 ^ 32 + 65536)) (ctBbrOk .mv (iw 0 0 (2 ^ 40 + 2 ^ 32 + 65536))) := by
  refine ⟨⟨?_, ?_⟩, ⟨?_, ?_⟩, ⟨?_, ?_⟩, ⟨?_, ?_⟩, ⟨?_, ?_⟩⟩ <;> first | exact oneInstr_atCheck _ _ _ rfl | decide

theorem wit_CtFlowInstructionsComplete_issue :
    ∃ c : Ctx, c.f.issued = true ∧ c.f.p = State.reset.plan.geyser ∧ c.f.drop ≠ [] :=
  ⟨{ s := State.reset, t := 0, e := .mv, f := { Flight.reset with issued := true, drop := [(0, 0)] } }, rfl, rfl, by decide⟩

theorem wit_CtWordInstructionsComplete :
    meets .mx 0x0A (iw 0 0 (7 * 2 ^ 92 + 15 * 2 ^ 48 + 15)) (ctSldOk .mx (iw 0 0 (7 * 2 ^ 92 + 15 * 2 ^ 48 + 15))) ∧
    (ctSstOk .mx (iw 0 0 (2 ^ 70 + 65535 * 2 ^ 48)) = true ∧
      (oneInstr .mx 0x0B (iw 0 0 (2 ^ 70 + 65535 * 2 ^ 48))).passes 0 .mx 0x0B (iw 0 0 (2 ^ 70 + 65535 * 2 ^ 48)) Front.reset [(65535, false)]) ∧
    meets .mx 0x0C (iw 0 0 (7 * 2 ^ 92 + 15 * 2 ^ 48 + 15)) (ctPollOk .mx (iw 0 0 (7 * 2 ^ 92 + 15 * 2 ^ 48 + 15))) ∧
    meets .mx 0x18 (iw 0 1 (63 * 2 ^ 72)) (ctFesetOk .mx (iw 0 1 (63 * 2 ^ 72))) := by
  refine ⟨⟨by decide, oneInstr_atCheck _ _ _ rfl⟩, ⟨by decide, oneInstr_passes _ _ _ _ rfl (by decide)⟩,
    ⟨by decide, oneInstr_atCheck _ _ _ rfl⟩, ⟨by decide, oneInstr_atCheck _ _ _ rfl⟩⟩

theorem wit_CtWordInstructionsComplete_late :
    meets .mx 0x0A (iw 0 0 (2 ^ 70 + 15 * 2 ^ 48)) (ctSldOk .mx (iw 0 0 (2 ^ 70 + 15 * 2 ^ 48))) ∧
    spFe (iw 0 0 (2 ^ 70 + 15 * 2 ^ 48)).s1 = 1 ∧
    nsHas 15 ((oneInstr .mx 0x0A (iw 0 0 (2 ^ 70 + 15 * 2 ^ 48))).tile 0).full = false := by
  refine ⟨⟨by decide, oneInstr_atCheck _ _ _ rfl⟩, by decide, ?_⟩
  rw [oneInstr_tile]; rfl

/-- Tiles 0 and 1 of a partition with barrier 0 of both and sync objects at words 5 and 6. -/
def oneSync : State :=
  (((oneInstr .mx 0x19 (iw 0 0 0)).modTile 0 fun t => { t with logical := 0 }).modPt 0 fun b => { b with
    stage := { b.stage with
      tiles := [0, 1]
      image := some { Image.reset with
        n := 2
        barriers := [{ BarDecl.reset with scope := 1, compWord := 5, tiles := [0, 1] }] } } }).modTs 0 (fun y =>
    { y with objects := [(5, true), (6, true)] }) |>.modTs 1 fun y => { y with objects := [(5, true)] }

theorem wit_CtSyncInstructionsComplete :
    meets .mx 0x19 (iw 0 0 31) (ctBarOk .mx (iw 0 0 31)) ∧
    meets .mx 0x1A (iw 0 0 (5 * 2 ^ 72 + 6 * 2 ^ 48 + 3)) (ctWatchOk .mx (iw 0 0 (5 * 2 ^ 72 + 6 * 2 ^ 48 + 3))) ∧
    ∀ s, s = oneSync → (s.tile 0).part.toNat = 0 ∧ (s.tile 0).logical.toNat = 0 ∧
      s.barDecl 0 0 = some { BarDecl.reset with scope := 1, compWord := 5, tiles := [0, 1] } ∧
      (s.bar 0 0).arrived = [] ∧ s.physTile 0 0 = some 0 ∧ s.physTile 0 1 = some 1 ∧ (s.ts 0).watches = [] ∧
      (alGet 5 (s.ts 0).objects).isSome = true ∧ (alGet 6 (s.ts 0).objects).isSome = true ∧
      (alGet 5 (s.ts 1).objects).isSome = true := by
  refine ⟨⟨by decide, oneInstr_atCheck _ _ _ rfl⟩, ⟨by decide, oneInstr_atCheck _ _ _ rfl⟩, ?_⟩
  rintro s rfl
  decide +kernel

theorem wit_TileInstructionsWaitAndFault :
    ((Instr.ctNop 0 .mx (iw 0 0 0)).tileForm.map (·.op) = some 0x01) ∧
    (State.reset.tile 0).bound = false ∧
    ((oneInstr .mx 1 (iw 0 0 1)).atCheck 0 .mx 1 (iw 0 0 1) Front.reset ∧ ctNopOk .mx (iw 0 0 1) = false) :=
  ⟨rfl, rfl, oneInstr_atCheck _ _ _ rfl, by decide⟩

/-- The check point is due and the queue is empty. -/
theorem wit_TileInstructionsWaitAndFault_empty : ∀ s, s = (oneInstr .mx 1 (iw 0 0 0)).modTile 0 (fun t => t.setStream .mx { t.mx with queue := [] }) →
    s.streamLive 0 ((s.tile 0).stream .mx) = true ∧ s.frontOf 0 .mx ((iw 0 0 0).bits 1) 24 = none ∧
      s.emptyFront 0 .mx 24 = some Front.reset := by
  rintro s rfl
  decide +kernel

theorem wit_MatrixInstructionsComplete_ldw : mxLdwOk (iw 1 0 0) = true ∧
    (oneInstr .mx 0x40 (iw 1 0 0)).passes 0 .mx 0x40 (iw 1 0 0) Front.reset [] :=
  ⟨by decide, oneInstr_passes _ _ _ _ rfl rfl⟩

/-- A tile whose weight slot 0 stands as given. -/
def oneMma (w : IWord) (sl : WSlot) : State := (oneInstr .mx 0x41 w).modTile 0 fun t => { t with slot0 := sl }

theorem oneMma_tile (w : IWord) (sl : WSlot) : (oneMma w sl).tile 0 = { (oneInstr .mx 0x41 w).tile 0 with slot0 := sl } := by
  simp only [oneMma]; rw [State.tile_modTile_same _ _ _ (by decide)]

/-- The tests of empty words pass, whatever the slot holds. -/
theorem oneMma_passes (w : IWord) (sl : WSlot) (tests : List (Nat × Bool)) (h : w.wait = 24#12)
    (ht : (tests.all fun x => !x.2) = true) : (oneMma w sl).passes 0 .mx 0x41 w Front.reset tests := by
  have h1 : Goes (oneMma w sl) 0 .mx 0x41 w Front.reset tests :=
    goes_modTile (by decide) (fun _ => rfl) (fun _ => rfl) (fun _ => rfl) (fun _ => rfl) (goes_oneInstr h ht)
  exact h1.2

/-- A ready slot of the fitting set, one of another set, and one that is not valid. -/
theorem wit_MatrixInstructionsComplete_mma : mxMmaOk (iw 1 0 (2 ^ 14 + 2 ^ 70 * 2 ^ 24)) = true ∧ ∀ (sl : WSlot) (s : State), s = oneMma (iw 1 0 (2 ^ 14 + 2 ^ 70 * 2 ^ 24)) sl →
    (s.tile 0).wslot (bit (iw 1 0 (2 ^ 14 + 2 ^ 70 * 2 ^ 24)).ops 15) = sl ∧ (s.tile 0).mx.flights = [] ∧
      s.passes 0 .mx 0x41 (iw 1 0 (2 ^ 14 + 2 ^ 70 * 2 ^ 24)) Front.reset [(0, false), (1, false)] := by
  refine ⟨by decide, ?_⟩
  rintro sl s rfl
  refine ⟨?_, ?_, oneMma_passes _ _ _ rfl rfl⟩
  · rw [oneMma_tile]; rfl
  · rw [oneMma_tile, oneInstr_tile]; rfl

theorem wit_MatrixInstructionsComplete_sets : (mxFmtD ({ WSlot.reset with valid := true } : WSlot).fmt.toNat).set = (mxFmtD (iw 1 0 0).md).set ∧
    (mxFmtD ({ WSlot.reset with valid := true, fmt := 5 } : WSlot).fmt.toNat).set ≠ (mxFmtD (iw 1 0 0).md).set := by decide

/-- Each vector instruction at its check point, with an empty destination that its mode tests. -/
theorem wit_VectorInstructionsComplete :
    (vxAluOk (iw 2 0 (2 ^ 94 + 256 * 2 ^ 72 + 64 * 2 ^ 48 + 128 * 2 ^ 24 + 3 * 2 ^ 8)) = true ∧
      vxCvtOk (iw 2 0 (256 * 2 ^ 72 + 64 * 2 ^ 48 + 2 ^ 16 + 10 * 2 ^ 12)) = true ∧
      vxTrOk (iw 2 0 (256 * 2 ^ 72 + 64 * 2 ^ 48)) = true ∧ vxRedOk (iw 2 3 (256 * 2 ^ 72 + 64 * 2 ^ 48)) = true ∧
      vxRngOk (iw 2 3 (256 * 2 ^ 72 + 64 * 2 ^ 48)) = true ∧ vxRedsOk (iw 2 0 (64 * 2 ^ 48 + 255 * 2 ^ 16)) = true ∧
      vxEraccOk (iw 2 0 (256 * 2 ^ 72 + 64 * 2 ^ 48)) = true ∧ vxEraddOk (iw 2 0 (256 * 2 ^ 72 + 64 * 2 ^ 48)) = true ∧
      vxErcvtOk (iw 2 0 (256 * 2 ^ 72 + 64 * 2 ^ 48)) = true ∧ vxDcloseOk (iw 2 0 (7 * 2 ^ 5)) = true) ∧
    (∀ (op : Nat) (w : IWord) (tests : List (Nat × Bool)), w.wait = 24#12 → (tests.all fun x => !x.2) = true →
      (oneInstr .vx op w).passes 0 .vx op w Front.reset tests) ∧
    ∀ c, c = (oneInstr .vx 0x80 (iw 2 0 (2 ^ 94 + 2 ^ 72))).ctxAt 0 .vx 0x80 (iw 2 0 (2 ^ 94 + 2 ^ 72)) Front.reset →
      ((planAlu (iw 2 0 (2 ^ 94 + 2 ^ 72)) c).tests.all fun x => !x.2) = true ∧ c.runs 0x80 (iw 2 0 (2 ^ 94 + 2 ^ 72)) := by
  refine ⟨by decide, fun op w tests h ht => oneInstr_passes .vx op w tests h ht, ?_⟩
  rintro c rfl
  exact ⟨by decide +kernel, rfl, rfl⟩

theorem wit_VectorInstructionsComplete_digest : (State.reset.tile 0).foldWait = [] ∧ State.reset.dig.mirror = false := by decide

theorem wit_LocalMovesComplete :
    (mvCpyOk (iw 3 0 (2 ^ 94 + 256 * 2 ^ 72 + 64 * 2 ^ 48)) = true ∧ mvFillOk (iw 3 7 (2 ^ 94 + 256 * 2 ^ 72)) = true ∧
      mvFsendOk (iw 3 0 (64 * 2 ^ 48 + 5)) = true ∧ mvFsendOk (iw 3 0 (64 * 2 ^ 48 + 2 ^ 24 + 5)) = true ∧
      mvFsendOk (iw 3 0 (64 * 2 ^ 48 + 2 ^ 32 + 5)) = true) ∧
    (∀ (op : Nat) (w : IWord) (tests : List (Nat × Bool)), w.wait = 24#12 → (tests.all fun x => !x.2) = true →
      (oneMove op w).passes 0 .mv op w Front.reset tests) ∧
    ∀ s, s = oneMove 0xC5 (iw 3 0 (64 * 2 ^ 48 + 5)) → ∀ img, img = (s.img (s.tile 0).part.toNat).getD Image.reset →
      ((iw 3 0 (64 * 2 ^ 48 + 5)).s2 % 256 < img.n ∧ (iw 3 0 (64 * 2 ^ 48 + 5)).s2 / 256 < rankCount img.dims) ∧
      img.n ≤ (iw 3 0 (64 * 2 ^ 48 + 2 ^ 24 + 5)).s2 % 256 ∧
      ((iw 3 0 (64 * 2 ^ 48 + 2 ^ 32 + 5)).s2 % 256 < img.n ∧ rankCount img.dims ≤ (iw 3 0 (64 * 2 ^ 48 + 2 ^ 32 + 5)).s2 / 256) := by
  refine ⟨by decide +kernel, fun op w tests h ht => oneMove_passes op w [] tests h ht, ?_⟩
  intro s hs img hi
  rw [hi, hs]
  decide +kernel

/-- Every move has its check point met in a partition with a plain region, an Ember region, a packet landed and the string
cache in the tile, with empty destinations that its mode tests. -/
theorem wit_RemoteMovesIssue :
    (mvSendOk (iw 3 0 (256 * 2 ^ 72 + 64 * 2 ^ 48)) = true ∧ mvFrecvOk (iw 3 0 (2 ^ 94 + 256 * 2 ^ 72 + 5)) = true ∧
      mvFrecvOk (iw 3 2 (2 ^ 94 + 256 * 2 ^ 72 + 5)) = true ∧ mvSldOk (iw 3 0 (2 ^ 94 + 256 * 2 ^ 72 + 65535 * 2 ^ 24)) = true ∧
      mvSstOk (iw 3 0 (64 * 2 ^ 48 + 65535 * 2 ^ 24)) = true ∧ mvEldOk (iw 3 0 (2 ^ 94 + 65536 * 2 ^ 24 + 1023 * 2 ^ 12)) = true ∧
      mvPgathOk (iw 3 1 (2 ^ 94 + 256 * 2 ^ 72 + 7 * 2 ^ 12)) = true ∧ mvPstOk (iw 3 0 (64 * 2 ^ 48)) = true ∧
      mvStrfOk (iw 3 0 (2 ^ 94 + 256 * 2 ^ 72 + 64 * 2 ^ 48)) = true ∧ mvSldOk (iw 3 0 (2 ^ 44 - 2 ^ 24)) = true) ∧
    (∀ (op : Nat) (w : IWord) (tests : List (Nat × Bool)), w.wait = 24#12 → (tests.all fun x => !x.2) = true →
      (oneMove op w).passes 0 .mv op w Front.reset tests) := by
  refine ⟨by decide +kernel, fun op w tests h ht => oneMove_passes op w [] tests h ht⟩

/-- The state of the moves: where the addresses of the words above lie, the packet, and a list word with no set and with one. -/
theorem wit_RemoteMovesIssue_state : ∀ s, s = oneMove 0xC6 (iw 3 0 (2 ^ 94 + 256 * 2 ^ 72 + 5)) →
    (s.tile 0).part = 0 ∧ (s.tile 0).logical = 0 ∧ s.physTile 0 0 = some 0 ∧
    (s.recvPacket 0 5).map (fun x => (x.1, x.2.payload.length)) = some (1, 1) ∧
    ((s.slicePending 0).isSome = false ∧ s.stagingLate 0 ((s.img 0).getD Image.reset) [65535] = false) ∧
    ((((s.img 0).getD Image.reset).regionOf false 65535).isSome = true ∧
      (((s.img 0).getD Image.reset).regionOf true (65536 + 1023)).isSome = true ∧
      (((s.img 0).getD Image.reset).regionOf false (2 ^ 20 - 1)).isNone = true) ∧
    (s.tile 0).unreadable [64] = [] := by
  intro s hs
  rw [hs]
  decide +kernel

theorem wit_RemoteMovesIssue_strings :
    (∀ c, c = (⟨oneMove 0xCB (iw 3 0 (2 ^ 94 + 256 * 2 ^ 72 + 64 * 2 ^ 48)), 0, .mv, { Flight.reset with got := [] }⟩ : Ctx) →
      field (c.word 64 0) 63 0 < 2 ^ 63) ∧
    (∀ c, c = (⟨oneMove 0xCB (iw 3 0 (2 ^ 94 + 256 * 2 ^ 72 + 64 * 2 ^ 48)), 0, .mv,
        { Flight.reset with got := [{ pc := 0, word := 64, data := some (3 * 2 ^ 16 + 2 ^ 63), full := true }] }⟩ : Ctx) →
      2 ^ 63 ≤ field (c.word 64 0) 63 0 ∧ field (c.word 64 0) 63 0 / 65536 % 2 ^ 32 < 4) := by
  constructor
  · intro c hc; rw [hc]; decide +kernel
  · intro c hc; rw [hc]; decide +kernel

/-- The packet of one word, as the instruction in flight sees it. -/
theorem wit_RemoteMovesIssue_packet : ∀ c, c = (⟨oneMove 0xC6 (iw 3 0 (2 ^ 94 + 256 * 2 ^ 72 + 5)), 0, .mv,
    { Flight.reset with op := 0xC6, w := iw 3 0 (2 ^ 94 + 256 * 2 ^ 72 + 5) }⟩ : Ctx) →
    c.runs 0xC6 (iw 3 0 (2 ^ 94 + 256 * 2 ^ 72 + 5)) ∧ (c.recvPkt 5).isSome = true := by
  intro c hc; rw [hc]; exact ⟨⟨rfl, rfl⟩, by decide +kernel⟩

/-- A state with CT.NOP in flight in tile 0, about to issue. -/
def oneFlight : State := (oneInstr .mx 1 (iw 0 0 0)).modStream 0 .mx fun x => { x with flights := [{ Flight.reset with op := 1, w := iw 0 0 0, p := 1 }] }

/-- An access of tile 0 to a word. -/
def oneUse (k : UseKind) (word : Nat) (out : Option Out) : Use :=
  { d := 0, word := word, c := { s := State.reset, t := 0, e := .mv, f := Flight.reset }, kind := k, q := 0, out := out }

theorem wit_InstructionsDoWhatTheyPlan_issue : ∀ s, s = oneFlight → ∀ f, f = { Flight.reset with op := 1, w := iw 0 0 0, p := 1 } →
    ((s.tile 0).stream .mx).flights.find? (fun x => !x.issued && decide (x.p = s.plan.geyser)) = some f ∧
    s.blocker 0 .mx (Plan.nop 1).wants = none ∧ (Plan.nop 1).issueFault = none := by
  intro s hs f hf
  rw [hs, hf]
  refine ⟨by decide +kernel, by rfl, rfl⟩

theorem wit_InstructionsDoWhatTheyPlan_banks : [oneUse .read 5 none, oneUse .read 6 none].Pairwise
      (fun u v => u.d ≠ v.d ∨ u.word % 64 ≠ v.word % 64) ∧
    (∀ u ∈ [oneUse .read 5 none, oneUse .read 6 none],
      State.reset.inWindow (State.reset.tile u.d).part.toNat (u.word % 64) 0 = false ∧ State.reset.bankTaken u.d (u.word % 64) = false) := by
  refine ⟨by decide, ?_⟩
  intro u hu
  simp only [List.mem_cons, List.not_mem_nil, or_false] at hu
  rcases hu with rfl | rfl <;> decide +kernel

theorem wit_InstructionsDoWhatTheyPlan_clash :
    ([oneUse .read 5 none].find? (fun x => x.d = (oneUse .write 69 none).d && x.word % 64 = (oneUse .write 69 none).word % 64)).isSome = true ∧
    (oneUse .read 5 none).same (oneUse .write 69 none) = false ∧ (oneUse .write 69 none).kind = .write := by decide +kernel

theorem wit_InstructionsDoWhatTheyPlan_access : ∀ s, s = State.reset →
    (nsHas 5 (s.tile 0).bad = false ∧ nsHas 5 (s.tile 0).poison = false ∧ nsHas 5 (s.tile 0).correctable = false) ∧
    ((s.tile 0).parityFails = [] ∧ (s.tile 0).foldWait = [] ∧ s.wakeOwner 0 5 = none ∧ s.compOwner 0 5 = none) ∧
    ((s.pch 0).unreadable 7 0 = false ∧ (s.pch 0).ceDie 7 = none) := by
  intro s hs
  rw [hs]
  decide +kernel

/-- A register result, a weight slot and a completion, due in the pc before count 1. -/
theorem wit_InstructionsDoWhatTheyPlan_results : ∀ c : Ctx, c.f = { Flight.reset with issued := true } →
    c.f.at_ 1 = State.reset.plan.geyser + 1 ∧ c.f.at_ 0 ≤ State.reset.plan.geyser ∧ c.f.retry = [] ∧ c.f.issued = true := by
  intro c hc; rw [hc]; decide +kernel

/-- Tile 0 in pc 30 with one fetch slot in its MX stream, in a plan whose image has the slot, and two instructions in the
code word. -/
def oneFetch : State := (({ State.reset with plan := { PlanRegs.reset with geyser := 30 } } : State).modPt 0 fun b => { b with
    stage := { b.stage with image := some { Image.reset with
      k := 6
      streams := [{ StreamCode.reset with ltile := 0, engine := 0, slots := [30] }] } } }).modTile 0 fun t => { t with
  bound := true
  part := 0
  logical := 0
  mem := [(0, 5#8), (15, 4#8), (31, 0x11#8)]
  mx := { t.mx with fetchSlots := 1 }
  vx := { t.vx with running := true, flights := [{ Flight.reset with op := 0x84, w := iw 2 0 (256 * 2 ^ 72), p := 0, pc := 7, issued := true }] } }

theorem wit_FetchAndParityComplete_fetch : ∀ s, s = oneFetch →
    s.running = true ∧ (s.tile 0).bound = true ∧ s.isFetchSlot 0 .mx = true ∧
    (0 < (s.tile 0).mx.fetchSlots ∧ (s.tile 0).mx.fetchStop = false ∧ (s.tile 0).mx.halted = false ∧ (s.tile 0).mx.queue = []) ∧
    (nsHas 0 (s.tile 0).bad = false ∧ nsHas 0 (s.tile 0).poison = false ∧ nsHas 0 (s.tile 0).correctable = false) ∧
    ((s.fetchUse 0 .mx).map fun u => ((s.makeRead u).tile 0).mx.queue.map (·.word)) =
      [[0x04000000000000000000000000000005#128, 0x11000000000000000000000000000000#128]] := by
  intro s hs; rw [hs]; decide +kernel

/-- VX.RNG writes the first of its words in pc 30, and a replay of VX ends. -/
theorem wit_FetchAndParityComplete_parity : ∀ s, s = oneFetch → s.running = true ∧ s.failing 0 1#2 7 ≠ [] ∧
    ∀ f, f = { ParityFail.reset with source := 1, endAt := 5, attempt := 1 } → ∀ s', s' = ({ s with wall := 5 } : State).modTile 0 (fun t => { t with parityFails := [f] }) →
      (s'.tile 0).parityFails = [f] ∧ f.endAt ≤ s'.wall ∧ f.er = false ∧ (s'.tile 0).foldWait = [] ∧ f.attempt + 1 < 3 ∧ 3 ≤ 2 + f.attempt := by
  intro s hs; rw [hs]
  refine ⟨by decide +kernel, by decide +kernel, ?_⟩
  intro f hf s' hs'; rw [hf] at hs' ⊢; rw [hs']
  decide +kernel

/-- Tile 0 ready, at pc 20 in the open window of bank 5, with one word of that bank to be written back and one word read. -/
def oneWindow : State := ({ State.reset with
    top := { TopRegs.reset with fwReady := true }
    plan := { PlanRegs.reset with geyser := 20 } } : State).modTile 0 fun t => { t with
  correctable := [69]
  writeBacks := [69]
  winBuf := some (3, 7) }

theorem wit_TileScrubAndWindowComplete : ∀ s, s = oneWindow →
    (nsHas 69 (s.tile 0).writeBacks = true ∧ s.windowFree 0 (69 % 64) = true) ∧
    ((s.tile 1).state ≠ 0#3 ∧ (s.tile 1).writeBacks = [] ∧ (s.tile 1).winQueue = [] ∧ nsHas 5 (s.tile 1).scrubDone = false ∧
      s.windowFree 1 5 = true) ∧
    (s.ready = true ∧ (s.tile 0).state ≠ 5#3 ∧ (s.tile 0).winQueue = [] ∧ (s.tile 0).winBuf = some (3, 7)) ∧
    (s.tile 2).winActive = none ∧ (s.tile 2).winAt = none ∧ (s.tile 2).bound = false ∧
    (nsHas 0 (s.tile 2).bad = false ∧ nsHas 0 (s.tile 2).poison = false ∧ nsHas 0 (s.tile 2).correctable = false) := by
  intro s hs; rw [hs]
  decide +kernel

/-- A plan that runs, and the oldest window access of its tile. -/
theorem wit_TileScrubAndWindowComplete_runs : ∀ s, s = (oneWindow.modPt 0 fun b => { b with launched := some 0 }).modTile 2 (fun t =>
      { t with bound := true, part := 0, winQueue := [{ WinReq.reset with bytes := [0, 0, 0, 0] }] }) →
    (s.tile 2).winQueue = [{ WinReq.reset with bytes := [0, 0, 0, 0] }] ∧ (s.tile 2).bound = true ∧ (s.pt 0).launched.isSome = true ∧
    s.running = true ∧ s.bankPlanned 2 0 44 44 = false := by
  intro s hs; rw [hs]
  decide +kernel

/-- Tile 0 with three watches: unfired, delivered and expired, and an ER event delivered. -/
def oneWatch : State := ((({ State.reset with plan := { PlanRegs.reset with geyser := 9 } } : State).modTs 0 fun y => { y with
    watches := [{ Watch.reset with wake := 1, watched := 4, regAt := 8, expireAt := 9, wantFull := true }, { Watch.reset with wake := 2, fired := some 0 },
      { Watch.reset with wake := 65535, expireAt := 9, wantFull := true }]
    erDelivery := [(0, 0, false)] }).modTile 0 fun x => { x with full := [4] }).modPt 0 fun b => { b with
  stage := { b.stage with image := some { Image.reset with erFlagWord := some 7 } } }

theorem wit_WatchesFireWakeAndExpire : ∀ s, s = oneWatch →
    ((s.wakeOwner 0 1).map fun w => (w.fired, w.regAt, w.expireAt, w.watched, w.wantFull)) = some (none, 8, 9, 4, true) ∧
    ((s.wakeOwner 0 2).map (·.fired)) = some (some 0) ∧
    ((s.wakeOwner 0 65535).map fun w => (w.fired, w.expireAt, w.watched, w.wantFull)) = some (none, 9, 0, true) ∧ s.plan.geyser = 9 ∧
    nsHas 4 (s.tile 0).full = true ∧ nsHas 0 (s.tile 0).full = false ∧ (s.ts 0).erDelivery = [(0, 0, false)] ∧
    ((s.img (s.tile 0).part.toNat).bind (·.erFlagWord)) = some 7 := by
  intro s hs; rw [hs]
  decide +kernel

/-- Partition 0 with a tile barrier in delivery, a job barrier of two ranks, and the packets of the latter delivered. -/
def oneBarrier : State := (({ State.reset with fab := { FabricRegs.reset with
    delivered := [{ Packet.reset with cls := 1, type := 0, src := 0x400, payload := [lineOfBytes [1, 0, 0]] },
      { Packet.reset with cls := 1, type := 1, src := 0x400, payload := [lineOfBytes [2, 0, 0]] }] } } : State).modPt 0 fun b => { b with
  stage := { b.stage with
    tiles := [3]
    ranks := [0, 0x400]
    image := some { Image.reset with barriers := [{ BarDecl.reset with scope := 1, compWord := 5, tiles := [0] },
      { BarDecl.reset with scope := 2, ranks := [0, 1], tiles := [0] }, { BarDecl.reset with scope := 2, ranks := [0, 1], tiles := [0, 1] }] } } }).modSy 0 fun k => { k with
  barriers := vset (vset (vset k.barriers 0 { Barrier.reset with delivering := some 0 }) 2 { Barrier.reset with sentUp := true, isOpen := true, arrived := [0] })
    1 { Barrier.reset with isOpen := true, arrived := [0] } }

theorem wit_BarriersCompleteAndExpire : ∀ s, s = oneBarrier →
    ((s.barDecl 0 0).map (·.compWord) = some 5 ∧ (s.bar 0 0).delivering = some 0) ∧
    (∀ k, k = { Packet.reset with cls := 1, type := 0, src := 0x400, payload := [lineOfBytes [1, 0, 0]] } →
      (s.deliveredOf fun k => k.clsN = 1 && k.type = 0#4) = some k ∧ barFields k = (0, 1, 0) ∧
      (s.consume k).rankOfChip 0 k.src = some 1 ∧ (s.bar 0 1).round = 0 ∧ (s.bar 0 1).delivering = none ∧ (s.bar 0 1).sentUp = false ∧
      (s.bar 0 1).arrived = [0]) ∧
    ((s.bar 0 2).sentUp = true ∧ (s.bar 0 2).delivering = none) ∧
    ((s.bar 0 2).arrived ≠ [] ∧ (s.bar 0 2).expireAt ≤ s.plan.geyser ∧
      ((s.barDecl 0 2).bind (s.missing 0 2)) = some (1, false, false)) := by
  intro s hs; rw [hs]
  refine ⟨by decide +kernel, ?_, by decide +kernel, by decide +kernel⟩
  intro k hk; rw [hk]
  decide +kernel

theorem wit_HoldsComplete :
    (unitOk 1 (oneUnit 1) = true ∧ oneJob.takesSymbol 1 (oneUnit 1) = true ∧ (oneJob.symbolDue 1 (oneUnit 1)).2 = 0) ∧
    (unitOk 1 (inlineUnit 1 false false 5 3 7 999) = true ∧ (oneJob.symbolDue 1 (inlineUnit 1 false false 5 3 7 999)).2 ≠ 0) ∧
    (unitOk 2 (oneUnit 2) = true ∧ oneJob.takesSymbol 1 (oneUnit 2) = true) ∧
    (∀ e, e = { Episode.reset with origin := 0xC00, num := 7 } → ∀ s, s = { oneJob with plan := { oneJob.plan with episodes := [e] } } →
      s.plan.episodes.find? (fun e => e.origin = 0xC00#24 && e.num = 7#8 && !e.counted) = some e ∧ e.applyAt ≤ s.wall) ∧
    (∀ e, e = { Episode.reset with origin := 0xC00, num := 7, counted := true, released := true } →
      ∀ s, s = { oneJob with plan := { oneJob.plan with episodes := [e] } } →
      s.plan.episodes.find? (fun e => e.origin = 0xC00#24 && e.num = 7#8 && e.counted && e.released) = some e) ∧
    ({ oneJob with plan := { oneJob.plan with episodes := [Episode.reset] } }.ownEpisode = some Episode.reset) ∧
    (oneJob.alive = true ∧ oneJob.depth = 0 ∧ oneJob.paused = false ∧ oneJob.windowBusy = none ∧ oneJob.refreshBusy = none) := by
  refine ⟨by decide +kernel, by decide +kernel, by decide +kernel, ?_, ?_, by decide +kernel, by decide +kernel⟩
  · rintro e rfl s rfl; decide +kernel
  · rintro e rfl s rfl; decide +kernel

theorem wit_HoldLimitAndThermalComplete :
    (∀ e, e = { Episode.reset with origin := 0xC00, num := 7, counted := true } →
      ∀ s, s = { State.reset with wall := 10 ^ 6 * tuUs, plan := { PlanRegs.reset with episodes := [e] } } →
      s.plan.episodes.find? (fun e => e.origin = 0xC00#24 && e.num = 7#8 && s.limitReached e) = some e ∧ e.origin ≠ s.selfOrigin) ∧
    (∀ e, e = { Episode.reset with origin := State.reset.selfOrigin, cause := 3 } →
      ∀ s, s = { State.reset with wall := 2 ^ 20 * tuUs, plan := { PlanRegs.reset with holdLimit := 3, episodes := [e] } } → s.limitReached e = true) ∧
    (∀ s, s = { State.reset with top := { TopRegs.reset with fwReady := true } } → s.ready = true ∧ s.plan.episodes = [] ∧ s.alive = true ∧
      s.plan.throttleEvalAt ≤ s.plan.geyser ∧ s.launchedParts = []) ∧
    (∀ s, s = State.reset.modPt 15 (fun b => { b with launched := some 0 }) → s.alive = true ∧ s.launchedParts ≠ []) ∧
    { State.reset with plan := { PlanRegs.reset with thermalEnd := some 0 } }.plan.thermalEnd = some 0 := by
  refine ⟨?_, ?_, ?_, ?_, rfl⟩
  · rintro e rfl s rfl; decide +kernel
  · rintro e rfl s rfl; decide +kernel
  · rintro s rfl; decide +kernel
  · rintro s rfl; decide +kernel

theorem wit_LaunchCommandsComplete :
    ((onePlan false 2 24).launchedParts = [] ∧ (onePlan false 2 24).plan.state = 2#3 ∧ (onePlan false 2 24).fab.jobValid = true ∧
      (onePlan false 2 24).map.upRoot = true ∧ (onePlan false 2 24).ready = true) ∧
    (onePlan false 2 23).plan.launchAt.toNat < (onePlan false 2 23).plan.geyser + 24 ∧
    ((onePlan false 2 24).plan.geyser + 24 ≤ (onePlan false 2 24).plan.launchAt.toNat ∧ (onePlan false 2 24).mirrorLaunch = false) ∧
    (onePlan true 2 24).mirrorLaunch = true ∧
    (oneJob.mayAlign = true ∧ (oneJob.link 1).calHold = 0 ∧
      oneJob.takesValue 3 1 (oneHead 3) ((payloadUnits 80).getD 0 0) ((payloadUnits 80).getD 1 0) = true ∧
      oneJob.takesValue 4 1 (oneHead 4) ((payloadUnits 80).getD 0 0) ((payloadUnits 80).getD 1 0) = true) ∧
    (∀ s, s = oneJob.modLink 1 (fun l => { l with calHold := 3 }) → (s.link 1).calHold ≠ 0 ∧ s.mayAlign = true ∧
      s.takesValue 3 1 (oneHead 3) ((payloadUnits 80).getD 0 0) ((payloadUnits 80).getD 1 0) = true) ∧
    (∀ s, s = { onePlan false 3 0 with plan := { (onePlan false 3 0).plan with armed := some 0, launchBarrier := some 0 } } →
      s.plan.armed = some 0 ∧ s.plan.geyser = 0 ∧ s.mirrorLaunch = false) ∧
    (∀ s, s = { onePlan true 3 0 with plan := { (onePlan true 3 0).plan with armed := some 0, launchBarrier := some 0 } } →
      s.plan.launchBarrier = some 0 ∧ s.plan.armed = some 0 ∧ s.plan.geyser = 0 ∧ s.mirrorLaunch = true) := by
  refine ⟨by decide +kernel, by decide +kernel, by decide +kernel, by decide +kernel, by decide +kernel, ?_, ?_, ?_⟩ <;>
  · rintro s rfl; decide +kernel

theorem wit_FrequencyStepsComplete :
    (∀ s, s = { onePlan false 0 0 with clk := { ClkRegs.reset with stepAt := 5 } } → s.ready = true ∧ s.clk.armed = none ∧
      s.clk.switching = none ∧ s.commonTick s.clk.stepAt.toNat = true ∧ s.plan.geyser ≤ s.clk.stepAt.toNat) ∧
    (∀ s, s = { onePlan false 0 0 with plan := { PlanRegs.reset with geyser := 1 } } → s.ready = true ∧ s.clk.armed = none ∧
      s.clk.switching = none ∧ s.commonTick s.clk.stepAt.toNat = true ∧ s.clk.stepAt.toNat < s.plan.geyser) ∧
    (∀ s, s = ({ onePlan false 0 0 with clk := { ClkRegs.reset with stepAt := 5 } } : State).modPt 0 (fun b => { b with launched := some 7 }) →
      s.ready = true ∧ s.clk.armed = none ∧ s.clk.switching = none ∧ s.commonTick s.clk.stepAt.toNat = false) ∧
    (∀ s, s = { State.reset with clk := { ClkRegs.reset with armed := some (0, ClkRegs.reset.stepCur) } } →
      s.plan.geyser = 0 ∧ s.recordLeft 0 = false ∧ s.curtainLeft 0 = false ∧ s.paused = false ∧ s.clk.stepCur.toNat ≤ s.stepMax) ∧
    (∀ s, s = { State.reset with clk := { ClkRegs.reset with armed := some (0, ClkRegs.reset.stepCur + 1) } } →
      s.recordLeft 0 = false ∧ s.curtainLeft 0 = false ∧ s.paused = false ∧ (ClkRegs.reset.stepCur + 1).toNat ≤ s.stepMax ∧
      ClkRegs.reset.stepCur + 1 ≠ s.clk.stepCur) ∧
    (∀ s, s = ({ State.reset with clk := { ClkRegs.reset with armed := some (0, 3) } } : State).modPt 0 (fun b =>
        { b with launched := some 0, stage := { b.stage with image := some { Image.reset with fMax := 2 } } }) →
      s.recordLeft 0 = false ∧ s.curtainLeft 0 = false ∧ s.paused = false ∧ s.stepMax < (3 : BitVec 3).toNat) := by
  refine ⟨?_, ?_, ?_, ?_, ?_, ?_⟩ <;>
  · rintro s rfl; decide +kernel

theorem wit_SnapshotsAndFaultLogComplete :
    (State.reset.alive = true ∧ State.reset.snap.lastAt ≠ some (State.reset.wall, true) ∧ State.reset.snap.armed = none ∧
      State.reset.plan.geyser ≤ State.reset.snap.armAt.toNat ∧ State.reset.commonTick State.reset.snap.armAt.toNat = true ∧
      State.reset.top.log = []) ∧
    (∀ s, s = { State.reset with snap := { SnapRegs.reset with lastAt := some (0, true), armed := some 0 } } →
      s.alive = true ∧ s.snap.lastAt = some (s.wall, true) ∧ s.snap.armed = some s.plan.geyser ∧ s.snap.lastAt ≠ some (s.wall, false)) ∧
    (∀ s, s = { State.reset with plan := { PlanRegs.reset with geyser := 1 } } → s.snap.armAt.toNat < s.plan.geyser) ∧
    { State.reset with top := { TopRegs.reset with log := [FaultRec.reset] } }.top.log = [FaultRec.reset] := by
  refine ⟨by decide +kernel, ?_, ?_, rfl⟩ <;>
  · rintro s rfl; decide +kernel

theorem wit_BudgetCommandsComplete :
    (readyState.ready = true ∧ (readyState.bd readyState.bud.psel.toNat).opArmed = none) ∧
    (∀ s, s = readyState.modBd 0 (fun b => { b with opArmed := some BudOp.reset }) →
      s.ready = true ∧ (s.bd s.bud.psel.toNat).opArmed ≠ none) := by
  refine ⟨by decide +kernel, ?_⟩
  rintro s rfl; decide +kernel

/-- Unit 0 with a run in progress, of CFG `c`. -/
def crcBusy (c : Nat) : State := (readyState.modFn 0 fun x => { x with bme := true }).modCrc 0 fun x => { x with
    run := some { x.cur with cfg := BitVec.ofNat 8 c } }

theorem wit_CheckValueUnitsComplete :
    (readyState.ready = true ∧ (readyState.crc 0).run = none ∧ (readyState.crc 0).cur.check = false) ∧
    (crcBusy 0).ready = true ∧ ((crcBusy 0).crc 0).run ≠ none ∧ ((crcBusy 0).fn 0).bme = true ∧
    ((((crcBusy 0).crc 0).run.map (·.len.toNat)) = some 0) ∧ ((((crcBusy 0).crc 0).run.map (·.check)) = some false) ∧
    ((((crcBusy 4).crc 0).run.map (·.check)) = some true) ∧
    (∀ s, s = readyState.modCrc 0 (fun x => { x with cur := { x.cur with cfg := 4, len := 64, block := 64 } }) →
      (s.crc 0).run = none ∧ (s.crc 0).cur.check = true ∧ (s.crc 0).cur.startable = true) ∧
    (∀ s, s = readyState.modCrc 0 (fun x => { x with cur := { x.cur with cfg := 4, len := 64, block := 15 } }) →
      (s.crc 0).cur.check = true ∧ (s.crc 0).cur.startable = false) := by
  refine ⟨by decide +kernel, by decide +kernel, by decide +kernel, by decide +kernel, by decide +kernel, by decide +kernel,
    by decide +kernel, ?_, ?_⟩ <;>
  · rintro s rfl; decide +kernel

theorem wit_TimeDomainCommandsComplete :
    (readyState.ready = true ∧ readyState.alive = true ∧ (readyState.time.dom true).adjLeft = 0 ∧ readyState.time.refLost = false) ∧
    (∀ s, s = { readyState with time := { TimeRegs.reset with
        a := { Domain.reset with wrNs := 7 }
        adjNs := 8
        adjFrac := 0x80000000
        adjTicks := 1
        ppsDue := true
        ppsOutEn := true
        ppsEnd := some 0 } } → s.ready = true ∧ s.time.ppsDue = true ∧ s.time.ppsOutEn = true ∧ s.time.ppsEnd = some 0 ∧
      (15 * 2 ^ 31 ≤ (s.time.dom false).wrNs.toNat * 2 ^ 32 + (0x80000000#32).toNat) ∧
      ¬(15 * 2 ^ 31 ≤ (s.time.dom false).wrNs.toNat * 2 ^ 32 + (0x7FFFFFFF#32).toNat) ∧
      s.time.adjNs.toNat * 2 ^ 32 + s.time.adjFrac.toNat ≤ 17 * 2 ^ 31 ∧ s.time.adjTicks ≠ 0) ∧
    TimeRegs.reset.adjTicks = 0 := by
  refine ⟨by decide +kernel, ?_, by decide +kernel⟩
  rintro s rfl; decide +kernel

/-- The state with trigger 2 armed for `action`, and due. -/
def trigState (action : Nat) : State := readyState.modTrig 2 fun t => { t with armed := some { TrigArm.reset with action := BitVec.ofNat 2 action } }

theorem trigState_due (x : Nat) : (trigState x).alive = true ∧ (trigState x).ready = true ∧ ((trigState x).trig 2).armed =
    some { TrigArm.reset with action := BitVec.ofNat 2 x } ∧ (∀ i < 2, ((trigState x).trig i).armed = none) := by
  refine ⟨rfl, rfl, rfl, ?_⟩
  intro i hi
  rcases (by omega : i = 0 ∨ i = 1) with rfl | rfl <;> rfl

theorem wit_TriggersComplete :
    (readyState.ready = true ∧ bit 8#32 3 = true ∧ bit 0#32 3 = false) ∧
    ((readyState.modTrig 0 fun t => { t with action := 0#2 }).trig 0).armed = none ∧
    (∀ x, x < 4 → (trigState x).alive = true ∧ (trigState x).ready = true ∧ ((trigState x).trig 2).armed =
      some { TrigArm.reset with action := BitVec.ofNat 2 x } ∧ (∀ i < 2, ((trigState x).trig i).armed = none)) ∧
    TrigArm.reset.notBefore ≤ readyState.wall ∧ (TrigArm.reset.time.toNat ≤ (readyState.time.dom TrigArm.reset.dom).ns.toNat) ∧
    { readyState with time := { TimeRegs.reset with log := [TimeEvent.reset] } }.time.log = [TimeEvent.reset] :=
  ⟨by decide +kernel, by decide +kernel, fun x _ => trigState_due x, by decide +kernel, by decide +kernel, rfl⟩

/-- A restartable plan of unit 1 frame, launched at 0 on partition 0, the count at `c`, a checkpoint armed for count 16384 or not. -/
def ckptState (c ckptAt : Nat) : State :=
  ({ readyState with
    plan := { readyState.plan with geyser := c }
    dig := { readyState.dig with ckptAt := BitVec.ofNat 64 ckptAt } } : State).modPt 0 fun b =>
    { b with state := 1, launched := some 0, stage := { b.stage with mapped := true, image := some { Image.reset with restartable := true, unitFrames := 1, k := 12 } } }

theorem wit_CheckpointsComplete :
    (∀ s, s = ckptState 0 8192 → s.ready = true ∧ s.dig.ckptArmed = none ∧
      (!s.restartParts.isEmpty && s.restartParts.all fun p => s.isUnitTick p s.dig.ckptAt.toNat) = true ∧ s.plan.geyser ≤ s.dig.ckptAt.toNat) ∧
    (∀ s, s = ckptState 8193 8192 →
      (!s.restartParts.isEmpty && s.restartParts.all fun p => s.isUnitTick p s.dig.ckptAt.toNat) = true ∧ s.dig.ckptAt.toNat < s.plan.geyser) ∧
    (∀ s, s = readyState →
      (!s.restartParts.isEmpty && s.restartParts.all fun p => s.isUnitTick p s.dig.ckptAt.toNat) = false) ∧
    (∀ s, s = { readyState with dig := { readyState.dig with ckptArmed := some (0, 10, false) } } → s.alive = true ∧
      s.dig.ckptArmed = some (s.plan.geyser, 10, false) ∧ s.dig.ckptPausing = none) ∧
    (∀ s, s = { readyState with dig := { readyState.dig with
        ckptPausing := some (0, false)
        ckptWriting := some CkptGen.reset
        buddyAcked := true } } → s.dig.ckptPausing = some (0, false) ∧ s.dig.ckptWriting = some CkptGen.reset ∧
      (s.dig.buddyAcked && !s.dig.ckptAbort && !s.faultHeld) = true) ∧
    readyState.dig.buddyAcked = false := by
  refine ⟨?_, ?_, ?_, ?_, ?_, rfl⟩ <;>
  · rintro s rfl; decide +kernel

/-- A delivered H packet of a TYPE: its head unit, of a kind, a tag and a whole length, and one more unit. -/
def hPkt (type kind tag total : Nat) : Packet := { Packet.reset with
  cls := 3
  type := BitVec.ofNat 4 type
  payload := [lineOfBytes (bytesOf 1 kind ++ bytesOf 1 0 ++ bytesOf 2 (min 1 total) ++ bytesOf 4 0 ++ bytesOf 8 tag ++ bytesOf 4 total), 7] }

/-- A packet delivered to the endpoints, in phase 4 of a rollback to generation 5. -/
def delivered (p : Packet) : State := { readyState with
  fab := { readyState.fab with delivered := [p] }
  dig := { readyState.dig with recPhase := 4, restoreGen := 5 } }

/-- Partition 0 leads a serving plan whose Ash log holds unit 5 alone. -/
def gapState : State := ({ readyState with dig := { readyState.dig with ash := [{ AshEntry.reset with stepNo := 5, confirmed := true }] } } : State).modPt 0
  fun b => { movePart b with stage := { (movePart b).stage with rankValid := true } }

theorem wit_BuddyPacketsComplete :
    (readGen [7]).steps = [] ∧ (readGen (CkptGen.units { CkptGen.reset with steps := [(0, 0)] })).steps = [(0, 0)] ∧
    (gapState.resumePart 0 0).isNone = true ∧
    (∀ p, p ∈ [hPkt 0 3 5 1, hPkt 0 1 5 1, hPkt 0 1 5 2] → (delivered p).hPacket 0 (· ≠ 2) = some p) ∧
    ((buddyHead ((hPkt 0 3 5 1).payload.headD 0)).1 = 3 ∧ (buddyHead ((hPkt 0 1 5 1).payload.headD 0)).1 ≠ 3) ∧
    (((addUnits [] (buddyHead ((hPkt 0 1 5 1).payload.headD 0)) [7]).any (·.whole)) = true ∧
      ((addUnits [] (buddyHead ((hPkt 0 1 5 2).payload.headD 0)) [7]).any (·.whole)) = false) ∧
    ((delivered (hPkt 1 1 5 1)).hPacket 1 (fun _ => true) = some (hPkt 1 1 5 1) ∧ (buddyHead ((hPkt 1 1 5 1).payload.headD 0)).1 = 1 ∧
      (delivered (hPkt 1 0 0 1)).hPacket 1 (fun _ => true) = some (hPkt 1 0 0 1) ∧ (buddyHead ((hPkt 1 0 0 1).payload.headD 0)).1 ≠ 1) ∧
    ((delivered (hPkt 2 1 5 1)).hPacket 2 (fun _ => true) = some (hPkt 2 1 5 1) ∧ (delivered (hPkt 2 1 5 1)).dig.recPhase = 4 ∧
      ((addUnits [] (buddyHead ((hPkt 2 1 5 1).payload.headD 0)) [7]).map fun y => (y.kind, y.tag, y.whole, y.units.isEmpty)) = [(1, 5, true, false)] ∧
      ((addUnits [] (buddyHead ((hPkt 2 1 5 0).payload.headD 0)) [7]).map fun y => (y.kind, y.tag, y.whole, y.units.isEmpty)) = [(1, 5, true, true)] ∧
      ((addUnits [] (buddyHead ((hPkt 2 1 5 2).payload.headD 0)) [7]).map fun y => y.whole) = [false]) ∧
    (delivered (hPkt 3 0 0 0)).hPacket 3 (fun _ => true) = some (hPkt 3 0 0 0) := by
  refine ⟨by decide +kernel, by decide +kernel, by decide +kernel, ?_, by decide +kernel, by decide +kernel, by decide +kernel,
    by decide +kernel, by decide +kernel⟩
  intro p hp; simp only [List.mem_cons, List.not_mem_nil, or_false] at hp
  rcases hp with rfl | rfl | rfl <;> decide +kernel

/-- A held partition 0 with a launched plan, restartable or not, that met the words given. -/
def heldPlan (restart : Bool) (words : List (Nat × Nat)) : State :=
  ({ readyState with
    plan := { readyState.plan with
      episodes := [{ Episode.reset with counted := true }]
      localCauses := words.map fun w => { code := 0xE, src := .memErr 0 w.1 w.2, atStop := false } }
    dig := { readyState.dig with cfgAuto := true } } : State).modPt 0 fun b => { b with
      state := 1
      launched := some 0
      relaunchAt := some 0
      stage := { b.stage with
        mapped := true
        image := some { Image.reset with
          restartable := restart
          unitFrames := 1
          k := 12 } } }

theorem wit_RecoveryCommandsComplete :
    (∀ s, s = heldPlan true [(256, 0)] → s.alive = true ∧ 0 < s.depth ∧ (s.pt 0).state = 1#3 ∧ (s.pt 0).launched ≠ none ∧
      (s.pt 0).faultStop = false ∧ s.dig.cfgAuto = true ∧ s.dig.recState ≠ 3#3 ∧ ((s.img 0).map (s.recoveryNeeded 0)) = some .replay ∧
      s.attempts 0 < 2 ∧ (s.pt 0).relaunchAt = some s.plan.geyser) ∧
    (∀ s, s = heldPlan true [(0, 0)] → ((s.img 0).map (s.recoveryNeeded 0)) = some .rollback) ∧
    (heldPlan false [(0, 0)]).poisonMet 0 ≠ [] ∧
    (∀ s, s = (heldPlan true [(0, 0)]).modPt 0 (fun b => { b with stage := { b.stage with
        chans := [0]
        image := b.stage.image.map fun i => { i with
          kp := 1
          planWords := 8
          regions := [{ Region.reset with
            words := 8
            kind := 0 }] } } }) → ((s.img 0).map (s.recoveryNeeded 0)) = some .reload) ∧
    (∀ s, s = { heldPlan true [] with dig := { (heldPlan true []).dig with recPart := 0, recAttempt := 2, recUnit := (heldPlan true []).unitNo 0 } } →
      2 ≤ s.attempts 0) ∧
    (∀ s, s = { heldPlan true [] with dig := { (heldPlan true []).dig with roNeeded := true, recState := 2 } } → s.ready = true ∧
      s.dig.recPhase ≠ 1 ∧ s.dig.roNeeded = true ∧ s.dig.recState = 2#3 ∧ s.img s.dig.recPart.toNat ≠ none) ∧
    (∀ s, s = { readyState with dig := { readyState.dig with roNeeded := true, recPhase := 3 } } → s.dig.recPhase = 3 ∧ s.dig.recPhase ≠ 1 ∧
      s.dig.recState ≠ 2#3) ∧
    (∀ s, s = { heldPlan true [] with dig := { (heldPlan true []).dig with recState := 3 } } → s.dig.recState = 3#3 ∧ s.dig.recPhase = 0 ∧
      s.dig.ckptPausing = none) ∧
    (∀ s, s = { readyState with dig := { readyState.dig with recPhase := 4 } } → s.dig.recPhase = 4 ∧ (∀ p < 16, (s.pt p).rebound = none) ∧
      (s.pt s.dig.recPart.toNat).stage.rankMoved = false) ∧
    (0xC00#24 &&& 0xFFFC00#24 = 0xC00#24 ∧ 0xC00#24 ∉ readyState.map.declared) ∧ (∀ p < 16, (readyState.pt p).stage.ranks = []) ∧
    (∀ s, s = (heldPlan true []).modPt 0 (fun b => { b with stage := { b.stage with ranks := [0, 0x1800] } }) → s.alive = true ∧ s.dig.cfgAuto = true ∧
      0x1800#24 ∉ s.map.declared ∧ s.launchedParts = [0] ∧ s.dig.recPhase = 0 ∧ s.restartParts ≠ []) := by
  refine ⟨?_, ?_, by decide +kernel, ?_, ?_, ?_, ?_, ?_, ?_, by decide +kernel, by decide +kernel, ?_⟩ <;>
  · rintro s rfl; decide +kernel

/-- Partition 0 runs a plan of 4,096 pc frames from count 0; port 1 is ACTIVE with the cell code given in cell 0, changed by `f`. -/
def cellState (code : Nat) (f : LinkFab → LinkFab) : State :=
  (({ oneJob with
    top := { oneJob.top with fwReady := true }
    fab := { oneJob.fab with cellBytes := 80 } } : State).modLink 1 fun l => { l with fab := f { l.fab with
      cells := [BitVec.ofNat 4 code]
      lastCell := 1 } }).modPt 0 fun b => { b with
    state := 1
    launched := some 0
    stage := { b.stage with
      mapped := true
      cells := vset b.stage.cells 1 [1]
      image := some { Image.reset with k := 12 } } }

/-- The packet queued for the slots, or as a relayed packet. -/
def queuedP (relay : Bool) (units : Nat) : PQueued := { PQueued.reset with pkt := { pPkt with payload := List.replicate units 7 }, relay := relay }

theorem wit_FabricTransmissionComplete :
    (∀ s, s = cellState 1 id → s.cellNow = some (0, 0, 64) ∧ s.running = true ∧ (s.link 1).state = 5#3 ∧ s.plan.geyser = 0 ∧
      (s.link 1).fab.code 0 = 1 ∧ (s.link 1).fab.lastCell ≠ 0 ∧ (s.link 1).fab.pQueue = []) ∧
    (∀ s, s = cellState 1 (fun f => { f with pQueue := [queuedP false 2] }) →
      (some (queuedP false 2).part = s.cellOwner 1 0) ∧ s.runBytes (1 + (s.link 1).fab.runLen 2 64 1) < (queuedP false 2).pkt.wire ∧
      (queuedP false 1).pkt.wire > 80 ∧ (queuedP false 0).pkt.wire ≤ s.runBytes 1 ∧ (s.link 1).resendFrom = none ∧
      (s.link 1).roomFor (queuedP false 0).pkt = true) ∧
    (∀ s, s = cellState 3 (fun f => { f with pQueue := [queuedP true 0] }) → s.fwdRun 1 = some 1 ∧ s.relayHead 1 = some (queuedP true 0) ∧
      (s.link 1).resendFrom = none ∧ (s.link 1).fab.busyUntil - s.wall + wireTime (queuedP true 0).pkt.wire ≤ wireTime (s.runBytes 1) ∧
      (s.link 1).roomFor (queuedP true 0).pkt = true) ∧
    (∀ o, o = { OQueued.reset with pkt := { pPkt with cls := 1 }, inBuf := true } → ∀ s, s = cellState 0 (fun f => { f with openQ := [o] }) →
      s.portFree 1 = true ∧ s.plannedFirst 1 = false ∧
      ((s.classOrder 1).1.findSome? fun c => (s.openHead 1 c).map fun o => (c, o)) = some (1, o) ∧ s.openLeft 1 = none ∧
      (s.link 1).roomFor o.pkt = true) := by
  refine ⟨?_, ?_, ?_, ?_⟩
  · rintro s rfl; decide +kernel
  · rintro s rfl; decide +kernel
  · rintro s rfl; decide +kernel
  · rintro o rfl s rfl; decide +kernel

/-- Port 1 of job 5 with accepted packets, a P area of `area` bytes and the rank entry given for rank 0. -/
def portState (ps : List Packet) (area : Nat) (e : Nat) : State := oneJob.modLink 1 fun l => { l with
  sinceFlow := 256
  fab := { l.fab with
    accepted := ps
    pArea := area
    rankTable := [(0, BitVec.ofNat 32 e)] } }

/-- A packet of job 5. -/
def jobPkt (cls type : Nat) : Packet := { pPkt with
  cls := BitVec.ofNat 2 cls
  type := BitVec.ofNat 4 type
  job := 5 }

theorem wit_FabricReceptionComplete :
    (∀ s, s = portState [jobPkt 0 15] 4096 0xD0000000 → ((s.link 1).fab.accepted.find? fun p => p.clsN = 0) = some (jobPkt 0 15) ∧
      (jobPkt 0 15).typeOk = false) ∧
    ((jobPkt 0 0).typeOk = true ∧ (oneJob.foreign 1 (jobPkt 0 0) = false) ∧ oneJob.foreign 1 { jobPkt 0 0 with job := 6 } = true) ∧
    (∀ s, s = portState [] 4096 0x80080000 → s.poolUsed 1 0 + (jobPkt 0 0).stored ≤ (s.link 1).fab.pArea ∧
      rkValid (s.rankEntry 1 0) = true ∧ bit (s.rankEntry 1 0) 19 = true ∧ s.recvDir = []) ∧
    (∀ s, s = portState [] 4096 0 → rkValid (s.rankEntry 1 0) = false) ∧
    (∀ s, s = portState [] 4096 0x80048000 → rkValid (s.rankEntry 1 0) = true ∧ bit (s.rankEntry 1 0) 19 = false ∧ bit (s.rankEntry 1 0) 18 = true ∧
      s.map.chipState ≠ 2#2 ∧ (s.link (field (s.rankEntry 1 0) 17 14)).fab.role ≠ 3#2) ∧
    (∀ s, s = portState [] 4096 0x80000000 → rkValid (s.rankEntry 1 0) = true ∧ bit (s.rankEntry 1 0) 19 = false ∧ bit (s.rankEntry 1 0) 18 = false) ∧
    (∀ s, s = portState [] 0 0 → s.route { jobPkt 2 0 with dest := 0 } 1 = .deliver ∧ s.route (jobPkt 1 1) 1 = .invalid ∧
      s.route { jobPkt 2 0 with dest := 0x400, job := 0 } 1 = .port 4 ∧ s.map.chipState ≠ 2#2 ∧ (s.link 4).fab.role ≠ 3#2) ∧
    (∀ s, s = { portState [] 0 0 with fab := { (portState [] 0 0).fab with exceptions := [(0, 0x2FFFC001#32)] }, map := { (portState [] 0 0).map with chipState := 2 } } →
      s.route { jobPkt 2 0 with dest := 0x400 } 1 = .port 2 ∧ s.map.chipState = 2#2) ∧
    (∀ s, s = portState [] 79 0 → (s.link 1).fab.pArea < s.poolUsed 1 0 + (jobPkt 0 0).stored) ∧
    (∀ s, s = portState [jobPkt 1 1] 0 0 → ((s.link 1).fab.accepted.find? fun p => p.clsN ≠ 0) = some (jobPkt 1 1) ∧
      (jobPkt 1 1).typeOk = true ∧ (s.link 1).state = 5#3 ∧ 256 ≤ (s.link 1).sinceFlow) ∧
    readyState.ready = true ∧ (0xC0000000#32).toNat / 2 ^ 28 = 12 ∧ (0xB0000000#32).toNat / 2 ^ 28 = 11 ∧ (0xE0000000#32).toNat / 2 ^ 28 = 14 := by
  refine ⟨?_, by decide +kernel, ?_, ?_, ?_, ?_, ?_, ?_, ?_, ?_, by decide +kernel, by decide, by decide, by decide⟩ <;>
  · rintro s rfl; decide +kernel

/-- A Vent packet: message 7, fragment and number of fragments, and `len` bytes of it, from chip 0xC00, under epoch 0. -/
def ventPkt (frag nfrag : Nat) : Packet := { Packet.reset with
  cls := 2
  payload := linesOfBytes (padWord (bytesOf 4 7 ++ bytesOf 1 frag ++ bytesOf 1 nfrag ++ bytesOf 2 1 ++ bytesOf 3 0xC00 ++ bytesOf 53 0 ++ [9])) }

/-- A chip with that packet delivered. -/
def ventState (p : Packet) : State := { readyState with fab := { readyState.fab with delivered := [p] } }

theorem wit_VentMessagesComplete :
    ((ventState (ventPkt 0 1)).deliveredOf (fun k => k.clsN = 2 && k.type = 0#4 && natAt k.bytes 5 1 ≠ 0) = some (ventPkt 0 1) ∧
      natAt (ventPkt 0 1).bytes 5 1 = 1) ∧
    ((ventState (ventPkt 0 0)).deliveredOf (fun k => k.clsN = 2 && k.type = 0#4 && natAt k.bytes 5 1 = 0 && natAt k.bytes 0 4 = (7#32).toNat) =
      some (ventPkt 0 0)) ∧
    (∀ m, m ∈ [VentOut.reset, { VentOut.reset with tries := 8 }] → ∀ s, s = { readyState with vent := { readyState.vent with out := [m] } } →
      (s.vent.out.find? fun m => m.msgId = VentOut.reset.msgId && decide (m.retryAt ≤ s.wall)) = some m) ∧
    VentOut.reset.tries < 8 ∧ readyState.mgmtKey VentOut.reset.epoch.toNat = none ∧
    (∀ s, s = { readyState with sec := { readyState.sec with mgmtCur := some (VentOut.reset.epoch, 5) } } → s.mgmtKey VentOut.reset.epoch.toNat ≠ none) := by
  refine ⟨by decide +kernel, by decide +kernel, ?_, by decide, by decide +kernel, by rintro s rfl; decide +kernel⟩
  intro m hm s h; subst h
  simp only [List.mem_cons, List.not_mem_nil, or_false] at hm
  rcases hm with rfl | rfl <;> decide +kernel

/-- Partition 0 of a mirror pair with tile 4 bound runs frames of 4,096 pc from count 0 and stands at the first tick after; `k` is
delivered, and frame 0 has ended. -/
def mirrorState (k : List Packet) : State :=
  ((({ readyState with
    plan := { readyState.plan with geyser := 4096 }
    dig := { readyState.dig with mirrorEnds := [(0, 4096)] }
    fab := { readyState.fab with delivered := k } } : State).modPt 0 fun b => { b with
      state := 1
      launched := some 0
      tickAt := 0
      stage := { b.stage with
        mapped := true
        tiles := [4]
        image := some { Image.reset with k := 12, mirror := true } } }).modTile 4 fun t => { t with
    mx := { t.mx with running := true } })

/-- A DIGEST packet of frame 0: KIND, count, digest and first. -/
def digPkt (kind count : Nat) (d : BitVec 64) : Packet := { Packet.reset with
  cls := 1
  type := 3
  payload := [digestUnit 0 count d kind 0, 7] }

theorem wit_FrameTicksAndMirrorsComplete :
    (∀ s, s = mirrorState [] → s.alive = true ∧ (s.pt 0).state = 1#3 ∧ s.isTick 0 s.plan.geyser = true ∧ (s.pt 0).tickAt ≠ s.plan.geyser ∧
      (s.pt 0).relaunchAt = none ∧ s.tilesOf 0 = [4] ∧ (s.overrun 4 s.plan.geyser).isSome = true ∧
      s.dig.mirrorEnds = [(0, s.plan.geyser)] ∧ s.dig.mismatchValid = false) ∧
    (∀ s, s = (mirrorState []).modPt 0 (fun b => { b with relaunchAt := some 8192 }) → (s.pt 0).relaunchAt ≠ none) ∧
    (∀ k, k = digPkt 0 0 digestInit → ∀ s, s = mirrorState [k] → s.digestPacket 0 = some k ∧ s.mirrorPart = some 0 ∧
      field (k.payload.headD 0) 63 32 = (((s.consume k).mirrorDone 0).frameEntries 0 0).length ∧
      field (k.payload.headD 0) 127 64 = (frameDigest (((s.consume k).mirrorDone 0).frameEntries 0 0)).toNat) ∧
    (∀ s, s = (mirrorState []).modTile 4 (fun t => { t with mx := { t.mx with running := false } }) → (∀ t ∈ s.tilesOf 0, s.overrun t s.plan.geyser = none) ∧
      (s.img 0).map (·.mirror) = some true ∧ (∀ n < 12, s.brokenPort n = []) ∧ s.brokenPart 0 = [] ∧ s.tableOk = true) ∧
    field ((digPkt 0 1 0).payload.headD 0) 63 32 ≠ 0 ∧
    (∀ k, k = digPkt 1 1 0 → ∀ s, s = mirrorState [k] → s.digestPacket 1 = some k ∧
      (firstDiff ((s.consume k).frameEntries 0 0) ((List.range 1).map fun i => (((k.payload.drop 1).flatMap bytesOfLine).drop (16 * i)).take 16) 0 1).isSome = true) := by
  refine ⟨?_, ?_, ?_, ?_, by decide +kernel, ?_⟩
  · rintro s rfl; decide +kernel
  · rintro s rfl; decide +kernel
  · rintro k rfl s rfl; decide +kernel
  · rintro s rfl; decide +kernel
  · rintro k rfl s rfl; decide +kernel

/-- Port 1 ACTIVE with numbers 10 to 12 unacknowledged and 7 expected, at wall time 0. -/
def ackState (f : Link → Link) : State := oneJob.modLink 1 fun l => f { l with
  txOldest := 10
  txNext := 12
  rxExpected := 7
  replay := [{ seq := 10, pkt := pPkt }, { seq := 11, pkt := pPkt }]
  tAckAt := some 0
  nakPending := true
  sinceAck := 32
  ackAt := some 0 }

/-- A packet with its link number and a good trailer. -/
def numbered (seq cls : Nat) : Packet := { pPkt with cls := BitVec.ofNat 2 cls }.seal (BitVec.ofNat 16 seq)

theorem seal_trailerOk (p : Packet) (k : BitVec 16) (hr : p.resv = 0) (h1 : 1 ≤ p.payload.length) (h2 : p.payload.length ≤ 128) :
    (p.seal k).trailerOk = true := by
  have t : (p.seal k).trailer = (p.seal k).crc := rfl
  have r : (p.seal k).resv = p.resv := rfl
  have n : (p.seal k).payload = p.payload := rfl
  simp only [Packet.trailerOk, t, r, n, hr, h1, h2]; rfl

theorem numbered_ok (seq cls : Nat) : (numbered seq cls).trailerOk = true :=
  seal_trailerOk _ _ rfl (Nat.le_refl 1) (show 1 ≤ 128 by decide)

theorem wit_LinkAcknowledgementComplete :
    (∀ s, s = ackState id → (s.link 1).state = 5#3 ∧ (s.link 1).lost = false ∧ (s.link 1).tAckAt = some 0 ∧ (s.link 1).replay ≠ [] ∧
      (s.link 1).nakPending = true ∧ (s.link 1).nakAt ≤ s.wall ∧ (s.link 1).sinceAck = 32 ∧ (s.link 1).ackAt = some 0 ∧
      s.noRoom 1 pPkt = false) ∧
    (∀ s, s = ackState (fun l => { l with fab := { l.fab with
        pArea := 1048576
        accepted := List.replicate 4 { pPkt with cls := 1, payload := List.replicate 128 0 } } }) → s.noRoom 1 { pPkt with cls := 1 } = true) ∧
    ((11#16 + 1 - 10).toNat ≤ (12#16 - 10).toNat ∧ (12#16 - 10).toNat < (8#16 + 1 - 10).toNat ∧ 65536 - 4096 ≤ (8#16 + 1 - 10).toNat ∧
      (12#16 - 10).toNat < (12#16 + 1 - 10).toNat ∧ (12#16 + 1 - 10).toNat < 65536 - 4096) ∧
    ((12#16 - 10).toNat ≤ (12#16 - 10).toNat ∧ (12#16 - 10).toNat < (9#16 - 10).toNat ∧ 65536 - 4096 ≤ (9#16 - 10).toNat ∧
      (12#16 - 10).toNat < (13#16 - 10).toNat) ∧
    (∀ s, s = ackState (fun l => { l with lost := true }) → (s.link 1).lost = true ∧ (s.link 1).replaying = true) ∧
    (∀ a b, (numbered a b).trailerOk = true ∧ (numbered a b).lseq = BitVec.ofNat 16 a) ∧ { pPkt with resv := 1 }.trailerOk = false ∧
    ((4102#16 - 7).toNat = 4095 ∧ (4103#16 - 7).toNat = 4096 ∧ (61446#16 - 7).toNat = 61439 ∧ (61447#16 - 7).toNat = 61440) := by
  refine ⟨?_, ?_, by decide, by decide, ?_, fun a b => ⟨numbered_ok a b, rfl⟩, ?_, by decide⟩
  · rintro s rfl; decide +kernel
  · rintro s rfl; decide +kernel
  · rintro s rfl; decide +kernel
  · simp only [Packet.trailerOk, Bool.and_eq_false_iff]
    exact Or.inl (Or.inl (Or.inr (by decide)))

theorem wit_LinkTrainingComplete :
    (∀ s, s = lnkState id → (s.link 1).state = 5#3 ∧ (s.link 1).fab.role = 1#2 ∧ s.ready = true) ∧
    (∀ s, s = lnkState (fun l => { l with fab := { l.fab with role := 0 }, uncorrWin := List.replicate 8 0, enable := true, rxCodewords := 5 }) →
      (s.link 1).state = 5#3 ∧ (s.link 1).fab.role ≠ 1#2 ∧ (s.link 1).enable = true ∧
      8 ≤ ((s.link 1).uncorrWin.filter fun c => (s.link 1).rxCodewords < c + 1024).length) ∧
    (∀ s, s = lnkState (fun l => { l with state := 6, retraining := true, enable := false }) → (s.link 1).state ≠ 5#3 ∧
      (s.link 1).retraining = true ∧ (s.link 1).enable = false ∧ (s.link 1).training = true) ∧
    (∀ s, s = lnkState (fun l => { l with state := 1 }) → (s.link 1).state = 1#3 ∧ (s.link 1).trainAt + 20 * tuMs ≤ s.wall ∧
      ((s.link 1).lanes.lockWith 0x1FE).isSome = true ∧ ((s.link 1).lanes.lockWith 0x0FE).isSome = false) := by
  refine ⟨?_, ?_, ?_, ?_⟩ <;>
  · rintro s rfl; decide +kernel

theorem wit_LinkReturnsComplete :
    (∀ s, s = lnkState (fun l => { l with state := 1, verMin := 1, verMax := 3, calCount := 256 }) → 256 ≤ (s.link 1).calCount ∧ (s.link 1).trainAt ≤ s.wall ∧ (s.link 1).training = true ∧ (s.link 1).retraining = false ∧
      ((s.link 1).lanes.lockWith 0x1FF).isSome = true ∧ commonVersion (s.link 1) ⟨0, 0, 3, 9⟩ = some 3 ∧
      commonVersion (s.link 1) ⟨0, 0, 4, 9⟩ = none) ∧
    ({ readyState with pcie := { readyState.pcie with selfValid := true } }.pcie.selfValid = true ∧
      readyState.wired 1 = ((readyState.wired 1).1, (BitVec.ofNat 4 (readyState.wired 1).2).toNat) ∧ readyState.wired 1 ≠ (0xFFFFFF, 1)) ∧
    (∀ s, s = lnkState (fun l => { l with state := 6, retraining := true, calHold := 4096, rawHold := 2048, neighbour := 0, calCount := 64 }) → 64 ≤ (s.link 1).calCount ∧ (s.link 1).trainAt ≤ s.wall ∧
      (s.link 1).training = true ∧ (s.link 1).retraining = true ∧ (s.link 1).newPad = some (BitVec.ofNat 12 2048) ∧
      (s.link 1).trainAt + 2 * tuMs ≤ s.wall ∧ (s.link 1).neighbour = (0 : BitVec 24)) ∧
    (∀ s, s = lnkState (fun l => { l with state := 6, retraining := true, calHold := 4096, rawHold := 2047 }) → (s.link 1).newPad = none) ∧
    (∀ s, s = lnkState (fun l => { l with catchUp := true, replaySeen := true }) → (s.link 1).state = 5#3 ∧ (s.link 1).catchUp = true ∧
      (s.link 1).replaySeen = true ∧ (s.link 1).replayUntil = none ∧ s.isUpstream 1 = false) := by
  refine ⟨?_, by decide +kernel, ?_, ?_, ?_⟩ <;>
  · rintro s rfl; decide +kernel

theorem wit_SpareLanesComplete :
    (∀ s, s = lnkState (fun l => { l with lanes := { l.lanes with sel := 7, auto := true } }) → s.ready = true ∧ (s.link 1).state = 5#3 ∧
      (s.link 1).lanes.spareFree = true ∧ (s.link 1).lanes.swapping = false ∧ (s.link 1).lanes.sel.toNat < 8 ∧ (s.link 1).lanes.auto = true) ∧
    (∀ s, s = lnkState (fun l => { l with lanes := { l.lanes with replaced := 7 } }) → (s.link 1).lanes.spareFree = false) ∧
    (∀ s, s = lnkState (fun l => { l with lanes := { l.lanes with request := some 2 } }) → (s.link 1).lanes.request = some 2#4 ∧
      (s.link 1).lanes.retryAt ≤ s.wall ∧ (s.link 1).lanes.swapping = true) ∧
    (∀ s, s = lnkState (fun l => { l with lanes := { l.lanes with armed := some 2 } }) → (s.link 1).lanes.armed = some 2#4 ∧
      (s.link 1).fab.role = 1#2 ∧ s.anyTick = true) ∧
    (∀ s, s = lnkState (fun l => { l with rxCodewords := 256, lanes := { l.lanes with verifying := some (2, 0) } }) →
      (s.link 1).lanes.verifying = some (2#4, 0) ∧ 0 + 256 ≤ (s.link 1).rxCodewords ∧ (true && !(s.link 1).lanes.verifyBad) = true ∧
      (false && !(s.link 1).lanes.verifyBad) = false) := by
  refine ⟨?_, ?_, ?_, ?_, ?_⟩ <;>
  · rintro s rfl; decide +kernel

/-- Partition 2 in a state, with resources that pass the checks and one bit changed or not; every tile and stack is scrubbed or not. -/
def partState (st : Nat) (rows : Nat) (scrubbed : Bool) : State :=
  (({ readyState with
    top := { readyState.top with scrubbed := scrubbed }
    stackBanks := readyState.stackBanks.map fun k => { k with scrubbed := scrubbed } } : State).modPt 2 fun b => { b with
    state := BitVec.ofNat 3 st
    pendRes := some { PartRes.reset with
      rows := BitVec.ofNat 16 rows
      slice := 3
      job := 1 } })

theorem wit_PartitionsComplete :
    (∀ s, s = partState 0 0 true → s.ready = true ∧ (s.pt 2).state = 0#3 ∧ s.enableFails 2 ((s.pt 2).pendRes.getD (s.pt 2).res) = some 0) ∧
    (∀ s, s = partState 0 1 false → s.enableFails 2 ((s.pt 2).pendRes.getD (s.pt 2).res) = none ∧
      s.enableWaits 2 ((s.pt 2).pendRes.getD (s.pt 2).res) = true) ∧
    (∀ s, s = partState 0 1 true → s.enableFails 2 ((s.pt 2).pendRes.getD (s.pt 2).res) = none ∧
      s.enableWaits 2 ((s.pt 2).pendRes.getD (s.pt 2).res) = false) ∧
    (((partState 1 1 true).pt 2).state = 1#3 ∧ ((partState 2 1 true).pt 2).state = 2#3 ∧ ((partState 3 1 true).pt 2).state = 3#3 ∧
      ((partState 4 1 true).pt 2).state = 4#3) ∧
    ((partState 2 1 true).alive = true ∧ ((partState 2 1 true).pt 2).scrubEnd ≤ (partState 2 1 true).wall) := by
  refine ⟨?_, ?_, ?_, by decide +kernel, by decide +kernel⟩ <;>
  · rintro s rfl; decide +kernel

theorem wit_WingsAndCurtainsComplete :
    (∀ s, s = wingsState id → s.ready = true ∧ (s.pt 2).state = 1#3 ∧ (s.pt 2).wlRunning = none ∧ (s.pt 2).wingsState ≠ 5#3 ∧
      (s.pt 2).wingsState ≠ 4#3 ∧ (s.pt 2).curtainPause = none) ∧
    (∀ s, s = wingsState (fun b => { b with wingsState := 5 }) → (s.pt 2).wingsState = 5#3) ∧
    (∀ s, s = wingsState (fun b => { b with wingsState := 1, wlRunning := some (0, 0, false) }) →
      (s.pt 2).wlRunning = some (0, 0, false) ∧ (s.pt 2).wingsState = 1#3 ∧ loadInto (s.pt 2).wings (0, 0, false) .error = none ∧
      (loadInto (s.pt 2).wings (0, 0, false) (.image Image.reset)).isSome = true) ∧
    (∀ s, s = wingsState (fun b => { b with wingsState := 4, curtainAt := 8 }) → (s.pt 2).wingsState = 4#3 ∧ (s.pt 2).launched = none) ∧
    (∀ s, s = wingsState (fun b => { b with wingsState := 4, curtainAt := 4096, launched := some 0, stage := { b.stage with
        image := some { Image.reset with k := 12 } } }) → (s.pt 2).launched ≠ none ∧ s.isTick 2 (s.pt 2).curtainAt.toNat = true ∧
      s.stepFrames 2 = 0 ∧ s.plan.geyser ≤ (s.pt 2).curtainAt.toNat ∧ s.isTick 2 4095 = false) ∧
    (∀ s, s = { wingsState (fun b => { b with wingsState := 4, curtainAt := 4096, launched := some 0, stage := { b.stage with
        image := some { Image.reset with k := 12 } } }) with plan := { PlanRegs.reset with geyser := 4097 } } →
      s.isTick 2 (s.pt 2).curtainAt.toNat = true ∧ (s.pt 2).curtainAt.toNat < s.plan.geyser) ∧
    (∀ s, s = wingsState (fun b => { b with curtainArm := some 0, stage := { b.stage with image := some Image.reset }, wings := { b.wings with
        image := some Image.reset } }) → (s.pt 2).curtainArm = some s.plan.geyser ∧ s.recordLeft 0 = false ∧
      firstSync (s.openSync 2) = none ∧ (s.pt 2).sameImage = true) ∧
    (∀ s, s = wingsState (fun b => { b with curtainArm := some 0 }) → firstSync (s.openSync 2) = none ∧ (s.pt 2).sameImage = false) ∧
    (∀ s, s = (wingsState (fun b => { b with curtainArm := some 0, stage := { b.stage with tiles := [9] } })).modTs 9 (fun t => { t with
        watches := [Watch.reset] }) → (firstSync (s.openSync 2)).isSome = true ∧ (s.pt 2).wlRunning = none) ∧
    (∀ s, s = wingsState (fun b => { b with curtainPause := some (0, 0) }) → (s.pt 2).curtainPause = some (0, 0)) := by
  refine ⟨?_, ?_, ?_, ?_, ?_, ?_, ?_, ?_, ?_, ?_⟩ <;>
  · rintro s rfl; decide +kernel

theorem wit_HostLinkCommandsComplete :
    (readyState.alive = true ∧ readyState.allOff = true ∧ (wingsState id).allOff = false) ∧
    (∀ s, s = readyState.modFn 0 (fun x => { x with d3Pending := true }) → (s.fn 0).d3Pending = true ∧ s.allOff = true) ∧
    (∀ s, s = ({ readyState with pcie := { readyState.pcie with up := true, outq := [OutWrite.reset] } } : State).modFn 0 (fun x => { x with bme := true }) →
      s.alive = true ∧ s.pcie.up = true ∧ (s.fn 0).bme = true ∧ (s.pcie.outq.find? fun w => w.fn = 0) = some OutWrite.reset) ∧
    { readyState with pcie := { readyState.pcie with training := true } }.pcie.training = true ∧ (16 ∈ [1, 2, 4, 8, 16]) := by
  refine ⟨by decide +kernel, ?_, ?_, rfl, by decide⟩ <;>
  · rintro s rfl; decide +kernel

theorem wit_PowerAndResetComplete :
    (∀ s, s = { readyState with pins := { Pins.reset with inReset := true } } → s.pins.inReset = true ∧ s.pins.uvReset = false) ∧
    (∀ s, s = { readyState with pins := { Pins.reset with inReset := true, uvReset := true } } → s.pins.inReset = true ∧ s.pins.uvReset = true) ∧
    (∀ s, s = { readyState with pins := { Pins.reset with uvReset := true } } → s.pins.inReset = false ∧ s.pins.uvReset = true) ∧
    (∀ s, s = { readyState with fwu := { readyState.fwu with booted := true } } → s.alive = true ∧ s.fwu.booted = true ∧
      (s.tile 0).state = 1#3 ∧ (s.tile 0).scrubbed = false ∧ nsHas 3 s.pins.railBad = false ∧ s.pins.linkRefLost = false ∧
      s.pins.sysRefLost = false) ∧
    (∀ s, s = readyState.modStk 0 (fun y => { y with state := 2, scrubbed := false }) → (s.stk 0).state = 2#2 ∧ (s.stk 0).scrubbed = false) ∧
    (95 ≤ (95#8).toNat ∧ 105 ≤ (105#8).toNat ∧ (101#8).toNat < 102 ∧ (List.replicate 8 91#8).length = 8 ∧
      ∀ t ∈ List.replicate 8 91#8, t.toNat < 92) := by
  refine ⟨?_, ?_, ?_, ?_, ?_, by decide⟩ <;>
  · rintro s rfl; decide +kernel

theorem wit_RegisterAccessesComplete :
    (readyState.alive = true ∧ readyState.ready = true ∧ (1#26).toNat % 4 ≠ 0 ∧ (0x2000001#26).toNat % 4 ≠ 0 ∧ 0x2000000 ≤ (0x2000001#26).toNat) ∧
    ((0x1FFFFFC#26).toNat % 4 = 0 ∧ (0x1FFFFFC#26).toNat < 0x2000000 ∧ earlyBlock 0x10000 = false ∧ earlyBlock 0x60000 = true ∧
      State.reset.alive = true ∧ State.reset.top.fwReady = false ∧ readyState.top.fwReady = true) ∧
    ((0x2000000#26).toNat % 4 = 0 ∧ (bit (accOf 0x10004).rw 2 = true) ∧ (bit (accOf 0x60030).rw 0 = false) ∧
      (bit (accOf 0x10000).rw 31 = false ∧ bit (accOf 0x10000).act 31 = false ∧ bit (accOf 0x10000).w1c 31 = false)) ∧
    (bit (accOf 0x00030).rw 0 = false ∧ bit (accOf 0x00030).act 0 = true ∧ bit (accOf 0x00030).w1c 0 = false ∧
      bit (accOf 0x60004).rw 2 = false ∧ bit (accOf 0x60004).act 2 = false ∧ bit (accOf 0x60004).w1c 2 = true) := by
  refine ⟨by decide +kernel, by decide +kernel, by decide +kernel, by decide +kernel⟩

/-- A chip with an identity whose report request names the chip or partition 2, in a state. -/
def secState (chip : Bool) (st : Nat) : State := ({ readyState with sec := { readyState.sec with
  identity := true
  reqChip := chip
  reqPart := 2
  mgmtNext := some (1, 2) } } : State).modPt 2 fun b => { b with state := BitVec.ofNat 3 st }

theorem wit_SecurityCommandsComplete :
    ((secState true 0).alive = true ∧ (secState true 0).sec.identity = true ∧ (secState true 0).sec.reqChip = true ∧
      (secState true 0).sec.mgmtNext = some (1, 2)) ∧
    ((secState false 1).sec.reqChip = false ∧ ((secState false 1).pt (secState false 1).sec.reqPart.toNat).state = 1#3) ∧
    ((secState false 2).pt (secState false 2).sec.reqPart.toNat).state = 2#3 ∧ State.reset.sec.identity = false ∧
    readyState.pairOf .chip = none := by
  refine ⟨by decide +kernel, by decide +kernel, by decide +kernel, rfl, by decide +kernel⟩

/-- A booted chip with its Ethernet link up. -/
def svcState (f : FwuRegs → FwuRegs) : State := { readyState with
  svc := { readyState.svc with
    ethLink := true
    ptpEn := true }
  fwu := f { readyState.fwu with booted := true } }

theorem wit_ServicePortComplete :
    ((svcState id).frameServed = true ∧ (svcState id).ready = true ∧ (svcState id).fwu.tftp = none ∧
      ((svcState id).fwu.trial && !(svcState id).fwu.confirmed) = false ∧ (svcState id).svc.ptpFifo.length < 64 ∧
      (svcState id).pcie.selfValid = false ∧ (svcState id).svc.i3cAssigned = false) ∧
    ((svcState fun x => { x with trial := true }).frameServed = true ∧
      ((svcState fun x => { x with trial := true }).fwu.trial && !(svcState fun x => { x with trial := true }).fwu.confirmed) = true) ∧
    ((svcState fun x => { x with tftp := some 1 }).fwu.tftp ≠ none) ∧
    ((true && decide (1024 ≤ 1024) && decide (1024 ≤ 1428)) = true ∧ (true && decide (1024 ≤ 1428) && decide (1428 ≤ 1428)) = true ∧
      (true && decide (1024 ≤ 1429) && decide (1429 ≤ 1428)) = false ∧ (true && decide (1024 ≤ 1023) && decide (1023 ≤ 1428)) = false) ∧
    (∀ s, s = { svcState id with svc := { (svcState id).svc with ptpFifo := List.replicate 64 PtpStamp.reset } } →
      64 ≤ s.svc.ptpFifo.length ∧ s.svc.ptpFifo = PtpStamp.reset :: List.replicate 63 PtpStamp.reset) ∧
    { svcState id with pcie := { (svcState id).pcie with selfValid := true } }.pcie.selfValid = true := by
  refine ⟨by decide +kernel, by decide +kernel, by decide +kernel, by decide, ?_, rfl⟩
  rintro s rfl; decide +kernel

/-- A slot that passes every check. -/
def goodSlot : Slot48 := { Slot48.reset with
  present := true
  magicOk := true
  sigOk := true
  hashOk := true }

/-- A chip with a governing boot record that names slot A, and PENDING and TRIAL as given; both slots as given. -/
def flashState (a b : Slot48) (trial : Nat) : State := { State.reset with flash := { Flash.reset with
  slotA := a
  slotB := b
  rec0 := { BootRec.reset with
    valid := true
    active := 0
    pending := 0xFF
    trial := BitVec.ofNat 8 trial } } }

theorem wit_FirmwareUpdateComplete :
    (∀ s, s = flashState goodSlot goodSlot 0xFF → s.alive = true ∧ s.fwu.booted = false ∧ s.fwu.halted = false ∧
      (s.flash.governing.map fun r => ((s.pickSlot r).2.verifies (s.pickSlot r).1.slot, (s.pickSlot r).1.fell)) = some (true, false)) ∧
    (∀ s, s = flashState goodSlot goodSlot 1 →
      (s.flash.governing.map fun r => ((s.pickSlot r).2.verifies (s.pickSlot r).1.slot, (s.pickSlot r).1.fell)) = some (true, true)) ∧
    (∀ s, s = flashState Slot48.reset goodSlot 0xFF →
      (s.flash.governing.map fun r => (s.pickSlot r).2.verifies (s.pickSlot r).1.slot) = some false) ∧
    (∀ s, s = { State.reset with fwu := { FwuRegs.reset with booted := true } } → s.fwu.booted = true ∧ s.top.fwReady = false) ∧
    (goodSlot.failedStep 0 = 0 ∧ ({ goodSlot with sigOk := false } : Slot48).failedStep 0 ≠ 0) ∧
    { State.reset with fwu := { FwuRegs.reset with tftp := some 1 } }.fwu.tftp = some 1 ∧
    (∀ s, s = { State.reset with
        tiles := State.reset.tiles.map fun (t : Tile) => ({ t with scrubbed := true } : Tile)
        fwu := { FwuRegs.reset with
          booted := true
          trial := true
          selftest := true } } → s.alive = true ∧ s.fwu.confirmed = false ∧ 0 < s.confirmLeft ∧ s.fwu.hostConfirm = false ∧ s.selftestHolds = true) ∧
    (∀ s, s = { State.reset with wall := 300 * 1000 * tuMs, fwu := { FwuRegs.reset with trial := true, confirmStart := some 0 } } →
      s.confirmLeft = 0 ∧ s.fwu.expired = false) ∧
    (∀ s, s = { State.reset with fwu := { FwuRegs.reset with booted := true, svn := 3 } } → s.fwu.floor.toNat < s.fwu.svn.toNat ∧ s.fwu.trial = false) := by
  refine ⟨?_, ?_, ?_, ?_, by decide +kernel, rfl, ?_, ?_, ?_⟩ <;>
  · rintro s rfl; decide +kernel

/-- The job held by an own cause. -/
def heldOnce (s : State) : State := { s with plan := { s.plan with debt := 1 } }
/-- Partition 0 launched at 0 with logical channel 0 on pseudo-channel 0. -/
def stkPlan : State :=
  (stkState fun z => z).modPt 0 fun b => { b with
    state := 1
    launched := some 0
    stage := { b.stage with
      mapped := true
      chans := [0]
      image := some { Image.reset with lch := [{ LchDecl.reset with period := 4096, len := 736 }] } } }
theorem wit_StackUpkeepComplete :
    (∀ s, s = heldOnce (stkState fun z => { z with
        openQueue := [{ kind := .writeBack, word := 0, data := none, tag := none }] }) →
      ((s.chan 0 0).openQueue.any fun o => o.kind = .writeBack && o.word = 0) = true ∧ s.alive = true ∧ s.held = true ∧
        s.clk.switching = none) ∧
    (∀ s, s = stkState (fun z => { z with openQueue := [{ kind := .writeBack, word := 0, data := none, tag := none }] }) →
      ((s.chan 0 0).openQueue.any fun o => o.kind = .writeBack && o.word = 0) = true ∧ s.openFree 0 = true) ∧
    (∀ s, s = stkState (fun z => z) → (s.stk 0).state = 2#2 ∧ (s.stk 0).scrubCh.testBit 0 = false ∧
      (s.pch 0).noBetter 6 = true ∧ (s.stk 0).winGo = none ∧ s.openFree 0 = true ∧ (s.pch 0).unreadable 0 s.plan.geyser = false ∧
      (s.stk 0).scrubWord.toNat = 0 ∧ (s.chan 0 0).ceDie 0 = none ∧ (s.chan 0 0).debtAt ≤ s.wall) ∧
    (∀ s, s = stkState (fun z => { z with bad := [0] }) → (s.pch 0).unreadable 0 s.plan.geyser = true ∧ s.openFree 0 = true ∧
      (s.stk 0).state = 2#2 ∧ (s.chan 0 0).noBetter 6 = true) ∧
    (∀ s, s = stkState (fun z => { z with debt := 1 }) → s.alive = true ∧ s.chanOwner 0 = none ∧ 1 ≤ (s.chan 0 0).debt ∧
      s.refreshing 0 = false) ∧
    (∀ s, s = stkPlan → s.running = true ∧ s.chanOwner 0 = some (0, 0) ∧ s.refreshing 0 = false) ∧
    (∀ s, s = stkPlan → s.windowPhase 0 (s.lchDecl 0 0) s.plan.geyser = 0) ∧
    (∀ s, s = heldOnce (stkState fun z => { z with debt := 8, pending := true }) → s.alive = true ∧ (s.chan 0 0).pending = true ∧
      s.refreshing 0 = false ∧ s.running = false) ∧
    (State.reset.alive = true ∧ (State.reset.stk 0).state.toNat ≤ 1 ∧ (1#8) ≠ 0) := by
  refine ⟨?_, ?_, ?_, ?_, ?_, ?_, ?_, ?_, by decide +kernel⟩ <;>
  · rintro s rfl; decide +kernel

/-- A window access of stack 0, waiting or admitted with cycles left. -/
def winState (a : WinAcc) (e : Option Nat) : State :=
  (stkState fun z => z).modStk 0 fun y => { y with winGo := some a, winLeft := e }
/-- Partition 0 with one plain region, a Stage plan with one staging descriptor, and one read outstanding. -/
def stgState (c : List Nat) : State :=
  ({ (stkState fun z => z) with pcie := { PcieRegs.reset with stgReads := [StageRead.reset] } } : State).modPt 0 fun b => { b with
    state := 1
    launched := some 0
    stage := { b.stage with
      mapped := true
      chans := c
      image := some { Image.reset with
        k := 10
        kp := 1
        planWords := 4096
        fs := 1
        regions := [{ Region.reset with base := 0, words := 4096 }]
        stageTable := [StageDesc.reset] } } }
theorem wit_StackAccessesComplete :
    (∀ s, s = stkState (fun z => z) → s.ready = true ∧ (s.stk 0).winGo = none ∧
      s.sliceScrubs ((s.stk 0).winAddr.toNat / 2 ^ 26 % 32) = false) ∧
    (∀ s, s = ((stkState fun z => z).modPt 3 fun b => { b with state := 2, res := { b.res with slice := 1 } }) →
      s.sliceScrubs 0 = true ∧ s.ready = true) ∧
    (∀ s, s = winState { word := 0, ch := 0, write := false, data := 0 } none → (s.stk 0).winLeft = none ∧
      s.sliceScrubs 0 = false ∧ (s.pch 0).noBetter 5 = true ∧ s.openFree 0 = true ∧ s.running = true ∧
      (s.pch 0).unreadable 0 s.plan.geyser = false ∧ (s.chan 0 0).ceDie 0 = none ∧ (s.stk 0).winGo.isSome = true) ∧
    (∀ s, s = winState { word := 0, ch := 0, write := true, data := 0 } (some 0) →
      (s.stk 0).winLeft = some 0 ∧ (s.stk 0).winGo.isSome = true) ∧
    (∀ s, s = stkState (fun z => { z with openQueue := [{ kind := .scrub, word := 0, data := none, tag := none },
        { kind := .window, word := 1, data := none, tag := none }, { kind := .sealedLoad, word := 2, data := none, tag := none }] }) →
      (s.chan 0 0).openQueue.length = 3 ∧ s.openFree 0 = true ∧ OpenKind.window.rank < OpenKind.scrub.rank ∧
        OpenKind.window.rank ≤ OpenKind.sealedLoad.rank) ∧
    (∀ s, s = stgState [0] → (s.img 0).isSome = true ∧ (s.pt 0).launched = some 0 ∧ s.isTick 0 s.plan.geyser = true ∧
      (s.pt 0).epoch = 0 ∧ s.plan.geyser = 0 ∧ s.framesSince 0 s.plan.geyser = 0 ∧ s.pcie.stgReads.length = 1) ∧
    (∀ s, s = stgState [0] → ∀ i, s.img 0 = some i → i.epochFrames = 1 ∧ i.stageTable.isEmpty = false ∧
      ((i.stageTable[0]?).getD StageDesc.reset).sealed = false ∧ ((i.stageTable[0]?).getD StageDesc.reset).length = 0 ∧
      (s.sealedLocs 0 i { Region.reset with base := 0, words := 4096 } 0 1).isSome = true ∧
      s.sealedLocs 0 i { Region.reset with base := 0, words := 4096 } 4096 1 = none) ∧
    (∀ s, s = stgState [0] → s.openSealed 0 (sealedOf []) 0 = none) ∧
    (∃ (i : Image) (g : Region) (locs : List ((Nat × Nat) × BitVec 128)),
      (stgState [0]).img 0 = some i ∧ i.regions[(sealedOf []).region]? = some g ∧
        (stgState [0]).sealedLocs 0 i g (sealedOf []).target (sealedOf []).count = some locs) := by
  refine ⟨?_, ?_, ?_, ?_, ?_, ?_, ?_, ?_, ?_⟩
  iterate 6
    · rintro s rfl; decide +kernel
  · rintro s rfl i h
    have : i = (((stgState [0]).img 0).getD Image.reset) := by rw [h]; rfl
    rw [this]; decide +kernel
  · rintro s rfl; decide +kernel
  · exact ⟨_, _, _, rfl, rfl, rfl⟩

/-- A chip whose tiles and pseudo-channels are usable, with an image LOADED in the Wings of partition 0 and a plan in Stage. -/
def bindState (w : BitVec 3) : State :=
  ({ readyState with
      tiles := Vector.replicate 160 { Tile.reset with scrubbed := true }
      stackBanks := Vector.replicate 8 { Stack.reset with ch := Vector.replicate 32 { Channel.reset with usable := true } } } : State).modPt 0
    fun b => { b with
      state := 1
      wingsState := w
      res := { b.res with rows := 1, slice := 0xFFFFFFFF }
      stage := { b.stage with image := some Image.reset }
      wings := { b.wings with image := some { Image.reset with fMax := 7 } } }
/-- A bind run of partition 0 in progress, with every other chip of the job declared FAILED but those of `out`. -/
def bindRunState (out : List (BitVec 24)) (ports : BitVec 12) : State :=
  let s := bindState 3
  let r : MapRun := { MapRun.reset with own := { s.ownRecord with ports := ports } }
  let c := s.jobCtx r
  { s with map := { s.map with
    state := 1
    run := some r
    declared := (c.chips.erase 0).filter fun a => !out.contains a } }
/-- The run of `bindRunState`. -/
def runOf (s : State) : MapRun := s.map.run.getD MapRun.reset
/-- A chip of the job other than 0. -/
def otherChip : BitVec 24 := ((bindState 3).jobCtx { MapRun.reset with own := (bindState 3).ownRecord }).chips.getD 1 0
/-- A run whose neighbour has sent its record and no digest. -/
def silentState : State :=
  let s := bindRunState [otherChip] 0xFFF
  { s with map := { s.map with records := [{ HealthRec.reset with addr := otherChip, ports := 0xFFF }] } }
/-- A run in a phase. -/
def phaseState (n : BitVec 3) : State :=
  let s := bindRunState [] 0
  { s with map := { s.map with state := n } }
/-- The run that time gives its start. -/
def startedRun (s : State) : MapRun := { runOf s with since := some 0 }
/-- A run 2 s after its start and 5 s after the last record. -/
def lateState (s : State) : State :=
  { s with
    wall := 5000 * tuMs
    map := { s.map with run := some { runOf s with since := some 0, gatheredAt := some 0 } } }
theorem wit_BindRunsComplete :
    (∀ s, s = bindState 2 → s.ready = true ∧ s.map.run = none ∧ (s.pt 0).state = 1#3 ∧
      (s.pt 0).wings.image.isSome = true ∧ (s.pt 0).wingsState = 2#3 ∧ (s.pt 0).stage.image.isSome = true) ∧
    ((bindState 4).pt 0).wingsState = 4#3 ∧ ((bindState 6).pt 0).wingsState = 6#3 ∧
    (∀ s, s = bindRunState [otherChip] 0 → s.map.run.isSome = true ∧ s.map.state = 1#3 ∧ s.bindWaits 0 = false ∧
      (s.jobCtx (runOf s)).gathered = false) ∧
    (∀ s, s = bindRunState [] 0 → s.map.run.isSome = true ∧ s.bindWaits 0 = false ∧
      (s.jobCtx (startedRun s)).gathered = true ∧ (s.disagree (s.jobCtx (startedRun s))).isEmpty = true) ∧
    (∀ s, s = phaseState 2 → s.map.state = 2#3 ∧ s.cfgDiffers (s.jobCtx (startedRun s)) = [] ∧
      (s.recordCal (runOf s).own).calExceeds (s.jobCtx (startedRun s)) = []) ∧
    (∀ s, s = (bindState 3).modPt 0 (fun b => { b with state := 2 }) → s.bindWaits 0 = true) ∧
    (∀ s, s = lateState (bindRunState [otherChip] 0) → s.map.state = 1#3 ∧ (runOf s).since = some 0 ∧ 0 + 2000 * tuMs ≤ s.wall ∧
      (s.jobCtx (runOf s)).chips.contains otherChip = true ∧
      ((s.jobCtx (runOf s)).recs.any fun x => x.addr = otherChip) = false) ∧
    (∀ s, s = lateState silentState → (runOf s).gatheredAt = some 0 ∧ 0 + 5000 * tuMs ≤ s.wall ∧ s.map.state = 1#3 ∧
      (s.jobCtx (runOf s)).peers 0 = [otherChip]) := by
  refine ⟨?_, by decide +kernel, by decide +kernel, ?_, ?_, ?_, ?_, ?_, ?_⟩ <;>
  · rintro s rfl; decide +kernel
theorem wit_BindRunsComplete_phases :
    (∀ s, s = phaseState 2 → (s.jobCtx (startedRun s)).img.check s.clk.stepCur.toNat (s.pt 0).res.poolPages.toNat
      (s.pt 0).res.devArea.toNat ((s.runSet (startedRun s) (s.jobCtx (startedRun s))).bind fun x => if x.rankValid then some x.rank.toNat else none)
      (((s.runSet (startedRun s) (s.jobCtx (startedRun s))).map fun x => s.cellClash 0 x).getD false) (s.runDet (startedRun s)) = none) ∧
    (∀ s, s = phaseState 3 → (s.runSet (startedRun s) (s.jobCtx (startedRun s))).isSome = true) := by
  refine ⟨?_, ?_⟩ <;>
  · rintro s rfl; decide +kernel
theorem wit_BindRunsComplete_differ :
    ∀ s, s = lateState silentState → otherChip ∈ s.disagree (s.jobCtx (runOf s)) ∧
      ∀ x ∈ s.disagree (s.jobCtx (runOf s)), otherChip.toNat ≤ x.toNat := by
  rintro s rfl
  have h1 : ((lateState silentState).jobCtx (runOf (lateState silentState))).peers (lateState silentState).selfOrigin = [otherChip] := by
    decide +kernel
  have h2 : (lateState silentState).map.digests = [] := by decide +kernel
  simp [State.disagree, h1, h2]

/-- Partition 0 launched at 0 on the chip of rank 0 with the image `i`, its digest unit as `f` changes it. -/
def bndState (i : Image) (f : DigRegs → DigRegs) : State :=
  ({ readyState with dig := f readyState.dig } : State).modPt 0 fun b => { b with
    state := 1
    launched := some 0
    stage := { b.stage with
      mapped := true
      chans := List.replicate 8 0
      tiles := [0]
      ranks := [0]
      rankValid := true
      image := some i } }
/-- A restartable image without serving. -/
def unitImage : Image := { Image.reset with restartable := true }
/-- A serving image whose group is led by `r`. -/
def servImage (r : Nat) : Image := { Image.reset with fs := 2, serving := some { Serving.reset with group := [r] } }
theorem wit_BoundaryWorkComplete :
    (∀ s, s = bndState unitImage (fun d => d) → s.mayBoundary 0 = some 0 ∧ (s.img 0).isSome = true ∧
      alGet 0 s.dig.logReplayTo = none ∧ s.ashPending 0 = false ∧ s.buddyChip = none) ∧
    (∀ s, s = bndState unitImage (fun d => { d with ash := [{ AshEntry.reset with stepNo := 4 }] }) →
      s.mayBoundary 0 = some 0 ∧ (s.img 0).isSome = true ∧ s.ashPending 0 = true ∧
      (s.dig.ash.any fun e => e.part.toNat = 0 && e.stepNo = 4 && !e.confirmed) = true) ∧
    (∀ s, s = bndState (servImage 0) (fun d => { d with logReplayTo := [(0, 0)] }) → s.mayBoundary 0 = some 0 ∧
      (s.img 0) = some (servImage 0) ∧ s.leads 0 { Serving.reset with group := [0] } = true ∧ (s.pt 0).stage.copyB = false ∧
      (alGet 0 s.dig.logReplayTo).isSome = true ∧ s.replayEntry 0 0 = some none ∧ s.unitNo 0 = 0) ∧
    (∀ s, s = bndState (servImage 0) (fun d => d) → s.mayBoundary 0 = some 0 ∧ s.replayEntry 0 0 = none ∧
      s.leads 0 { Serving.reset with group := [0] } = true ∧ s.ashPending 0 = false) ∧
    (∀ s, s = (bndState (servImage 0) (fun d => d)).modSq 0 (fun q => { q with declChecked := true }) →
      (s.sq 0).declChecked = true ∧ s.mayBoundary 0 = some 0) ∧
    (∀ s, s = bndState (servImage 1) (fun d => d) → s.leads 0 { Serving.reset with group := [1] } = false ∧
      s.unitTick 0 = some 0 ∧ s.alive = true ∧ (s.pt 0).state = 1#3 ∧ (s.pt 0).faultStop = false ∧ s.unitNo 0 = 0 ∧
      (s.img 0) = some (servImage 1)) := by
  refine ⟨?_, ?_, ?_, ?_, ?_, ?_⟩ <;>
  · rintro s rfl; decide +kernel

theorem wit_EveryStepKeepsTheMemoriesCanonical :
    State.reset.tileMemOk ∧ State.reset.stackMemOk ∧ step State.reset = .next State.reset.tick := by
  refine ⟨?_, ?_, rfl⟩
  · intro t h; simp [State.tile, State.reset, vget, Tile.reset, h, Memory.wf, Memory.wfFrom]
  · intro k c h h'; simp [State.chan, State.stk, State.reset, vget, Stack.reset, Channel.reset, h, h', Memory.wf, Memory.wfFrom]

theorem wit_TheSvnFloorNeverDecreases :
    (∀ s, s = { State.reset with fwu := { FwuRegs.reset with booted := true, svn := 3 } } →
      s.alive = true ∧ s.fwu.booted = true ∧ s.fwu.trial = false ∧ s.fwu.floor.toNat < s.fwu.svn.toNat) ∧
    (∀ s, s = { State.reset with fwu := { FwuRegs.reset with booted := true, trial := true } } →
      s.alive = true ∧ s.fwu.trial = true) ∧
    step State.reset = .next State.reset.tick ∧ { Slot48.reset with svn := 2 }.svn.toNat < (3#6).toNat := by
  refine ⟨?_, ?_, rfl, by decide⟩ <;>
  · rintro s rfl; decide +kernel

theorem wit_FirmwareReadyGatesTheBlocks :
    (∀ s, s = { State.reset with fwu := { FwuRegs.reset with booted := true } } →
      s.alive = true ∧ s.fwu.booted = true ∧ s.top.fwReady = false) ∧
    earlyBlock 0x30010 = true ∧ earlyBlock 0x80008 = false ∧
    (∃ t, exec .fwLoadDone { State.reset with fwu := { FwuRegs.reset with booted := true } } = .next t ∧ t.top.fwReady = true) := by
  refine ⟨?_, by decide, by decide, ?_⟩
  · rintro s rfl; decide +kernel
  · exact ⟨_, rfl, rfl⟩

theorem wit_ADisabledTileShowsOnlyItsNumber :
    ∀ s, s = ({ State.reset with fuses := { Fuses.reset with grade := 2, tiles := 144, disabled := [5] } } : State).modTile 5
        (fun t => { t with state := 0 }) →
      s.alive = true ∧ s.fuses.disabled.contains 5 = true ∧ (s.tile 5).state = 0#3 ∧ (0x405004#26).toNat = 0x400000 + 4096 * 5 + 4 := by
  rintro s rfl; decide +kernel

theorem wit_TheIdentityWordNamesTheGrade : State.reset.fuses.legal ∧
    exec .sysReset State.reset = .next (State.reset.enterReset fun p => { p with
      sysResetN := false
      inReset := true }) := ⟨Or.inl ⟨rfl, rfl, rfl⟩, rfl⟩

theorem wit_PendingConfigurationAndChainedRestart :
    (∀ s, s = (readyState.modPt 0 fun b => { b with state := 1 }) → s.ready = true ∧ s.part.psel.toNat = 0 ∧ (s.pt 0).state ≠ 0#3) ∧
    (∀ s, s = (readyState.modPt 0 fun b => { b with state := 2 }) → s.ready = true ∧ (s.pt 0).state = 2#3) ∧
    (∀ s, s = (readyState.modPt 0 fun b => { b with state := 3 }) → s.ready = true ∧ s.alive = true ∧ (s.pt 0).state = 3#3 ∧
      (s.pt 0).scrubEnd ≤ s.wall) := by
  refine ⟨?_, ?_, ?_⟩ <;>
  · rintro s rfl; decide +kernel

theorem wit_HoldDepthAndDebtStopTheCounter : State.reset.paused = false ∧ readyState.top.fwReady = true ∧
    (∀ s, s = { State.reset with clk := { ClkRegs.reset with switching := some (1, 2) } } → s.paused = true) := by
  refine ⟨by decide +kernel, rfl, ?_⟩
  rintro s rfl; decide +kernel

theorem wit_ALoopRunsItsBodyEachTime : 0 < 3 ∧ 2 < 3 ∧ 4 ≤ 4 ∧ Front.reset.join = none := by
  refine ⟨by decide, by decide, by decide, rfl⟩

/-- Partition 0 active, with buckets 0 to 3. -/
def bktState : State := readyState.modPt 0 fun b => { b with
  state := 1
  res := { b.res with bktCount := 4 } }
theorem wit_GrantsAndChargesKeepTheLedgerIdentity :
    Bucket.reset.conserved = true ∧
    (∀ s, s = bktState → s.ready = true ∧ (s.pt 0).state = 1#3 ∧ s.ownsBkt 0 3 = true ∧ (s.bkt 3).conserved = true ∧
      ((s.bkt 3).grant 5).conserved = true ∧ ({ s.bkt 3 with granted := 1 } : Bucket).conserved = false) := by
  refine ⟨by decide, ?_⟩
  rintro s rfl; decide +kernel

theorem wit_CodewordsCarryTheirSymbolsAndBits : (match LinkSym.lane 1 0 with
      | .lane op _ => 1 ≤ op.toNat ∧ op.toNat ≤ 4
      | _ => True) ∧
    (match LinkSym.lane 4 7 with
      | .lane op _ => 1 ≤ op.toNat ∧ op.toNat ≤ 4
      | _ => True) ∧ LinkSym.ofField (0x54700#20) = some (.lane 4 7) ∧ LinkSym.ofField (0x50000#20) = none := by
  refine ⟨by decide, by decide, by decide, by decide⟩

end
end

section
/-! What every tile instruction does where no check point is due and where its check point faults: a tile instruction is
`State.runInstr` of its form, so each clause is said once of `State.runInstr`. -/

namespace Sys2Proof.Machine
open Sys2Proof

/-- Each command that names a tile instruction is the shared check point operation, for its own plan. -/
theorem exec_of_tileForm {i : Instr} {f : TileForm} (s : State) (h : i.tileForm = some f) :
    ∃ plan : Ctx → Plan, exec i s = .next (s.runInstr f.tile f.eng f.op f.word f.ok plan) := by
  cases i with
  | ctNop | ctLwait | ctHalt | ctAmov | ctAadd | ctAalu | ctSmov | ctSalu | ctXmov | ctSld | ctSst | ctPoll
  | ctLoop | ctJmp | ctFbr | ctBbr | ctFeset | ctBar | ctWatch
  | mxLdw | mxMma
  | vxAlu | vxCvt | vxTr | vxRed | vxRng | vxReds | vxEracc | vxEradd | vxErcvt | vxDclose
  | mvCpy | mvFill | mvSend | mvSld | mvSst | mvFsend | mvFrecv | mvEld | mvPgath | mvPst | mvStrf =>
    cases h; exact ⟨_, rfl⟩
  | _ => cases h

section
variable {s : State} {t : Nat} {e : Eng} {op : Nat} {w : IWord} {ok : Bool} {plan : Ctx → Plan} {fr : Front}

theorem State.streamLive_of_not_bound {x : Stream} (h : (s.tile t).bound = false) : s.streamLive t x = false := by
  simp [State.streamLive, h]

theorem State.streamLive_of_halted {x : Stream} (h : x.halted = true) : s.streamLive t x = false := by
  simp [State.streamLive, h]

/-- A stream without a plan makes no check point (R45, R103). -/
theorem State.runInstr_not_live (h : s.streamLive t ((s.tile t).stream e) = false) :
    s.runInstr t e op w ok plan = s := by
  simp [State.runInstr, h]

/-- A check point that finds no instruction in the queue raises F-0307 (R67). -/
theorem State.runInstr_empty (hl : s.streamLive t ((s.tile t).stream e) = true)
    (h : s.frontOf t e (w.bits op) w.wait.toNat = none) (h' : s.emptyFront t e w.wait.toNat = some fr) :
    s.runInstr t e op w ok plan = s.faultHold (s.instrFault t e 0x307 fr.pc) := by
  simp [State.runInstr, hl, h, h']

/-- No failed parity check of the entry at its check point stands (R71). -/
theorem State.atCheck.parityFails_any (h : s.atCheck t e op w fr) :
    ((s.tile t).parityFails.any fun f => f.queue && f.source.toNat = e.num && f.pc.toNat = fr.pc) = false := by
  obtain ⟨-, -, hpar⟩ := h
  simpa using hpar

/-- An instruction with a reserved field raises F-0309 at its check point, before its plan is looked at (R89). -/
theorem State.runInstr_reserved (h : s.atCheck t e op w fr) (hok : ok = false) :
    s.runInstr t e op w ok plan = s.faultHold (s.instrFault t e 0x309 fr.pc) := by
  have hpar := h.parityFails_any
  obtain ⟨hl, hfr, -⟩ := h
  simp [State.runInstr, State.check, hl, hfr, hpar, hok]

end

/-- Settles O9: every tile instruction is `State.runInstr` of its form (`exec_of_tileForm`), whose cases are a stream
without a plan, no check point due, an empty queue, and a reserved field. -/
theorem tileInstructionsWaitAndFault : Obligations.TileInstructionsWaitAndFault := by
  intro i f s h
  obtain ⟨plan, hexec⟩ := exec_of_tileForm s h
  rw [hexec]
  refine ⟨fun hb => ?unbound, fun hh => ?halted, fun hd he => ?notDue, fun fr hl hd he => ?empty, fun fr hc hok => ?reserved⟩
  case unbound => rw [State.runInstr_not_live (State.streamLive_of_not_bound hb)]
  case halted => rw [State.runInstr_not_live (State.streamLive_of_halted hh)]
  case notDue => rw [State.runInstr_waits hd he]
  case empty => rw [State.runInstr_empty hl hd he]; rfl
  case reserved => rw [State.runInstr_reserved hc hok]; rfl

end Sys2Proof.Machine
end

section
/-! What a register write leaves of a partition's scrub (R411): each operation behind the register port either leaves the
partitions as they are or leaves the times at which their scrubs end; only a teardown of an ACTIVE partition sets one. -/

namespace Sys2Proof.Machine
open Sys2Proof

/-! ### Folds and choices -/

/-- What every step of a fold keeps, the fold keeps. -/
theorem foldl_keeps {α β γ : Type} (g : γ → β) {f : γ → α → γ} (h : ∀ c x, g (f c x) = g c) (l : List α) (c : γ) :
    g (l.foldl f c) = g c := by
  induction l generalizing c with
  | nil => rfl
  | cons x l ih => rw [List.foldl_cons, ih, h]

@[simp] theorem State.parts_foldl {α : Type} {f : State → α → State} (h : ∀ s x, (f s x).parts = s.parts) (l : List α)
    (s : State) : (l.foldl f s).parts = s.parts := foldl_keeps State.parts h l s

/-- A fold that changes tiles. -/
@[simp] theorem State.modTile_foldl_parts {α : Type} (i : α → Nat) (f : State → α → Tile → Tile) (l : List α) (s : State) :
    (l.foldl (fun s x => s.modTile (i x) (f s x)) s).parts = s.parts := State.parts_foldl (by intros; rfl) l s

/-- A fold that changes tiles with their sync units. -/
@[simp] theorem State.modTs_foldl_parts {α : Type} (i j : α → Nat) (f : State → α → Tile → Tile)
    (g : State → α → TileSync → TileSync) (l : List α) (s : State) :
    (l.foldl (fun s x => (s.modTile (i x) (f s x)).modTs (j x) (g s x)) s).parts = s.parts :=
  State.parts_foldl (by intros; rfl) l s

/-- A fold that changes pseudo-channels. -/
@[simp] theorem State.modPch_foldl_parts {α : Type} (i : α → Nat) (f : State → α → Channel → Channel) (l : List α) (s : State) :
    (l.foldl (fun s x => s.modPch (i x) (f s x)) s).parts = s.parts := State.parts_foldl (by intros; rfl) l s

@[simp] theorem State.parts_ite (c : Prop) [Decidable c] (a b : State) :
    (if c then a else b).parts = if c then a.parts else b.parts := apply_ite ..

/-! ### Operations that leave every partition as it is -/

@[simp] theorem State.logFault_parts (s : State) (r : FaultRec) (c : Option FaultRec) : (s.logFault r c).parts = s.parts := rfl
@[simp] theorem State.rng_parts (s : State) (w : Nat) : (s.rng w).2.parts = s.parts := rfl
@[simp] theorem State.modPch_parts (s : State) (x : Nat) (f : Channel → Channel) : (s.modPch x f).parts = s.parts := rfl
@[simp] theorem State.discardDigests_parts (s : State) (p f : Nat) : (s.discardDigests p f).parts = s.parts := rfl

@[simp] theorem State.signal_parts (s : State) (f v : Nat) : (s.signal f v).parts = s.parts := by simp [State.signal]
@[simp] theorem State.partEvent_parts (s : State) (p : Nat) : (s.partEvent p).parts = s.parts := by simp [State.partEvent]
@[simp] theorem State.flood_parts (s : State) (x : Nat) (y : InlineSym) : (s.flood x y).parts = s.parts := by
  simp [State.flood]
@[simp] theorem State.raiseCause_parts (s : State) (c : BitVec 4) (x : CauseSrc) : (s.raiseCause c x).parts = s.parts := by
  unfold State.raiseCause
  split <;> simp
@[simp] theorem State.releaseOwn_parts (s : State) : s.releaseOwn.parts = s.parts := by
  unfold State.releaseOwn
  split <;> simp
@[simp] theorem State.logEvent_parts (s : State) (t d : Nat) : (s.logEvent t d).parts = s.parts := by simp [State.logEvent]

@[simp] theorem State.writeTop_parts (s : State) (o : Nat) (v : BitVec 32) : (s.writeTop o v).parts = s.parts := by
  unfold State.writeTop
  split <;> simp [State.clearFaults]

@[simp] theorem State.modDom_parts (s : State) (b : Bool) (f : Domain → Domain) : (s.modDom b f).parts = s.parts := rfl
@[simp] theorem State.modTrig_parts (s : State) (j : Nat) (f : Trigger → Trigger) : (s.modTrig j f).parts = s.parts := rfl
@[simp] theorem State.incCommit_parts (s : State) (d : Bool) (v : BitVec 32) : (s.incCommit d v).parts = s.parts := by
  simp [State.incCommit, State.incRejected]
@[simp] theorem State.adjust_parts (s : State) : s.adjust.parts = s.parts := by simp [State.adjust, State.incRejected]
@[simp] theorem State.writeTrigger_parts (s : State) (v : BitVec 32) : (s.writeTrigger v).parts = s.parts := by
  simp [State.writeTrigger, State.armTrigger]
@[simp] theorem State.writeTimeCtrl_parts (s : State) (v : BitVec 32) : (s.writeTimeCtrl v).parts = s.parts := by
  simp [State.writeTimeCtrl, State.ppsLow]
@[simp] theorem State.setDomain_parts (s : State) (d : Bool) : (s.setDomain d).parts = s.parts := rfl
@[simp] theorem State.writeTime_parts (s : State) (o : Nat) (v : BitVec 32) : (s.writeTime o v).parts = s.parts := by
  unfold State.writeTime
  dsimp only
  split
  case h_14 => rfl  -- PPS_WIDTH, whose bound of 999,999 `simp` would evaluate
  all_goals simp

@[simp] theorem State.promote_parts (s : State) : s.promote.parts = s.parts := by
  unfold State.promote
  split <;> rfl

@[simp] theorem State.updateRec_parts (s : State) (f : BootRec → BootRec) : (s.updateRec f).parts = s.parts := by
  unfold State.updateRec
  split <;> rfl
@[simp] theorem State.healthConfirm_parts (s : State) (h : Bool) : (s.healthConfirm h).parts = s.parts := by
  simp [State.healthConfirm, State.confirm]
@[simp] theorem State.writeFwu_parts (s : State) (o : Nat) (v : BitVec 32) : (s.writeFwu o v).parts = s.parts := by
  unfold State.writeFwu
  split <;> simp [State.cancelStage, State.svnCommit]

@[simp] theorem State.writeSnap_parts (s : State) (o : Nat) (v : BitVec 32) : (s.writeSnap o v).parts = s.parts := by
  unfold State.writeSnap
  split <;> simp [State.takeSnap, State.armSnap]

@[simp] theorem State.primePart_parts (s : State) (g p : Nat) : (s.primePart g p).parts = s.parts := by
  simp [State.primePart]
@[simp] theorem State.sendBarrier_parts (s : State) (r : Nat) : (s.sendBarrier r).parts = s.parts := by
  simp [State.sendBarrier]
@[simp] theorem State.launchArm_parts (s : State) : s.launchArm.parts = s.parts := by simp [State.launchArm]
@[simp] theorem State.raiseLimit_parts (s : State) (e : Episode) : (s.raiseLimit e).parts = s.parts := by
  simp [State.raiseLimit, State.raiseStall]
@[simp] theorem State.writePlan_parts (s : State) (o : Nat) (v : BitVec 32) : (s.writePlan o v).parts = s.parts := by
  unfold State.writePlan
  split <;> simp [State.writeHoldLimit, State.writeThrottle]

@[simp] theorem State.writeSeq_parts (s : State) (o : Nat) (v : BitVec 32) : (s.writeSeq o v).parts = s.parts := by
  unfold State.writeSeq
  split <;> simp [State.writeSeqCtl, State.entrySel]
@[simp] theorem State.writeBud_parts (s : State) (o : Nat) (v : BitVec 32) : (s.writeBud o v).parts = s.parts := by
  unfold State.writeBud
  split <;> simp [State.bktSel, State.budGo]
@[simp] theorem State.writeSync_parts (s : State) (o : Nat) (v : BitVec 32) : (s.writeSync o v).parts = s.parts := by
  unfold State.writeSync
  split <;> simp

@[simp] theorem State.keepRunning_parts (s old : State) (p : Nat) : (s.keepRunning old p).parts = s.parts := by
  simp [State.keepRunning]
@[simp] theorem State.refreshFabric_parts (s : State) : s.refreshFabric.parts = s.parts := by
  unfold State.refreshFabric
  dsimp only
  split
  · rfl
  · rw [State.parts_foldl fun s n => State.modLink_parts ..]
@[simp] theorem State.bindTiles_parts (s : State) (p : Nat) : (s.bindTiles p).parts = s.parts :=
  State.parts_foldl (fun s t => by split <;> simp) _ _
@[simp] theorem State.installMapping_parts (s : State) (p : Nat) : (s.installMapping p).parts = s.parts := by
  simp [State.installMapping]
@[simp] theorem State.loadTiles_parts (s : State) (p : Nat) : (s.loadTiles p).parts = s.parts := by
  unfold State.loadTiles
  split <;> simp
@[simp] theorem State.resetUnit_parts (s : State) (p g : Nat) (i : Image) : (s.resetUnit p g i).parts = s.parts := by
  simp [State.resetUnit]
@[simp] theorem State.regionNow_parts (s : State) (p : Nat) (i : Image) (ws : List (Nat × Line)) :
    (s.regionNow p i ws).parts = s.parts := by
  simp [State.regionNow, State.openWrite]
@[simp] theorem State.writeProfiles_parts (s : State) (p : Nat) : (s.writeProfiles p).parts = s.parts := by
  unfold State.writeProfiles
  dsimp only
  split
  · split <;> simp
  · rfl

@[simp] theorem State.restoreSeq_parts (s : State) (q : CkptSeq) : (s.restoreSeq q).parts = s.parts := by
  simp [State.restoreSeq]
@[simp] theorem State.restoreWords_parts (s : State) (p : Nat) (i : Image) (ws : List (Nat × Nat × Line)) :
    (s.restoreWords p i ws).parts = s.parts := by
  unfold State.restoreWords
  dsimp only
  rw [State.parts_foldl fun s x => by split <;> rfl]
  simp
@[simp] theorem State.showAshFree_parts (s : State) : s.showAshFree.parts = s.parts := by
  unfold State.showAshFree
  split <;> rfl

@[simp] theorem State.flowUpdate_parts (s : State) (n : Nat) : (s.flowUpdate n).parts = s.parts := by
  simp [State.flowUpdate]
@[simp] theorem State.admitOpen_parts (s : State) (n : Nat) : (s.admitOpen n).parts = s.parts := by simp [State.admitOpen]
@[simp] theorem State.discardPackets_parts (s : State) (n : Nat) : (s.discardPackets n).parts = s.parts := rfl
@[simp] theorem State.setLinkState_parts (s : State) (n : Nat) (st : BitVec 3) : (s.setLinkState n st).parts = s.parts := by
  simp [State.setLinkState]
@[simp] theorem State.forceRetrain_parts (s : State) (n : Nat) : (s.forceRetrain n).parts = s.parts := by
  simp [State.forceRetrain, State.goDown]
@[simp] theorem State.declarePort_parts (s : State) (n : Nat) : (s.declarePort n).parts = s.parts := by
  simp [State.declarePort, State.failPort]
@[simp] theorem State.writeFlat_parts (s : State) (v : BitVec 32) : (s.writeFlat v).parts = s.parts := by
  simp [State.writeFlat]

@[simp] theorem State.writeStk_parts (s : State) (k o : Nat) (v : BitVec 32) : (s.writeStk k o v).parts = s.parts := by
  unfold State.writeStk
  split <;> simp [State.stkGo]
@[simp] theorem State.writePcie_parts (s : State) (o : Nat) (v : BitVec 32) : (s.writePcie o v).parts = s.parts := by
  unfold State.writePcie
  split <;> simp
@[simp] theorem State.writeSvc_parts (s : State) (o : Nat) (v : BitVec 32) : (s.writeSvc o v).parts = s.parts := by
  unfold State.writeSvc
  split <;> rfl
@[simp] theorem State.queueWindow_parts (s : State) (t : Nat) (rs : List WinReq) : (s.queueWindow t rs).parts = s.parts := rfl
@[simp] theorem State.queueFe_parts (s : State) (t : Nat) (k : WinKind) (m : BitVec 32) : (s.queueFe t k m).parts = s.parts := by
  simp [State.queueFe]
@[simp] theorem State.winWrite_parts (s : State) (t o v : Nat) (d : Bool) : (s.winWrite t o v d).parts = s.parts := by
  simp [State.winWrite]
@[simp] theorem State.writeTile_parts (s : State) (n o : Nat) (v : BitVec 32) : (s.writeTile n o v).parts = s.parts := by
  unfold State.writeTile
  split
  · rfl
  split
  · simp
  · split <;> simp

@[simp] theorem State.syncCheck_parts (s : State) (p : Nat) : (s.syncCheck p).parts = s.parts := by
  unfold State.syncCheck
  dsimp only
  split <;> simp
@[simp] theorem State.emptyPools_parts (s : State) (p : Nat) : (s.emptyPools p).parts = s.parts := rfl
@[simp] theorem State.clearTables_parts (s : State) (p : Nat) : (s.clearTables p).parts = s.parts := rfl
@[simp] theorem State.leaveJob_parts (s : State) : s.leaveJob.parts = s.parts := by simp [State.leaveJob]
@[simp] theorem State.dropRun_parts (s : State) (p : Nat) (w : Bool) : (s.dropRun p w).parts = s.parts := by
  unfold State.dropRun
  split <;> simp

/-! ### Operations that leave the end of every scrub as it is -/

/-- The times at which the scrubs of the partitions end. -/
def scrubEnds (v : Vector PartBank 16) : Vector Nat 16 := v.map (·.scrubEnd)

theorem State.pt_scrubEnd (s : State) (p : Nat) : (s.pt p).scrubEnd = vget (scrubEnds s.parts) p 0 := by
  simp only [State.pt, vget, scrubEnds, Vector.getElem?_map]
  cases s.parts[p]? <;> rfl

theorem scrubEnds_vset (v : Vector PartBank 16) (i : Nat) (b : PartBank) :
    scrubEnds (vset v i b) = vset (scrubEnds v) i b.scrubEnd := by
  ext j hj
  by_cases h : i = j <;> simp [scrubEnds, vset, h]

/-- A change of a partition that leaves the end of its scrub. -/
@[simp] theorem State.modPt_scrubEnds (s : State) (p : Nat) {f : PartBank → PartBank} (h : ∀ b, (f b).scrubEnd = b.scrubEnd) :
    scrubEnds (s.modPt p f).parts = scrubEnds s.parts := by
  rw [State.modPt, scrubEnds_vset, h, State.pt_scrubEnd, vset_vget]

@[simp] theorem State.scrubEnds_foldl {α : Type} {f : State → α → State}
    (h : ∀ s x, scrubEnds (f s x).parts = scrubEnds s.parts) (l : List α) (s : State) :
    scrubEnds (l.foldl f s).parts = scrubEnds s.parts := foldl_keeps (fun s => scrubEnds s.parts) h l s

@[simp] theorem scrubEnds_ite (c : Prop) [Decidable c] (a b : Vector PartBank 16) :
    scrubEnds (if c then a else b) = if c then scrubEnds a else scrubEnds b := apply_ite ..

@[simp] theorem State.enterFaultStop_scrubEnds (s : State) : scrubEnds s.enterFaultStop.parts = scrubEnds s.parts := by
  simp [State.enterFaultStop]
@[simp] theorem State.faultHold_scrubEnds (s : State) (r : FaultRec) (c : Option FaultRec) :
    scrubEnds (s.faultHold r c).parts = scrubEnds s.parts := by
  simp [State.faultHold]
@[simp] theorem State.tickPassed_scrubEnds (s : State) (t e : Nat) (p : Option Nat) :
    scrubEnds (s.tickPassed t e p).parts = scrubEnds s.parts := by
  simp [State.tickPassed]
@[simp] theorem State.setWings_scrubEnds (s : State) (p : Nat) (w : BitVec 3) :
    scrubEnds (s.setWings p w).parts = scrubEnds s.parts := by
  simp [State.setWings]

@[simp] theorem State.writeClk_scrubEnds (s : State) (o : Nat) (v : BitVec 32) :
    scrubEnds (s.writeClk o v).parts = scrubEnds s.parts := by
  unfold State.writeClk
  split <;> simp [State.stepArm, State.rejectStep]

@[simp] theorem State.makeReport_scrubEnds (s : State) (p : Option Nat) :
    scrubEnds (s.makeReport p).parts = scrubEnds s.parts := by
  cases p <;> simp [State.makeReport]
@[simp] theorem State.requestReport_scrubEnds (s : State) : scrubEnds s.requestReport.parts = scrubEnds s.parts := by
  simp [State.requestReport]
@[simp] theorem State.installKey_scrubEnds (s : State) (p k : Nat) (key : BitVec 256) :
    scrubEnds (s.installKey p k key).parts = scrubEnds s.parts := by
  simp [State.installKey]
@[simp] theorem State.deliver_scrubEnds (s : State) : scrubEnds s.deliver.parts = scrubEnds s.parts := by
  unfold State.deliver
  dsimp only
  split <;> simp [State.installMgmt]
@[simp] theorem State.writeSec_scrubEnds (s : State) (o : Nat) (v : BitVec 32) :
    scrubEnds (s.writeSec o v).parts = scrubEnds s.parts := by
  unfold State.writeSec
  split <;> simp [State.writeMgmtTx]

@[simp] theorem State.startRun_scrubEnds (s : State) (p : Nat) (r : Bool) (e : BindEnv) :
    scrubEnds (s.startRun p r e).parts = scrubEnds s.parts := by
  cases hr : s.map.run <;> simp [State.startRun, hr]
@[simp] theorem State.writeMap_scrubEnds (s : State) (o : Nat) (v : BitVec 32) :
    scrubEnds (s.writeMap o v).parts = scrubEnds s.parts := by
  unfold State.writeMap
  split <;> simp [State.writeMapCtrl]

@[simp] theorem State.takeRebound_scrubEnds (s : State) (p : Nat) : scrubEnds (s.takeRebound p).parts = scrubEnds s.parts := by
  unfold State.takeRebound
  split <;> simp
@[simp] theorem State.rollPart_scrubEnds (s : State) (p : Nat) (i : Image) :
    scrubEnds (s.rollPart p i).parts = scrubEnds s.parts := by
  simp [State.rollPart]
@[simp] theorem State.endFaultHold_scrubEnds (s : State) : scrubEnds s.endFaultHold.parts = scrubEnds s.parts := by
  simp [State.endFaultHold]
@[simp] theorem State.endByRebind_scrubEnds (s : State) (p : Nat) : scrubEnds (s.endByRebind p).parts = scrubEnds s.parts := by
  simp [State.endByRebind]
@[simp] theorem State.settleRebound_scrubEnds (s : State) : scrubEnds s.settleRebound.parts = scrubEnds s.parts := by
  simp [State.settleRebound]
@[simp] theorem State.rollAdvance_scrubEnds (s : State) : scrubEnds s.rollAdvance.parts = scrubEnds s.parts := by
  have h (v : Vector PartBank 16) : scrubEnds (v.map fun b => { b with rebound := none }) = scrubEnds v := by
    simp [scrubEnds, Function.comp_def]
  simp [State.rollAdvance, h]

@[simp] theorem State.recoveryFail_scrubEnds (s : State) (r : Nat) : scrubEnds (s.recoveryFail r).parts = scrubEnds s.parts := by
  simp [State.recoveryFail]
@[simp] theorem State.replayUnit_scrubEnds (s : State) (p : Nat) (i : Image) :
    scrubEnds (s.replayUnit p i).parts = scrubEnds s.parts := by
  unfold State.replayUnit
  extract_lets n entry leads g first s1 s2 same
  have h : s2.parts = s.parts := by
    simp only [s2]
    split <;> simp [s1]
  split
  · simp
  · exact (State.modPt_scrubEnds _ _ (by intro; rfl)).trans (congrArg scrubEnds h)
@[simp] theorem State.writeRoDone_scrubEnds (s : State) : scrubEnds s.writeRoDone.parts = scrubEnds s.parts := by
  unfold State.writeRoDone
  dsimp only
  split
  · simp
  split
  · split <;> simp [State.wantRollback]
  · simp

@[simp] theorem State.ckptArm_scrubEnds (s : State) : scrubEnds s.ckptArm.parts = scrubEnds s.parts := by
  simp [State.ckptArm]

theorem State.resumePart_scrubEnds {s t : State} {p : Nat} {x : BitVec 64} (h : s.resumePart p x = some t) :
    scrubEnds t.parts = scrubEnds s.parts := by
  unfold State.resumePart at h
  dsimp only at h
  split at h
  · cases h; simp
  split at h
  · cases h; simp
  split at h
  · cases h; simp
  split at h
  · cases h
  · cases h; simp
theorem State.resumeAll_scrubEnds {l : List (Nat × BitVec 64)} {s t : State}
    (h : l.foldl (fun (s : Option State) x => s.bind fun s => s.resumePart x.1 x.2) (some s) = some t) :
    scrubEnds t.parts = scrubEnds s.parts := by
  induction l generalizing s with
  | nil => cases h; rfl
  | cons x l ih =>
    rw [List.foldl_cons, Option.bind_some] at h
    cases e : s.resumePart x.1 x.2 with
    | none =>
      rw [e, List.foldl_fixed' (fun _ => rfl)] at h
      cases h
    | some s' =>
      rw [e] at h
      exact (ih h).trans (State.resumePart_scrubEnds e)
@[simp] theorem State.restoreGen_scrubEnds (s : State) (g : CkptGen) : scrubEnds (s.restoreGen g).parts = scrubEnds s.parts := by
  unfold State.restoreGen
  dsimp only
  split
  · simp
  next h => simpa using State.resumeAll_scrubEnds h

@[simp] theorem State.routeOpen_scrubEnds (s : State) (x : Packet) (v : Nat) :
    scrubEnds (s.routeOpen x v).parts = scrubEnds s.parts := by
  unfold State.routeOpen
  dsimp only
  split <;> simp [State.countDrop]
@[simp] theorem State.phase4_scrubEnds (s : State) : scrubEnds s.phase4.parts = scrubEnds s.parts := by
  unfold State.phase4
  dsimp only
  split
  · split <;> simp
  split
  · simp
  split
  · split <;> simp [State.adoptAsh]
  · simp [State.inject]
@[simp] theorem State.writeRestoreGen_scrubEnds (s : State) (v : BitVec 32) :
    scrubEnds (s.writeRestoreGen v).parts = scrubEnds s.parts := by
  simp [State.writeRestoreGen]
@[simp] theorem State.writeDig_scrubEnds (s : State) (o : Nat) (v : BitVec 32) :
    scrubEnds (s.writeDig o v).parts = scrubEnds s.parts := by
  unfold State.writeDig
  split <;> simp [State.clearErFlags]

@[simp] theorem State.startTraining_scrubEnds (s : State) (n : Nat) (r : Bool) :
    scrubEnds (s.startTraining n r).parts = scrubEnds s.parts := by
  simp [State.startTraining]
@[simp] theorem State.writeEnable_scrubEnds (s : State) (n : Nat) (r : Bool) :
    scrubEnds (s.writeEnable n r).parts = scrubEnds s.parts := by
  simp [State.writeEnable]
@[simp] theorem State.fullTrainReq_scrubEnds (s : State) (n : Nat) :
    scrubEnds (s.fullTrainReq n).parts = scrubEnds s.parts := by
  simp [State.fullTrainReq]
@[simp] theorem State.writeLnk_scrubEnds (s : State) (n o : Nat) (v : BitVec 32) :
    scrubEnds (s.writeLnk n o v).parts = scrubEnds s.parts := by
  unfold State.writeLnk
  split <;> simp [State.writeLnkCtrl, State.laneSwapReq, State.requestLane]

/-! ### Partitions -/

@[simp] theorem State.setPartState_scrubEnds (s : State) (p : Nat) (st : BitVec 3) :
    scrubEnds (s.setPartState p st).parts = scrubEnds s.parts := by
  simp [State.setPartState]
@[simp] theorem State.checkEnable_scrubEnds (s : State) (p : Nat) : scrubEnds (s.checkEnable p).parts = scrubEnds s.parts := by
  unfold State.checkEnable
  dsimp only
  split <;> simp
@[simp] theorem State.partEnable_scrubEnds (s : State) (p : Nat) : scrubEnds (s.partEnable p).parts = scrubEnds s.parts := by
  simp [State.partEnable, State.enable]

theorem Bnd.foldl_scrubEnds {α : Type} {f : Bnd → α → Bnd} (h : ∀ b x, scrubEnds (f b x).s.parts = scrubEnds b.s.parts)
    (l : List α) (b : Bnd) : scrubEnds (l.foldl f b).s.parts = scrubEnds b.s.parts :=
  foldl_keeps (fun b : Bnd => scrubEnds b.s.parts) h l b
@[simp] theorem State.changeBkt_scrubEnds (s : State) (p c : Nat) (f : Bucket → Bucket) :
    scrubEnds (s.changeBkt p c f).parts = scrubEnds s.parts := by
  simp [State.changeBkt, State.ledgerFault, State.setBkt]
@[simp] theorem Bnd.settle_scrubEnds (b : Bnd) (rets : List (Slot × Ret)) (i : Nat) (e : Entry) :
    scrubEnds (b.settle rets i e).s.parts = scrubEnds b.s.parts := by
  unfold Bnd.settle
  extract_lets l ret ch c b1 dec e1
  have h : scrubEnds b1.s.parts = scrubEnds b.s.parts := by
    simp only [b1]
    split
    · rfl
    · simp [Bnd.note]
  clear_value b1 e1
  split
  · exact h
  · extract_lets e2 rec unit b2 b3
    split
    · exact h
    · exact h
theorem Bnd.outcomes_scrubEnds (b : Bnd) : scrubEnds b.outcomes.s.parts = scrubEnds b.s.parts := by
  unfold Bnd.outcomes
  exact Bnd.foldl_scrubEnds (fun b x => Bnd.settle_scrubEnds ..) _ _
theorem Bnd.mismatch_scrubEnds {b : Bnd} {t : State} (h : b.mismatch = some t) : scrubEnds t.parts = scrubEnds b.s.parts := by
  unfold Bnd.mismatch at h
  split at h
  · cases h
  · obtain ⟨x, -, rfl⟩ := Option.map_eq_some_iff.mp h
    simp
@[simp] theorem State.lastBoundary_scrubEnds (s : State) (p : Nat) (i : Image) (sv : Serving) :
    scrubEnds (s.lastBoundary p i sv).parts = scrubEnds s.parts := by
  unfold State.lastBoundary
  extract_lets b
  split
  next h => exact Bnd.mismatch_scrubEnds h
  next => exact Bnd.outcomes_scrubEnds b
@[simp] theorem State.endServing_scrubEnds (s : State) (p : Nat) : scrubEnds (s.endServing p).parts = scrubEnds s.parts := by
  unfold State.endServing
  split <;> simp
@[simp] theorem State.beginLoad_scrubEnds (s : State) (p : Nat) : scrubEnds (s.beginLoad p).parts = scrubEnds s.parts := by
  simp [State.beginLoad]
@[simp] theorem State.exchange_scrubEnds (s : State) (p : Nat) : scrubEnds (s.exchange p).parts = scrubEnds s.parts := by
  simp [State.exchange, State.resetRequests]
@[simp] theorem State.curtainArm_scrubEnds (s : State) (p : Nat) : scrubEnds (s.curtainArm p).parts = scrubEnds s.parts := by
  simp [State.curtainArm, State.rejectCurtain, State.curtainNow]
@[simp] theorem State.wingsGo_scrubEnds (s : State) (p : Nat) : scrubEnds (s.wingsGo p).parts = scrubEnds s.parts := by
  simp [State.wingsGo]

end Sys2Proof.Machine
end

section
/-! Partitions whose scrub runs: register writes at the port, the pending configuration and the chained restart (R401, R411). -/

namespace Sys2Proof.Machine
open Sys2Proof

/-! ### Reading one partition -/

theorem State.pt_congr {s t : State} (h : t.parts = s.parts) (p : Nat) : t.pt p = s.pt p := by simp [State.pt, h]

theorem State.scrubEnd_congr {s t : State} (h : scrubEnds t.parts = scrubEnds s.parts) (p : Nat) :
    (t.pt p).scrubEnd = (s.pt p).scrubEnd := by
  rw [State.pt_scrubEnd, h, State.pt_scrubEnd]

/-- What a change of a partition leaves of it, it leaves of every partition. -/
theorem State.pt_modPt_keeps {β : Type} (g : PartBank → β) {f : PartBank → PartBank} (h : ∀ b, g (f b) = g b) (s : State)
    (p q : Nat) : g ((s.modPt p f).pt q) = g (s.pt q) := by
  by_cases hpq : p = q
  · subst hpq
    by_cases hp : p < 16
    · rw [State.pt_modPt_same _ _ _ hp, h]
    · rw [State.modPt, vset_of_ge _ _ _ (Nat.le_of_not_lt hp)]
  · rw [State.pt_modPt_ne _ _ _ _ hpq]

/-- A partition's state written changes nothing else of the partition (R411). -/
theorem State.pt_setPartState (s : State) {p : Nat} (hp : p < 16) (st : BitVec 3) :
    (s.setPartState p st).pt p = { s.pt p with state := st } := by
  unfold State.setPartState
  split
  next h => rw [← h]
  next =>
    rw [State.pt_congr (s := s.modPt p fun b => { b with state := st }) (by simp), State.pt_modPt_same _ _ _ hp]

/-! ### The pending copy (R401) -/

/-- A resource field written while the partition is not OFF goes to the pending copy. -/
theorem State.writeRes_pending {s : State} (h : (s.pt s.part.psel.toNat).state ≠ 0#3) (f : PartRes → PartRes) :
    s.writeRes f = s.modPt s.part.psel.toNat fun b => { b with pendRes := some (f (b.pendRes.getD b.res)) } := by
  simp [State.writeRes, State.modPt, h, PartBank.written]

/-- CFG_PENDING reads 1 where the selected partition has a pending copy. -/
theorem State.readPart_cfgPending {s : State} (h : (s.pt s.part.psel.toNat).pendRes.isSome = true) :
    bit (s.readPart 8) 3 = true := by
  simp [State.readPart, bit, pack32, bn, h]

/-- A register of PART once firmware is ready. -/
theorem State.readReg_part {s : State} (h : s.top.fwReady = true) {o : Nat} (ho : o < 65536) :
    s.readReg (0xE0000 + o) = s.readPart o := by
  have hk : (0xE0000 + o) / 65536 = 0xE := by omega
  have hm : (0xE0000 + o) % 65536 = o := by omega
  simp [State.readReg, h, State.readBlock, hk, hm]

/-- A write to a register of PART through BAR0 once firmware is ready. -/
theorem exec_registerWrite_part {s : State} (hs : s.ready = true) (off : BitVec 26) (v : BitVec 32)
    (hb : off.toNat / 65536 = 0xE) (ho : off.toNat % 4 = 0) :
    exec (.registerWrite 0 off v) s = .next (s.writePart (off.toNat % 65536) v) := by
  obtain ⟨ha, hf⟩ : s.alive = true ∧ s.top.fwReady = true := by simpa [State.ready] using hs
  have hlt : ¬ 0x2000000 ≤ off.toNat := by omega
  show Host.Outcome.next _ = _
  simp [State.access, ha, ho, State.portWrite, hlt, State.writeReg, hf, State.writeBlock, hb]

/-! ### The check of an enable (R400) -/

/-- The check of an enable looks at the other partitions' states and resources alone. -/
theorem State.enableFails_congr {s t : State} {p : Nat} (hst : ∀ q, (t.pt q).state = (s.pt q).state)
    (hres : ∀ q, q ≠ p → (t.pt q).res = (s.pt q).res) (r : PartRes) : t.enableFails p r = s.enableFails p r := by
  have hact : t.activeParts = s.activeParts := by simp [State.activeParts, hst]
  have hjob : ((s.activeParts.filter (· ≠ p)).any fun q => (t.pt q).res.job ≠ r.job) =
      (s.activeParts.filter (· ≠ p)).any fun q => (s.pt q).res.job ≠ r.job := by
    rw [List.any_filter, List.any_filter]
    congr 1
    funext q
    by_cases hq : q = p
    · simp [hq]
    · rw [hres q hq]
  have hov : ((s.activeParts.filter (· ≠ p)).filterMap fun q => r.overlap (t.pt q).res) =
      (s.activeParts.filter (· ≠ p)).filterMap fun q => r.overlap (s.pt q).res := by
    refine List.filterMap_congr fun q hq => ?_
    rw [hres q (by simpa using (List.mem_filter.mp hq).2)]
  simp only [State.enableFails, hact, hjob, hov]

/-- Whether an enable waits hangs on the scrubs after reset and on the other partitions' states and resources. -/
theorem State.enableWaits_congr {s t : State} {p : Nat} (hrs : t.resetScrubs = s.resetScrubs)
    (hst : ∀ q, (t.pt q).state = (s.pt q).state) (hres : ∀ q, q ≠ p → (t.pt q).res = (s.pt q).res) (r : PartRes) :
    t.enableWaits p r = s.enableWaits p r := by
  unfold State.enableWaits
  rw [hrs]
  congr 2
  funext q
  by_cases hq : q = p
  · simp [hq]
  · rw [hst, hres q hq]

/-- What the check of R400 leaves of the partition: its resources and pending copy, and the state that it comes to. -/
theorem State.pt_checkEnable (s : State) {p : Nat} (hp : p < 16) :
    let r := (s.pt p).res
    let b := (s.checkEnable p).pt p
    b.res = r ∧ b.pendRes = (s.pt p).pendRes ∧
      b.state = if (s.enableFails p r).isSome then 0#3 else if s.enableWaits p r then 4#3 else 1#3 := by
  intro r b
  unfold b State.checkEnable
  dsimp only
  cases hf : s.enableFails p (s.pt p).res with
  | some f =>
    rw [State.pt_setPartState _ hp, State.pt_congr (State.logFault_parts ..)]
    simp [r]
  | none =>
    cases hw : s.enableWaits p (s.pt p).res with
    | true => simp [State.pt_setPartState _ hp, r]
    | false =>
      dsimp only
      rw [if_neg (by simp), State.pt_setPartState _ hp, State.pt_congr (State.modBd_parts ..), State.pt_modPt_same _ _ _ hp,
        State.pt_congr (State.rng_parts ..)]
      simp [r]

/-- A partition whose pending copy takes effect (R401). -/
def PartBank.takePending (b : PartBank) : PartBank := { b with
  res := b.pendRes.getD b.res
  pendRes := none }

theorem State.enable_eq (s : State) (p : Nat) : s.enable p = (s.modPt p PartBank.takePending).checkEnable p := rfl

/-- An enable takes the pending copy, and the check of R400 decides on the state (R401). -/
theorem State.pt_enable (s : State) {p : Nat} (hp : p < 16) :
    let r := (s.pt p).pendRes.getD (s.pt p).res
    let b := (s.enable p).pt p
    b.res = r ∧ b.pendRes = none ∧
      b.state = if (s.enableFails p r).isSome then 0#3 else if s.enableWaits p r then 4#3 else 1#3 := by
  have hst (q : Nat) : ((s.modPt p PartBank.takePending).pt q).state = (s.pt q).state :=
    State.pt_modPt_keeps (·.state) (by intro; rfl) s p q
  have hres (q : Nat) (hq : q ≠ p) : ((s.modPt p PartBank.takePending).pt q).res = (s.pt q).res := by
    rw [State.pt_modPt_ne _ _ _ _ hq.symm]
  have h := State.pt_checkEnable (s.modPt p PartBank.takePending) hp
  rw [State.pt_modPt_same _ _ _ hp] at h
  dsimp only at h
  rw [State.enableFails_congr hst hres, State.enableWaits_congr (s := s) (t := s.modPt p PartBank.takePending) rfl hst hres] at h
  rw [State.enable_eq]
  exact h

/-! ### Register writes during a teardown (R411) -/

/-- A teardown sets the end of that partition's scrub alone. -/
theorem State.beginScrub_scrubEnd_ne (s : State) {p q : Nat} (h : p ≠ q) :
    ((s.beginScrub p).pt q).scrubEnd = (s.pt q).scrubEnd := by
  unfold State.beginScrub
  extract_lets rows s1 s2 s3 s4 s5
  have h4 : scrubEnds s4.parts = scrubEnds s.parts := by simp [s4, s3, s2, s1]
  have h5 : s5.pt q = s4.pt q := State.pt_modPt_ne _ _ _ _ h
  rw [State.scrubEnd_congr (s := s5) (by simp), h5, State.scrubEnd_congr h4]

section
variable {s : State} {q : Nat} (h : (s.pt q).state = 2#3 ∨ (s.pt q).state = 3#3)
include h

/-- ENABLE written with 0 leaves the end of a scrub in progress. -/
theorem State.partDisable_scrubEnd (p : Nat) : ((s.partDisable p).pt q).scrubEnd = (s.pt q).scrubEnd := by
  unfold State.partDisable
  dsimp only
  split
  next h1 =>
    refine State.beginScrub_scrubEnd_ne s ?_
    rintro rfl
    simp [h1] at h
  next => exact State.scrubEnd_congr (by simp) q

/-- PART.CTRL written leaves the end of a scrub in progress. -/
theorem State.writePartCtrl_scrubEnd (p : Nat) (v : BitVec 32) :
    ((s.writePartCtrl p v).pt q).scrubEnd = (s.pt q).scrubEnd := by
  unfold State.writePartCtrl
  extract_lets s1 s2
  have h1 : scrubEnds s1.parts = scrubEnds s.parts := by simp [s1]
  have hst : (s1.pt q).state = (s.pt q).state := State.pt_modPt_keeps (·.state) (by intro; rfl) s p q
  have h2 : (s2.pt q).scrubEnd = (s1.pt q).scrubEnd := by
    simp only [s2]
    split
    · exact State.scrubEnd_congr (by simp) q
    · exact State.partDisable_scrubEnd (by rwa [hst]) p
  rw [State.scrubEnd_congr (s := s2) (by simp), h2, State.scrubEnd_congr h1]

theorem State.writePart_scrubEnd (o : Nat) (v : BitVec 32) :
    ((s.writePart o v).pt q).scrubEnd = (s.pt q).scrubEnd := by
  have hres (f : PartRes → PartRes) : scrubEnds (s.writeRes f).parts = scrubEnds s.parts :=
    State.modPt_scrubEnds _ _ fun b => by split <;> rfl
  unfold State.writePart
  dsimp only
  split
  case h_2 => exact State.writePartCtrl_scrubEnd h _ v  -- PART.CTRL
  all_goals exact State.scrubEnd_congr (by simp [hres]) q

theorem State.writeBlock_scrubEnd (off : Nat) (v : BitVec 32) :
    ((s.writeBlock off v).pt q).scrubEnd = (s.pt q).scrubEnd := by
  unfold State.writeBlock
  dsimp only
  split
  case h_14 => exact State.writePart_scrubEnd h _ v  -- block 0x0E, PART
  all_goals exact State.scrubEnd_congr (by simp) q

theorem State.writeReg_scrubEnd (off : Nat) (v : BitVec 32) :
    ((s.writeReg off v).pt q).scrubEnd = (s.pt q).scrubEnd := by
  unfold State.writeReg
  split
  · exact State.writeBlock_scrubEnd h off v
  · rfl

/-- A write through BAR0, to a register or to one bit of it (R489), leaves the end of a scrub in progress. -/
theorem State.portWrite_scrubEnd (off : Nat) (v : BitVec 32) :
    ((s.portWrite off v).pt q).scrubEnd = (s.pt q).scrubEnd := by
  have hbit : ((s.aliasWrite off v).pt q).scrubEnd = (s.pt q).scrubEnd := by
    unfold State.aliasWrite
    extract_lets a acc m base
    split
    · exact State.writeReg_scrubEnd h _ _
    split
    · exact State.writeReg_scrubEnd h _ _
    split
    · exact State.writeReg_scrubEnd h _ _
    · rfl
  unfold State.portWrite
  split
  · exact hbit
  · exact State.writeReg_scrubEnd h off v

theorem exec_registerWrite_scrubEnd {t : State} {off : BitVec 26} {v : BitVec 32}
    (ht : exec (.registerWrite 0 off v) s = .next t) : (t.pt q).scrubEnd = (s.pt q).scrubEnd := by
  obtain rfl : s.access off.toNat true (fun s => s.portWrite off.toNat v) = t := Host.Outcome.next.inj ht
  unfold State.access
  split
  · rfl
  split
  · rfl
  · exact State.portWrite_scrubEnd h _ v

end

/-! ### The end of a scrub (R410) -/

@[simp] theorem State.erase_parts (s : State) (p : Nat) : (s.erase p).parts = s.parts := by
  have h (l : List Nat) (k : Nat) (s : State) : (l.foldl (fun s c => s.modChan k c Channel.scrub) s).parts = s.parts :=
    State.parts_foldl (fun _ _ => State.modChan_parts ..) _ _
  simp [State.erase, h]
@[simp] theorem State.scrubFailed_parts (s : State) (p k c : Nat) : (s.scrubFailed p k c).parts = s.parts := by
  simp [State.scrubFailed]

/-- Settles O56. Each register of PART is the shared write of a resource field; what an enable leaves of its partition, and
that no register write touches the end of a scrub in progress, are said once above. -/
theorem pendingConfigurationAndChainedRestart : Obligations.PendingConfigurationAndChainedRestart := by
  unfold Obligations.PendingConfigurationAndChainedRestart
  refine ⟨?pending, fun p s => State.pt_enable s p.isLt, ?teardown,
    fun p off v s t h ht => exec_registerWrite_scrubEnd h ht, ?scrubbed⟩
  case pending =>
    intro v s hs p put hp
    have hres (off : BitVec 26) (f : PartRes → PartRes) (hb : off.toNat / 65536 = 0xE) (ho : off.toNat % 4 = 0)
        (hf : s.writePart (off.toNat % 65536) v = s.writeRes f) : exec (.registerWrite 0 off v) s = .next (put f) := by
      rw [exec_registerWrite_part hs off v hb ho, hf, State.writeRes_pending hp]
    have hcfg (f : PartRes → PartRes) : bit ((put f).readReg 0xE0008) 3 = true := by
      obtain ⟨-, hf⟩ : s.alive = true ∧ s.top.fwReady = true := by simpa [State.ready] using hs
      rw [State.readReg_part (s := put f) hf (o := 8) (by decide)]
      refine State.readPart_cfgPending ?_
      show ((s.modPt p _).pt p).pendRes.isSome = true
      rw [State.pt_modPt_same _ _ _ (BitVec.isLt s.part.psel)]
      rfl
    have hcount : BitVec.ofNat 15 (v.toNat / 65536) = BitVec.ofNat 15 (field v 30 16) := by
      apply BitVec.eq_of_toNat_eq
      simp [field, Nat.shiftRight_eq_div_pow]
    clear_value put
    rw [hcount]
    exact ⟨hres 0xE000C _ rfl rfl rfl, hres 0xE0010 _ rfl rfl rfl, hres 0xE0014 _ rfl rfl rfl, hres 0xE0018 _ rfl rfl rfl,
      hres 0xE001C _ rfl rfl rfl, hres 0xE0020 _ rfl rfl rfl, hres 0xE0024 _ rfl rfl rfl, hres 0xE0028 _ rfl rfl rfl, hcfg⟩
  case teardown =>
    intro p s hs
    refine ⟨fun h2 => ?_, fun h3 => ⟨?_, ?_⟩, fun st => ⟨?_, State.scrubEnd_congr (State.setPartState_scrubEnds ..) p⟩⟩
    · show Host.Outcome.next _ = _
      simp [State.ifReady, hs, State.partEnable, h2]
    · show Host.Outcome.next _ = _
      simp [State.ifReady, hs, State.partEnable, h3]
    · show Host.Outcome.next _ = _
      simp [State.ifReady, hs, State.partDisable, h3]
    · rw [State.pt_setPartState _ p.isLt]
  case scrubbed =>
    intro p fails s ha h3 hw s₁
    constructor
    · show execScrubDone p fails s = _
      simp [execScrubDone, ha, h3, Nat.not_lt.mpr hw, s₁]
    · simp [s₁]

end Sys2Proof.Machine
end

section
/-! What leaves the registers of FWU as they are (R470): one lemma per operation, in the order of the model. Here the
operations that every family shares, and one pc of the tiles. An equation that unfolding alone shows is proved `by rfl`,
not by the term `rfl`: `simp` then keeps its proof where it uses the lemma to discharge the hypothesis of
`State.fwu_foldl`. -/

namespace Sys2Proof.Machine
open Sys2Proof

/-- What every step of a fold keeps of FWU, the fold keeps. -/
@[simp] theorem State.fwu_foldl {α : Type} {f : State → α → State} (h : ∀ s x, (f s x).fwu = s.fwu) (l : List α)
    (s : State) : (l.foldl f s).fwu = s.fwu := foldl_keeps State.fwu h l s

/-- A fold that changes tiles. -/
@[simp] theorem State.modTile_foldl_fwu {α : Type} (i : α → Nat) (f : State → α → Tile → Tile) (l : List α) (s : State) :
    (l.foldl (fun s x => s.modTile (i x) (f s x)) s).fwu = s.fwu := State.fwu_foldl (by intros; rfl) l s

/-- A fold that changes tiles with their sync units. -/
@[simp] theorem State.modTile_modTs_foldl_fwu {α : Type} (i j : α → Nat) (f : State → α → Tile → Tile)
    (g : State → α → TileSync → TileSync) (l : List α) (s : State) :
    (l.foldl (fun s x => (s.modTile (i x) (f s x)).modTs (j x) (g s x)) s).fwu = s.fwu :=
  State.fwu_foldl (by intros; rfl) l s

/-- A fold that changes sync units of tiles. -/
@[simp] theorem State.modTs_foldl_fwu {α : Type} (j : α → Nat) (g : State → α → TileSync → TileSync) (l : List α)
    (s : State) : (l.foldl (fun s x => s.modTs (j x) (g s x)) s).fwu = s.fwu := State.fwu_foldl (by intros; rfl) l s

@[simp] theorem State.fwu_ite (c : Prop) [Decidable c] (a b : State) :
    (if c then a else b).fwu = if c then a.fwu else b.fwu := apply_ite ..

@[simp] theorem State.rng_fwu (s : State) (w : Nat) : (s.rng w).2.fwu = s.fwu := by rfl

/-! ### Interrupts, faults, holds and episodes (R32 to R43, R436, R494, R513) -/

@[simp] theorem State.signal_fwu (s : State) (f v : Nat) : (s.signal f v).fwu = s.fwu := by simp [State.signal]
@[simp] theorem State.partEvent_fwu (s : State) (p : Nat) : (s.partEvent p).fwu = s.fwu := by simp [State.partEvent]
@[simp] theorem State.setPartState_fwu (s : State) (p : Nat) (st : BitVec 3) :
    (s.setPartState p st).fwu = s.fwu := by simp [State.setPartState]
@[simp] theorem State.setWings_fwu (s : State) (p : Nat) (w : BitVec 3) : (s.setWings p w).fwu = s.fwu := by
  simp [State.setWings]
@[simp] theorem State.logEvent_fwu (s : State) (ty detail : Nat) : (s.logEvent ty detail).fwu = s.fwu := by
  simp [State.logEvent]
@[simp] theorem State.showLastFault_fwu (s : State) (r : FaultRec) : (s.showLastFault r).fwu = s.fwu := by
  simp [State.showLastFault]
@[simp] theorem State.logFault_fwu (s : State) (r : FaultRec) (c : Option FaultRec) :
    (s.logFault r c).fwu = s.fwu := by rfl
@[simp] theorem State.writeFault_fwu (s : State) (r : FaultRec) (c : Option FaultRec) :
    (s.writeFault r c).fwu = s.fwu := by simp [State.writeFault]
@[simp] theorem State.writeFaults_fwu (s : State) : s.writeFaults.fwu = s.fwu := by simp [State.writeFaults]
@[simp] theorem State.flood_fwu (s : State) (except : Nat) (sym : InlineSym) :
    (s.flood except sym).fwu = s.fwu := by simp [State.flood]
@[simp] theorem State.raiseCause_fwu (s : State) (code : BitVec 4) (src : CauseSrc) :
    (s.raiseCause code src).fwu = s.fwu := by
  unfold State.raiseCause
  split <;> simp
@[simp] theorem State.clearCause_fwu (s : State) (src : CauseSrc) : (s.clearCause src).fwu = s.fwu := by rfl
@[simp] theorem State.enterFaultStop_fwu (s : State) : s.enterFaultStop.fwu = s.fwu := by simp [State.enterFaultStop]
@[simp] theorem State.faultHold_fwu (s : State) (r : FaultRec) (c : Option FaultRec) :
    (s.faultHold r c).fwu = s.fwu := by simp [State.faultHold]
@[simp] theorem State.applyHold_fwu (s : State) (origin : BitVec 24) (num : BitVec 8) :
    (s.applyHold origin num).fwu = s.fwu := by
  unfold State.applyHold
  split <;> simp
@[simp] theorem State.applyRelease_fwu (s : State) (origin : BitVec 24) (num : BitVec 8) :
    (s.applyRelease origin num).fwu = s.fwu := by rfl
@[simp] theorem State.releaseOwn_fwu (s : State) : s.releaseOwn.fwu = s.fwu := by
  unfold State.releaseOwn
  split <;> simp
@[simp] theorem State.applyOwn_fwu (s : State) : s.applyOwn.fwu = s.fwu := by simp [State.applyOwn]
@[simp] theorem State.resume_fwu (s : State) : s.resume.fwu = s.fwu := by
  unfold State.resume
  split
  · rfl
  split
  · simp
  · cases s.windowBusy <;> cases s.refreshBusy <;> simp

/-! ### Words of a stack -/

@[simp] theorem State.modPch_fwu (s : State) (x : Nat) (f : Channel → Channel) : (s.modPch x f).fwu = s.fwu := by rfl
@[simp] theorem State.stackUE_fwu (s : State) (x w : Nat) (p : Option Nat) : (s.stackUE x w p).fwu = s.fwu := by rfl
@[simp] theorem State.stackCE_fwu (s : State) (x w : Nat) (die : BitVec 4) : (s.stackCE x w die).fwu = s.fwu := by rfl
@[simp] theorem State.admitWrite_fwu (s : State) (x : Nat) (pw : PendWrite) : (s.admitWrite x pw).fwu = s.fwu := by rfl

/-! ### The check point of a tile instruction -/

@[simp] theorem State.conflict_fwu (s : State) (part res num : Nat) (a b : Nat × Nat × BitVec 32) :
    (s.conflict part res num a b).fwu = s.fwu := by rfl
@[simp] theorem State.windowConflict_fwu (s : State) (part bank tile unit : Nat) (pc : BitVec 32) :
    (s.windowConflict part bank tile unit pc).fwu = s.fwu := by rfl
@[simp] theorem State.tileUE_fwu (s : State) (t w unit : Nat) (pc : BitVec 32) :
    (s.tileUE t w unit pc).fwu = s.fwu := by simp [State.tileUE]
@[simp] theorem State.noteStall_fwu (s : State) (t w unit : Nat) (pc : BitVec 32) :
    (s.noteStall t w unit pc).fwu = s.fwu := by
  unfold State.noteStall
  dsimp only
  split <;> simp
@[simp] theorem State.syncConflict_fwu (s : State) (t unit : Nat) (pc : BitVec 32) (word : Nat) :
    (s.syncConflict t unit pc word).fwu = s.fwu := by
  unfold State.syncConflict
  dsimp only
  split
  · simp
  · split <;> simp
@[simp] theorem State.lateUse_fwu (s : State) (t : Nat) (e : Eng) (code : BitVec 4) (words : List Nat) (pc : BitVec 32) :
    (s.lateUse t e code words pc).fwu = s.fwu := by simp [State.lateUse]
@[simp] theorem State.checkPlan_fwu (s : State) (t : Nat) (e : Eng) (fr : Front) (f : Flight) (pl : Plan) :
    (s.checkPlan t e fr f pl).fwu = s.fwu := by
  unfold State.checkPlan
  dsimp only
  split
  · simp
  · split <;> simp
@[simp] theorem State.check_fwu (s : State) (t : Nat) (e : Eng) (op : Nat) (w : IWord) (ok : Bool) (plan : Ctx → Plan)
    (fr : Front) : (s.check t e op w ok plan fr).fwu = s.fwu := by
  unfold State.check
  dsimp only
  split
  · rfl
  split
  · simp
  split
  · simp
  · split <;> simp
@[simp] theorem State.runInstr_fwu (s : State) (t : Nat) (e : Eng) (op : Nat) (w : IWord) (ok : Bool)
    (plan : Ctx → Plan) : (s.runInstr t e op w ok plan).fwu = s.fwu := by
  unfold State.runInstr
  split
  · rfl
  split
  · simp
  · split <;> simp

/-! ### Packets -/

@[simp] theorem State.flowUpdate_fwu (s : State) (n : Nat) : (s.flowUpdate n).fwu = s.fwu := by simp [State.flowUpdate]
@[simp] theorem State.admitOpen_fwu (s : State) (n : Nat) : (s.admitOpen n).fwu = s.fwu := by simp [State.admitOpen]
@[simp] theorem State.countDrop_fwu (s : State) (n : Nat) : (s.countDrop n).fwu = s.fwu := by rfl
@[simp] theorem State.routeOpen_fwu (s : State) (p : Packet) (via : Nat) : (s.routeOpen p via).fwu = s.fwu := by
  unfold State.routeOpen
  dsimp only
  split <;> simp
@[simp] theorem State.inject_fwu (s : State) (p : Packet) : (s.inject p).fwu = s.fwu := by simp [State.inject]
@[simp] theorem State.queueP_fwu (s : State) (n : Nat) (p : Packet) (readyAt : Nat) (relay : Bool) (via part : Nat) :
    (s.queueP n p readyAt relay via part).fwu = s.fwu := by simp [State.queueP]
@[simp] theorem State.sendP_fwu (s : State) (part : Nat) (p : Packet) (readyAt : Nat) :
    (s.sendP part p readyAt).fwu = s.fwu := by
  unfold State.sendP
  dsimp only
  split <;> simp
@[simp] theorem State.countStall_fwu (s : State) (n : Nat) : (s.countStall n).fwu = s.fwu := by rfl
@[simp] theorem State.transmit_fwu (s : State) (n : Nat) (p : Packet) : (s.transmit n p).fwu = s.fwu := by rfl
@[simp] theorem State.retransmit_fwu (s : State) (n : Nat) (p : Packet) : (s.retransmit n p).fwu = s.fwu := by rfl
@[simp] theorem State.dropRelayed_fwu (s : State) (via : Nat) (p : Packet) : (s.dropRelayed via p).fwu = s.fwu := by
  simp [State.dropRelayed]
@[simp] theorem State.takeP_fwu (s : State) (n : Nat) (q : PQueued) : (s.takeP n q).fwu = s.fwu := by simp [State.takeP]
@[simp] theorem State.slotOverrun_fwu (s : State) (n cell : Nat) (p : Packet) :
    (s.slotOverrun n cell p).fwu = s.fwu := by simp [State.slotOverrun]
@[simp] theorem State.acceptP_fwu (s : State) (n : Nat) (p : Packet) : (s.acceptP n p).fwu = s.fwu := by
  simp [State.acceptP]
@[simp] theorem State.dropForeign_fwu (s : State) (n : Nat) (p : Packet) : (s.dropForeign n p).fwu = s.fwu := by rfl
@[simp] theorem State.takeAccepted_fwu (s : State) (n : Nat) (p : Packet) : (s.takeAccepted n p).fwu = s.fwu := by rfl
@[simp] theorem State.freePools_fwu (s : State) : s.freePools.fwu = s.fwu := by rfl
@[simp] theorem State.consume_fwu (s : State) (p : Packet) : (s.consume p).fwu = s.fwu := by rfl

/-! ### Watches and barriers -/

@[simp] theorem State.syncObject_fwu (s : State) (t w : Nat) : (s.syncObject t w).fwu = s.fwu := by
  simp [State.syncObject]
@[simp] theorem State.registerWatch_fwu (s : State) (t engine : Nat) (pc : BitVec 32) (watched wake : Nat) (wantFull : Bool)
    (timeout : Nat) : (s.registerWatch t engine pc watched wake wantFull timeout).fwu = s.fwu := by
  unfold State.registerWatch
  dsimp only
  split
  · simp
  · split <;> simp
@[simp] theorem State.sidePort_fwu (s : State) (t w : Nat) : (s.sidePort t w).fwu = s.fwu := by rfl
@[simp] theorem State.deliverAll_fwu (s : State) (held : Bool) : (s.deliverAll held).fwu = s.fwu := by rfl
@[simp] theorem State.sendBar_fwu (s : State) (type p b i : Nat) (d : BarDecl) :
    (s.sendBar type p b i d).fwu = s.fwu := by simp [State.sendBar]
@[simp] theorem State.releaseBar_fwu (s : State) (p b steps : Nat) (d : BarDecl) (i : Nat) :
    (s.releaseBar p b steps d i).fwu = s.fwu := by simp [State.releaseBar]
@[simp] theorem State.checkBar_fwu (s : State) (p b past : Nat) (d : BarDecl) : (s.checkBar p b past d).fwu = s.fwu := by
  unfold State.checkBar
  dsimp only
  split
  · rfl
  split
  · simp
  · split <;> simp
@[simp] theorem State.misuse_fwu (s : State) (t engine : Nat) (pc : BitVec 32) (b : Nat) :
    (s.misuse t engine pc b).fwu = s.fwu := by simp [State.misuse]
@[simp] theorem State.barObjects_fwu (s : State) (p : Nat) (d : BarDecl) : (s.barObjects p d).fwu = s.fwu :=
  State.fwu_foldl (fun _ _ => by split <;> simp) _ _
@[simp] theorem State.arrive_fwu (s : State) (t engine : Nat) (pc : BitVec 32) (b : Nat) :
    (s.arrive t engine pc b).fwu = s.fwu := by
  unfold State.arrive
  dsimp only
  split <;> simp
@[simp] theorem State.erEvent_fwu (s : State) (t : Nat) : (s.erEvent t).fwu = s.fwu := by rfl

/-! ### Digests -/

@[simp] theorem State.appendDigest_fwu (s : State) (e : DigEntry) : (s.appendDigest e).fwu = s.fwu := by
  simp [State.appendDigest]
@[simp] theorem State.closeDigest_fwu (s : State) (t : Nat) (layer : BitVec 16) :
    (s.closeDigest t layer).fwu = s.fwu := by simp [State.closeDigest]
@[simp] theorem State.releaseFolds_fwu (s : State) (t : Nat) : (s.releaseFolds t).fwu = s.fwu := by
  simp [State.releaseFolds]

/-! ### Packets received, chunks, and what a plan does beside its accesses -/

@[simp] theorem State.claimPacket_fwu (s : State) (t p l : Nat) (tag : BitVec 12) (free : Nat) :
    (s.claimPacket t p l tag free).fwu = s.fwu := by
  unfold State.claimPacket
  split <;> simp
@[simp] theorem State.chunkDone_fwu (s : State) (c : Ctx) (ch : Nat) (lost : Bool) (x : EmberResult) :
    (s.chunkDone c ch lost x).fwu = s.fwu := by
  unfold State.chunkDone
  dsimp only
  split
  · rfl
  · split <;> simp
/-- What a plan does beside its accesses leaves FWU as it is. -/
def Plan.KeepsFwu (pl : Plan) : Prop := ∀ a ∈ pl.acts, ∀ s : State, (a.2 s).fwu = s.fwu

theorem Plan.KeepsFwu.of_nil {pl : Plan} (h : pl.acts = []) : pl.KeepsFwu := by simp [Plan.KeepsFwu, h]
theorem Plan.KeepsFwu.of_single {pl : Plan} {q : Nat} {f : State → State} (h : pl.acts = [(q, f)])
    (hf : ∀ s, (f s).fwu = s.fwu) : pl.KeepsFwu := by
  simpa [Plan.KeepsFwu, h] using hf
theorem Plan.KeepsFwu.of_kv {pl : Plan} {k : KvMap} (h : pl.acts = k.acts) : pl.KeepsFwu := by
  cases k with
  | bad q r => exact .of_single h fun s => State.faultHold_fwu s r.1 r.2
  | _ => exact .of_nil h

theorem planSend_keepsFwu (w : IWord) (c : Ctx) : (planSend w c).KeepsFwu := by
  unfold planSend
  dsimp only
  split <;> exact .of_nil rfl
theorem planFrecv_keepsFwu (w : IWord) (c : Ctx) : (planFrecv w c).KeepsFwu := by
  unfold planFrecv
  dsimp only
  split <;> exact .of_single rfl fun _ => State.claimPacket_fwu ..
theorem planEld_keepsFwu (w : IWord) (c : Ctx) : (planEld w c).KeepsFwu := by
  intro a ha s
  simp only [planEld, Plan.landIn, List.mem_map] at ha
  obtain ⟨x, -, rfl⟩ := ha
  exact State.chunkDone_fwu ..
theorem planStrf_keepsFwu (w : IWord) (c : Ctx) : (planStrf w c).KeepsFwu := by
  unfold planStrf
  dsimp only
  split <;> exact .of_nil rfl

/-! ### Plans -/

theorem planOf_keepsFwu (op : Nat) (w : IWord) (c : Ctx) : (planOf op w c).KeepsFwu := by
  unfold planOf
  split
  case h_17 => exact .of_single rfl fun _ => State.arrive_fwu ..        -- CT.BAR
  case h_18 => exact .of_single rfl fun _ => State.registerWatch_fwu .. -- CT.WATCH
  case h_30 => exact .of_single rfl fun _ => State.closeDigest_fwu ..   -- VX.DCLOSE
  case h_33 => exact planSend_keepsFwu w c
  case h_37 => exact planFrecv_keepsFwu w c
  case h_38 => exact planEld_keepsFwu w c
  case h_39 => exact .of_kv rfl                                         -- MV.PGATH
  case h_40 => exact .of_kv rfl                                         -- MV.PST
  case h_41 => exact planStrf_keepsFwu w c
  all_goals exact .of_nil rfl
@[simp] theorem State.modStream_fwu (s : State) (t : Nat) (e : Eng) (f : Stream → Stream) :
    (s.modStream t e f).fwu = s.fwu := by rfl
@[simp] theorem State.modFlight_fwu (s : State) (c : Ctx) (f : Flight → Flight) :
    (s.modFlight c f).fwu = s.fwu := by rfl
@[simp] theorem State.delay_fwu (s : State) (c : Ctx) (kind q x : Nat) : (s.delay c kind q x).fwu = s.fwu := by rfl
@[simp] theorem State.noteRead_fwu (s : State) (c : Ctx) (x : Got) : (s.noteRead c x).fwu = s.fwu := by rfl

/-! ### Host windows -/

@[simp] theorem State.serveWindow_fwu (s : State) (t : Nat) (r : WinReq) : (s.serveWindow t r).fwu = s.fwu := by
  simp [State.serveWindow]
@[simp] theorem State.beginWindow_fwu (s : State) (t left : Nat) (holds : Bool) :
    (s.beginWindow t left holds).fwu = s.fwu := by rfl
@[simp] theorem State.takeWindow_fwu (s : State) (t b : Nat) : (s.takeWindow t b).fwu = s.fwu := by rfl

/-! ### One pc of the tiles (R15, R25) -/

@[simp] theorem State.checkCodes_fwu (s : State) (t : Nat) (e : Eng) : (s.checkCodes t e).fwu = s.fwu := by
  unfold State.checkCodes
  extract_lets x g bad
  split
  · rfl
  · split <;> simp
@[simp] theorem State.issue_fwu (s : State) (t : Nat) (e : Eng) (f : Flight) : (s.issue t e f).fwu = s.fwu := by
  unfold State.issue
  extract_lets f' c g s'
  have h : s'.fwu = s.fwu := State.modStream_fwu ..
  split
  · simp [h]
  · split <;> simp [h]
@[simp] theorem State.issueStream_fwu (s : State) (t : Nat) (e : Eng) : (s.issueStream t e).fwu = s.fwu := by
  unfold State.issueStream
  split <;> simp
@[simp] theorem State.takeRetries_fwu (s : State) (j : Job) : (s.takeRetries j).fwu = s.fwu := by
  simp [State.takeRetries]
@[simp] theorem State.portConflict_fwu (s : State) (port : Nat) (a b : Ctx) :
    (s.portConflict port a b).fwu = s.fwu := by simp [State.portConflict]
@[simp] theorem Beats.serve_fwu (b : Beats) (j : Job) : (b.serve j).s.fwu = b.s.fwu :=
  foldl_keeps (fun b : Beats => b.s.fwu) (fun _ _ => by split <;> simp) _ _
@[simp] theorem Beats.serveSeq_fwu (b : Beats) (t : Nat) : (b.serveSeq t).s.fwu = b.s.fwu := by
  unfold Beats.serveSeq
  dsimp only
  split
  · rfl
  · split <;> simp
@[simp] theorem State.sendPacket_fwu (s : State) (j : Job) : (s.sendPacket j).fwu = s.fwu := by
  unfold State.sendPacket
  split <;> simp
@[simp] theorem State.passBeats_fwu (s : State) (t : Nat) : (s.passBeats t).fwu = s.fwu := by simp [State.passBeats]
@[simp] theorem State.notServed_fwu (s : State) (u : Use) : (s.notServed u).fwu = s.fwu := by
  unfold State.notServed
  split <;> simp
@[simp] theorem Served.serve_fwu (r : Served) (u : Use) : (r.serve u).s.fwu = r.s.fwu := by
  unfold Served.serve
  dsimp only
  split
  · split <;> simp
  · split <;> simp
@[simp] theorem State.readWord_fwu (s : State) (t w unit : Nat) (pc : BitVec 32) :
    (s.readWord t w unit pc).2.fwu = s.fwu := by
  unfold State.readWord
  dsimp only
  split <;> simp
@[simp] theorem State.makeRead_fwu (s : State) (u : Use) : (s.makeRead u).fwu = s.fwu := by
  unfold State.makeRead
  split <;> simp
@[simp] theorem State.makeWrite_fwu (s : State) (u : Use) : (s.makeWrite u).fwu = s.fwu := by
  unfold State.makeWrite
  split <;> simp
@[simp] theorem State.passSlots_fwu (s : State) (served : List Use) (before : State) (t : Nat) (e : Eng) :
    (s.passSlots served before t e).fwu = s.fwu := by simp [State.passSlots]
@[simp] theorem State.banks_fwu (s : State) (ts : List Nat) (jobs : List Job) : (s.banks ts jobs).fwu = s.fwu := by
  unfold State.banks
  extract_lets r s1 s2
  have hr : r.s.fwu = s.fwu :=
    (foldl_keeps (fun r : Served => r.s.fwu) Served.serve_fwu _ _).trans (State.fwu_foldl State.passBeats_fwu _ _)
  have h1 : s1.fwu = s.fwu := (State.fwu_foldl State.makeRead_fwu _ _).trans hr
  have h2 : s2.fwu = s.fwu := (State.fwu_foldl State.makeWrite_fwu _ _).trans h1
  exact (State.fwu_foldl (fun a t => State.fwu_foldl (fun _ _ => State.passSlots_fwu ..) _ _) _ _).trans h2
@[simp] theorem State.arriveAt_fwu (s : State) (c : Ctx) (a : StackAcc) : (s.arriveAt c a).fwu = s.fwu := by
  unfold State.arriveAt
  dsimp only
  split
  · split <;> simp
  split
  · simp
  · split <;> simp
@[simp] theorem Chans.serve_fwu (r : Chans) (j : Job) : (r.serve j).s.fwu = r.s.fwu :=
  foldl_keeps (fun r : Chans => r.s.fwu) (fun _ _ => by split <;> simp) _ r
@[simp] theorem State.seqClash_fwu (s : State) (y : Nat × Ctx) : (s.seqClash y).fwu = s.fwu := by simp [State.seqClash]
@[simp] theorem State.stacks_fwu (s : State) (jobs : List Job) : (s.stacks jobs).fwu = s.fwu :=
  (State.fwu_foldl State.seqClash_fwu _ _).trans (foldl_keeps (fun r : Chans => r.s.fwu) Chans.serve_fwu _ _)
theorem State.act_fwu (s : State) {j : Job} (h : j.pl.KeepsFwu) : (s.act j).fwu = s.fwu :=
  List.foldlRecOn (motive := fun t : State => t.fwu = s.fwu) _ _ rfl fun t ht a ha =>
    (h a (List.mem_of_mem_filter ha) t).trans ht
theorem State.jobs_keepFwu (s : State) (ts : List Nat) : ∀ j ∈ s.jobs ts, j.pl.KeepsFwu := by
  intro j hj
  simp only [State.jobs, List.mem_flatMap, List.mem_map] at hj
  obtain ⟨t, -, e, -, f, -, rfl⟩ := hj
  exact planOf_keepsFwu _ _ _
@[simp] theorem State.hostCheck_fwu (s : State) (j : Job) : (s.hostCheck j).fwu = s.fwu :=
  State.fwu_foldl (fun s u => by
    dsimp only
    split
    · split <;> simp
    · rfl) _ _
@[simp] theorem State.windowPc_fwu (s : State) (t : Nat) : (s.windowPc t).fwu = s.fwu := by
  unfold State.windowPc
  dsimp only
  rw [State.modTile_fwu]
  split
  · rfl
  · split <;> simp
@[simp] theorem State.results_fwu (s : State) (j : Job) : (s.results j).fwu = s.fwu := by
  unfold State.results
  split <;> simp
@[simp] theorem State.takeArm_fwu (s : State) (t : Nat) (e : Eng) (f : Flight) (lt lf : Nat) (takesT : Bool) :
    (s.takeArm t e f lt lf takesT).fwu = s.fwu := by simp [State.takeArm]
@[simp] theorem State.follow_fwu (s : State) (j : Job) : (s.follow j).fwu = s.fwu := by
  unfold State.follow
  split <;> simp
@[simp] theorem State.retire_fwu (s : State) (j : Job) : (s.retire j).fwu = s.fwu := by simp [State.retire]
@[simp] theorem State.runPc_fwu (s : State) : s.runPc.fwu = s.fwu := by
  unfold State.runPc
  extract_lets ts s1 jobs s2 b s3 s4 s5 s6 s7 last s8 s9
  split
  · rfl
  have h1 : s1.fwu = s.fwu := State.fwu_foldl (fun s t => State.fwu_foldl (fun s e => by simp) _ _) _ _
  have h2 : s2.fwu = s.fwu := (State.fwu_foldl State.takeRetries_fwu _ _).trans h1
  have hb : b.s.fwu = s.fwu :=
    (foldl_keeps (fun b : Beats => b.s.fwu) Beats.serveSeq_fwu _ _).trans
      ((foldl_keeps (fun b : Beats => b.s.fwu) Beats.serve_fwu _ _).trans h2)
  have h3 : s3.fwu = s.fwu := (State.banks_fwu ..).trans hb
  have h4 : s4.fwu = s.fwu := (State.fwu_foldl State.sendPacket_fwu _ _).trans h3
  have h5 : s5.fwu = s.fwu := (State.stacks_fwu ..).trans h4
  have h6 : s6.fwu = s.fwu :=
    List.foldlRecOn (motive := fun t : State => t.fwu = s.fwu) _ _ h5 fun t ht j hj =>
      (State.act_fwu t (State.jobs_keepFwu _ _ j hj)).trans ht
  have h7 : s7.fwu = s.fwu :=
    (State.fwu_foldl State.windowPc_fwu _ _).trans ((State.fwu_foldl State.hostCheck_fwu _ _).trans h6)
  have h8 : s8.fwu = s.fwu := (State.fwu_foldl State.results_fwu _ _).trans h7
  have h9 : s9.fwu = s.fwu := (State.fwu_foldl State.follow_fwu _ _).trans h8
  exact (State.fwu_foldl State.retire_fwu _ _).trans h9

/-! ### Parity and host windows of a tile -/

@[simp] theorem State.parityDetect_fwu (s : State) (t : Nat) (source : BitVec 2) (queue : Bool) (pc : BitVec 32) :
    (s.parityDetect t source queue pc).fwu = s.fwu := by simp [State.parityDetect]
@[simp] theorem State.parityFinish_fwu (s : State) (t : Nat) (source : BitVec 2) (ok : Bool) :
    (s.parityFinish t source ok).fwu = s.fwu := by
  unfold State.parityFinish
  dsimp only
  split <;> simp
@[simp] theorem State.queueWindow_fwu (s : State) (t : Nat) (rs : List WinReq) :
    (s.queueWindow t rs).fwu = s.fwu := by rfl
@[simp] theorem State.winRead_fwu (s : State) (t off : Nat) (dbl : Bool) : (s.winRead t off dbl).fwu = s.fwu := by
  unfold State.winRead
  dsimp only
  split
  · rfl
  split
  · rfl
  split
  · split <;> simp
  · simp
@[simp] theorem State.winWrite_fwu (s : State) (t off val : Nat) (dbl : Bool) :
    (s.winWrite t off val dbl).fwu = s.fwu := by simp [State.winWrite]
@[simp] theorem State.queueFe_fwu (s : State) (t : Nat) (kind : WinKind) (mask : BitVec 32) :
    (s.queueFe t kind mask).fwu = s.fwu := by simp [State.queueFe]

end Sys2Proof.Machine
end

section
/-! FWU is left as it is by plan time, the fabric's messages, the ports, the stacks, the mapper and the buckets. -/

namespace Sys2Proof.Machine
open Sys2Proof

/-! ### Plan time: debt, throttle, alignment, launch and step switch -/

@[simp] theorem State.ifReady_fwu (s : State) {f : State → State} (h : ∀ s, (f s).fwu = s.fwu) :
    (s.ifReady f).fwu = s.fwu := by
  simp [State.ifReady, h]
@[simp] theorem State.addDebt_fwu (s : State) (d : Nat) : (s.addDebt d).fwu = s.fwu := by rfl
@[simp] theorem State.subDebt_fwu (s : State) (d : Nat) (origin : BitVec 24) :
    (s.subDebt d origin).fwu = s.fwu := by simp [State.subDebt]
@[simp] theorem State.raiseStall_fwu (s : State) (num : BitVec 8) : (s.raiseStall num).fwu = s.fwu := by
  simp [State.raiseStall]
@[simp] theorem State.raiseLimit_fwu (s : State) (e : Episode) : (s.raiseLimit e).fwu = s.fwu := by
  simp [State.raiseLimit]
@[simp] theorem State.writeHoldLimit_fwu (s : State) (v : BitVec 32) : (s.writeHoldLimit v).fwu = s.fwu := by
  simp [State.writeHoldLimit]
@[simp] theorem State.writeThrottle_fwu (s : State) (v : BitVec 32) : (s.writeThrottle v).fwu = s.fwu := by rfl
@[simp] theorem State.setCount_fwu (s : State) (c16 : Nat) : (s.setCount c16).fwu = s.fwu := by rfl
@[simp] theorem State.alignStart_fwu (s : State) : s.alignStart.fwu = s.fwu := by simp [State.alignStart]
@[simp] theorem State.rememberSym_fwu (s : State) (ty : Nat) (u : BitVec 64) :
    (s.rememberSym ty u).fwu = s.fwu := by rfl
@[simp] theorem State.primePart_fwu (s : State) (g p : Nat) : (s.primePart g p).fwu = s.fwu := by simp [State.primePart]
@[simp] theorem State.sendBarrier_fwu (s : State) (release : Nat) : (s.sendBarrier release).fwu = s.fwu := by
  simp [State.sendBarrier]
@[simp] theorem State.launchArm_fwu (s : State) : s.launchArm.fwu = s.fwu := by simp [State.launchArm]
@[simp] theorem State.startTiles_fwu (s : State) (p : Nat) : (s.startTiles p).fwu = s.fwu := by simp [State.startTiles]
@[simp] theorem State.startPart_fwu (s : State) (g p : Nat) : (s.startPart g p).fwu = s.fwu := by simp [State.startPart]
@[simp] theorem State.startAll_fwu (s : State) (g : Nat) : (s.startAll g).fwu = s.fwu := by simp [State.startAll]
@[simp] theorem State.clearBarrier_fwu (s : State) : s.clearBarrier.fwu = s.fwu := by rfl
@[simp] theorem State.rejectStep_fwu (s : State) (tick : Nat) : (s.rejectStep tick).fwu = s.fwu := by rfl
@[simp] theorem State.tickPassed_fwu (s : State) (tick ext : Nat) (p : Option Nat) :
    (s.tickPassed tick ext p).fwu = s.fwu := by simp [State.tickPassed]
@[simp] theorem State.stepArm_fwu (s : State) : s.stepArm.fwu = s.fwu := by simp [State.stepArm]

/-! ### Flat data and Vent messages -/

@[simp] theorem State.writeFlat_fwu (s : State) (v : BitVec 32) : (s.writeFlat v).fwu = s.fwu := by
  simp [State.writeFlat]
@[simp] theorem State.ventTransmit_fwu (s : State) (m : VentOut) : (s.ventTransmit m).fwu = s.fwu := by
  simp [State.ventTransmit]
@[simp] theorem State.ventSend_fwu (s : State) (dest : BitVec 24) (body : List (BitVec 8)) :
    (s.ventSend dest body).fwu = s.fwu := by simp [State.ventSend]
@[simp] theorem State.ventFail_fwu (s : State) (src : BitVec 24) (msgId : BitVec 32) :
    (s.ventFail src msgId).fwu = s.fwu := by rfl
@[simp] theorem State.ventAck_fwu (s : State) (src : BitVec 24) (msgId : BitVec 32) :
    (s.ventAck src msgId).fwu = s.fwu := by simp [State.ventAck]

/-! ### Ports -/

@[simp] theorem State.setLinkState_fwu (s : State) (n : Nat) (st : BitVec 3) :
    (s.setLinkState n st).fwu = s.fwu := by simp [State.setLinkState]
@[simp] theorem State.goDown_fwu (s : State) (n cause : Nat) : (s.goDown n cause).fwu = s.fwu := by simp [State.goDown]
@[simp] theorem State.seqProtocol_fwu (s : State) (n : Nat) (num : BitVec 16) :
    (s.seqProtocol n num).fwu = s.fwu := by simp [State.seqProtocol]
@[simp] theorem State.discardPackets_fwu (s : State) (n : Nat) : (s.discardPackets n).fwu = s.fwu := by rfl
@[simp] theorem State.failPort_fwu (s : State) (n : Nat) : (s.failPort n).fwu = s.fwu := by simp [State.failPort]
@[simp] theorem State.badTrailer_fwu (s : State) (n : Nat) : (s.badTrailer n).fwu = s.fwu := by rfl
@[simp] theorem State.acceptNext_fwu (s : State) (n : Nat) (p : Packet) : (s.acceptNext n p).fwu = s.fwu := by
  simp [State.acceptNext]
@[simp] theorem State.passStates_fwu (s : State) (n last : Nat) : (s.passStates n last).fwu = s.fwu := by
  simp [State.passStates]
@[simp] theorem State.startTraining_fwu (s : State) (n : Nat) (byReq : Bool) :
    (s.startTraining n byReq).fwu = s.fwu := by simp [State.startTraining]
@[simp] theorem State.writeEnable_fwu (s : State) (n : Nat) (on : Bool) : (s.writeEnable n on).fwu = s.fwu := by
  simp [State.writeEnable]
@[simp] theorem State.fullTrainReq_fwu (s : State) (n : Nat) : (s.fullTrainReq n).fwu = s.fwu := by
  simp [State.fullTrainReq]
@[simp] theorem State.forceRetrain_fwu (s : State) (n : Nat) : (s.forceRetrain n).fwu = s.fwu := by
  simp [State.forceRetrain]
@[simp] theorem State.declarePort_fwu (s : State) (n : Nat) : (s.declarePort n).fwu = s.fwu := by
  simp [State.declarePort]
@[simp] theorem State.wiringMismatch_fwu (s : State) (n : Nat) (id : LinkIdent) :
    (s.wiringMismatch n id).fwu = s.fwu := by simp [State.wiringMismatch]
@[simp] theorem State.requestLane_fwu (s : State) (n lane : Nat) : (s.requestLane n lane).fwu = s.fwu := by rfl
@[simp] theorem State.laneDegrades_fwu (s : State) (n lane : Nat) : (s.laneDegrades n lane).fwu = s.fwu := by
  simp [State.laneDegrades]
@[simp] theorem State.laneSwapReq_fwu (s : State) (n : Nat) : (s.laneSwapReq n).fwu = s.fwu := by
  simp [State.laneSwapReq]

/-! ### Open accesses, refresh, stack windows, sealed loads and staging -/

@[simp] theorem State.countOpen_fwu (s : State) (x : Nat) : (s.countOpen x).fwu = s.fwu := by simp [State.countOpen]
@[simp] theorem State.openWrite_fwu (s : State) (x w : Nat) (d : Line) : (s.openWrite x w d).fwu = s.fwu := by
  simp [State.openWrite]
@[simp] theorem State.stageSettle_fwu (s : State) (tag : Option (Nat × Nat × Nat)) :
    (s.stageSettle tag).fwu = s.fwu := by
  unfold State.stageSettle
  split <;> simp
@[simp] theorem State.beginRefresh_fwu (s : State) (k c n : Nat) (forced held : Bool) :
    (s.beginRefresh k c n forced held).fwu = s.fwu := by rfl
@[simp] theorem State.stkGo_fwu (s : State) (k : Nat) : (s.stkGo k).fwu = s.fwu := by rfl
@[simp] theorem State.admitWindow_fwu (s : State) (k : Nat) (a : WinAcc) : (s.admitWindow k a).fwu = s.fwu := by
  unfold State.admitWindow
  extract_lets x ch got s'
  have h : s'.fwu = s.fwu := by simp [s']
  split
  · simp [h]
  split
  · simp [h]
  · split <;> simp [h]
@[simp] theorem State.sealFailed_fwu (s : State) (p stack region target : Nat) :
    (s.sealFailed p stack region target).fwu = s.fwu := by rfl
@[simp] theorem State.loadSealed_fwu (s : State) (p : Nat) (b : List (BitVec 8)) (tag : Option (Nat × Nat × Nat)) :
    (s.loadSealed p b tag).1.fwu = s.fwu := by
  unfold State.loadSealed
  dsimp only
  split
  · rfl
  split
  · simp
  split
  · simp
  · split <;> simp
@[simp] theorem State.stagingError_fwu (s : State) (p d : Nat) : (s.stagingError p d).fwu = s.fwu := by
  simp [State.stagingError]
@[simp] theorem issueStaging_fwu (n : Nat) (s : State) : (issueStaging n s).fwu = s.fwu := by
  induction n generalizing s with
  | zero => rfl
  | succ k ih =>
    unfold issueStaging
    dsimp only
    split
    · rfl
    split
    · rfl
    · split <;> simp [ih]
@[simp] theorem State.fillHalf_fwu (s : State) (p h : Nat) : (s.fillHalf p h).fwu = s.fwu := by
  simp [State.fillHalf]
@[simp] theorem State.stageWords_fwu (s : State) (p h d first : Nat) (data : List Line) :
    (s.stageWords p h d first data).fwu = s.fwu := by simp [State.stageWords]

/-! ### The mapper -/

@[simp] theorem State.recordCal_fwu (s : State) (own : HealthRec) : (s.recordCal own).fwu = s.fwu := by
  simp [State.recordCal]
@[simp] theorem State.failRun_fwu (s : State) (r : MapRun) (code : Nat) (loc : CheckLoc) (obj : Nat) :
    (s.failRun r code loc obj).fwu = s.fwu := by simp [State.failRun]
@[simp] theorem State.enterPhase_fwu (s : State) (n : BitVec 3) : (s.enterPhase n).fwu = s.fwu := by rfl
@[simp] theorem State.agreeRun_fwu (s : State) (r : MapRun) (c : JobCtx) : (s.agreeRun r c).fwu = s.fwu := by
  simp [State.agreeRun]
@[simp] theorem State.checkRun_fwu (s : State) (r : MapRun) (c : JobCtx) : (s.checkRun r c).fwu = s.fwu := by
  unfold State.checkRun
  dsimp only
  split
  · simp
  split
  · simp
  · split <;> simp
@[simp] theorem State.placeRun_fwu (s : State) (r : MapRun) (c : JobCtx) : (s.placeRun r c).fwu = s.fwu := by
  unfold State.placeRun
  split <;> simp
@[simp] theorem State.refreshFabric_fwu (s : State) : s.refreshFabric.fwu = s.fwu := by
  unfold State.refreshFabric
  dsimp only
  split
  · rfl
  · rw [State.fwu_foldl fun _ _ => State.modLink_fwu ..]
@[simp] theorem State.bindTiles_fwu (s : State) (p : Nat) : (s.bindTiles p).fwu = s.fwu :=
  State.fwu_foldl (fun _ _ => by split <;> simp) _ _
@[simp] theorem State.keepRunning_fwu (s : State) (old : State) (p : Nat) : (s.keepRunning old p).fwu = s.fwu := by
  simp [State.keepRunning]
@[simp] theorem State.loadTiles_fwu (s : State) (p : Nat) : (s.loadTiles p).fwu = s.fwu := by
  unfold State.loadTiles
  split <;> simp
@[simp] theorem State.installMapping_fwu (s : State) (p : Nat) : (s.installMapping p).fwu = s.fwu := by
  simp [State.installMapping]
@[simp] theorem State.continueRun_fwu (s : State) : s.continueRun.fwu = s.fwu := by
  unfold State.continueRun
  split <;> simp
@[simp] theorem State.startRun_fwu (s : State) (p : Nat) (rebind : Bool) (env : BindEnv) :
    (s.startRun p rebind env).fwu = s.fwu := by
  cases hr : s.map.run <;> simp [State.startRun, hr]
@[simp] theorem State.restartRun_fwu (s : State) (old : BitVec 512) : (s.restartRun old).fwu = s.fwu := by
  unfold State.restartRun
  split <;> simp

/-! ### Buckets -/

@[simp] theorem State.setBkt_fwu (s : State) (c : Nat) (b : Bucket) : (s.setBkt c b).fwu = s.fwu := by rfl
@[simp] theorem State.ledgerFault_fwu (s : State) (p c : Nat) : (s.ledgerFault p c).fwu = s.fwu := by
  simp [State.ledgerFault]
@[simp] theorem State.changeBkt_fwu (s : State) (p c : Nat) (f : Bucket → Bucket) :
    (s.changeBkt p c f).fwu = s.fwu := by simp [State.changeBkt]
theorem State.budgetOp_fwu {s : State} {p op cust : Nat} {val : Int} {r : State × Int} (h : s.budgetOp p op cust val = some r) :
    r.1.fwu = s.fwu := by
  unfold State.budgetOp at h
  dsimp only at h
  repeat' split at h
  all_goals cases h
  all_goals simp
@[simp] theorem State.budGo_fwu (s : State) (p : Nat) : (s.budGo p).fwu = s.fwu := by rfl
@[simp] theorem State.budOp_fwu (s : State) (op : Nat) : (s.budOp op).fwu = s.fwu := by rfl
@[simp] theorem State.bktSel_fwu (s : State) (v : BitVec 32) : (s.bktSel v).fwu = s.fwu := by rfl

end Sys2Proof.Machine
end

section
/-! FWU is left as it is by the work of a step boundary, which runs on a record `Bnd` that holds the chip as it stands. -/

namespace Sys2Proof.Machine
open Sys2Proof

/-! ### Entries, records and outcomes of a boundary -/

@[simp] theorem State.setEnt_fwu (s : State) (i : Nat) (e : Entry) : (s.setEnt i e).fwu = s.fwu := by rfl
@[simp] theorem State.entrySel_fwu (s : State) (v : BitVec 32) : (s.entrySel v).fwu = s.fwu := by rfl
@[simp] theorem Bnd.log_fwu (b : Bnd) (us : List Line) : (b.log us).s.fwu = b.s.fwu := by rfl
@[simp] theorem Bnd.reply_fwu (b : Bnd) (id status : Nat) : (b.reply id status).s.fwu = b.s.fwu := by simp [Bnd.reply]
@[simp] theorem Bnd.replySub_fwu (b : Bnd) (id status : Nat) : (b.replySub id status).s.fwu = b.s.fwu := by
  simp [Bnd.replySub]
@[simp] theorem Bnd.note_fwu (b : Bnd) (c : Nat) (g : Int) (ch : Nat) (sp : Int) :
    (b.note c g ch sp).s.fwu = b.s.fwu := by rfl
@[simp] theorem Bnd.findMarks_fwu (b : Bnd) : b.findMarks.s.fwu = b.s.fwu := by simp [Bnd.findMarks]
@[simp] theorem Bnd.cancel_fwu (b : Bnd) (id : Nat) (waiting : List (BitVec 32 × BitVec 64)) :
    (b.cancel id waiting).s.fwu = b.s.fwu := by
  unfold Bnd.cancel
  dsimp only
  split
  · simp
  split
  · rfl
  split
  · rfl
  · split <;> simp
@[simp] theorem Bnd.deadline_fwu (b : Bnd) (id dl : Nat) : (b.deadline id dl).s.fwu = b.s.fwu := by
  unfold Bnd.deadline
  split <;> simp
theorem Bnd.budget_fwu {b b' : Bnd} {op cust : Nat} {val : Int} (h : b.budget op cust val = some b') :
    b'.s.fwu = b.s.fwu := by
  obtain ⟨r, hr, rfl⟩ := Option.map_eq_some_iff.mp h
  simp [State.budgetOp_fwu hr]
@[simp] theorem Bnd.control_fwu (b : Bnd) (r : List (BitVec 8)) (waiting : List (BitVec 32 × BitVec 64)) :
    (b.control r waiting).s.fwu = b.s.fwu := by
  unfold Bnd.control
  dsimp only
  split
  · split
    next b' h =>
      rw [Option.ite_none_right_eq_some] at h
      simp [Bnd.budget_fwu h.2]
    next => simp
  · simp
@[simp] theorem Bnd.logOp_fwu (b : Bnd) (op cust val : Nat) : (b.logOp op cust val).s.fwu = b.s.fwu := by rfl
@[simp] theorem Bnd.operator_fwu (b : Bnd) : b.operator.s.fwu = b.s.fwu := by
  unfold Bnd.operator
  split
  · rfl
  split
  · rfl
  dsimp only
  split
  next h => simp [Bnd.budget_fwu h]
  next => simp
@[simp] theorem Bnd.params_fwu (b : Bnd) : b.params.s.fwu = b.s.fwu := by
  unfold Bnd.params
  extract_lets x b1 b2
  split
  · rfl
  have h1 : b1.s.fwu = b.s.fwu := by
    simp only [b1]
    split <;> rfl
  have h2 : b2.s.fwu = b1.s.fwu := by
    simp only [b2]
    split <;> rfl
  exact h2.trans h1
@[simp] theorem Bnd.settle_fwu (b : Bnd) (rets : List (Slot × Ret)) (i : Nat) (e : Entry) :
    (b.settle rets i e).s.fwu = b.s.fwu := by
  unfold Bnd.settle
  extract_lets l ret ch c b1 dec e1
  have h : b1.s.fwu = b.s.fwu := by simp [b1]
  clear_value b1 e1
  split
  · exact h
  · dsimp only
    split
    · exact h
    · exact h
@[simp] theorem Bnd.outcomes_fwu (b : Bnd) : b.outcomes.s.fwu = b.s.fwu := by
  unfold Bnd.outcomes
  dsimp only
  rw [State.modSq_fwu, foldl_keeps (fun b : Bnd => b.s.fwu) (fun _ _ => Bnd.settle_fwu ..)]
  simp
@[simp] theorem Bnd.depths_fwu (b : Bnd) : b.depths.s.fwu = b.s.fwu := by
  unfold Bnd.depths
  extract_lets rets ver seen c
  have hc : c.s.fwu = b.s.fwu := State.modBd_fwu ..
  split
  · exact hc
  · refine (foldl_keeps (fun b : Bnd => b.s.fwu) (fun b x => ?_) _ _).trans hc
    dsimp only
    split <;> simp
@[simp] theorem Bnd.spring_fwu (b : Bnd) : b.spring.s.fwu = b.s.fwu :=
  foldl_keeps (fun b : Bnd => b.s.fwu) (fun b x => by simp) _ _
@[simp] theorem Bnd.ledger_fwu (b : Bnd) : b.ledger.s.fwu = b.s.fwu := by rfl
@[simp] theorem Bnd.admitOne_fwu (b : Bnd) (i : Nat) (x : Submit) : (b.admitOne i x).s.fwu = b.s.fwu := by rfl
@[simp] theorem Bnd.admitAll_fwu (xs : List Submit) (earlier : List Nat) (b : Bnd) :
    (Bnd.admitAll xs earlier b).s.fwu = b.s.fwu := by
  induction xs generalizing earlier b with
  | nil => rfl
  | cons x xs ih =>
    unfold Bnd.admitAll
    extract_lets id take q mark b' len c prod o room y
    have ht (b : Bnd) : (take b).s.fwu = b.s.fwu := State.modSq_fwu ..
    have hb : b'.s.fwu = b.s.fwu := by simp [b', ht]
    clear_value take room
    split
    · simp [ih, hb]
    split
    · simp [ih, ht]
    split
    · rfl
    split
    · rfl
    · split <;> simp [ih, ht]

/-! ### The batch of a step -/

theorem Bnd.stringsFit_fwu {b b' : Bnd} {set : BitVec 32} {v : Nat} (h : b.stringsFit set = some (v, b')) :
    b'.s.fwu = b.s.fwu := by
  unfold Bnd.stringsFit at h
  dsimp only at h
  split at h
  · cases h; rfl
  split at h
  · cases h; rfl
  split at h
  · cases h
  split at h
  · cases h
  · cases h; rfl
@[simp] theorem Bnd.pagesFit_fwu (b : Bnd) (i upto : Nat) : (b.pagesFit i upto).2.s.fwu = b.s.fwu := by
  unfold Bnd.pagesFit
  dsimp only
  split
  · simp
  · split <;> simp
@[simp] theorem State.setDeficit_fwu (s : State) (c : Nat) (d : Int) : (s.setDeficit c d).fwu = s.fwu := by rfl
@[simp] theorem Bnd.tryEntry_fwu (b : Bnd) (i : Nat) : (b.tryEntry i).s.fwu = b.s.fwu := by
  unfold Bnd.tryEntry
  dsimp only
  split
  · rfl
  next h => split <;> simp [Bnd.stringsFit_fwu h]
@[simp] theorem Bnd.pass_fwu (b : Bnd) (xs : List (Nat × Entry)) : (b.pass xs).s.fwu = b.s.fwu :=
  foldl_keeps (fun b : Bnd => b.s.fwu) (fun b x => by simp) _ _
@[simp] theorem Bnd.batch_fwu (b : Bnd) (isOpen : Bool) : (b.batch isOpen).s.fwu = b.s.fwu := by
  unfold Bnd.batch
  dsimp only
  rw [State.fwu_foldl fun _ _ => State.setEnt_fwu .., State.fwu_foldl fun _ _ => State.setDeficit_fwu .., Bnd.pass_fwu,
    Bnd.pass_fwu, Bnd.pass_fwu]
  exact State.fwu_foldl (fun _ _ => State.setDeficit_fwu ..) _ _
@[simp] theorem Bnd.logBatch_fwu (b : Bnd) : b.logBatch.s.fwu = b.s.fwu := by rfl

/-! ### Rings, replies and the boundary as a whole -/

@[simp] theorem Bnd.emit_fwu (b : Bnd) (r : ResultRec) : (b.emit r).s.fwu = b.s.fwu := by simp [Bnd.emit]
@[simp] theorem Bnd.writeOuts_fwu (b : Bnd) : b.writeOuts.s.fwu = b.s.fwu := by
  unfold Bnd.writeOuts
  refine foldl_keeps (fun b : Bnd => b.s.fwu) (fun b x => ?_) _ _
  dsimp only
  split
  · simp
  · split <;> simp
@[simp] theorem Bnd.writeReplies_fwu (b : Bnd) (rs : List ResultRec) : (b.writeReplies rs).s.fwu = b.s.fwu :=
  foldl_keeps (fun b : Bnd => b.s.fwu) (fun _ _ => by split <;> simp) _ _
@[simp] theorem Bnd.seqWord_fwu (b : Bnd) (wrote : Bool) : (b.seqWord wrote).s.fwu = b.s.fwu := by simp [Bnd.seqWord]
@[simp] theorem Bnd.config_fwu (b : Bnd) : b.config.s.fwu = b.s.fwu := by simp [Bnd.config]
@[simp] theorem Bnd.overrun_fwu (b : Bnd) (ring : Nat) : (b.overrun ring).s.fwu = b.s.fwu := by rfl
@[simp] theorem Bnd.checkRing_fwu (b : Bnd) (beyond : Bool) (ring : Nat) :
    (b.checkRing beyond ring).s.fwu = b.s.fwu := by simp [Bnd.checkRing]
@[simp] theorem Bnd.useCounts_fwu (b : Bnd) (ctl sub prompt : Nat) :
    (b.useCounts ctl sub prompt).s.fwu = b.s.fwu := by rfl
@[simp] theorem Bnd.readCounts_fwu (b : Bnd) : b.readCounts.s.fwu = b.s.fwu := by
  unfold Bnd.readCounts
  dsimp only
  split
  · rfl
  · rw [Bnd.useCounts_fwu, Bnd.checkRing_fwu, Bnd.checkRing_fwu, Bnd.checkRing_fwu]
@[simp] theorem State.regionWrite_fwu (s : State) (p : Nat) (i : Image) (tick q : Nat) (ws : List (Nat × Line)) :
    (s.regionWrite p i tick q ws).fwu = s.fwu := by simp [State.regionWrite]
@[simp] theorem State.mailboxes_fwu (s : State) (p word : Nat) (data : Line) (q : Nat) :
    (s.mailboxes p word data q).fwu = s.fwu :=
  State.fwu_foldl (fun _ _ => State.modTile_fwu ..) _ _
@[simp] theorem State.drawDone_fwu (s : State) (tick bound : Nat) : (s.drawDone tick bound).2.fwu = s.fwu := by rfl
@[simp] theorem State.toPartner_fwu (s : State) (copyB : Bool) (p : Packet) :
    (s.toPartner copyB p).fwu = s.fwu := by simp [State.toPartner]
@[simp] theorem State.sendGroup_fwu (s : State) (p : Nat) (i : Image) (sv : Serving) (m : GroupMsg) :
    (s.sendGroup p i sv m).fwu = s.fwu := by simp [State.sendGroup]
@[simp] theorem State.showAshFree_fwu (s : State) : s.showAshFree.fwu = s.fwu := by
  unfold State.showAshFree
  split <;> simp
@[simp] theorem State.sendBuddy_fwu (s : State) (kind p tag : Nat) (us : List Line) :
    (s.sendBuddy kind p tag us).fwu = s.fwu := by
  unfold State.sendBuddy
  split <;> simp
@[simp] theorem State.appendAsh_fwu (s : State) (e : AshEntry) : (s.appendAsh e).fwu = s.fwu := by
  simp [State.appendAsh]
@[simp] theorem State.recoveryFail_fwu (s : State) (reason : Nat) : (s.recoveryFail reason).fwu = s.fwu := by
  simp [State.recoveryFail]
@[simp] theorem Bnd.endReplay_fwu (b : Bnd) (e : AshEntry) : (b.endReplay e).s.fwu = b.s.fwu := by
  unfold Bnd.endReplay
  extract_lets s1 s2
  have h : s2.fwu = b.s.fwu := by
    simp only [s2]
    split <;> simp [s1]
  simp [h]
theorem Bnd.mismatch_fwu {b : Bnd} {t : State} (h : b.mismatch = some t) : t.fwu = b.s.fwu := by
  unfold Bnd.mismatch at h
  split at h
  · cases h
  · obtain ⟨x, -, rfl⟩ := Option.map_eq_some_iff.mp h
    simp
theorem Bnd.unreadable_fwu {b : Bnd} {t : State} (h : b.unreadable = some t) : t.fwu = b.s.fwu := by
  unfold Bnd.unreadable at h
  split at h
  · cases h
  · obtain ⟨x, -, rfl⟩ := Option.map_eq_some_iff.mp h
    simp
@[simp] theorem Bnd.settleAll_fwu (b : Bnd) : b.settleAll.s.fwu = b.s.fwu := by
  unfold Bnd.settleAll
  extract_lets b1 waiting b2 b3
  have h1 : b1.s.fwu = b.s.fwu := by simp [b1]
  have h2 : b2.s.fwu = b.s.fwu := (foldl_keeps (fun b : Bnd => b.s.fwu) (fun _ _ => Bnd.control_fwu ..) _ _).trans h1
  have h3 : b3.s.fwu = b.s.fwu := h2
  clear_value b3
  simp [h3]
@[simp] theorem Bnd.measure_fwu (b : Bnd) (clear : Bool) : (b.measure clear).s.fwu = b.s.fwu := by rfl
@[simp] theorem Bnd.lead_fwu (b : Bnd) : b.lead.fwu = b.s.fwu := by
  unfold Bnd.lead
  extract_lets clear before b1 b2 ok b3 b4 b5 dec b6 b7 b8 m s1 r q s2
  have h2 : b2.s.fwu = b.s.fwu := by simp [b2, b1]
  have h3 : b3.s.fwu = b.s.fwu := by simp [b3, h2]
  have h5 : b5.s.fwu = b.s.fwu := by simp [b5, b4, h3]
  have h7 : b7.s.fwu = b.s.fwu := by simp [b7, b6, h5]
  have h8 : b8.s.fwu = b.s.fwu := by
    simp only [b8]
    split <;> simp [h7]
  clear_value b8
  simp [s2, r, s1, h8]
@[simp] theorem State.serveBoundary_fwu (s : State) (p n : Nat) (i : Image) (sv : Serving) (tick : Nat)
    (posted : List (Nat × BitVec 8)) : (s.serveBoundary p n i sv tick posted).fwu = s.fwu := by
  unfold State.serveBoundary
  dsimp only
  split
  · simp
  split
  · simp
  split
  · simp
  split
  next h => simp [Bnd.unreadable_fwu h]
  next =>
    split
    next h => simp [Bnd.mismatch_fwu h]
    next => simp

end Sys2Proof.Machine
end

section
/-! FWU is left as it is by recovery, partitions, keys, the other blocks' registers, and a clk of the part. -/

namespace Sys2Proof.Machine
open Sys2Proof

/-! ### Step replay -/

@[simp] theorem State.resetUnit_fwu (s : State) (p g : Nat) (i : Image) : (s.resetUnit p g i).fwu = s.fwu := by
  simp [State.resetUnit]
@[simp] theorem State.discardDigests_fwu (s : State) (p f : Nat) : (s.discardDigests p f).fwu = s.fwu := by rfl
@[simp] theorem State.regionNow_fwu (s : State) (p : Nat) (i : Image) (ws : List (Nat × Line)) :
    (s.regionNow p i ws).fwu = s.fwu := by simp [State.regionNow]
@[simp] theorem State.replayUnit_fwu (s : State) (p : Nat) (i : Image) : (s.replayUnit p i).fwu = s.fwu := by
  unfold State.replayUnit
  extract_lets n entry leads g first s1 s2 same
  have h : s2.fwu = s.fwu := by
    simp only [s2]
    split <;> simp [s1]
  split
  · simp
  · exact h
@[simp] theorem State.wantRollback_fwu (s : State) (p : Nat) : (s.wantRollback p).fwu = s.fwu := by rfl
@[simp] theorem State.relaunch_fwu (s : State) (p g : Nat) (i : Image) : (s.relaunch p g i).fwu = s.fwu := by
  unfold State.relaunch
  split <;> simp

/-! ### Checkpoints -/

@[simp] theorem State.ckptArm_fwu (s : State) : s.ckptArm.fwu = s.fwu := by simp [State.ckptArm]
@[simp] theorem State.ackBuddy_fwu (s : State) (dest : BitVec 24) (kind part tag : Nat) :
    (s.ackBuddy dest kind part tag).fwu = s.fwu := by simp [State.ackBuddy]
@[simp] theorem State.sendItem_fwu (s : State) (type : Nat) (dest : BitVec 24) (kind part tag : Nat) (us : List Line) :
    (s.sendItem type dest kind part tag us).fwu = s.fwu := by simp [State.sendItem]

/-! ### Rollback and re-binding -/

@[simp] theorem State.endFaultHold_fwu (s : State) : s.endFaultHold.fwu = s.fwu := by simp [State.endFaultHold]
@[simp] theorem State.rollPart_fwu (s : State) (p : Nat) (i : Image) : (s.rollPart p i).fwu = s.fwu := by
  simp [State.rollPart]
@[simp] theorem State.takeRebound_fwu (s : State) (p : Nat) : (s.takeRebound p).fwu = s.fwu := by
  unfold State.takeRebound
  split <;> simp
@[simp] theorem State.endByRebind_fwu (s : State) (p : Nat) : (s.endByRebind p).fwu = s.fwu := by
  simp [State.endByRebind]
@[simp] theorem State.settleRebound_fwu (s : State) : s.settleRebound.fwu = s.fwu := by simp [State.settleRebound]
@[simp] theorem State.rollAdvance_fwu (s : State) : s.rollAdvance.fwu = s.fwu := by simp [State.rollAdvance]
@[simp] theorem State.restoreWords_fwu (s : State) (p : Nat) (i : Image) (ws : List (Nat × Nat × Line)) :
    (s.restoreWords p i ws).fwu = s.fwu := by
  unfold State.restoreWords
  dsimp only
  rw [State.fwu_foldl fun _ _ => by split <;> simp, State.fwu_foldl fun _ _ => State.modPch_fwu ..]
@[simp] theorem State.restoreSeq_fwu (s : State) (q : CkptSeq) : (s.restoreSeq q).fwu = s.fwu := by rfl
theorem State.resumePart_fwu {s t : State} {p : Nat} {st : BitVec 64} (h : s.resumePart p st = some t) : t.fwu = s.fwu := by
  unfold State.resumePart at h
  dsimp only at h
  split at h
  · cases h; rfl
  split at h
  · cases h; rfl
  split at h
  · cases h; rfl
  split at h
  · cases h
  · cases h; rfl
theorem State.resumeAll_fwu {l : List (Nat × BitVec 64)} {s t : State}
    (h : l.foldl (fun (s : Option State) x => s.bind fun s => s.resumePart x.1 x.2) (some s) = some t) : t.fwu = s.fwu := by
  induction l generalizing s with
  | nil => cases h; rfl
  | cons x l ih =>
    rw [List.foldl_cons, Option.bind_some] at h
    cases e : s.resumePart x.1 x.2 with
    | none =>
      rw [e, List.foldl_fixed' (fun _ => rfl)] at h
      cases h
    | some s' =>
      rw [e] at h
      exact (ih h).trans (State.resumePart_fwu e)
@[simp] theorem State.restoreGen_fwu (s : State) (g : CkptGen) : (s.restoreGen g).fwu = s.fwu := by
  unfold State.restoreGen
  extract_lets s1 s2
  have h2 : s2.fwu = s.fwu :=
    (State.fwu_foldl (fun _ _ => State.restoreWords_fwu ..) _ _).trans (State.fwu_foldl State.restoreSeq_fwu _ _)
  split
  · simp [h2]
  next h => exact (State.resumeAll_fwu h).trans h2
@[simp] theorem State.adoptAsh_fwu (s : State) (items : List BuddyItem) : (s.adoptAsh items).fwu = s.fwu := by rfl
@[simp] theorem State.phase4_fwu (s : State) : s.phase4.fwu = s.fwu := by
  unfold State.phase4
  dsimp only
  split
  · split <;> simp
  split
  · simp
  split
  · split <;> simp
  · simp
@[simp] theorem State.writeRestoreGen_fwu (s : State) (v : BitVec 32) : (s.writeRestoreGen v).fwu = s.fwu := by
  simp [State.writeRestoreGen]
@[simp] theorem State.writeRoDone_fwu (s : State) : s.writeRoDone.fwu = s.fwu := by
  unfold State.writeRoDone
  dsimp only
  split
  · simp
  split
  · split <;> simp
  · simp

/-! ### Frame ticks and mirror digests -/

@[simp] theorem State.frameWork_fwu (s : State) (p : Nat) : (s.frameWork p).fwu = s.fwu := by
  unfold State.frameWork
  dsimp only
  split <;> simp
@[simp] theorem State.conserve_fwu (s : State) (p : Nat) : (s.conserve p).fwu = s.fwu := by simp [State.conserve]
@[simp] theorem State.sendDigest_fwu (s : State) (p : Nat) : (s.sendDigest p).fwu = s.fwu := by
  unfold State.sendDigest
  split <;> simp
@[simp] theorem State.mirrorDone_fwu (s : State) (f : BitVec 32) : (s.mirrorDone f).fwu = s.fwu := by rfl
@[simp] theorem State.mirrorDiffers_fwu (s : State) (p : Nat) (f : BitVec 32) :
    (s.mirrorDiffers p f).fwu = s.fwu := by simp [State.mirrorDiffers]

/-! ### Partitions, Wings and Curtains -/

@[simp] theorem State.checkEnable_fwu (s : State) (p : Nat) : (s.checkEnable p).fwu = s.fwu := by
  unfold State.checkEnable
  dsimp only
  split <;> simp
@[simp] theorem State.enable_fwu (s : State) (p : Nat) : (s.enable p).fwu = s.fwu := by simp [State.enable]
@[simp] theorem State.partEnable_fwu (s : State) (p : Nat) : (s.partEnable p).fwu = s.fwu := by simp [State.partEnable]
@[simp] theorem State.syncCheck_fwu (s : State) (p : Nat) : (s.syncCheck p).fwu = s.fwu := by
  unfold State.syncCheck
  dsimp only
  split <;> simp
@[simp] theorem State.dropRun_fwu (s : State) (p : Nat) (wingsOnly : Bool) :
    (s.dropRun p wingsOnly).fwu = s.fwu := by
  unfold State.dropRun
  split <;> simp
@[simp] theorem State.emptyPools_fwu (s : State) (p : Nat) : (s.emptyPools p).fwu = s.fwu := by rfl
@[simp] theorem State.clearTables_fwu (s : State) (p : Nat) : (s.clearTables p).fwu = s.fwu := by rfl
@[simp] theorem State.leaveJob_fwu (s : State) : s.leaveJob.fwu = s.fwu := by simp [State.leaveJob]
@[simp] theorem State.beginScrub_fwu (s : State) (p : Nat) : (s.beginScrub p).fwu = s.fwu := by
  simp [State.beginScrub]
@[simp] theorem State.partDisable_fwu (s : State) (p : Nat) : (s.partDisable p).fwu = s.fwu := by
  simp [State.partDisable]
@[simp] theorem State.scrubFailed_fwu (s : State) (p k c : Nat) : (s.scrubFailed p k c).fwu = s.fwu := by rfl
@[simp] theorem State.erase_fwu (s : State) (p : Nat) : (s.erase p).fwu = s.fwu :=
  (State.fwu_foldl (fun _ _ => State.fwu_foldl (fun _ _ => State.modChan_fwu ..) _ _) _ _).trans
    (State.fwu_foldl (fun _ _ => State.modTile_fwu ..) _ _)
@[simp] theorem State.retryWaiting_fwu (s : State) : s.retryWaiting.fwu = s.fwu :=
  State.fwu_foldl (fun _ _ => by split <;> simp) _ _
@[simp] theorem State.beginLoad_fwu (s : State) (p : Nat) : (s.beginLoad p).fwu = s.fwu := by simp [State.beginLoad]
@[simp] theorem State.wingsGo_fwu (s : State) (p : Nat) : (s.wingsGo p).fwu = s.fwu := by simp [State.wingsGo]
@[simp] theorem State.loadFailed_fwu (s : State) (p : Nat) (cpl : Bool) : (s.loadFailed p cpl).fwu = s.fwu := by
  simp [State.loadFailed]
@[simp] theorem State.resetRequests_fwu (s : State) (p : Nat) : (s.resetRequests p).fwu = s.fwu := by rfl
@[simp] theorem State.lastBoundary_fwu (s : State) (p : Nat) (i : Image) (sv : Serving) :
    (s.lastBoundary p i sv).fwu = s.fwu := by
  unfold State.lastBoundary
  extract_lets b
  split
  next h => exact Bnd.mismatch_fwu h
  next => exact Bnd.outcomes_fwu b
@[simp] theorem State.endServing_fwu (s : State) (p : Nat) : (s.endServing p).fwu = s.fwu := by
  unfold State.endServing
  split <;> simp
@[simp] theorem State.keepReturns_fwu (s : State) (p : Nat) : (s.keepReturns p).fwu = s.fwu := by
  unfold State.keepReturns
  split
  · rfl
  · split <;> simp
@[simp] theorem State.writeProfiles_fwu (s : State) (p : Nat) : (s.writeProfiles p).fwu = s.fwu := by
  unfold State.writeProfiles
  dsimp only
  split
  · split <;> simp
  · rfl
@[simp] theorem State.exchange_fwu (s : State) (p : Nat) : (s.exchange p).fwu = s.fwu := by simp [State.exchange]
@[simp] theorem State.curtainNow_fwu (s : State) (p : Nat) : (s.curtainNow p).fwu = s.fwu := by simp [State.curtainNow]
@[simp] theorem State.paramCurtain_fwu (s : State) (p : Nat) : (s.paramCurtain p).fwu = s.fwu := by
  simp [State.paramCurtain]
@[simp] theorem State.primeTiles_fwu (s : State) (p g : Nat) : (s.primeTiles p g).fwu = s.fwu := by
  simp [State.primeTiles]
@[simp] theorem State.imageCurtain_fwu (s : State) (p c : Nat) : (s.imageCurtain p c).fwu = s.fwu := by
  simp [State.imageCurtain]
@[simp] theorem State.rejectCurtain_fwu (s : State) (p tick : Nat) : (s.rejectCurtain p tick).fwu = s.fwu := by rfl
@[simp] theorem State.curtainArm_fwu (s : State) (p : Nat) : (s.curtainArm p).fwu = s.fwu := by simp [State.curtainArm]
@[simp] theorem State.curtainOpen_fwu (s : State) (p : Nat) (x : Nat × Nat × Option Nat) :
    (s.curtainOpen p x).fwu = s.fwu := by simp [State.curtainOpen]

/-! ### Keys and reports -/

@[simp] theorem State.makeReport_fwu (s : State) (p : Option Nat) : (s.makeReport p).fwu = s.fwu := by
  unfold State.makeReport
  split <;> simp
@[simp] theorem State.requestReport_fwu (s : State) : s.requestReport.fwu = s.fwu := by simp [State.requestReport]
@[simp] theorem State.installKey_fwu (s : State) (p slot : Nat) (key : BitVec 256) :
    (s.installKey p slot key).fwu = s.fwu := by simp [State.installKey]
@[simp] theorem State.installMgmt_fwu (s : State) (epoch : BitVec 32) (key : BitVec 256) :
    (s.installMgmt epoch key).fwu = s.fwu := by rfl
@[simp] theorem State.deliver_fwu (s : State) : s.deliver.fwu = s.fwu := by
  unfold State.deliver
  dsimp only
  split <;> simp
@[simp] theorem State.promote_fwu (s : State) : s.promote.fwu = s.fwu := by
  unfold State.promote
  split <;> simp
@[simp] theorem State.writeMgmtTx_fwu (s : State) (v : BitVec 32) : (s.writeMgmtTx v).fwu = s.fwu := by
  simp [State.writeMgmtTx]

/-! ### Power states -/

@[simp] theorem State.enterD3_fwu (s : State) : s.enterD3.fwu = s.fwu := by rfl

/-! ### The service port and boot records -/

@[simp] theorem State.sendFrame_fwu (s : State) (f : EthFrame) : (s.sendFrame f).fwu = s.fwu := by rfl
@[simp] theorem State.dropFrame_fwu (s : State) : s.dropFrame.fwu = s.fwu := by rfl
@[simp] theorem State.popPtp_fwu (s : State) : s.popPtp.fwu = s.fwu := by rfl
@[simp] theorem State.jtag_fwu (s : State) (ir : JtagIr) (dr : BitVec 32) : (s.jtag ir dr).fwu = s.fwu := by rfl
@[simp] theorem State.updateRec_fwu (s : State) (f : BootRec → BootRec) : (s.updateRec f).fwu = s.fwu := by
  unfold State.updateRec
  split <;> simp
@[simp] theorem State.pickSlot_fwu (s : State) (r : BootRec) : (s.pickSlot r).2.fwu = s.fwu := by
  unfold State.pickSlot
  extract_lets act s' p
  have h : p.2.fwu = s.fwu := by
    simp only [p, s']
    split
    · simp
    · split <;> simp
  clear_value p
  split <;> simp [h]
@[simp] theorem State.pickFresh_fwu (s : State) : s.pickFresh.2.fwu = s.fwu := by rfl

/-! ### The time unit -/

@[simp] theorem State.incRejected_fwu (s : State) : s.incRejected.fwu = s.fwu := by rfl
@[simp] theorem State.modDom_fwu (s : State) (b : Bool) (f : Domain → Domain) : (s.modDom b f).fwu = s.fwu := by rfl
@[simp] theorem State.incCommit_fwu (s : State) (dom : Bool) (val : BitVec 32) :
    (s.incCommit dom val).fwu = s.fwu := by simp [State.incCommit]
@[simp] theorem State.adjust_fwu (s : State) : s.adjust.fwu = s.fwu := by simp [State.adjust]
@[simp] theorem State.setDomain_fwu (s : State) (dom : Bool) : (s.setDomain dom).fwu = s.fwu := by rfl
@[simp] theorem State.ppsLow_fwu (s : State) : s.ppsLow.fwu = s.fwu := by rfl
@[simp] theorem State.modTrig_fwu (s : State) (j : Nat) (f : Trigger → Trigger) : (s.modTrig j f).fwu = s.fwu := by rfl
@[simp] theorem State.armTrigger_fwu (s : State) (j : Nat) : (s.armTrigger j).fwu = s.fwu := by simp [State.armTrigger]
@[simp] theorem State.writeTrigger_fwu (s : State) (val : BitVec 32) : (s.writeTrigger val).fwu = s.fwu := by
  simp [State.writeTrigger]
@[simp] theorem State.fireTrigger_fwu (s : State) (j action : Nat) (refused : Bool) :
    (s.fireTrigger j action refused).fwu = s.fwu := by simp [State.fireTrigger]
@[simp] theorem State.popTimeLog_fwu (s : State) : s.popTimeLog.fwu = s.fwu := by rfl

/-! ### Check-value units -/

@[simp] theorem State.crcGo_fwu (s : State) (u : Nat) (check : Bool) : (s.crcGo u check).fwu = s.fwu := by
  simp [State.crcGo]

/-! ### Snapshots and the fault log -/

@[simp] theorem State.takeSnap_fwu (s : State) (tick : Bool) : (s.takeSnap tick).fwu = s.fwu := by rfl
@[simp] theorem State.armSnap_fwu (s : State) : s.armSnap.fwu = s.fwu := by simp [State.armSnap]
@[simp] theorem State.clearFaults_fwu (s : State) : s.clearFaults.fwu = s.fwu := by rfl
@[simp] theorem State.popFault_fwu (s : State) : s.popFault.fwu = s.fwu := by rfl

/-! ### Registers outside FWU -/

@[simp] theorem State.writeTop_fwu (s : State) (o : Nat) (v : BitVec 32) : (s.writeTop o v).fwu = s.fwu := by
  unfold State.writeTop
  split <;> simp
@[simp] theorem State.writeClk_fwu (s : State) (o : Nat) (v : BitVec 32) : (s.writeClk o v).fwu = s.fwu := by
  unfold State.writeClk
  split <;> simp
@[simp] theorem State.writeTimeCtrl_fwu (s : State) (v : BitVec 32) : (s.writeTimeCtrl v).fwu = s.fwu := by
  simp [State.writeTimeCtrl]
@[simp] theorem State.writeTime_fwu (s : State) (o : Nat) (v : BitVec 32) : (s.writeTime o v).fwu = s.fwu := by
  unfold State.writeTime
  dsimp only
  split
  case h_14 => rfl  -- PPS_WIDTH, whose bound of 999,999 `simp` would evaluate
  all_goals simp
@[simp] theorem State.writeSec_fwu (s : State) (o : Nat) (v : BitVec 32) : (s.writeSec o v).fwu = s.fwu := by
  unfold State.writeSec
  split <;> simp
@[simp] theorem State.writeSnap_fwu (s : State) (o : Nat) (v : BitVec 32) : (s.writeSnap o v).fwu = s.fwu := by
  unfold State.writeSnap
  split <;> simp
@[simp] theorem State.writePlan_fwu (s : State) (o : Nat) (v : BitVec 32) : (s.writePlan o v).fwu = s.fwu := by
  unfold State.writePlan
  split <;> simp
@[simp] theorem State.writeMapCtrl_fwu (s : State) (v : BitVec 32) : (s.writeMapCtrl v).fwu = s.fwu := by
  simp [State.writeMapCtrl]
@[simp] theorem State.writeMap_fwu (s : State) (o : Nat) (v : BitVec 32) : (s.writeMap o v).fwu = s.fwu := by
  unfold State.writeMap
  split <;> simp
@[simp] theorem State.writeSeqCtl_fwu (s : State)
    (f : Bool × Bool × BitVec 16 × BitVec 16 → Bool × Bool × BitVec 16 × BitVec 16) :
    (s.writeSeqCtl f).fwu = s.fwu := by rfl
@[simp] theorem State.writeSeq_fwu (s : State) (o : Nat) (v : BitVec 32) : (s.writeSeq o v).fwu = s.fwu := by
  unfold State.writeSeq
  split <;> simp
@[simp] theorem State.writeBud_fwu (s : State) (o : Nat) (v : BitVec 32) : (s.writeBud o v).fwu = s.fwu := by
  unfold State.writeBud
  split <;> simp
@[simp] theorem State.writeSync_fwu (s : State) (o : Nat) (v : BitVec 32) : (s.writeSync o v).fwu = s.fwu := by
  unfold State.writeSync
  split <;> simp
@[simp] theorem State.clearErFlags_fwu (s : State) (m : Nat) (v : BitVec 32) : (s.clearErFlags m v).fwu = s.fwu :=
  State.fwu_foldl (fun _ _ => State.modTile_fwu ..) _ _
@[simp] theorem State.writeDig_fwu (s : State) (o : Nat) (v : BitVec 32) : (s.writeDig o v).fwu = s.fwu := by
  unfold State.writeDig
  split <;> simp
@[simp] theorem State.writeRes_fwu (s : State) (f : PartRes → PartRes) : (s.writeRes f).fwu = s.fwu := by rfl
@[simp] theorem State.writePartCtrl_fwu (s : State) (p : Nat) (v : BitVec 32) :
    (s.writePartCtrl p v).fwu = s.fwu := by simp [State.writePartCtrl]
@[simp] theorem State.writePart_fwu (s : State) (o : Nat) (v : BitVec 32) : (s.writePart o v).fwu = s.fwu := by
  unfold State.writePart
  split <;> simp
@[simp] theorem State.writeLnkCtrl_fwu (s : State) (n : Nat) (v : BitVec 32) :
    (s.writeLnkCtrl n v).fwu = s.fwu := by simp [State.writeLnkCtrl]
@[simp] theorem State.writeLnk_fwu (s : State) (n o : Nat) (v : BitVec 32) : (s.writeLnk n o v).fwu = s.fwu := by
  unfold State.writeLnk
  split <;> simp
@[simp] theorem State.writeStk_fwu (s : State) (k o : Nat) (v : BitVec 32) : (s.writeStk k o v).fwu = s.fwu := by
  unfold State.writeStk
  split <;> simp
@[simp] theorem State.writePcie_fwu (s : State) (o : Nat) (v : BitVec 32) : (s.writePcie o v).fwu = s.fwu := by
  unfold State.writePcie
  split <;> simp
@[simp] theorem State.writeSvc_fwu (s : State) (o : Nat) (v : BitVec 32) : (s.writeSvc o v).fwu = s.fwu := by
  unfold State.writeSvc
  split <;> simp
@[simp] theorem State.writeTile_fwu (s : State) (n o : Nat) (v : BitVec 32) : (s.writeTile n o v).fwu = s.fwu := by
  unfold State.writeTile
  split
  · rfl
  split
  · simp
  · split <;> simp
@[simp] theorem State.readClears_fwu (s : State) (k o : Nat) : (s.readClears k o).fwu = s.fwu := by
  unfold State.readClears
  split <;> simp
@[simp] theorem State.afterRead_fwu (s : State) (off : Nat) : (s.afterRead off).fwu = s.fwu := by
  unfold State.afterRead
  dsimp only
  split
  · split <;> rfl
  split
  · rfl
  split
  · rfl
  split
  · rfl
  split
  · split <;> rfl
  split
  · split
    · rfl
    split
    · exact State.modTile_fwu ..
    · exact State.modTile_fwu ..
    · split
      · exact State.winRead_fwu ..
      · rfl
  · exact State.readClears_fwu ..
@[simp] theorem State.deliverRead_fwu (s : State) (v : BitVec 32) : (s.deliverRead v).fwu = s.fwu := by rfl
@[simp] theorem State.portRead_fwu (s : State) (off : Nat) : (s.portRead off).fwu = s.fwu := by
  simp [State.portRead]
@[simp] theorem State.writeFn_fwu (s : State) (f o : Nat) (v : BitVec 32) : (s.writeFn f o v).fwu = s.fwu := by
  unfold State.writeFn
  split <;> simp
theorem State.access_fwu (s : State) (off : Nat) (write : Bool) {f : State → State} (h : (f s).fwu = s.fwu) :
    (s.access off write f).fwu = s.fwu := by
  simp [State.access, h]

/-! ### Sensors and alerts -/

@[simp] theorem State.alert_fwu (s : State) : s.alert.fwu = s.fwu := by rfl
@[simp] theorem State.dropPorts_fwu (s : State) : s.dropPorts.fwu = s.fwu := by simp [State.dropPorts]
@[simp] theorem State.sense_fwu (s : State) (sensor : Nat) (temp : BitVec 8) :
    (s.sense sensor temp).fwu = s.fwu := by simp [State.sense]

/-! ### One clk -/

@[simp] theorem State.countClk_fwu (s : State) : s.countClk.fwu = s.fwu := by rfl
@[simp] theorem State.landAll_fwu (s : State) (ran : Bool) : (s.landAll ran).fwu = s.fwu := by rfl
@[simp] theorem State.replayNext_fwu (s : State) (n : Nat) : (s.replayNext n).fwu = s.fwu := by
  unfold State.replayNext
  dsimp only
  split
  · rfl
  split
  · rfl
  split
  · simp
  split
  · split <;> simp
  · simp
@[simp] theorem State.linksClk_fwu (s : State) : s.linksClk.fwu = s.fwu := by simp [State.linksClk]
@[simp] theorem State.timeClk_fwu (s : State) : s.timeClk.fwu = s.fwu := by simp [State.timeClk]
@[simp] theorem State.flrClk_fwu (s : State) : s.flrClk.fwu = s.fwu := by rfl
@[simp] theorem State.tick_fwu (s : State) : s.tick.fwu = s.fwu := by
  unfold State.tick
  dsimp only
  split
  · rfl
  · simp

end Sys2Proof.Machine
end

section
/-! The commands that leave FWU as it is: all but the tile instructions, which are `State.runInstr` of their form, and
those of reset, boot, update and register writes. -/

namespace Sys2Proof.Machine
open Sys2Proof

/-- FWU after a command that answers a next state. -/
def fwuAfter : Host.Outcome State Fault Refusal → Option FwuRegs
  | .next t => some t.fwu
  | _ => none

@[simp] theorem fwuAfter_next (t : State) : fwuAfter (.next t) = some t.fwu := by rfl

@[simp] theorem fwuAfter_ite (c : Prop) [Decidable c] (a b : Host.Outcome State Fault Refusal) :
    fwuAfter (if c then a else b) = if c then fwuAfter a else fwuAfter b := apply_ite ..

/-! ### Watches and barriers -/

@[simp] theorem execWatchFire_fwu (t : TileId) (wake : WordIx) (s : State) :
    fwuAfter (execWatchFire t wake s) = some s.fwu := by
  unfold execWatchFire
  split <;> simp
@[simp] theorem execWakeWrite_fwu (t : TileId) (wake : WordIx) (s : State) :
    fwuAfter (execWakeWrite t wake s) = some s.fwu := by
  unfold execWakeWrite
  split <;> simp
@[simp] theorem execWatchTimeout_fwu (t : TileId) (wake : WordIx) (s : State) :
    fwuAfter (execWatchTimeout t wake s) = some s.fwu := by
  unfold execWatchTimeout
  split <;> simp
@[simp] theorem execBarrierCompletionWrite_fwu (p : PartId) (b : BarIx) (s : State) :
    fwuAfter (execBarrierCompletionWrite p b s) = some s.fwu := by
  unfold execBarrierCompletionWrite
  split
  · exact congrArg some (State.fwu_foldl (fun _ _ => by split <;> simp) _ _)
  · rfl
@[simp] theorem execBarrierArrive_fwu (s : State) : fwuAfter (execBarrierArrive s) = some s.fwu := by
  unfold execBarrierArrive
  dsimp only
  split
  · rfl
  split
  · simp
  · split <;> simp
@[simp] theorem execBarrierRelease_fwu (s : State) : fwuAfter (execBarrierRelease s) = some s.fwu := by
  unfold execBarrierRelease
  dsimp only
  split
  · rfl
  split
  · simp
  · split <;> simp
@[simp] theorem execBarrierTimeout_fwu (p : PartId) (b : BarIx) (s : State) :
    fwuAfter (execBarrierTimeout p b s) = some s.fwu := by
  unfold execBarrierTimeout
  split <;> simp
@[simp] theorem execErFlagWordSet_fwu (t : TileId) (s : State) : fwuAfter (execErFlagWordSet t s) = some s.fwu := by
  unfold execErFlagWordSet
  dsimp only
  split
  · split <;> simp
  · rfl

/-! ### Fetch, parity and windows of the tiles -/

@[simp] theorem execInstructionFetch_fwu (t : TileId) (e : Eng) (s : State) :
    fwuAfter (execInstructionFetch t e s) = some s.fwu := by simp [execInstructionFetch]
@[simp] theorem execParityReplay_fwu (t : TileId) (ev : ParityEv) (s : State) :
    fwuAfter (execParityReplay t ev s) = some s.fwu := by
  unfold execParityReplay
  split <;> simp
@[simp] theorem execTileEccWriteback_fwu (t : TileId) (word : WordIx) (s : State) :
    fwuAfter (execTileEccWriteback t word s) = some s.fwu := by simp [execTileEccWriteback]
@[simp] theorem execTileScrubRead_fwu (t : TileId) (bank : BankIx) (s : State) :
    fwuAfter (execTileScrubRead t bank s) = some s.fwu := by simp [execTileScrubRead]
@[simp] theorem execTileWinRead_fwu (t : TileId) (off : BitVec 12) (dbl : Bool) (s : State) :
    fwuAfter (execTileWinRead t off dbl s) = some s.fwu := by simp [execTileWinRead]
@[simp] theorem execTileWinWrite_fwu (t : TileId) (off : BitVec 12) (val : BitVec 64) (dbl : Bool) (s : State) :
    fwuAfter (execTileWinWrite t off val dbl s) = some s.fwu := by simp [execTileWinWrite]
@[simp] theorem execTileFeSet_fwu (t : TileId) (mask : BitVec 32) (s : State) :
    fwuAfter (execTileFeSet t mask s) = some s.fwu := by simp [execTileFeSet]
@[simp] theorem execTileFeClr_fwu (t : TileId) (mask : BitVec 32) (s : State) :
    fwuAfter (execTileFeClr t mask s) = some s.fwu := by simp [execTileFeClr]
@[simp] theorem execTileWinAccess_fwu (t : TileId) (s : State) : fwuAfter (execTileWinAccess t s) = some s.fwu := by
  unfold execTileWinAccess
  dsimp only
  split <;> simp

/-! ### Plan time -/

@[simp] theorem execHoldSymbol_fwu (n : PortId) (unit : BitVec 64) (cause : BitVec 4) (s : State) :
    fwuAfter (execHoldSymbol n unit cause s) = some s.fwu := by simp [execHoldSymbol]
@[simp] theorem execReleaseSymbol_fwu (n : PortId) (unit : BitVec 64) (s : State) :
    fwuAfter (execReleaseSymbol n unit s) = some s.fwu := by simp [execReleaseSymbol]
@[simp] theorem execHoldApply_fwu (origin : BitVec 24) (num : BitVec 8) (s : State) :
    fwuAfter (execHoldApply origin num s) = some s.fwu := by
  unfold execHoldApply
  split <;> simp
@[simp] theorem execReleaseApply_fwu (origin : BitVec 24) (num : BitVec 8) (s : State) :
    fwuAfter (execReleaseApply origin num s) = some s.fwu := by
  unfold execReleaseApply
  split <;> simp
@[simp] theorem execEpisodeRelease_fwu (s : State) : fwuAfter (execEpisodeRelease s) = some s.fwu := by
  simp [execEpisodeRelease]
@[simp] theorem execCounterResume_fwu (s : State) : fwuAfter (execCounterResume s) = some s.fwu := by
  simp [execCounterResume]
@[simp] theorem execHoldLimit_fwu (origin : BitVec 24) (num : BitVec 8) (s : State) :
    fwuAfter (execHoldLimit origin num s) = some s.fwu := by
  unfold execHoldLimit
  split <;> simp
@[simp] theorem execHoldLimitWrite_fwu (val : BitVec 32) (s : State) :
    fwuAfter (execHoldLimitWrite val s) = some s.fwu := by simp [execHoldLimitWrite]
@[simp] theorem execThrottleEval_fwu (tj : BitVec 8) (s : State) : fwuAfter (execThrottleEval tj s) = some s.fwu := by
  simp [execThrottleEval]
@[simp] theorem execThermalHoldEnd_fwu (s : State) : fwuAfter (execThermalHoldEnd s) = some s.fwu := by
  unfold execThermalHoldEnd
  split <;> simp
@[simp] theorem execThrottleWrite_fwu (val : BitVec 32) (s : State) :
    fwuAfter (execThrottleWrite val s) = some s.fwu := by simp [execThrottleWrite]
@[simp] theorem execAlignStart_fwu (s : State) : fwuAfter (execAlignStart s) = some s.fwu := by simp [execAlignStart]
@[simp] theorem execAlignSymbol_fwu (n : PortId) (unit lo hi : BitVec 64) (s : State) :
    fwuAfter (execAlignSymbol n unit lo hi s) = some s.fwu := by simp [execAlignSymbol]
@[simp] theorem execLaunchArm_fwu (s : State) : fwuAfter (execLaunchArm s) = some s.fwu := by simp [execLaunchArm]
@[simp] theorem execLaunch_fwu (s : State) : fwuAfter (execLaunch s) = some s.fwu := by
  unfold execLaunch
  split <;> simp
@[simp] theorem execBarrierSymbol_fwu (n : PortId) (unit lo hi : BitVec 64) (s : State) :
    fwuAfter (execBarrierSymbol n unit lo hi s) = some s.fwu := by simp [execBarrierSymbol]
@[simp] theorem execLaunchBarrierRelease_fwu (s : State) : fwuAfter (execLaunchBarrierRelease s) = some s.fwu := by
  unfold execLaunchBarrierRelease
  split <;> simp
@[simp] theorem execStepArm_fwu (s : State) : fwuAfter (execStepArm s) = some s.fwu := by simp [execStepArm]
@[simp] theorem execStepSwitch_fwu (s : State) : fwuAfter (execStepSwitch s) = some s.fwu := by
  unfold execStepSwitch
  split <;> simp
@[simp] theorem execStepSwitchEnd_fwu (s : State) : fwuAfter (execStepSwitchEnd s) = some s.fwu := by
  unfold execStepSwitchEnd
  split <;> simp

/-! ### The fabric -/

@[simp] theorem execPSlotStart_fwu (n : PortId) (s : State) : fwuAfter (execPSlotStart n s) = some s.fwu := by
  unfold execPSlotStart
  dsimp only
  split
  · rfl
  split
  · rfl
  · split <;> simp
@[simp] theorem execRelayTransmit_fwu (n : PortId) (s : State) : fwuAfter (execRelayTransmit n s) = some s.fwu := by
  unfold execRelayTransmit
  split <;> simp
@[simp] theorem execOpenPacketTransmit_fwu (n : PortId) (s : State) :
    fwuAfter (execOpenPacketTransmit n s) = some s.fwu := by
  unfold execOpenPacketTransmit
  dsimp only
  split
  · rfl
  · split <;> simp
@[simp] theorem execPPacketReceive_fwu (n : PortId) (s : State) : fwuAfter (execPPacketReceive n s) = some s.fwu := by
  unfold execPPacketReceive
  split <;> simp
@[simp] theorem execOpenPacketReceive_fwu (n : PortId) (s : State) :
    fwuAfter (execOpenPacketReceive n s) = some s.fwu := by
  unfold execOpenPacketReceive
  split <;> simp
@[simp] theorem execFlatDataWrite_fwu (val : BitVec 32) (s : State) :
    fwuAfter (execFlatDataWrite val s) = some s.fwu := by simp [execFlatDataWrite]
@[simp] theorem execFlow_fwu (n : PortId) (val : BitVec 16) (s : State) : fwuAfter (execFlow n val s) = some s.fwu := by
  simp [execFlow]
@[simp] theorem execFlowRefresh_fwu (n : PortId) (s : State) : fwuAfter (execFlowRefresh n s) = some s.fwu := by
  simp [execFlowRefresh]
@[simp] theorem execVentMessage_fwu (s : State) : fwuAfter (execVentMessage s) = some s.fwu := by
  unfold execVentMessage
  dsimp only
  split
  · rfl
  · split <;> simp
@[simp] theorem execVentAck_fwu (msgId : BitVec 32) (s : State) : fwuAfter (execVentAck msgId s) = some s.fwu := by
  unfold execVentAck
  split <;> simp
@[simp] theorem execVentRetryTimeout_fwu (msgId : BitVec 32) (s : State) :
    fwuAfter (execVentRetryTimeout msgId s) = some s.fwu := by
  unfold execVentRetryTimeout
  split <;> simp

/-! ### Ports -/

@[simp] theorem execAck_fwu (n : PortId) (val : BitVec 16) (s : State) : fwuAfter (execAck n val s) = some s.fwu := by
  unfold execAck
  dsimp only
  split
  · rfl
  · split <;> simp
@[simp] theorem execNak_fwu (n : PortId) (val : BitVec 16) (s : State) : fwuAfter (execNak n val s) = some s.fwu := by
  unfold execNak
  dsimp only
  split
  · rfl
  · split <;> simp
@[simp] theorem execReplay_fwu (n : PortId) (val : BitVec 16) (s : State) :
    fwuAfter (execReplay n val s) = some s.fwu := by simp [execReplay]
@[simp] theorem execLinkPacketCheck_fwu (n : PortId) (pkt : Packet) (s : State) :
    fwuAfter (execLinkPacketCheck n pkt s) = some s.fwu := by simp [execLinkPacketCheck]
@[simp] theorem execAckTimerExpiry_fwu (n : PortId) (s : State) : fwuAfter (execAckTimerExpiry n s) = some s.fwu := by
  simp [execAckTimerExpiry]
@[simp] theorem execNakRepeat_fwu (n : PortId) (s : State) : fwuAfter (execNakRepeat n s) = some s.fwu := by
  simp [execNakRepeat]
@[simp] theorem execAckInterval_fwu (n : PortId) (s : State) : fwuAfter (execAckInterval n s) = some s.fwu := by
  simp [execAckInterval]
@[simp] theorem execUncorrectableCodeword_fwu (n : PortId) (s : State) :
    fwuAfter (execUncorrectableCodeword n s) = some s.fwu := by simp [execUncorrectableCodeword]
@[simp] theorem execCal_fwu (n : PortId) (stamp : BitVec 16) (raw : CalRaw) (s : State) :
    fwuAfter (execCal n stamp raw s) = some s.fwu := by simp [execCal]
@[simp] theorem execLinkDown_fwu (n : PortId) (cause : DownCause) (s : State) :
    fwuAfter (execLinkDown n cause s) = some s.fwu := by simp [execLinkDown]
@[simp] theorem execLinkEnable_fwu (n : PortId) (on : Bool) (s : State) :
    fwuAfter (execLinkEnable n on s) = some s.fwu := by simp [execLinkEnable]
@[simp] theorem execFullTrain_fwu (n : PortId) (s : State) : fwuAfter (execFullTrain n s) = some s.fwu := by
  simp [execFullTrain]
@[simp] theorem execForceRetrain_fwu (n : PortId) (s : State) : fwuAfter (execForceRetrain n s) = some s.fwu := by
  simp [execForceRetrain]
@[simp] theorem execDeclareFailed_fwu (n : PortId) (s : State) : fwuAfter (execDeclareFailed n s) = some s.fwu := by
  simp [execDeclareFailed]
@[simp] theorem execTrainingDone_fwu (n : PortId) (id : LinkIdent) (locked : BitVec 9) (s : State) :
    fwuAfter (execTrainingDone n id locked s) = some s.fwu := by
  unfold execTrainingDone
  dsimp only
  split
  · rfl
  split
  · rfl
  split
  · simp
  · split <;> simp
@[simp] theorem execRetrainDone_fwu (n : PortId) (id : LinkIdent) (locked : BitVec 9) (s : State) :
    fwuAfter (execRetrainDone n id locked s) = some s.fwu := by
  unfold execRetrainDone
  dsimp only
  split
  · rfl
  split
  · rfl
  split
  · simp
  · split <;> simp
@[simp] theorem execRetrainTimeout_fwu (n : PortId) (s : State) : fwuAfter (execRetrainTimeout n s) = some s.fwu := by
  simp [execRetrainTimeout]
@[simp] theorem execLinkCatchUp_fwu (n : PortId) (pll : Bool) (s : State) :
    fwuAfter (execLinkCatchUp n pll s) = some s.fwu := by simp [execLinkCatchUp]
@[simp] theorem execLaneLockTimeout_fwu (n : PortId) (locked : BitVec 9) (s : State) :
    fwuAfter (execLaneLockTimeout n locked s) = some s.fwu := by
  unfold execLaneLockTimeout
  dsimp only
  split
  · rfl
  · split <;> simp
@[simp] theorem execLaneErrorWindow_fwu (n : PortId) (counts : List (BitVec 32)) (corrected : BitVec 32) (s : State) :
    fwuAfter (execLaneErrorWindow n counts corrected s) = some s.fwu := by simp [execLaneErrorWindow]
@[simp] theorem execLaneSwapReq_fwu (n : PortId) (s : State) : fwuAfter (execLaneSwapReq n s) = some s.fwu := by
  simp [execLaneSwapReq]
@[simp] theorem execLaneReq_fwu (n : PortId) (lane : LaneIx) (s : State) :
    fwuAfter (execLaneReq n lane s) = some s.fwu := by simp [execLaneReq]
@[simp] theorem execLaneAck_fwu (n : PortId) (lane : LaneIx) (s : State) :
    fwuAfter (execLaneAck n lane s) = some s.fwu := by simp [execLaneAck]
@[simp] theorem execLaneDone_fwu (n : PortId) (lane : LaneIx) (s : State) :
    fwuAfter (execLaneDone n lane s) = some s.fwu := by simp [execLaneDone]
@[simp] theorem execLaneRevert_fwu (n : PortId) (lane : LaneIx) (s : State) :
    fwuAfter (execLaneRevert n lane s) = some s.fwu := by simp [execLaneRevert]
@[simp] theorem execLaneSymbolRetry_fwu (n : PortId) (s : State) : fwuAfter (execLaneSymbolRetry n s) = some s.fwu := by
  unfold execLaneSymbolRetry
  dsimp only
  split <;> simp
@[simp] theorem execLaneSwap_fwu (n : PortId) (s : State) : fwuAfter (execLaneSwap n s) = some s.fwu := by
  unfold execLaneSwap
  dsimp only
  split <;> simp
@[simp] theorem execLaneSwapVerify_fwu (n : PortId) (good : Bool) (s : State) :
    fwuAfter (execLaneSwapVerify n good s) = some s.fwu := by
  unfold execLaneSwapVerify
  dsimp only
  split <;> simp

/-! ### Stacks and staging -/

@[simp] theorem execStackEccWriteback_fwu (k : StackId) (c : ChId) (word : BitVec 26) (s : State) :
    fwuAfter (execStackEccWriteback k c word s) = some s.fwu := by simp [execStackEccWriteback]
@[simp] theorem execPatrolScrub_fwu (k : StackId) (c : ChId) (s : State) : fwuAfter (execPatrolScrub k c s) = some s.fwu := by
  unfold execPatrolScrub
  dsimp only
  split
  · rfl
  split
  · simp
  · split <;> simp
@[simp] theorem execStackOpenAccess_fwu (k : StackId) (c : ChId) (s : State) :
    fwuAfter (execStackOpenAccess k c s) = some s.fwu := by
  unfold execStackOpenAccess
  dsimp only
  split
  · rfl
  split
  · rfl
  · rw [fwuAfter_next, State.stageSettle_fwu]
    split <;> simp
@[simp] theorem execRefreshDebtTick_fwu (k : StackId) (c : ChId) (s : State) :
    fwuAfter (execRefreshDebtTick k c s) = some s.fwu := by simp [execRefreshDebtTick]
@[simp] theorem execRefreshIdle_fwu (k : StackId) (c : ChId) (s : State) :
    fwuAfter (execRefreshIdle k c s) = some s.fwu := by simp [execRefreshIdle]
@[simp] theorem execRefreshWindow_fwu (k : StackId) (c : ChId) (s : State) :
    fwuAfter (execRefreshWindow k c s) = some s.fwu := by
  unfold execRefreshWindow
  dsimp only
  split <;> simp
@[simp] theorem execForcedRefresh_fwu (k : StackId) (s : State) : fwuAfter (execForcedRefresh k s) = some s.fwu := by
  simp [execForcedRefresh]
@[simp] theorem execHoldRefresh_fwu (k : StackId) (s : State) : fwuAfter (execHoldRefresh k s) = some s.fwu := by
  simp [execHoldRefresh]
@[simp] theorem execStackHot_fwu (k : StackId) (temp : BitVec 8) (s : State) :
    fwuAfter (execStackHot k temp s) = some s.fwu := by simp [execStackHot]
@[simp] theorem execStkWinRead_fwu (k : StackId) (s : State) : fwuAfter (execStkWinRead k s) = some s.fwu := by
  simp [execStkWinRead]
@[simp] theorem execStkWinWrite_fwu (k : StackId) (s : State) : fwuAfter (execStkWinWrite k s) = some s.fwu := by
  simp [execStkWinWrite]
@[simp] theorem execStkWinAccess_fwu (k : StackId) (s : State) : fwuAfter (execStkWinAccess k s) = some s.fwu := by
  unfold execStkWinAccess
  dsimp only
  split <;> simp
@[simp] theorem execSealedLoad_fwu (p : PartId) (rec : List (BitVec 8)) (s : State) :
    fwuAfter (execSealedLoad p rec s) = some s.fwu := by simp [execSealedLoad]
@[simp] theorem execStagingEpoch_fwu (p : PartId) (s : State) : fwuAfter (execStagingEpoch p s) = some s.fwu := by
  unfold execStagingEpoch
  split <;> simp
@[simp] theorem execStagingCompletion_fwu (p : PartId) (half : HalfIx) (desc : DescIx) (data : List (BitVec 512))
    (err : Bool) (s : State) :
    fwuAfter (execStagingCompletion p half desc data err s) = some s.fwu := by
  unfold execStagingCompletion
  split <;> simp
@[simp] theorem execStackTrain_fwu (k : StackId) (result : BitVec 8) (s : State) :
    fwuAfter (execStackTrain k result s) = some s.fwu := by simp [execStackTrain]

/-! ### The mapper -/

@[simp] theorem execBind_fwu (p : PartId) (env : BindEnv) (s : State) : fwuAfter (execBind p env s) = some s.fwu := by
  simp [execBind]
@[simp] theorem execRebind_fwu (p : PartId) (env : BindEnv) (s : State) :
    fwuAfter (execRebind p env s) = some s.fwu := by simp [execRebind]
@[simp] theorem execHealthRecordTimeout_fwu (chip : BitVec 24) (s : State) :
    fwuAfter (execHealthRecordTimeout chip s) = some s.fwu := by
  unfold execHealthRecordTimeout
  split <;> simp
@[simp] theorem execHealthDisagree_fwu (s : State) : fwuAfter (execHealthDisagree s) = some s.fwu := by
  unfold execHealthDisagree
  dsimp only
  split
  · rfl
  split
  · rfl
  · split <;> simp

/-! ### Budgets -/

@[simp] theorem execBudOpGrant_fwu (s : State) : fwuAfter (execBudOpGrant s) = some s.fwu := by simp [execBudOpGrant]
@[simp] theorem execBudOpSetBalance_fwu (s : State) : fwuAfter (execBudOpSetBalance s) = some s.fwu := by
  simp [execBudOpSetBalance]
@[simp] theorem execBudOpSetSpring_fwu (s : State) : fwuAfter (execBudOpSetSpring s) = some s.fwu := by
  simp [execBudOpSetSpring]
@[simp] theorem execBudOpSetCap_fwu (s : State) : fwuAfter (execBudOpSetCap s) = some s.fwu := by simp [execBudOpSetCap]
@[simp] theorem execBudOpSetPageQuota_fwu (s : State) : fwuAfter (execBudOpSetPageQuota s) = some s.fwu := by
  simp [execBudOpSetPageQuota]
@[simp] theorem execBudOpSetReserve_fwu (s : State) : fwuAfter (execBudOpSetReserve s) = some s.fwu := by
  simp [execBudOpSetReserve]
@[simp] theorem execBudBktSel_fwu (val : BitVec 32) (s : State) : fwuAfter (execBudBktSel val s) = some s.fwu := by
  simp [execBudBktSel]

/-! ### Sequences -/

@[simp] theorem execSeqEntrySel_fwu (val : BitVec 32) (s : State) : fwuAfter (execSeqEntrySel val s) = some s.fwu := by
  simp [execSeqEntrySel]

/-! ### Step boundaries -/

@[simp] theorem execAshConfirm_fwu (p : PartId) (stepNo : BitVec 64) (s : State) :
    fwuAfter (execAshConfirm p stepNo s) = some s.fwu := by simp [execAshConfirm]
@[simp] theorem execBoundaryWork_fwu (p : PartId) (posted : List (Nat × BitVec 8)) (s : State) :
    fwuAfter (execBoundaryWork p posted s) = some s.fwu := by
  unfold execBoundaryWork
  dsimp only
  split
  · split
    · simp
    split
    · simp
    · rw [fwuAfter_next]
      split <;> simp
  · rfl
@[simp] theorem execGroupMessage_fwu (p : PartId) (msg : GroupMsg) (s : State) :
    fwuAfter (execGroupMessage p msg s) = some s.fwu := by
  unfold execGroupMessage
  split <;> simp

/-! ### Step replay -/

@[simp] theorem execStepReplay_fwu (p : PartId) (s : State) : fwuAfter (execStepReplay p s) = some s.fwu := by
  unfold execStepReplay
  dsimp only
  split
  · rfl
  split
  · rfl
  split
  · simp
  · split <;> simp
@[simp] theorem execRelaunch_fwu (p : PartId) (s : State) : fwuAfter (execRelaunch p s) = some s.fwu := by
  unfold execRelaunch
  dsimp only
  split <;> simp

/-! ### Checkpoints -/

@[simp] theorem execCkptArm_fwu (s : State) : fwuAfter (execCkptArm s) = some s.fwu := by simp [execCkptArm]
@[simp] theorem execCheckpointPause_fwu (s : State) : fwuAfter (execCheckpointPause s) = some s.fwu := by
  unfold execCheckpointPause
  split <;> simp
@[simp] theorem execCheckpointPauseEnd_fwu (s : State) : fwuAfter (execCheckpointPauseEnd s) = some s.fwu := by
  unfold execCheckpointPauseEnd
  split <;> simp
@[simp] theorem execCkptWrite_fwu (s : State) : fwuAfter (execCkptWrite s) = some s.fwu := by
  unfold execCkptWrite
  split <;> simp
@[simp] theorem execCkptRead_fwu (s : State) : fwuAfter (execCkptRead s) = some s.fwu := by
  unfold execCkptRead
  split <;> simp
@[simp] theorem execBulk_fwu (s : State) : fwuAfter (execBulk s) = some s.fwu := by
  unfold execBulk
  split <;> simp

/-! ### Rollback -/

@[simp] theorem execRollback_fwu (p : PartId) (env : BindEnv) (s : State) :
    fwuAfter (execRollback p env s) = some s.fwu := by
  unfold execRollback
  dsimp only
  split <;> simp
@[simp] theorem execRestoreGenWrite_fwu (val : BitVec 32) (s : State) :
    fwuAfter (execRestoreGenWrite val s) = some s.fwu := by simp [execRestoreGenWrite]
@[simp] theorem execCkptData_fwu (s : State) : fwuAfter (execCkptData s) = some s.fwu := by
  unfold execCkptData
  dsimp only
  split
  · rfl
  split
  · simp
  · split <;> simp
@[simp] theorem execRoDone_fwu (s : State) : fwuAfter (execRoDone s) = some s.fwu := by simp [execRoDone]
@[simp] theorem execChipDeclaredFailed_fwu (chip : BitVec 24) (s : State) :
    fwuAfter (execChipDeclaredFailed chip s) = some s.fwu := by
  unfold execChipDeclaredFailed
  extract_lets a old map s1 ranks s2 dig s3 s4 ps p dig' s5 env
  have h4 : s4.fwu = s.fwu := by
    rw [show s4.fwu = s2.fwu from State.restartRun_fwu ..]
    exact State.fwu_foldl (fun _ _ => State.ventSend_fwu ..) _ _
  clear_value s4 ps
  split
  · rfl
  split
  · simp [h4]
  split
  · simp [h4]
  split
  · simp [s5, h4]
  split
  · split
    · simp [h4]
    · rw [fwuAfter_next, State.wantRollback_fwu, State.fwu_foldl fun _ _ => State.modPt_fwu .., h4]
  · simp [h4]

/-! ### Frames and mirrors -/

@[simp] theorem execMirrorDigest_fwu (s : State) : fwuAfter (execMirrorDigest s) = some s.fwu := by
  unfold execMirrorDigest
  split
  · extract_lets u f s1 es
    have h : s1.fwu = s.fwu := by simp [s1]
    split
    · rfl
    split
    · exact congrArg some h
    · simp [h]
  · rfl
@[simp] theorem execMirrorEntries_fwu (s : State) : fwuAfter (execMirrorEntries s) = some s.fwu := by
  unfold execMirrorEntries
  dsimp only
  split
  · split
    · simp
    · split <;> simp
  · rfl
@[simp] theorem execMirrorDigestLate_fwu (frame : BitVec 32) (s : State) :
    fwuAfter (execMirrorDigestLate frame s) = some s.fwu := by simp [execMirrorDigestLate]
@[simp] theorem execFrameTick_fwu (p : PartId) (s : State) : fwuAfter (execFrameTick p s) = some s.fwu := by
  unfold execFrameTick
  extract_lets b g s1 n s2 s3
  split
  · rfl
  have h2 : s2.fwu = s.fwu := by
    simp only [s2]
    split <;> simp [s1]
  simp [s3, h2]

/-! ### Partitions -/

@[simp] theorem execPartEnable_fwu (p : PartId) (s : State) : fwuAfter (execPartEnable p s) = some s.fwu := by
  simp [execPartEnable]
@[simp] theorem execTeardown_fwu (p : PartId) (s : State) : fwuAfter (execTeardown p s) = some s.fwu := by
  simp [execTeardown]
@[simp] theorem execScrubDone_fwu (p : PartId) (fails : List (StackId × ChId)) (s : State) :
    fwuAfter (execScrubDone p fails s) = some s.fwu := by
  simp [execScrubDone]
@[simp] theorem execWingsLoad_fwu (p : PartId) (s : State) : fwuAfter (execWingsLoad p s) = some s.fwu := by
  simp [execWingsLoad]
@[simp] theorem execWingsLoadDone_fwu (p : PartId) (res : LoadResult) (s : State) :
    fwuAfter (execWingsLoadDone p res s) = some s.fwu := by
  unfold execWingsLoadDone
  dsimp only
  split
  · rfl
  split
  · rfl
  · split <;> simp
@[simp] theorem execCurtainArm_fwu (p : PartId) (s : State) : fwuAfter (execCurtainArm p s) = some s.fwu := by
  simp [execCurtainArm]
@[simp] theorem execCurtain_fwu (p : PartId) (s : State) : fwuAfter (execCurtain p s) = some s.fwu := by
  unfold execCurtain
  dsimp only
  split
  · rfl
  split
  · rfl
  · split <;> simp
@[simp] theorem execCurtainPauseEnd_fwu (p : PartId) (ready : Bool) (s : State) :
    fwuAfter (execCurtainPauseEnd p ready s) = some s.fwu := by
  unfold execCurtainPauseEnd
  split <;> simp

/-! ### Security -/

@[simp] theorem execAttestationRequest_fwu (s : State) : fwuAfter (execAttestationRequest s) = some s.fwu := by
  simp [execAttestationRequest]
@[simp] theorem execKeyDelivery_fwu (s : State) : fwuAfter (execKeyDelivery s) = some s.fwu := by simp [execKeyDelivery]
@[simp] theorem execMgmtPromote_fwu (s : State) : fwuAfter (execMgmtPromote s) = some s.fwu := by simp [execMgmtPromote]

/-! ### PCIe -/

@[simp] theorem execFlr_fwu (p : PartId) (s : State) : fwuAfter (execFlr p s) = some s.fwu := by simp [execFlr]
@[simp] theorem execHotReset_fwu (s : State) : fwuAfter (execHotReset s) = some s.fwu := by simp [execHotReset]
@[simp] theorem execBusMasterEnable_fwu (f : FnId) (s : State) : fwuAfter (execBusMasterEnable f s) = some s.fwu := by
  simp [execBusMasterEnable]
@[simp] theorem execMsixUnmask_fwu (f : FnId) (v : VecIx) (s : State) :
    fwuAfter (execMsixUnmask f v s) = some s.fwu := by simp [execMsixUnmask]
@[simp] theorem execD3hotRequest_fwu (s : State) : fwuAfter (execD3hotRequest s) = some s.fwu := by
  simp [execD3hotRequest]
@[simp] theorem execD3hotEntry_fwu (s : State) : fwuAfter (execD3hotEntry s) = some s.fwu := by simp [execD3hotEntry]
@[simp] theorem execInvalidAccess_fwu (write : Bool) (s : State) :
    fwuAfter (execInvalidAccess write s) = some s.fwu := by simp [execInvalidAccess]
@[simp] theorem execOutboundQueueSend_fwu (f : FnId) (s : State) :
    fwuAfter (execOutboundQueueSend f s) = some s.fwu := by
  unfold execOutboundQueueSend
  split <;> simp
@[simp] theorem execPcieLinkUp_fwu (speed : BitVec 3) (width : BitVec 5) (flit : Bool) (s : State) :
    fwuAfter (execPcieLinkUp speed width flit s) = some s.fwu := by simp [execPcieLinkUp]

/-! ### The service port -/

@[simp] theorem execServiceFrameDrop_fwu (s : State) : fwuAfter (execServiceFrameDrop s) = some s.fwu := by
  simp [execServiceFrameDrop]
@[simp] theorem execSgmiiLinkChange_fwu (up : Bool) (s : State) : fwuAfter (execSgmiiLinkChange up s) = some s.fwu := by
  simp [execSgmiiLinkChange]
@[simp] theorem execArpRequest_fwu (mac : BitVec 48) (ip target : BitVec 32) (s : State) :
    fwuAfter (execArpRequest mac ip target s) = some s.fwu := by simp [execArpRequest]
@[simp] theorem execIcmpEcho_fwu (mac : BitVec 48) (ip target : BitVec 32) (body : List (BitVec 8)) (s : State) :
    fwuAfter (execIcmpEcho mac ip target body s) = some s.fwu := by simp [execIcmpEcho]
@[simp] theorem execPtpEventTimestamp_fwu (tx : Bool) (type : BitVec 4) (seqId : BitVec 16) (s : State) :
    fwuAfter (execPtpEventTimestamp tx type seqId s) = some s.fwu := by simp [execPtpEventTimestamp]
@[simp] theorem execPtpTsPop_fwu (s : State) : fwuAfter (execPtpTsPop s) = some s.fwu := by simp [execPtpTsPop]
@[simp] theorem execI3cCommitAddress_fwu (addr : BitVec 24) (s : State) :
    fwuAfter (execI3cCommitAddress addr s) = some s.fwu := by simp [execI3cCommitAddress]
@[simp] theorem execEntdaa_fwu (addr : BitVec 7) (s : State) : fwuAfter (execEntdaa addr s) = some s.fwu := by
  simp [execEntdaa]
@[simp] theorem execBypass_fwu (s : State) : fwuAfter (execBypass s) = some s.fwu := by simp [execBypass]
@[simp] theorem execIdcode_fwu (s : State) : fwuAfter (execIdcode s) = some s.fwu := by simp [execIdcode]
@[simp] theorem execSamplePreload_fwu (cells : List Bool) (s : State) :
    fwuAfter (execSamplePreload cells s) = some s.fwu := by simp [execSamplePreload]
@[simp] theorem execExtest_fwu (s : State) : fwuAfter (execExtest s) = some s.fwu := by simp [execExtest]
@[simp] theorem execFwLoadDone_fwu (s : State) : fwuAfter (execFwLoadDone s) = some s.fwu := by simp [execFwLoadDone]

/-! ### The time unit -/

@[simp] theorem execTimeIncCommit_fwu (dom : Bool) (val : BitVec 32) (s : State) :
    fwuAfter (execTimeIncCommit dom val s) = some s.fwu := by
  have h : execTimeIncCommit dom val s = .next (if s.ready then s.incCommit dom val else s) := rfl
  rw [h, fwuAfter_next]
  split
  · rw [State.incCommit_fwu]
  · rfl
@[simp] theorem execTimeAdjust_fwu (dom : Bool) (s : State) : fwuAfter (execTimeAdjust dom s) = some s.fwu := by
  have h : execTimeAdjust dom s =
      .next (if s.ready then ({ s with time := { s.time with adjDom := dom } } : State).adjust else s) := rfl
  rw [h, fwuAfter_next]
  split
  · rw [State.adjust_fwu]
  · rfl
@[simp] theorem execTimeAdjustEnd_fwu (dom : Bool) (s : State) : fwuAfter (execTimeAdjustEnd dom s) = some s.fwu := by
  simp [execTimeAdjustEnd]
@[simp] theorem execTimeSetA_fwu (s : State) : fwuAfter (execTimeSetA s) = some s.fwu := by simp [execTimeSetA]
@[simp] theorem execTimeSetB_fwu (s : State) : fwuAfter (execTimeSetB s) = some s.fwu := by simp [execTimeSetB]
@[simp] theorem execTimeActiveWrite_fwu (dom : Bool) (s : State) :
    fwuAfter (execTimeActiveWrite dom s) = some s.fwu := by simp [execTimeActiveWrite]
@[simp] theorem execPpsOut_fwu (s : State) : fwuAfter (execPpsOut s) = some s.fwu := by simp [execPpsOut]
@[simp] theorem execPpsOutEnd_fwu (s : State) : fwuAfter (execPpsOutEnd s) = some s.fwu := by
  unfold execPpsOutEnd
  split <;> simp
@[simp] theorem execPpsIn_fwu (s : State) : fwuAfter (execPpsIn s) = some s.fwu := by simp [execPpsIn]
@[simp] theorem execTriggerArm_fwu (val : BitVec 32) (s : State) : fwuAfter (execTriggerArm val s) = some s.fwu := by
  simp [execTriggerArm]
@[simp] theorem execTriggerCapture_fwu (j : TrigIx) (s : State) : fwuAfter (execTriggerCapture j s) = some s.fwu := by
  simp [execTriggerCapture]
@[simp] theorem execTriggerArmLaunch_fwu (j : TrigIx) (s : State) :
    fwuAfter (execTriggerArmLaunch j s) = some s.fwu := by simp [execTriggerArmLaunch]
@[simp] theorem execTriggerStartAlign_fwu (j : TrigIx) (s : State) :
    fwuAfter (execTriggerStartAlign j s) = some s.fwu := by simp [execTriggerStartAlign]
@[simp] theorem execTriggerArmStep_fwu (j : TrigIx) (s : State) : fwuAfter (execTriggerArmStep j s) = some s.fwu := by
  simp [execTriggerArmStep]
@[simp] theorem execTimeLogPop_fwu (s : State) : fwuAfter (execTimeLogPop s) = some s.fwu := by simp [execTimeLogPop]
@[simp] theorem execTimeRefLost_fwu (s : State) : fwuAfter (execTimeRefLost s) = some s.fwu := by simp [execTimeRefLost]
@[simp] theorem execTimeRefRestored_fwu (s : State) : fwuAfter (execTimeRefRestored s) = some s.fwu := by
  simp [execTimeRefRestored]

/-! ### Check-value units -/

@[simp] theorem execCrcCompute_fwu (u : CrcIx) (s : State) : fwuAfter (execCrcCompute u s) = some s.fwu := by
  simp [execCrcCompute]
@[simp] theorem execCrcCheck_fwu (u : CrcIx) (s : State) : fwuAfter (execCrcCheck u s) = some s.fwu := by
  simp [execCrcCheck]
@[simp] theorem execCrcRunDone_fwu (u : CrcIx) (data : List (BitVec 8)) (err : Bool) (s : State) :
    fwuAfter (execCrcRunDone u data err s) = some s.fwu := by
  unfold execCrcRunDone
  split <;> simp

/-! ### Snapshots and the fault log -/

@[simp] theorem execSnapCapture_fwu (s : State) : fwuAfter (execSnapCapture s) = some s.fwu := by simp [execSnapCapture]
@[simp] theorem execSnapArmAt_fwu (s : State) : fwuAfter (execSnapArmAt s) = some s.fwu := by simp [execSnapArmAt]
@[simp] theorem execSnapTickCapture_fwu (s : State) : fwuAfter (execSnapTickCapture s) = some s.fwu := by
  simp [execSnapTickCapture]
@[simp] theorem execFaultLogClear_fwu (s : State) : fwuAfter (execFaultLogClear s) = some s.fwu := by
  simp [execFaultLogClear]
@[simp] theorem execFaultLogPop_fwu (s : State) : fwuAfter (execFaultLogPop s) = some s.fwu := by simp [execFaultLogPop]

/-! ### Register reads -/

@[simp] theorem execRcCounterRead_fwu (f : FnId) (off : BitVec 26) (s : State) :
    fwuAfter (execRcCounterRead f off s) = some s.fwu :=
  congrArg some (State.access_fwu _ _ _ (by split <;> simp))

/-! ### Scrubs after reset, rails, clocks and temperatures -/

@[simp] theorem execTileResetScrubDone_fwu (t : TileId) (s : State) :
    fwuAfter (execTileResetScrubDone t s) = some s.fwu := by simp [execTileResetScrubDone]
@[simp] theorem execStackResetScrubDone_fwu (k : StackId) (s : State) :
    fwuAfter (execStackResetScrubDone k s) = some s.fwu := by simp [execStackResetScrubDone]
@[simp] theorem execRailFault_fwu (rail : RailIx) (s : State) : fwuAfter (execRailFault rail s) = some s.fwu := by
  simp [execRailFault]
@[simp] theorem execRefclkLost_fwu (link : Bool) (s : State) : fwuAfter (execRefclkLost link s) = some s.fwu := by
  simp [execRefclkLost]
@[simp] theorem execThermalLimit_fwu (sensor : SensorIx) (temp : BitVec 8) (s : State) :
    fwuAfter (execThermalLimit sensor temp s) = some s.fwu := by simp [execThermalLimit]
@[simp] theorem execThermalTrip_fwu (_sensor : SensorIx) (s : State) :
    fwuAfter (execThermalTrip _sensor s) = some s.fwu := by simp [execThermalTrip]
@[simp] theorem execAlertNRelease_fwu (tj : BitVec 8) (temps : List (BitVec 8)) (s : State) :
    fwuAfter (execAlertNRelease tj temps s) = some s.fwu := by
  unfold execAlertNRelease
  split
  · rfl
  · exact congrArg some (State.fwu_foldl (fun _ _ => State.modStk_fwu ..) _ _)

end Sys2Proof.Machine
end

section
/-! The SVN floor (R457): SVN_COMMIT alone moves it, and only upwards; boot, update and reset write other fields of FWU. -/

namespace Sys2Proof.Machine
open Sys2Proof

theorem State.svnCommit_of_trial {s : State} (h : s.fwu.trial = true) : s.svnCommit = s := by
  simp [State.svnCommit, h]

theorem State.svnCommit_of_not_trial {s : State} (h : s.fwu.trial = false) :
    s.svnCommit = { s with fwu := { s.fwu with
      floor := if s.fwu.svn.toNat ≤ s.fwu.floor.toNat then s.fwu.floor else s.fwu.svn } } := by
  unfold State.svnCommit
  by_cases hle : s.fwu.svn.toNat ≤ s.fwu.floor.toNat
  · rw [if_pos (by simp [hle]), if_pos hle]
  · rw [if_neg (by simp [h, hle]), if_neg hle]

/-! ### Operations that write FWU and leave the floor -/

@[simp] theorem State.enterReset_floor (s : State) (f : Pins → Pins) : (s.enterReset f).fwu.floor = s.fwu.floor := rfl
@[simp] theorem State.leaveReset_floor (s : State) : s.leaveReset.fwu.floor = s.fwu.floor := rfl
@[simp] theorem State.loadSlot_floor (s : State) (p : BootPick) : (s.loadSlot p).fwu.floor = s.fwu.floor := rfl
@[simp] theorem State.beginTransfer_floor (s : State) (mac : BitVec 48) (blk : Nat) :
    (s.beginTransfer mac blk).fwu.floor = s.fwu.floor := by
  simp [State.beginTransfer]
@[simp] theorem State.confirm_floor (s : State) : s.confirm.fwu.floor = s.fwu.floor := by
  simp [State.confirm]
@[simp] theorem State.healthConfirm_floor (s : State) (host : Bool) : (s.healthConfirm host).fwu.floor = s.fwu.floor := by
  unfold State.healthConfirm
  split <;> simp
@[simp] theorem State.cancelStage_floor (s : State) : s.cancelStage.fwu.floor = s.fwu.floor := by
  simp [State.cancelStage]

/-! ### Register writes -/

/-- The floor of `t` is not below that of `s`. -/
def FloorLe (s t : State) : Prop := s.fwu.floor.toNat ≤ t.fwu.floor.toNat

theorem FloorLe.refl (s : State) : FloorLe s s := Nat.le_refl _

theorem FloorLe.trans {s t u : State} (h : FloorLe s t) (h' : FloorLe t u) : FloorLe s u := Nat.le_trans h h'

theorem FloorLe.of_floor {s t : State} (h : t.fwu.floor = s.fwu.floor) : FloorLe s t := by
  rw [FloorLe, h]

theorem FloorLe.of_fwu {s t : State} (h : t.fwu = s.fwu) : FloorLe s t := .of_floor (by rw [h])

theorem FloorLe.svnCommit (s : State) : FloorLe s s.svnCommit := by
  unfold State.svnCommit
  split
  · exact .refl s
  next h =>
    obtain ⟨-, hlt⟩ : ¬s.fwu.trial = true ∧ s.fwu.floor.toNat < s.fwu.svn.toNat := by simpa using h
    exact hlt.le

theorem FloorLe.writeFwu (s : State) (o : Nat) (v : BitVec 32) : FloorLe s (s.writeFwu o v) := by
  unfold State.writeFwu
  split
  · exact .of_floor (by split <;> simp)
  · extract_lets s'
    have h : FloorLe s s' := .of_floor (by
      simp only [s']
      split <;> simp)
    split
    · exact h.trans (.svnCommit s')
    · exact h
  · exact .refl s

theorem FloorLe.writeBlock (s : State) (off : Nat) (v : BitVec 32) : FloorLe s (s.writeBlock off v) := by
  unfold State.writeBlock
  dsimp only
  split
  case h_5 => exact .writeFwu ..  -- block 0x04, FWU
  all_goals exact .of_fwu (by simp)

theorem FloorLe.writeReg (s : State) (off : Nat) (v : BitVec 32) : FloorLe s (s.writeReg off v) := by
  unfold State.writeReg
  split
  · exact .writeBlock ..
  · exact .refl s

theorem FloorLe.aliasWrite (s : State) (off : Nat) (v : BitVec 32) : FloorLe s (s.aliasWrite off v) := by
  unfold State.aliasWrite
  dsimp only
  split
  · exact .writeReg ..
  split
  · exact .writeReg ..
  split
  · exact .writeReg ..
  · exact .refl s

theorem FloorLe.portWrite (s : State) (off : Nat) (v : BitVec 32) : FloorLe s (s.portWrite off v) := by
  unfold State.portWrite
  split
  · exact .aliasWrite ..
  · exact .writeReg ..

theorem FloorLe.access {s : State} {off : Nat} {write : Bool} {f : State → State} (h : FloorLe s (f s)) :
    FloorLe s (s.access off write f) := by
  unfold State.access
  split
  · exact .refl s
  split
  · exact .refl s
  · exact h

/-! ### Commands -/

/-- The floor of every next state that a command answers is at or above that of `s` (R457). -/
def FloorKept (s : State) (o : Host.Outcome State Fault Refusal) : Prop :=
  ∀ t : State, o = .next t → FloorLe s t

theorem floorKept_next {s t : State} : FloorKept s (.next t) ↔ FloorLe s t := by
  constructor
  · exact fun h => h t rfl
  · rintro h _ ⟨⟩
    exact h

theorem FloorKept.of_fwu {s : State} {o : Host.Outcome State Fault Refusal}
    (h : fwuAfter o = some s.fwu) : FloorKept s o := by
  rintro t rfl
  exact FloorLe.of_fwu (Option.some.inj h)

theorem FloorKept.of_floor {s t : State} (h : t.fwu.floor = s.fwu.floor) : FloorKept s (.next t) :=
  floorKept_next.mpr (.of_floor h)

theorem FloorKept.same (s : State) : FloorKept s (.next s) := .of_floor rfl

theorem execTftpWriteRequest_floorKept (mac : BitVec 48) (octet : Bool) (blksize : Option Nat) (s : State) :
    FloorKept s (execTftpWriteRequest mac octet blksize s) := by
  unfold execTftpWriteRequest
  split
  · exact .same s
  split
  · exact .of_floor (by simp)
  split
  · exact .of_floor (by simp)
  split
  · exact .of_floor (by simp)
  split
  · exact .of_floor (by simp)
  · exact .of_floor (by simp)

theorem execTftpTransferEnd_floorKept (img : Slot48) (s : State) : FloorKept s (execTftpTransferEnd img s) := by
  unfold execTftpTransferEnd
  dsimp only
  split
  · exact .same s
  split
  · exact .same s
  split
  · exact .of_floor (by simp)
  · exact .of_floor (by simp)

theorem execRomBoot_floorKept (s : State) : FloorKept s (execRomBoot s) := by
  unfold execRomBoot
  extract_lets p st fwu s1
  have hp : p.2.fwu = s.fwu := by
    simp only [p]
    split <;> simp
  split
  · exact .same s
  split
  · exact .of_floor (by simp [fwu, hp])
  · exact .of_floor (by simp [s1, hp])

theorem execSelftestPass_floorKept (s : State) : FloorKept s (execSelftestPass s) := by
  unfold execSelftestPass
  split
  · exact .same s
  · exact .of_floor (by simp)

theorem execFwConfirmExpired_floorKept (s : State) : FloorKept s (execFwConfirmExpired s) := by
  unfold execFwConfirmExpired
  dsimp only
  split
  · exact .same s
  · exact .of_floor (by simp)

theorem execResetRelease_floorKept (s : State) : FloorKept s (execResetRelease s) := by
  unfold execResetRelease
  split
  · exact .same s
  split
  · exact .of_floor rfl
  · exact .of_floor (State.leaveReset_floor s)

theorem execRailRestored_floorKept (s : State) : FloorKept s (execRailRestored s) := by
  unfold execRailRestored
  split
  · exact .same s
  split
  · exact .of_floor rfl
  · exact .of_floor (State.leaveReset_floor s)

theorem execSvnCommit_floorKept (s : State) : FloorKept s (execSvnCommit s) := by
  rw [execSvnCommit, floorKept_next]
  split
  · exact .svnCommit s
  · exact .refl s

theorem execRegisterWrite_floorKept (f : FnId) (off : BitVec 26) (val : BitVec 32) (s : State) :
    FloorKept s (execRegisterWrite f off val s) := by
  rw [execRegisterWrite, floorKept_next]
  refine .access ?_
  split
  · exact .portWrite ..
  · exact .of_fwu (by simp)

theorem execBitAliasAccess_floorKept (off : BitVec 26) (write : Bool) (val : BitVec 32) (s : State) :
    FloorKept s (execBitAliasAccess off write val s) := by
  unfold execBitAliasAccess
  split
  · exact .same s
  rw [floorKept_next]
  refine .access ?_
  split
  · exact .portWrite ..
  · exact .of_fwu (by simp)

/-- No command lowers the floor: a tile instruction and every command outside of reset, boot, update and the register
port leave FWU as it is, and of those others SVN_COMMIT alone moves the floor (R457). -/
theorem exec_floorKept (i : Instr) (s : State) : FloorKept s (exec i s) := by
  cases hf : i.tileForm with
  | some f =>
    obtain ⟨plan, h⟩ := exec_of_tileForm s hf
    rw [h]
    exact .of_fwu (by simp)
  | none =>
    cases i with
    | svnCommit => exact execSvnCommit_floorKept s
    | registerWrite f off val => exact execRegisterWrite_floorKept f off val s
    | bitAliasAccess off write val => exact execBitAliasAccess_floorKept off write val s
    | cancelStage => exact .of_floor (by split <;> simp)
    | healthConfirm host => exact .of_floor (State.healthConfirm_floor s host)
    | selftestPass => exact execSelftestPass_floorKept s
    | fwConfirmExpired => exact execFwConfirmExpired_floorKept s
    | tftpWriteRequest mac octet blksize => exact execTftpWriteRequest_floorKept mac octet blksize s
    | tftpTransferEnd img => exact execTftpTransferEnd_floorKept img s
    | romBoot => exact execRomBoot_floorKept s
    | sysReset => exact .of_floor (State.enterReset_floor ..)
    | perst => exact .of_floor (State.enterReset_floor ..)
    | railUndervoltage rail => exact .of_floor (State.enterReset_floor ..)
    | resetRelease => exact execResetRelease_floorKept s
    | railRestored => exact execRailRestored_floorKept s
    | ctNop | ctLwait | ctHalt | ctAmov | ctAadd | ctAalu | ctSmov | ctSalu | ctXmov | ctSld | ctSst | ctPoll
    | ctLoop | ctJmp | ctFbr | ctBbr | ctFeset | ctBar | ctWatch
    | mxLdw | mxMma
    | vxAlu | vxCvt | vxTr | vxRed | vxRng | vxReds | vxEracc | vxEradd | vxErcvt | vxDclose
    | mvCpy | mvFill | mvSend | mvSld | mvSst | mvFsend | mvFrecv | mvEld | mvPgath | mvPst | mvStrf => cases hf
    | _ => exact .of_fwu (by simp [exec])

theorem step_floorLe {s t : State} (h : step s = .next t) : FloorLe s t := by
  unfold step at h
  split at h
  next =>
    rw [← Host.Outcome.next.inj h]
    exact .of_fwu (State.tick_fwu s)
  next c rest _ => exact exec_floorKept c { s with pending := rest } t h

/-- A write of 1 to FWU.CTRL.SVN_COMMIT through BAR0, before and after firmware is ready (R457, R480). -/
theorem exec_registerWrite_svnCommit {s : State} (ha : s.alive = true) :
    exec (.registerWrite 0 0x4000C 2) s = .next (if s.fwu.booted then s.svnCommit else s) := by
  show Host.Outcome.next _ = _
  simp [State.access, ha, State.portWrite, State.writeReg, earlyBlock, State.writeBlock, State.writeFwu, bit]

theorem Slot48.failedStep_pos_of_svn_lt {x : Slot48} {floor : BitVec 6} (h : x.svn.toNat < floor.toNat) :
    0 < x.failedStep floor := by
  unfold Slot48.failedStep
  split
  · decide
  split
  · decide
  · decide

/-- Settles O52: an empty queue is a tick, which leaves FWU alone (`State.tick_fwu`), and no command lowers the floor
(`exec_floorKept`); SVN_COMMIT is `State.svnCommit`, which goes by TRIAL. -/
theorem theSvnFloorNeverDecreases : Obligations.TheSvnFloorNeverDecreases := by
  unfold Obligations.TheSvnFloorNeverDecreases
  refine ⟨fun s t => step_floorLe, fun s => ?bound, fun s ha hb ht => ?raises, fun s ha ht => ?ignored,
    fun x floor => Slot48.failedStep_pos_of_svn_lt⟩
  case bound => exact Nat.le_of_lt_succ s.fwu.floor.isLt
  case raises =>
    have hc := State.svnCommit_of_not_trial ht
    constructor
    · show Host.Outcome.next _ = _
      simp [ha, hb, hc]
    · rw [exec_registerWrite_svnCommit ha, if_pos hb, hc]
  case ignored =>
    have hc := State.svnCommit_of_trial ht
    constructor
    · show Host.Outcome.next _ = _
      simp [hc]
    · rw [exec_registerWrite_svnCommit ha, hc, ite_self]

end Sys2Proof.Machine
end

section
/-! FW_READY (R480), and what leaves it as it is: one lemma per operation that a command makes, in the order of the
model. Here the operations that every family shares, and those of the tiles. An equation that unfolding alone shows is
proved `by rfl`, not by the term `rfl`: `simp` then keeps its proof where it uses the lemma to discharge the hypothesis
of `State.fwReady_foldl`. -/

namespace Sys2Proof.Machine
open Sys2Proof

/-- FW_READY: firmware has loaded the boot slot (R480). -/
@[simp] abbrev State.fwReady (s : State) : Bool := s.top.fwReady

/-- A fold leaves FW_READY as it is where every step of it does. -/
@[simp] theorem State.fwReady_foldl {α : Type} {f : State → α → State} (h : ∀ s x, (f s x).fwReady = s.fwReady)
    (l : List α) (s : State) : (l.foldl f s).fwReady = s.fwReady := foldl_keeps State.fwReady h l s

/-- A fold that changes tiles. -/
@[simp] theorem State.modTile_foldl_fwReady {α : Type} (i : α → Nat) (f : State → α → Tile → Tile) (l : List α)
    (s : State) : (l.foldl (fun s x => s.modTile (i x) (f s x)) s).fwReady = s.fwReady :=
  State.fwReady_foldl (by intros; rfl) l s

/-- A fold that changes tiles with their sync units. -/
@[simp] theorem State.modTile_modTs_foldl_fwReady {α : Type} (i j : α → Nat) (f : State → α → Tile → Tile)
    (g : State → α → TileSync → TileSync) (l : List α) (s : State) :
    (l.foldl (fun s x => (s.modTile (i x) (f s x)).modTs (j x) (g s x)) s).fwReady = s.fwReady :=
  State.fwReady_foldl (by intros; rfl) l s

/-- A fold that changes sync units of tiles. -/
@[simp] theorem State.modTs_foldl_fwReady {α : Type} (j : α → Nat) (g : State → α → TileSync → TileSync)
    (l : List α) (s : State) : (l.foldl (fun s x => s.modTs (j x) (g s x)) s).fwReady = s.fwReady :=
  State.fwReady_foldl (by intros; rfl) l s

@[simp] theorem State.fwReady_ite (c : Prop) [Decidable c] (a b : State) :
    (if c then a else b).fwReady = if c then a.fwReady else b.fwReady := apply_ite State.fwReady ..

@[simp] theorem State.rng_fwReady (s : State) (w : Nat) : (s.rng w).2.fwReady = s.fwReady := by rfl

/-! ### Interrupts, faults, holds and episodes (R32 to R43, R436, R494, R513) -/

@[simp] theorem State.signal_fwReady (s : State) (f v : Nat) : (s.signal f v).fwReady = s.fwReady := by
  simp [State.signal]
@[simp] theorem State.partEvent_fwReady (s : State) (p : Nat) : (s.partEvent p).fwReady = s.fwReady := by
  simp [State.partEvent]
@[simp] theorem State.setPartState_fwReady (s : State) (p : Nat) (st : BitVec 3) :
    (s.setPartState p st).fwReady = s.fwReady := by simp [State.setPartState]
@[simp] theorem State.setWings_fwReady (s : State) (p : Nat) (w : BitVec 3) : (s.setWings p w).fwReady = s.fwReady := by
  simp [State.setWings]
@[simp] theorem State.logEvent_fwReady (s : State) (ty detail : Nat) : (s.logEvent ty detail).fwReady = s.fwReady := by
  simp [State.logEvent]
@[simp] theorem State.logFault_fwReady (s : State) (r : FaultRec) (c : Option FaultRec) :
    (s.logFault r c).fwReady = s.fwReady := by rfl
@[simp] theorem State.flood_fwReady (s : State) (except : Nat) (sym : InlineSym) :
    (s.flood except sym).fwReady = s.fwReady := by simp [State.flood]
@[simp] theorem State.raiseCause_fwReady (s : State) (code : BitVec 4) (src : CauseSrc) :
    (s.raiseCause code src).fwReady = s.fwReady := by
  unfold State.raiseCause
  split <;> simp
@[simp] theorem State.clearCause_fwReady (s : State) (src : CauseSrc) : (s.clearCause src).fwReady = s.fwReady := by rfl
@[simp] theorem State.enterFaultStop_fwReady (s : State) : s.enterFaultStop.fwReady = s.fwReady := by
  simp [State.enterFaultStop]
@[simp] theorem State.faultHold_fwReady (s : State) (r : FaultRec) (c : Option FaultRec) :
    (s.faultHold r c).fwReady = s.fwReady := by simp [State.faultHold]
@[simp] theorem State.applyHold_fwReady (s : State) (origin : BitVec 24) (num : BitVec 8) :
    (s.applyHold origin num).fwReady = s.fwReady := by
  unfold State.applyHold
  split <;> simp
@[simp] theorem State.applyRelease_fwReady (s : State) (origin : BitVec 24) (num : BitVec 8) :
    (s.applyRelease origin num).fwReady = s.fwReady := by rfl
@[simp] theorem State.releaseOwn_fwReady (s : State) : s.releaseOwn.fwReady = s.fwReady := by
  unfold State.releaseOwn
  split <;> simp
@[simp] theorem State.applyOwn_fwReady (s : State) : s.applyOwn.fwReady = s.fwReady := by simp [State.applyOwn]
@[simp] theorem State.resume_fwReady (s : State) : s.resume.fwReady = s.fwReady := by
  unfold State.resume
  split
  · rfl
  split
  · simp
  · cases s.windowBusy <;> cases s.refreshBusy <;> simp

/-! ### Words of a stack -/

@[simp] theorem State.modPch_fwReady (s : State) (x : Nat) (f : Channel → Channel) :
    (s.modPch x f).fwReady = s.fwReady := by rfl
@[simp] theorem State.stackUE_fwReady (s : State) (x w : Nat) (p : Option Nat) :
    (s.stackUE x w p).fwReady = s.fwReady := by rfl
@[simp] theorem State.stackCE_fwReady (s : State) (x w : Nat) (die : BitVec 4) :
    (s.stackCE x w die).fwReady = s.fwReady := by rfl
@[simp] theorem State.admitWrite_fwReady (s : State) (x : Nat) (pw : PendWrite) :
    (s.admitWrite x pw).fwReady = s.fwReady := by rfl

/-! ### The check point of a tile instruction -/

@[simp] theorem State.tileUE_fwReady (s : State) (t w unit : Nat) (pc : BitVec 32) :
    (s.tileUE t w unit pc).fwReady = s.fwReady := by simp [State.tileUE]
@[simp] theorem State.noteStall_fwReady (s : State) (t w unit : Nat) (pc : BitVec 32) :
    (s.noteStall t w unit pc).fwReady = s.fwReady := by
  unfold State.noteStall
  dsimp only
  split <;> simp
@[simp] theorem State.lateUse_fwReady (s : State) (t : Nat) (e : Eng) (code : BitVec 4) (words : List Nat)
    (pc : BitVec 32) : (s.lateUse t e code words pc).fwReady = s.fwReady := by simp [State.lateUse]
@[simp] theorem State.checkPlan_fwReady (s : State) (t : Nat) (e : Eng) (fr : Front) (f : Flight) (pl : Plan) :
    (s.checkPlan t e fr f pl).fwReady = s.fwReady := by
  unfold State.checkPlan
  dsimp only
  split
  · simp
  · split <;> simp
@[simp] theorem State.check_fwReady (s : State) (t : Nat) (e : Eng) (op : Nat) (w : IWord) (ok : Bool)
    (plan : Ctx → Plan) (fr : Front) : (s.check t e op w ok plan fr).fwReady = s.fwReady := by
  unfold State.check
  dsimp only
  split
  · rfl
  split
  · simp
  split
  · simp
  · split <;> simp
@[simp] theorem State.runInstr_fwReady (s : State) (t : Nat) (e : Eng) (op : Nat) (w : IWord) (ok : Bool)
    (plan : Ctx → Plan) : (s.runInstr t e op w ok plan).fwReady = s.fwReady := by
  unfold State.runInstr
  split
  · rfl
  split
  · simp
  · split <;> simp

/-! ### Packets -/

@[simp] theorem State.flowUpdate_fwReady (s : State) (n : Nat) : (s.flowUpdate n).fwReady = s.fwReady := by
  simp [State.flowUpdate]
@[simp] theorem State.admitOpen_fwReady (s : State) (n : Nat) : (s.admitOpen n).fwReady = s.fwReady := by
  simp [State.admitOpen]
@[simp] theorem State.countDrop_fwReady (s : State) (n : Nat) : (s.countDrop n).fwReady = s.fwReady := by rfl
@[simp] theorem State.routeOpen_fwReady (s : State) (p : Packet) (via : Nat) :
    (s.routeOpen p via).fwReady = s.fwReady := by
  unfold State.routeOpen
  dsimp only
  split <;> simp
@[simp] theorem State.inject_fwReady (s : State) (p : Packet) : (s.inject p).fwReady = s.fwReady := by
  simp [State.inject]
@[simp] theorem State.queueP_fwReady (s : State) (n : Nat) (p : Packet) (readyAt : Nat) (relay : Bool)
    (via part : Nat) : (s.queueP n p readyAt relay via part).fwReady = s.fwReady := by simp [State.queueP]
@[simp] theorem State.countStall_fwReady (s : State) (n : Nat) : (s.countStall n).fwReady = s.fwReady := by rfl
@[simp] theorem State.transmit_fwReady (s : State) (n : Nat) (p : Packet) : (s.transmit n p).fwReady = s.fwReady := by
  rfl
@[simp] theorem State.dropRelayed_fwReady (s : State) (via : Nat) (p : Packet) :
    (s.dropRelayed via p).fwReady = s.fwReady := by simp [State.dropRelayed]
@[simp] theorem State.takeP_fwReady (s : State) (n : Nat) (q : PQueued) : (s.takeP n q).fwReady = s.fwReady := by
  simp [State.takeP]
@[simp] theorem State.slotOverrun_fwReady (s : State) (n cell : Nat) (p : Packet) :
    (s.slotOverrun n cell p).fwReady = s.fwReady := by simp [State.slotOverrun]
@[simp] theorem State.acceptP_fwReady (s : State) (n : Nat) (p : Packet) : (s.acceptP n p).fwReady = s.fwReady := by
  simp [State.acceptP]
@[simp] theorem State.dropForeign_fwReady (s : State) (n : Nat) (p : Packet) :
    (s.dropForeign n p).fwReady = s.fwReady := by rfl
@[simp] theorem State.takeAccepted_fwReady (s : State) (n : Nat) (p : Packet) :
    (s.takeAccepted n p).fwReady = s.fwReady := by rfl
@[simp] theorem State.consume_fwReady (s : State) (p : Packet) : (s.consume p).fwReady = s.fwReady := by rfl

/-! ### Watches and barriers -/

@[simp] theorem State.sidePort_fwReady (s : State) (t w : Nat) : (s.sidePort t w).fwReady = s.fwReady := by rfl
@[simp] theorem State.sendBar_fwReady (s : State) (type p b i : Nat) (d : BarDecl) :
    (s.sendBar type p b i d).fwReady = s.fwReady := by simp [State.sendBar]
@[simp] theorem State.releaseBar_fwReady (s : State) (p b steps : Nat) (d : BarDecl) (i : Nat) :
    (s.releaseBar p b steps d i).fwReady = s.fwReady := by simp [State.releaseBar]
@[simp] theorem State.checkBar_fwReady (s : State) (p b past : Nat) (d : BarDecl) :
    (s.checkBar p b past d).fwReady = s.fwReady := by
  unfold State.checkBar
  dsimp only
  split
  · rfl
  split
  · simp
  · split <;> simp
@[simp] theorem State.erEvent_fwReady (s : State) (t : Nat) : (s.erEvent t).fwReady = s.fwReady := by rfl

/-! ### Digests -/

@[simp] theorem State.releaseFolds_fwReady (s : State) (t : Nat) : (s.releaseFolds t).fwReady = s.fwReady := by
  simp [State.releaseFolds]

/-! ### Plans -/

@[simp] theorem State.modStream_fwReady (s : State) (t : Nat) (e : Eng) (f : Stream → Stream) :
    (s.modStream t e f).fwReady = s.fwReady := by rfl
@[simp] theorem State.modFlight_fwReady (s : State) (c : Ctx) (f : Flight → Flight) :
    (s.modFlight c f).fwReady = s.fwReady := by rfl

/-! ### Host windows -/

@[simp] theorem State.serveWindow_fwReady (s : State) (t : Nat) (r : WinReq) :
    (s.serveWindow t r).fwReady = s.fwReady := by simp [State.serveWindow]
@[simp] theorem State.beginWindow_fwReady (s : State) (t left : Nat) (holds : Bool) :
    (s.beginWindow t left holds).fwReady = s.fwReady := by rfl
@[simp] theorem State.takeWindow_fwReady (s : State) (t b : Nat) : (s.takeWindow t b).fwReady = s.fwReady := by rfl

/-! ### Parity and host windows of a tile -/

@[simp] theorem State.parityDetect_fwReady (s : State) (t : Nat) (source : BitVec 2) (queue : Bool) (pc : BitVec 32) :
    (s.parityDetect t source queue pc).fwReady = s.fwReady := by simp [State.parityDetect]
@[simp] theorem State.parityFinish_fwReady (s : State) (t : Nat) (source : BitVec 2) (ok : Bool) :
    (s.parityFinish t source ok).fwReady = s.fwReady := by
  unfold State.parityFinish
  dsimp only
  split <;> simp
@[simp] theorem State.queueWindow_fwReady (s : State) (t : Nat) (rs : List WinReq) :
    (s.queueWindow t rs).fwReady = s.fwReady := by rfl
@[simp] theorem State.winRead_fwReady (s : State) (t off : Nat) (dbl : Bool) :
    (s.winRead t off dbl).fwReady = s.fwReady := by
  unfold State.winRead
  dsimp only
  split
  · rfl
  split
  · rfl
  split
  · split <;> simp
  · simp
@[simp] theorem State.winWrite_fwReady (s : State) (t off val : Nat) (dbl : Bool) :
    (s.winWrite t off val dbl).fwReady = s.fwReady := by simp [State.winWrite]
@[simp] theorem State.queueFe_fwReady (s : State) (t : Nat) (kind : WinKind) (mask : BitVec 32) :
    (s.queueFe t kind mask).fwReady = s.fwReady := by simp [State.queueFe]

end Sys2Proof.Machine
end

section
/-! FW_READY is left as it is by plan time, the fabric's messages, the ports, the stacks, the mapper and the buckets. -/

namespace Sys2Proof.Machine
open Sys2Proof

/-! ### Plan time: debt, throttle, alignment, launch and step switch -/

@[simp] theorem State.ifReady_fwReady (s : State) {f : State → State} (h : ∀ s, (f s).fwReady = s.fwReady) :
    (s.ifReady f).fwReady = s.fwReady := by simp [State.ifReady, h]
@[simp] theorem State.addDebt_fwReady (s : State) (d : Nat) : (s.addDebt d).fwReady = s.fwReady := by rfl
@[simp] theorem State.subDebt_fwReady (s : State) (d : Nat) (origin : BitVec 24) :
    (s.subDebt d origin).fwReady = s.fwReady := by simp [State.subDebt]
@[simp] theorem State.raiseStall_fwReady (s : State) (num : BitVec 8) : (s.raiseStall num).fwReady = s.fwReady := by
  simp [State.raiseStall]
@[simp] theorem State.raiseLimit_fwReady (s : State) (e : Episode) : (s.raiseLimit e).fwReady = s.fwReady := by
  simp [State.raiseLimit]
@[simp] theorem State.writeHoldLimit_fwReady (s : State) (v : BitVec 32) :
    (s.writeHoldLimit v).fwReady = s.fwReady := by simp [State.writeHoldLimit]
@[simp] theorem State.writeThrottle_fwReady (s : State) (v : BitVec 32) : (s.writeThrottle v).fwReady = s.fwReady := by
  rfl
@[simp] theorem State.setCount_fwReady (s : State) (c16 : Nat) : (s.setCount c16).fwReady = s.fwReady := by rfl
@[simp] theorem State.alignStart_fwReady (s : State) : s.alignStart.fwReady = s.fwReady := by simp [State.alignStart]
@[simp] theorem State.rememberSym_fwReady (s : State) (ty : Nat) (u : BitVec 64) :
    (s.rememberSym ty u).fwReady = s.fwReady := by rfl
@[simp] theorem State.primePart_fwReady (s : State) (g p : Nat) : (s.primePart g p).fwReady = s.fwReady := by
  simp [State.primePart]
@[simp] theorem State.sendBarrier_fwReady (s : State) (release : Nat) :
    (s.sendBarrier release).fwReady = s.fwReady := by simp [State.sendBarrier]
@[simp] theorem State.launchArm_fwReady (s : State) : s.launchArm.fwReady = s.fwReady := by simp [State.launchArm]
@[simp] theorem State.startTiles_fwReady (s : State) (p : Nat) : (s.startTiles p).fwReady = s.fwReady := by
  simp [State.startTiles]
@[simp] theorem State.startPart_fwReady (s : State) (g p : Nat) : (s.startPart g p).fwReady = s.fwReady := by
  simp [State.startPart]
@[simp] theorem State.startAll_fwReady (s : State) (g : Nat) : (s.startAll g).fwReady = s.fwReady := by
  simp [State.startAll]
@[simp] theorem State.clearBarrier_fwReady (s : State) : s.clearBarrier.fwReady = s.fwReady := by rfl
@[simp] theorem State.rejectStep_fwReady (s : State) (tick : Nat) : (s.rejectStep tick).fwReady = s.fwReady := by rfl
@[simp] theorem State.tickPassed_fwReady (s : State) (tick ext : Nat) (p : Option Nat) :
    (s.tickPassed tick ext p).fwReady = s.fwReady := by simp [State.tickPassed]
@[simp] theorem State.stepArm_fwReady (s : State) : s.stepArm.fwReady = s.fwReady := by simp [State.stepArm]

/-! ### Flat data and Vent messages -/

@[simp] theorem State.writeFlat_fwReady (s : State) (v : BitVec 32) : (s.writeFlat v).fwReady = s.fwReady := by
  simp [State.writeFlat]
@[simp] theorem State.ventTransmit_fwReady (s : State) (m : VentOut) : (s.ventTransmit m).fwReady = s.fwReady := by
  simp [State.ventTransmit]
@[simp] theorem State.ventSend_fwReady (s : State) (dest : BitVec 24) (body : List (BitVec 8)) :
    (s.ventSend dest body).fwReady = s.fwReady := by simp [State.ventSend]
@[simp] theorem State.ventFail_fwReady (s : State) (src : BitVec 24) (msgId : BitVec 32) :
    (s.ventFail src msgId).fwReady = s.fwReady := by rfl
@[simp] theorem State.ventAck_fwReady (s : State) (src : BitVec 24) (msgId : BitVec 32) :
    (s.ventAck src msgId).fwReady = s.fwReady := by simp [State.ventAck]

/-! ### Ports -/

@[simp] theorem State.setLinkState_fwReady (s : State) (n : Nat) (st : BitVec 3) :
    (s.setLinkState n st).fwReady = s.fwReady := by simp [State.setLinkState]
@[simp] theorem State.goDown_fwReady (s : State) (n cause : Nat) : (s.goDown n cause).fwReady = s.fwReady := by
  simp [State.goDown]
@[simp] theorem State.seqProtocol_fwReady (s : State) (n : Nat) (num : BitVec 16) :
    (s.seqProtocol n num).fwReady = s.fwReady := by simp [State.seqProtocol]
@[simp] theorem State.discardPackets_fwReady (s : State) (n : Nat) : (s.discardPackets n).fwReady = s.fwReady := by rfl
@[simp] theorem State.failPort_fwReady (s : State) (n : Nat) : (s.failPort n).fwReady = s.fwReady := by
  simp [State.failPort]
@[simp] theorem State.badTrailer_fwReady (s : State) (n : Nat) : (s.badTrailer n).fwReady = s.fwReady := by rfl
@[simp] theorem State.acceptNext_fwReady (s : State) (n : Nat) (p : Packet) :
    (s.acceptNext n p).fwReady = s.fwReady := by simp [State.acceptNext]
@[simp] theorem State.passStates_fwReady (s : State) (n last : Nat) : (s.passStates n last).fwReady = s.fwReady := by
  simp [State.passStates]
@[simp] theorem State.startTraining_fwReady (s : State) (n : Nat) (byReq : Bool) :
    (s.startTraining n byReq).fwReady = s.fwReady := by simp [State.startTraining]
@[simp] theorem State.writeEnable_fwReady (s : State) (n : Nat) (on : Bool) :
    (s.writeEnable n on).fwReady = s.fwReady := by simp [State.writeEnable]
@[simp] theorem State.fullTrainReq_fwReady (s : State) (n : Nat) : (s.fullTrainReq n).fwReady = s.fwReady := by
  simp [State.fullTrainReq]
@[simp] theorem State.forceRetrain_fwReady (s : State) (n : Nat) : (s.forceRetrain n).fwReady = s.fwReady := by
  simp [State.forceRetrain]
@[simp] theorem State.declarePort_fwReady (s : State) (n : Nat) : (s.declarePort n).fwReady = s.fwReady := by
  simp [State.declarePort]
@[simp] theorem State.wiringMismatch_fwReady (s : State) (n : Nat) (id : LinkIdent) :
    (s.wiringMismatch n id).fwReady = s.fwReady := by simp [State.wiringMismatch]
@[simp] theorem State.requestLane_fwReady (s : State) (n lane : Nat) : (s.requestLane n lane).fwReady = s.fwReady := by
  rfl
@[simp] theorem State.laneDegrades_fwReady (s : State) (n lane : Nat) :
    (s.laneDegrades n lane).fwReady = s.fwReady := by simp [State.laneDegrades]
@[simp] theorem State.laneSwapReq_fwReady (s : State) (n : Nat) : (s.laneSwapReq n).fwReady = s.fwReady := by
  simp [State.laneSwapReq]

/-! ### Open accesses, refresh, stack windows, sealed loads and staging -/

@[simp] theorem State.countOpen_fwReady (s : State) (x : Nat) : (s.countOpen x).fwReady = s.fwReady := by
  simp [State.countOpen]
@[simp] theorem State.openWrite_fwReady (s : State) (x w : Nat) (d : Line) :
    (s.openWrite x w d).fwReady = s.fwReady := by simp [State.openWrite]
@[simp] theorem State.stageSettle_fwReady (s : State) (tag : Option (Nat × Nat × Nat)) :
    (s.stageSettle tag).fwReady = s.fwReady := by
  unfold State.stageSettle
  split <;> simp
@[simp] theorem State.beginRefresh_fwReady (s : State) (k c n : Nat) (forced held : Bool) :
    (s.beginRefresh k c n forced held).fwReady = s.fwReady := by rfl
@[simp] theorem State.stkGo_fwReady (s : State) (k : Nat) : (s.stkGo k).fwReady = s.fwReady := by rfl
@[simp] theorem State.admitWindow_fwReady (s : State) (k : Nat) (a : WinAcc) :
    (s.admitWindow k a).fwReady = s.fwReady := by
  unfold State.admitWindow
  extract_lets x ch got s'
  have h : s'.fwReady = s.fwReady := by simp [s']
  split
  · simp [h]
  split
  · simp [h]
  · split <;> simp [h]
@[simp] theorem State.sealFailed_fwReady (s : State) (p stack region target : Nat) :
    (s.sealFailed p stack region target).fwReady = s.fwReady := by rfl
@[simp] theorem State.loadSealed_fwReady (s : State) (p : Nat) (b : List (BitVec 8))
    (tag : Option (Nat × Nat × Nat)) : (s.loadSealed p b tag).1.fwReady = s.fwReady := by
  unfold State.loadSealed
  dsimp only
  split
  · rfl
  split
  · simp
  split
  · simp
  · split <;> simp
@[simp] theorem State.stagingError_fwReady (s : State) (p d : Nat) : (s.stagingError p d).fwReady = s.fwReady := by
  simp [State.stagingError]
@[simp] theorem issueStaging_fwReady (n : Nat) (s : State) : (issueStaging n s).fwReady = s.fwReady := by
  induction n generalizing s with
  | zero => rfl
  | succ k ih =>
    unfold issueStaging
    dsimp only
    split
    · rfl
    split
    · rfl
    · split <;> simp [ih]
@[simp] theorem State.fillHalf_fwReady (s : State) (p h : Nat) : (s.fillHalf p h).fwReady = s.fwReady := by
  simp [State.fillHalf]
@[simp] theorem State.stageWords_fwReady (s : State) (p h d first : Nat) (data : List Line) :
    (s.stageWords p h d first data).fwReady = s.fwReady := by simp [State.stageWords]

/-! ### The mapper -/

@[simp] theorem State.recordCal_fwReady (s : State) (own : HealthRec) : (s.recordCal own).fwReady = s.fwReady := by
  simp [State.recordCal]
@[simp] theorem State.failRun_fwReady (s : State) (r : MapRun) (code : Nat) (loc : CheckLoc) (obj : Nat) :
    (s.failRun r code loc obj).fwReady = s.fwReady := by simp [State.failRun]
@[simp] theorem State.enterPhase_fwReady (s : State) (n : BitVec 3) : (s.enterPhase n).fwReady = s.fwReady := by rfl
@[simp] theorem State.agreeRun_fwReady (s : State) (r : MapRun) (c : JobCtx) :
    (s.agreeRun r c).fwReady = s.fwReady := by simp [State.agreeRun]
@[simp] theorem State.checkRun_fwReady (s : State) (r : MapRun) (c : JobCtx) :
    (s.checkRun r c).fwReady = s.fwReady := by
  unfold State.checkRun
  dsimp only
  split
  · simp
  split
  · simp
  · split <;> simp
@[simp] theorem State.placeRun_fwReady (s : State) (r : MapRun) (c : JobCtx) :
    (s.placeRun r c).fwReady = s.fwReady := by
  unfold State.placeRun
  split <;> simp
@[simp] theorem State.refreshFabric_fwReady (s : State) : s.refreshFabric.fwReady = s.fwReady := by
  unfold State.refreshFabric
  dsimp only
  split
  · rfl
  · rw [State.fwReady_foldl fun _ _ => by simp]
@[simp] theorem State.bindTiles_fwReady (s : State) (p : Nat) : (s.bindTiles p).fwReady = s.fwReady :=
  State.fwReady_foldl (fun _ _ => by split <;> simp) _ _
@[simp] theorem State.keepRunning_fwReady (s : State) (old : State) (p : Nat) :
    (s.keepRunning old p).fwReady = s.fwReady := by simp [State.keepRunning]
@[simp] theorem State.loadTiles_fwReady (s : State) (p : Nat) : (s.loadTiles p).fwReady = s.fwReady := by
  unfold State.loadTiles
  split <;> simp
@[simp] theorem State.installMapping_fwReady (s : State) (p : Nat) : (s.installMapping p).fwReady = s.fwReady := by
  simp [State.installMapping]
@[simp] theorem State.continueRun_fwReady (s : State) : s.continueRun.fwReady = s.fwReady := by
  unfold State.continueRun
  split <;> simp
@[simp] theorem State.startRun_fwReady (s : State) (p : Nat) (rebind : Bool) (env : BindEnv) :
    (s.startRun p rebind env).fwReady = s.fwReady := by cases hr : s.map.run <;> simp [State.startRun, hr]
@[simp] theorem State.restartRun_fwReady (s : State) (old : BitVec 512) : (s.restartRun old).fwReady = s.fwReady := by
  unfold State.restartRun
  split <;> simp

/-! ### Buckets -/

@[simp] theorem State.setBkt_fwReady (s : State) (c : Nat) (b : Bucket) : (s.setBkt c b).fwReady = s.fwReady := by rfl
@[simp] theorem State.ledgerFault_fwReady (s : State) (p c : Nat) : (s.ledgerFault p c).fwReady = s.fwReady := by
  simp [State.ledgerFault]
@[simp] theorem State.changeBkt_fwReady (s : State) (p c : Nat) (f : Bucket → Bucket) :
    (s.changeBkt p c f).fwReady = s.fwReady := by simp [State.changeBkt]
theorem State.budgetOp_fwReady {s : State} {p op cust : Nat} {val : Int} {r : State × Int}
    (h : s.budgetOp p op cust val = some r) :
    r.1.fwReady = s.fwReady := by
  unfold State.budgetOp at h
  dsimp only at h
  repeat' split at h
  all_goals cases h
  all_goals simp
@[simp] theorem State.budGo_fwReady (s : State) (p : Nat) : (s.budGo p).fwReady = s.fwReady := by rfl
@[simp] theorem State.budOp_fwReady (s : State) (op : Nat) : (s.budOp op).fwReady = s.fwReady := by rfl
@[simp] theorem State.bktSel_fwReady (s : State) (v : BitVec 32) : (s.bktSel v).fwReady = s.fwReady := by rfl

end Sys2Proof.Machine
end

section
/-! FW_READY is left as it is by the work of a step boundary, which runs on a record `Bnd` that holds the chip as it
stands. -/

namespace Sys2Proof.Machine
open Sys2Proof

/-! ### Entries, records and outcomes of a boundary -/

@[simp] theorem State.setEnt_fwReady (s : State) (i : Nat) (e : Entry) : (s.setEnt i e).fwReady = s.fwReady := by rfl
@[simp] theorem State.entrySel_fwReady (s : State) (v : BitVec 32) : (s.entrySel v).fwReady = s.fwReady := by rfl
@[simp] theorem Bnd.log_fwReady (b : Bnd) (us : List Line) : (b.log us).s.fwReady = b.s.fwReady := by rfl
@[simp] theorem Bnd.reply_fwReady (b : Bnd) (id status : Nat) : (b.reply id status).s.fwReady = b.s.fwReady := by
  simp [Bnd.reply]
@[simp] theorem Bnd.replySub_fwReady (b : Bnd) (id status : Nat) : (b.replySub id status).s.fwReady = b.s.fwReady := by
  simp [Bnd.replySub]
@[simp] theorem Bnd.note_fwReady (b : Bnd) (c : Nat) (g : Int) (ch : Nat) (sp : Int) :
    (b.note c g ch sp).s.fwReady = b.s.fwReady := by rfl
@[simp] theorem Bnd.findMarks_fwReady (b : Bnd) : b.findMarks.s.fwReady = b.s.fwReady := by simp [Bnd.findMarks]
@[simp] theorem Bnd.cancel_fwReady (b : Bnd) (id : Nat) (waiting : List (BitVec 32 × BitVec 64)) :
    (b.cancel id waiting).s.fwReady = b.s.fwReady := by
  unfold Bnd.cancel
  dsimp only
  split
  · simp
  split
  · rfl
  split
  · rfl
  · split <;> simp
@[simp] theorem Bnd.deadline_fwReady (b : Bnd) (id dl : Nat) : (b.deadline id dl).s.fwReady = b.s.fwReady := by
  unfold Bnd.deadline
  split <;> simp
theorem Bnd.budget_fwReady {b b' : Bnd} {op cust : Nat} {val : Int} (h : b.budget op cust val = some b') :
    b'.s.fwReady = b.s.fwReady := by
  obtain ⟨r, hr, rfl⟩ := Option.map_eq_some_iff.mp h
  simp [State.budgetOp_fwReady hr]
@[simp] theorem Bnd.control_fwReady (b : Bnd) (r : List (BitVec 8)) (waiting : List (BitVec 32 × BitVec 64)) :
    (b.control r waiting).s.fwReady = b.s.fwReady := by
  unfold Bnd.control
  dsimp only
  split
  · split
    next b' h =>
      rw [Option.ite_none_right_eq_some] at h
      simp [Bnd.budget_fwReady h.2]
    next => simp
  · simp
@[simp] theorem Bnd.logOp_fwReady (b : Bnd) (op cust val : Nat) : (b.logOp op cust val).s.fwReady = b.s.fwReady := by
  rfl
@[simp] theorem Bnd.operator_fwReady (b : Bnd) : b.operator.s.fwReady = b.s.fwReady := by
  unfold Bnd.operator
  split
  · rfl
  split
  · rfl
  dsimp only
  split
  next h => simp [Bnd.budget_fwReady h]
  next => simp
@[simp] theorem Bnd.params_fwReady (b : Bnd) : b.params.s.fwReady = b.s.fwReady := by
  unfold Bnd.params
  extract_lets x b1 b2
  split
  · rfl
  have h1 : b1.s.fwReady = b.s.fwReady := by
    simp only [b1]
    split <;> rfl
  have h2 : b2.s.fwReady = b1.s.fwReady := by
    simp only [b2]
    split <;> rfl
  exact h2.trans h1
@[simp] theorem Bnd.settle_fwReady (b : Bnd) (rets : List (Slot × Ret)) (i : Nat) (e : Entry) :
    (b.settle rets i e).s.fwReady = b.s.fwReady := by
  unfold Bnd.settle
  extract_lets l ret ch c b1 dec e1
  have h : b1.s.fwReady = b.s.fwReady := by simp [b1]
  clear_value b1 e1
  split
  · exact h
  · dsimp only
    split
    · exact h
    · exact h
@[simp] theorem Bnd.outcomes_fwReady (b : Bnd) : b.outcomes.s.fwReady = b.s.fwReady := by
  unfold Bnd.outcomes
  dsimp only
  refine (foldl_keeps (fun b : Bnd => b.s.fwReady) (fun _ _ => Bnd.settle_fwReady ..) _ _).trans ?_
  simp
@[simp] theorem Bnd.depths_fwReady (b : Bnd) : b.depths.s.fwReady = b.s.fwReady := by
  unfold Bnd.depths
  extract_lets rets ver seen c
  have hc : c.s.fwReady = b.s.fwReady := by simp [c]
  split
  · exact hc
  · refine (foldl_keeps (fun b : Bnd => b.s.fwReady) (fun b x => ?_) _ _).trans hc
    dsimp only
    split <;> simp
@[simp] theorem Bnd.spring_fwReady (b : Bnd) : b.spring.s.fwReady = b.s.fwReady :=
  foldl_keeps (fun b : Bnd => b.s.fwReady) (fun b x => by simp) _ _
@[simp] theorem Bnd.ledger_fwReady (b : Bnd) : b.ledger.s.fwReady = b.s.fwReady := by rfl
@[simp] theorem Bnd.admitOne_fwReady (b : Bnd) (i : Nat) (x : Submit) : (b.admitOne i x).s.fwReady = b.s.fwReady := by
  rfl
@[simp] theorem Bnd.admitAll_fwReady (xs : List Submit) (earlier : List Nat) (b : Bnd) :
    (Bnd.admitAll xs earlier b).s.fwReady = b.s.fwReady := by
  induction xs generalizing earlier b with
  | nil => rfl
  | cons x xs ih =>
    unfold Bnd.admitAll
    extract_lets id take q mark b' len c prod o room y
    have ht (b : Bnd) : (take b).s.fwReady = b.s.fwReady := by simp [take]
    have hb : b'.s.fwReady = b.s.fwReady := by simp [b', ht]
    clear_value take room
    split
    · simp [ih, hb]
    split
    · simp [ih, ht]
    split
    · rfl
    split
    · rfl
    · split <;> simp [ih, ht]

/-! ### The batch of a step -/

theorem Bnd.stringsFit_fwReady {b b' : Bnd} {set : BitVec 32} {v : Nat} (h : b.stringsFit set = some (v, b')) :
    b'.s.fwReady = b.s.fwReady := by
  unfold Bnd.stringsFit at h
  dsimp only at h
  split at h
  · cases h; rfl
  split at h
  · cases h; rfl
  split at h
  · cases h
  split at h
  · cases h
  · cases h; rfl
@[simp] theorem Bnd.pagesFit_fwReady (b : Bnd) (i upto : Nat) : (b.pagesFit i upto).2.s.fwReady = b.s.fwReady := by
  unfold Bnd.pagesFit
  dsimp only
  split
  · simp
  · split <;> simp
@[simp] theorem State.setDeficit_fwReady (s : State) (c : Nat) (d : Int) : (s.setDeficit c d).fwReady = s.fwReady := by
  rfl
@[simp] theorem Bnd.tryEntry_fwReady (b : Bnd) (i : Nat) : (b.tryEntry i).s.fwReady = b.s.fwReady := by
  unfold Bnd.tryEntry
  dsimp only
  split
  · rfl
  next h => split <;> simp [Bnd.stringsFit_fwReady h]
@[simp] theorem Bnd.pass_fwReady (b : Bnd) (xs : List (Nat × Entry)) : (b.pass xs).s.fwReady = b.s.fwReady :=
  foldl_keeps (fun b : Bnd => b.s.fwReady) (fun b x => by simp) _ _
@[simp] theorem Bnd.batch_fwReady (b : Bnd) (isOpen : Bool) : (b.batch isOpen).s.fwReady = b.s.fwReady := by
  unfold Bnd.batch
  dsimp only
  rw [State.fwReady_foldl fun _ _ => State.setEnt_fwReady ..,
    State.fwReady_foldl fun _ _ => State.setDeficit_fwReady .., Bnd.pass_fwReady, Bnd.pass_fwReady, Bnd.pass_fwReady]
  exact State.fwReady_foldl (fun _ _ => State.setDeficit_fwReady ..) _ _
@[simp] theorem Bnd.logBatch_fwReady (b : Bnd) : b.logBatch.s.fwReady = b.s.fwReady := by rfl

/-! ### Rings, replies and the boundary as a whole -/

@[simp] theorem Bnd.emit_fwReady (b : Bnd) (r : ResultRec) : (b.emit r).s.fwReady = b.s.fwReady := by simp [Bnd.emit]
@[simp] theorem Bnd.writeOuts_fwReady (b : Bnd) : b.writeOuts.s.fwReady = b.s.fwReady := by
  unfold Bnd.writeOuts
  refine foldl_keeps (fun b : Bnd => b.s.fwReady) (fun b x => ?_) _ _
  dsimp only
  split
  · simp
  · split <;> simp
@[simp] theorem Bnd.writeReplies_fwReady (b : Bnd) (rs : List ResultRec) :
    (b.writeReplies rs).s.fwReady = b.s.fwReady :=
  foldl_keeps (fun b : Bnd => b.s.fwReady) (fun _ _ => by split <;> simp) _ _
@[simp] theorem Bnd.seqWord_fwReady (b : Bnd) (wrote : Bool) : (b.seqWord wrote).s.fwReady = b.s.fwReady := by
  simp [Bnd.seqWord]
@[simp] theorem Bnd.config_fwReady (b : Bnd) : b.config.s.fwReady = b.s.fwReady := by simp [Bnd.config]
@[simp] theorem Bnd.overrun_fwReady (b : Bnd) (ring : Nat) : (b.overrun ring).s.fwReady = b.s.fwReady := by rfl
@[simp] theorem Bnd.checkRing_fwReady (b : Bnd) (beyond : Bool) (ring : Nat) :
    (b.checkRing beyond ring).s.fwReady = b.s.fwReady := by simp [Bnd.checkRing]
@[simp] theorem Bnd.useCounts_fwReady (b : Bnd) (ctl sub prompt : Nat) :
    (b.useCounts ctl sub prompt).s.fwReady = b.s.fwReady := by rfl
@[simp] theorem Bnd.readCounts_fwReady (b : Bnd) : b.readCounts.s.fwReady = b.s.fwReady := by
  unfold Bnd.readCounts
  dsimp only
  split
  · rfl
  · rw [Bnd.useCounts_fwReady, Bnd.checkRing_fwReady, Bnd.checkRing_fwReady, Bnd.checkRing_fwReady]
@[simp] theorem State.regionWrite_fwReady (s : State) (p : Nat) (i : Image) (tick q : Nat) (ws : List (Nat × Line)) :
    (s.regionWrite p i tick q ws).fwReady = s.fwReady := by simp [State.regionWrite]
@[simp] theorem State.mailboxes_fwReady (s : State) (p word : Nat) (data : Line) (q : Nat) :
    (s.mailboxes p word data q).fwReady = s.fwReady := State.fwReady_foldl (fun _ _ => by simp) _ _
@[simp] theorem State.drawDone_fwReady (s : State) (tick bound : Nat) :
    (s.drawDone tick bound).2.fwReady = s.fwReady := by rfl
@[simp] theorem State.toPartner_fwReady (s : State) (copyB : Bool) (p : Packet) :
    (s.toPartner copyB p).fwReady = s.fwReady := by simp [State.toPartner]
@[simp] theorem State.sendGroup_fwReady (s : State) (p : Nat) (i : Image) (sv : Serving) (m : GroupMsg) :
    (s.sendGroup p i sv m).fwReady = s.fwReady := by simp [State.sendGroup]
@[simp] theorem State.showAshFree_fwReady (s : State) : s.showAshFree.fwReady = s.fwReady := by
  unfold State.showAshFree
  split <;> simp
@[simp] theorem State.sendBuddy_fwReady (s : State) (kind p tag : Nat) (us : List Line) :
    (s.sendBuddy kind p tag us).fwReady = s.fwReady := by
  unfold State.sendBuddy
  split <;> simp
@[simp] theorem State.appendAsh_fwReady (s : State) (e : AshEntry) : (s.appendAsh e).fwReady = s.fwReady := by
  simp [State.appendAsh]
@[simp] theorem State.recoveryFail_fwReady (s : State) (reason : Nat) :
    (s.recoveryFail reason).fwReady = s.fwReady := by simp [State.recoveryFail]
@[simp] theorem Bnd.endReplay_fwReady (b : Bnd) (e : AshEntry) : (b.endReplay e).s.fwReady = b.s.fwReady := by
  unfold Bnd.endReplay
  extract_lets s1 s2
  have h : s2.fwReady = b.s.fwReady := by
    simp only [s2]
    split <;> simp [s1]
  simp [h]
theorem Bnd.mismatch_fwReady {b : Bnd} {t : State} (h : b.mismatch = some t) : t.fwReady = b.s.fwReady := by
  unfold Bnd.mismatch at h
  split at h
  · cases h
  · obtain ⟨x, -, rfl⟩ := Option.map_eq_some_iff.mp h
    simp
theorem Bnd.unreadable_fwReady {b : Bnd} {t : State} (h : b.unreadable = some t) : t.fwReady = b.s.fwReady := by
  unfold Bnd.unreadable at h
  split at h
  · cases h
  · obtain ⟨x, -, rfl⟩ := Option.map_eq_some_iff.mp h
    simp
@[simp] theorem Bnd.settleAll_fwReady (b : Bnd) : b.settleAll.s.fwReady = b.s.fwReady := by
  unfold Bnd.settleAll
  extract_lets b1 waiting b2 b3
  have h1 : b1.s.fwReady = b.s.fwReady := by simp [b1]
  have h2 : b2.s.fwReady = b.s.fwReady :=
    (foldl_keeps (fun b : Bnd => b.s.fwReady) (fun _ _ => Bnd.control_fwReady ..) _ _).trans h1
  have h3 : b3.s.fwReady = b.s.fwReady := h2
  clear_value b3
  simp [h3]
@[simp] theorem Bnd.measure_fwReady (b : Bnd) (clear : Bool) : (b.measure clear).s.fwReady = b.s.fwReady := by rfl
@[simp] theorem Bnd.lead_fwReady (b : Bnd) : b.lead.fwReady = b.s.fwReady := by
  unfold Bnd.lead
  extract_lets clear before b1 b2 ok b3 b4 b5 dec b6 b7 b8 m s1 r q s2
  have h2 : b2.s.fwReady = b.s.fwReady := by simp [b2, b1]
  have h3 : b3.s.fwReady = b.s.fwReady := by simp [b3, h2]
  have h5 : b5.s.fwReady = b.s.fwReady := by simp [b5, b4, h3]
  have h7 : b7.s.fwReady = b.s.fwReady := by simp [b7, b6, h5]
  have h8 : b8.s.fwReady = b.s.fwReady := by
    simp only [b8]
    split <;> simp [h7]
  clear_value b8
  simp [s2, r, s1, h8]
@[simp] theorem State.serveBoundary_fwReady (s : State) (p n : Nat) (i : Image) (sv : Serving) (tick : Nat)
    (posted : List (Nat × BitVec 8)) : (s.serveBoundary p n i sv tick posted).fwReady = s.fwReady := by
  unfold State.serveBoundary
  dsimp only
  split
  · simp
  split
  · simp
  split
  · simp
  split
  next h => simp [Bnd.unreadable_fwReady h]
  next =>
    split
    next h => simp [Bnd.mismatch_fwReady h]
    next => simp

end Sys2Proof.Machine
end

section
/-! FW_READY is left as it is by recovery, partitions, keys, boot records, the registers outside FWU, and sensors. -/

namespace Sys2Proof.Machine
open Sys2Proof

/-! ### Step replay -/

@[simp] theorem State.resetUnit_fwReady (s : State) (p g : Nat) (i : Image) :
    (s.resetUnit p g i).fwReady = s.fwReady := by simp [State.resetUnit]
@[simp] theorem State.discardDigests_fwReady (s : State) (p f : Nat) : (s.discardDigests p f).fwReady = s.fwReady := by
  rfl
@[simp] theorem State.regionNow_fwReady (s : State) (p : Nat) (i : Image) (ws : List (Nat × Line)) :
    (s.regionNow p i ws).fwReady = s.fwReady := by simp [State.regionNow]
@[simp] theorem State.replayUnit_fwReady (s : State) (p : Nat) (i : Image) :
    (s.replayUnit p i).fwReady = s.fwReady := by
  unfold State.replayUnit
  extract_lets n entry leads g first s1 s2 same
  have h : s2.fwReady = s.fwReady := by
    simp only [s2]
    split <;> simp [s1]
  split
  · simp
  · exact h
@[simp] theorem State.wantRollback_fwReady (s : State) (p : Nat) : (s.wantRollback p).fwReady = s.fwReady := by rfl
@[simp] theorem State.relaunch_fwReady (s : State) (p g : Nat) (i : Image) :
    (s.relaunch p g i).fwReady = s.fwReady := by
  unfold State.relaunch
  split <;> simp

/-! ### Checkpoints -/

@[simp] theorem State.ckptArm_fwReady (s : State) : s.ckptArm.fwReady = s.fwReady := by simp [State.ckptArm]
@[simp] theorem State.ackBuddy_fwReady (s : State) (dest : BitVec 24) (kind part tag : Nat) :
    (s.ackBuddy dest kind part tag).fwReady = s.fwReady := by simp [State.ackBuddy]
@[simp] theorem State.sendItem_fwReady (s : State) (type : Nat) (dest : BitVec 24) (kind part tag : Nat)
    (us : List Line) : (s.sendItem type dest kind part tag us).fwReady = s.fwReady := by simp [State.sendItem]

/-! ### Rollback and re-binding -/

@[simp] theorem State.endFaultHold_fwReady (s : State) : s.endFaultHold.fwReady = s.fwReady := by
  simp [State.endFaultHold]
@[simp] theorem State.rollPart_fwReady (s : State) (p : Nat) (i : Image) : (s.rollPart p i).fwReady = s.fwReady := by
  simp [State.rollPart]
@[simp] theorem State.takeRebound_fwReady (s : State) (p : Nat) : (s.takeRebound p).fwReady = s.fwReady := by
  unfold State.takeRebound
  split <;> simp
@[simp] theorem State.endByRebind_fwReady (s : State) (p : Nat) : (s.endByRebind p).fwReady = s.fwReady := by
  simp [State.endByRebind]
@[simp] theorem State.settleRebound_fwReady (s : State) : s.settleRebound.fwReady = s.fwReady := by
  simp [State.settleRebound]
@[simp] theorem State.rollAdvance_fwReady (s : State) : s.rollAdvance.fwReady = s.fwReady := by simp [State.rollAdvance]
@[simp] theorem State.restoreWords_fwReady (s : State) (p : Nat) (i : Image) (ws : List (Nat × Nat × Line)) :
    (s.restoreWords p i ws).fwReady = s.fwReady := by
  unfold State.restoreWords
  dsimp only
  rw [State.fwReady_foldl fun _ _ => by split <;> simp, State.fwReady_foldl fun _ _ => State.modPch_fwReady ..]
@[simp] theorem State.restoreSeq_fwReady (s : State) (q : CkptSeq) : (s.restoreSeq q).fwReady = s.fwReady := by rfl
theorem State.resumePart_fwReady {s t : State} {p : Nat} {st : BitVec 64} (h : s.resumePart p st = some t) :
    t.fwReady = s.fwReady := by
  unfold State.resumePart at h
  dsimp only at h
  split at h
  · cases h; rfl
  split at h
  · cases h; rfl
  split at h
  · cases h; rfl
  split at h
  · cases h
  · cases h; rfl
theorem State.resumeAll_fwReady {l : List (Nat × BitVec 64)} {s t : State}
    (h : l.foldl (fun (s : Option State) x => s.bind fun s => s.resumePart x.1 x.2) (some s) = some t) :
    t.fwReady = s.fwReady := by
  induction l generalizing s with
  | nil => cases h; rfl
  | cons x l ih =>
    rw [List.foldl_cons, Option.bind_some] at h
    cases e : s.resumePart x.1 x.2 with
    | none =>
      rw [e, List.foldl_fixed' (fun _ => rfl)] at h
      cases h
    | some s' =>
      rw [e] at h
      exact (ih h).trans (State.resumePart_fwReady e)
@[simp] theorem State.restoreGen_fwReady (s : State) (g : CkptGen) : (s.restoreGen g).fwReady = s.fwReady := by
  unfold State.restoreGen
  extract_lets s1 s2
  have h2 : s2.fwReady = s.fwReady :=
    (State.fwReady_foldl (fun _ _ => State.restoreWords_fwReady ..) _ _).trans
      (State.fwReady_foldl State.restoreSeq_fwReady _ _)
  split
  · simp [h2]
  next h => exact (State.resumeAll_fwReady h).trans h2
@[simp] theorem State.adoptAsh_fwReady (s : State) (items : List BuddyItem) :
    (s.adoptAsh items).fwReady = s.fwReady := by rfl
@[simp] theorem State.phase4_fwReady (s : State) : s.phase4.fwReady = s.fwReady := by
  unfold State.phase4
  dsimp only
  split
  · split <;> simp
  split
  · simp
  split
  · split <;> simp
  · simp
@[simp] theorem State.writeRestoreGen_fwReady (s : State) (v : BitVec 32) :
    (s.writeRestoreGen v).fwReady = s.fwReady := by simp [State.writeRestoreGen]
@[simp] theorem State.writeRoDone_fwReady (s : State) : s.writeRoDone.fwReady = s.fwReady := by
  unfold State.writeRoDone
  dsimp only
  split
  · simp
  split
  · split <;> simp
  · simp

/-! ### Frame ticks and mirror digests -/

@[simp] theorem State.frameWork_fwReady (s : State) (p : Nat) : (s.frameWork p).fwReady = s.fwReady := by
  unfold State.frameWork
  dsimp only
  split <;> simp
@[simp] theorem State.conserve_fwReady (s : State) (p : Nat) : (s.conserve p).fwReady = s.fwReady := by
  simp [State.conserve]
@[simp] theorem State.sendDigest_fwReady (s : State) (p : Nat) : (s.sendDigest p).fwReady = s.fwReady := by
  unfold State.sendDigest
  split <;> simp
@[simp] theorem State.mirrorDone_fwReady (s : State) (f : BitVec 32) : (s.mirrorDone f).fwReady = s.fwReady := by rfl
@[simp] theorem State.mirrorDiffers_fwReady (s : State) (p : Nat) (f : BitVec 32) :
    (s.mirrorDiffers p f).fwReady = s.fwReady := by simp [State.mirrorDiffers]

/-! ### Partitions, Wings and Curtains -/

@[simp] theorem State.checkEnable_fwReady (s : State) (p : Nat) : (s.checkEnable p).fwReady = s.fwReady := by
  unfold State.checkEnable
  dsimp only
  split <;> simp
@[simp] theorem State.enable_fwReady (s : State) (p : Nat) : (s.enable p).fwReady = s.fwReady := by simp [State.enable]
@[simp] theorem State.partEnable_fwReady (s : State) (p : Nat) : (s.partEnable p).fwReady = s.fwReady := by
  simp [State.partEnable]
@[simp] theorem State.syncCheck_fwReady (s : State) (p : Nat) : (s.syncCheck p).fwReady = s.fwReady := by
  unfold State.syncCheck
  dsimp only
  split <;> simp
@[simp] theorem State.dropRun_fwReady (s : State) (p : Nat) (wingsOnly : Bool) :
    (s.dropRun p wingsOnly).fwReady = s.fwReady := by
  unfold State.dropRun
  split <;> simp
@[simp] theorem State.emptyPools_fwReady (s : State) (p : Nat) : (s.emptyPools p).fwReady = s.fwReady := by rfl
@[simp] theorem State.clearTables_fwReady (s : State) (p : Nat) : (s.clearTables p).fwReady = s.fwReady := by rfl
@[simp] theorem State.leaveJob_fwReady (s : State) : s.leaveJob.fwReady = s.fwReady := by simp [State.leaveJob]
@[simp] theorem State.beginScrub_fwReady (s : State) (p : Nat) : (s.beginScrub p).fwReady = s.fwReady := by
  simp [State.beginScrub]
@[simp] theorem State.partDisable_fwReady (s : State) (p : Nat) : (s.partDisable p).fwReady = s.fwReady := by
  simp [State.partDisable]
@[simp] theorem State.scrubFailed_fwReady (s : State) (p k c : Nat) : (s.scrubFailed p k c).fwReady = s.fwReady := by
  rfl
@[simp] theorem State.erase_fwReady (s : State) (p : Nat) : (s.erase p).fwReady = s.fwReady :=
  (State.fwReady_foldl (fun _ _ => State.fwReady_foldl (fun _ _ => by simp) _ _) _ _).trans
    (State.fwReady_foldl (fun _ _ => by simp) _ _)
@[simp] theorem State.retryWaiting_fwReady (s : State) : s.retryWaiting.fwReady = s.fwReady := by
  rw [State.retryWaiting, State.fwReady_foldl]
  intro s p
  split <;> simp
@[simp] theorem State.beginLoad_fwReady (s : State) (p : Nat) : (s.beginLoad p).fwReady = s.fwReady := by
  simp [State.beginLoad]
@[simp] theorem State.wingsGo_fwReady (s : State) (p : Nat) : (s.wingsGo p).fwReady = s.fwReady := by
  simp [State.wingsGo]
@[simp] theorem State.loadFailed_fwReady (s : State) (p : Nat) (cpl : Bool) :
    (s.loadFailed p cpl).fwReady = s.fwReady := by simp [State.loadFailed]
@[simp] theorem State.resetRequests_fwReady (s : State) (p : Nat) : (s.resetRequests p).fwReady = s.fwReady := by rfl
@[simp] theorem State.lastBoundary_fwReady (s : State) (p : Nat) (i : Image) (sv : Serving) :
    (s.lastBoundary p i sv).fwReady = s.fwReady := by
  unfold State.lastBoundary
  extract_lets b
  split
  next h => exact Bnd.mismatch_fwReady h
  next => exact Bnd.outcomes_fwReady b
@[simp] theorem State.endServing_fwReady (s : State) (p : Nat) : (s.endServing p).fwReady = s.fwReady := by
  unfold State.endServing
  split <;> simp
@[simp] theorem State.keepReturns_fwReady (s : State) (p : Nat) : (s.keepReturns p).fwReady = s.fwReady := by
  unfold State.keepReturns
  split
  · rfl
  · split <;> simp
@[simp] theorem State.writeProfiles_fwReady (s : State) (p : Nat) : (s.writeProfiles p).fwReady = s.fwReady := by
  unfold State.writeProfiles
  dsimp only
  split
  · split <;> simp
  · rfl
@[simp] theorem State.exchange_fwReady (s : State) (p : Nat) : (s.exchange p).fwReady = s.fwReady := by
  simp [State.exchange]
@[simp] theorem State.curtainNow_fwReady (s : State) (p : Nat) : (s.curtainNow p).fwReady = s.fwReady := by
  simp [State.curtainNow]
@[simp] theorem State.paramCurtain_fwReady (s : State) (p : Nat) : (s.paramCurtain p).fwReady = s.fwReady := by
  simp [State.paramCurtain]
@[simp] theorem State.primeTiles_fwReady (s : State) (p g : Nat) : (s.primeTiles p g).fwReady = s.fwReady := by
  simp [State.primeTiles]
@[simp] theorem State.imageCurtain_fwReady (s : State) (p c : Nat) : (s.imageCurtain p c).fwReady = s.fwReady := by
  simp [State.imageCurtain]
@[simp] theorem State.rejectCurtain_fwReady (s : State) (p tick : Nat) :
    (s.rejectCurtain p tick).fwReady = s.fwReady := by rfl
@[simp] theorem State.curtainArm_fwReady (s : State) (p : Nat) : (s.curtainArm p).fwReady = s.fwReady := by
  simp [State.curtainArm]
@[simp] theorem State.curtainOpen_fwReady (s : State) (p : Nat) (x : Nat × Nat × Option Nat) :
    (s.curtainOpen p x).fwReady = s.fwReady := by simp [State.curtainOpen]

/-! ### Keys and reports -/

@[simp] theorem State.makeReport_fwReady (s : State) (p : Option Nat) : (s.makeReport p).fwReady = s.fwReady := by
  unfold State.makeReport
  split <;> simp
@[simp] theorem State.requestReport_fwReady (s : State) : s.requestReport.fwReady = s.fwReady := by
  simp [State.requestReport]
@[simp] theorem State.installKey_fwReady (s : State) (p slot : Nat) (key : BitVec 256) :
    (s.installKey p slot key).fwReady = s.fwReady := by simp [State.installKey]
@[simp] theorem State.installMgmt_fwReady (s : State) (epoch : BitVec 32) (key : BitVec 256) :
    (s.installMgmt epoch key).fwReady = s.fwReady := by rfl
@[simp] theorem State.deliver_fwReady (s : State) : s.deliver.fwReady = s.fwReady := by
  unfold State.deliver
  dsimp only
  split <;> simp
@[simp] theorem State.promote_fwReady (s : State) : s.promote.fwReady = s.fwReady := by
  unfold State.promote
  split <;> simp
@[simp] theorem State.writeMgmtTx_fwReady (s : State) (v : BitVec 32) : (s.writeMgmtTx v).fwReady = s.fwReady := by
  simp [State.writeMgmtTx]

/-! ### Power states -/

@[simp] theorem State.enterD3_fwReady (s : State) : s.enterD3.fwReady = s.fwReady := by rfl

/-! ### The service port and boot records -/

@[simp] theorem State.sendFrame_fwReady (s : State) (f : EthFrame) : (s.sendFrame f).fwReady = s.fwReady := by rfl
@[simp] theorem State.dropFrame_fwReady (s : State) : s.dropFrame.fwReady = s.fwReady := by rfl
@[simp] theorem State.popPtp_fwReady (s : State) : s.popPtp.fwReady = s.fwReady := by rfl
@[simp] theorem State.jtag_fwReady (s : State) (ir : JtagIr) (dr : BitVec 32) : (s.jtag ir dr).fwReady = s.fwReady := by
  rfl
@[simp] theorem State.updateRec_fwReady (s : State) (f : BootRec → BootRec) :
    (s.updateRec f).fwReady = s.fwReady := by
  unfold State.updateRec
  split <;> simp
@[simp] theorem State.pickSlot_fwReady (s : State) (r : BootRec) : (s.pickSlot r).2.fwReady = s.fwReady := by
  unfold State.pickSlot
  extract_lets act s' p
  have h : p.2.fwReady = s.fwReady := by
    simp only [p, s']
    split
    · simp
    · split <;> simp
  clear_value p
  split <;> simp [h]
@[simp] theorem State.pickFresh_fwReady (s : State) : s.pickFresh.2.fwReady = s.fwReady := by rfl

/-! ### The time unit -/

@[simp] theorem State.incRejected_fwReady (s : State) : s.incRejected.fwReady = s.fwReady := by rfl
@[simp] theorem State.modDom_fwReady (s : State) (b : Bool) (f : Domain → Domain) :
    (s.modDom b f).fwReady = s.fwReady := by rfl
@[simp] theorem State.incCommit_fwReady (s : State) (dom : Bool) (val : BitVec 32) :
    (s.incCommit dom val).fwReady = s.fwReady := by simp [State.incCommit]
@[simp] theorem State.adjust_fwReady (s : State) : s.adjust.fwReady = s.fwReady := by
  rw [State.adjust]
  split <;> simp
@[simp] theorem State.setDomain_fwReady (s : State) (dom : Bool) : (s.setDomain dom).fwReady = s.fwReady := by rfl
@[simp] theorem State.ppsLow_fwReady (s : State) : s.ppsLow.fwReady = s.fwReady := by rfl
@[simp] theorem State.modTrig_fwReady (s : State) (j : Nat) (f : Trigger → Trigger) :
    (s.modTrig j f).fwReady = s.fwReady := by rfl
@[simp] theorem State.armTrigger_fwReady (s : State) (j : Nat) : (s.armTrigger j).fwReady = s.fwReady := by
  simp [State.armTrigger]
@[simp] theorem State.writeTrigger_fwReady (s : State) (val : BitVec 32) :
    (s.writeTrigger val).fwReady = s.fwReady := by simp [State.writeTrigger]
@[simp] theorem State.fireTrigger_fwReady (s : State) (j action : Nat) (refused : Bool) :
    (s.fireTrigger j action refused).fwReady = s.fwReady := by simp [State.fireTrigger]
@[simp] theorem State.popTimeLog_fwReady (s : State) : s.popTimeLog.fwReady = s.fwReady := by rfl

/-! ### Check-value units -/

@[simp] theorem State.crcGo_fwReady (s : State) (u : Nat) (check : Bool) : (s.crcGo u check).fwReady = s.fwReady := by
  simp [State.crcGo]

/-! ### Snapshots and the fault log -/

@[simp] theorem State.takeSnap_fwReady (s : State) (tick : Bool) : (s.takeSnap tick).fwReady = s.fwReady := by rfl
@[simp] theorem State.armSnap_fwReady (s : State) : s.armSnap.fwReady = s.fwReady := by simp [State.armSnap]
@[simp] theorem State.clearFaults_fwReady (s : State) : s.clearFaults.fwReady = s.fwReady := by rfl
@[simp] theorem State.popFault_fwReady (s : State) : s.popFault.fwReady = s.fwReady := by rfl

/-! ### Registers outside FWU -/

@[simp] theorem State.writeTop_fwReady (s : State) (o : Nat) (v : BitVec 32) :
    (s.writeTop o v).fwReady = s.fwReady := by
  unfold State.writeTop
  split <;> simp
@[simp] theorem State.writeClk_fwReady (s : State) (o : Nat) (v : BitVec 32) :
    (s.writeClk o v).fwReady = s.fwReady := by
  unfold State.writeClk
  split <;> simp
@[simp] theorem State.writeTimeCtrl_fwReady (s : State) (v : BitVec 32) : (s.writeTimeCtrl v).fwReady = s.fwReady := by
  simp [State.writeTimeCtrl]
@[simp] theorem State.writeTime_fwReady (s : State) (o : Nat) (v : BitVec 32) :
    (s.writeTime o v).fwReady = s.fwReady := by
  unfold State.writeTime
  dsimp only
  split
  case h_14 => rfl  -- PPS_WIDTH, whose bound of 999,999 `simp` would evaluate
  all_goals simp
@[simp] theorem State.writeSec_fwReady (s : State) (o : Nat) (v : BitVec 32) :
    (s.writeSec o v).fwReady = s.fwReady := by
  unfold State.writeSec
  split <;> simp
@[simp] theorem State.writeSnap_fwReady (s : State) (o : Nat) (v : BitVec 32) :
    (s.writeSnap o v).fwReady = s.fwReady := by
  unfold State.writeSnap
  split <;> simp
@[simp] theorem State.writePlan_fwReady (s : State) (o : Nat) (v : BitVec 32) :
    (s.writePlan o v).fwReady = s.fwReady := by
  unfold State.writePlan
  split <;> simp
@[simp] theorem State.writeMapCtrl_fwReady (s : State) (v : BitVec 32) : (s.writeMapCtrl v).fwReady = s.fwReady := by
  simp [State.writeMapCtrl]
@[simp] theorem State.writeMap_fwReady (s : State) (o : Nat) (v : BitVec 32) :
    (s.writeMap o v).fwReady = s.fwReady := by
  unfold State.writeMap
  split <;> simp
@[simp] theorem State.writeSeqCtl_fwReady (s : State)
    (f : Bool × Bool × BitVec 16 × BitVec 16 → Bool × Bool × BitVec 16 × BitVec 16) :
    (s.writeSeqCtl f).fwReady = s.fwReady := by rfl
@[simp] theorem State.writeSeq_fwReady (s : State) (o : Nat) (v : BitVec 32) :
    (s.writeSeq o v).fwReady = s.fwReady := by
  unfold State.writeSeq
  split <;> simp
@[simp] theorem State.writeBud_fwReady (s : State) (o : Nat) (v : BitVec 32) :
    (s.writeBud o v).fwReady = s.fwReady := by
  unfold State.writeBud
  split <;> simp
@[simp] theorem State.writeSync_fwReady (s : State) (o : Nat) (v : BitVec 32) :
    (s.writeSync o v).fwReady = s.fwReady := by
  unfold State.writeSync
  split <;> simp
@[simp] theorem State.clearErFlags_fwReady (s : State) (m : Nat) (v : BitVec 32) :
    (s.clearErFlags m v).fwReady = s.fwReady := State.fwReady_foldl (fun _ _ => by simp) _ _
@[simp] theorem State.writeDig_fwReady (s : State) (o : Nat) (v : BitVec 32) :
    (s.writeDig o v).fwReady = s.fwReady := by
  unfold State.writeDig
  split <;> simp
@[simp] theorem State.writeRes_fwReady (s : State) (f : PartRes → PartRes) : (s.writeRes f).fwReady = s.fwReady := by
  rfl
@[simp] theorem State.writePartCtrl_fwReady (s : State) (p : Nat) (v : BitVec 32) :
    (s.writePartCtrl p v).fwReady = s.fwReady := by simp [State.writePartCtrl]
@[simp] theorem State.writePart_fwReady (s : State) (o : Nat) (v : BitVec 32) :
    (s.writePart o v).fwReady = s.fwReady := by
  unfold State.writePart
  split <;> simp
@[simp] theorem State.writeLnkCtrl_fwReady (s : State) (n : Nat) (v : BitVec 32) :
    (s.writeLnkCtrl n v).fwReady = s.fwReady := by simp [State.writeLnkCtrl]
@[simp] theorem State.writeLnk_fwReady (s : State) (n o : Nat) (v : BitVec 32) :
    (s.writeLnk n o v).fwReady = s.fwReady := by
  unfold State.writeLnk
  split <;> simp
@[simp] theorem State.writeStk_fwReady (s : State) (k o : Nat) (v : BitVec 32) :
    (s.writeStk k o v).fwReady = s.fwReady := by
  unfold State.writeStk
  split <;> simp
@[simp] theorem State.writePcie_fwReady (s : State) (o : Nat) (v : BitVec 32) :
    (s.writePcie o v).fwReady = s.fwReady := by
  unfold State.writePcie
  split <;> simp
@[simp] theorem State.writeSvc_fwReady (s : State) (o : Nat) (v : BitVec 32) :
    (s.writeSvc o v).fwReady = s.fwReady := by
  unfold State.writeSvc
  split <;> simp
@[simp] theorem State.writeTile_fwReady (s : State) (n o : Nat) (v : BitVec 32) :
    (s.writeTile n o v).fwReady = s.fwReady := by
  unfold State.writeTile
  split
  · rfl
  split
  · simp
  · split <;> simp
@[simp] theorem State.readClears_fwReady (s : State) (k o : Nat) : (s.readClears k o).fwReady = s.fwReady := by
  unfold State.readClears
  split <;> simp
@[simp] theorem State.afterRead_fwReady (s : State) (off : Nat) : (s.afterRead off).fwReady = s.fwReady := by
  unfold State.afterRead
  dsimp only
  split
  · split <;> rfl
  split
  · rfl
  split
  · rfl
  split
  · rfl
  split
  · split <;> rfl
  split
  · split
    · rfl
    split
    · exact congrArg TopRegs.fwReady (State.modTile_top ..)
    · exact congrArg TopRegs.fwReady (State.modTile_top ..)
    · split
      · exact State.winRead_fwReady ..
      · rfl
  · exact State.readClears_fwReady ..
@[simp] theorem State.deliverRead_fwReady (s : State) (v : BitVec 32) : (s.deliverRead v).fwReady = s.fwReady := by rfl
@[simp] theorem State.portRead_fwReady (s : State) (off : Nat) : (s.portRead off).fwReady = s.fwReady := by
  simp [State.portRead]
@[simp] theorem State.writeFn_fwReady (s : State) (f o : Nat) (v : BitVec 32) :
    (s.writeFn f o v).fwReady = s.fwReady := by
  unfold State.writeFn
  split <;> simp

/-! ### Sensors and alerts -/

@[simp] theorem State.alert_fwReady (s : State) : s.alert.fwReady = s.fwReady := by rfl
@[simp] theorem State.dropPorts_fwReady (s : State) : s.dropPorts.fwReady = s.fwReady := by simp [State.dropPorts]
@[simp] theorem State.sense_fwReady (s : State) (sensor : Nat) (temp : BitVec 8) :
    (s.sense sensor temp).fwReady = s.fwReady := by simp [State.sense]

end Sys2Proof.Machine
end

section
/-! What a command leaves of FW_READY and of what is fixed (`State.fixed`). Every command leaves both as they are but
FW_LOAD_DONE and those of reset: here the operations that are more than one choice between shared operations, then every
command. -/

namespace Sys2Proof.Machine
open Sys2Proof

/-- FW_READY and what is fixed of a state. -/
@[simp] def State.kept (s : State) : Bool × Fuses × BitVec 256 × List (BitVec 8) × List Instr := (s.fwReady, s.fixed)

/-- The same after a command that answers a next state. -/
def keptAfter : Host.Outcome State Fault Refusal → Option (Bool × Fuses × BitVec 256 × List (BitVec 8) × List Instr)
  | .next t => some t.kept
  | _ => none

@[simp] theorem keptAfter_next (t : State) : keptAfter (.next t) = some t.kept := by rfl

theorem State.kept_foldl {α : Type} {f : State → α → State} (h : ∀ s x, (f s x).kept = s.kept) (l : List α)
    (s : State) : (l.foldl f s).kept = s.kept := foldl_keeps State.kept h l s

theorem State.modPt_kept (s : State) (p : Nat) (f : PartBank → PartBank) : (s.modPt p f).kept = s.kept := by rfl
theorem State.wantRollback_kept (s : State) (p : Nat) : (s.wantRollback p).kept = s.kept := by rfl
theorem State.setDig_kept (s : State) (d : DigRegs) : ({ s with dig := d } : State).kept = s.kept := by rfl
theorem State.access_kept (s : State) (off : Nat) (write : Bool) {f : State → State} (h : (f s).kept = s.kept) :
    (s.access off write f).kept = s.kept := by
  unfold State.access
  split
  · rfl
  split
  · rfl
  · exact h

@[simp] theorem keptAfter_ite (c : Prop) [Decidable c] (a b : Host.Outcome State Fault Refusal) :
    keptAfter (if c then a else b) = if c then keptAfter a else keptAfter b := apply_ite ..

/-! ### Watches and barriers -/

@[simp] theorem execBarrierCompletionWrite_kept (p : PartId) (b : BarIx) (s : State) :
    keptAfter (execBarrierCompletionWrite p b s) = some s.kept := by
  unfold execBarrierCompletionWrite
  split
  · exact congrArg some (State.kept_foldl (fun _ _ => by split <;> simp) _ _)
  · rfl
@[simp] theorem execBarrierArrive_kept (s : State) : keptAfter (execBarrierArrive s) = some s.kept := by
  unfold execBarrierArrive
  dsimp only
  split
  · rfl
  split
  · simp
  · split <;> simp
@[simp] theorem execBarrierRelease_kept (s : State) : keptAfter (execBarrierRelease s) = some s.kept := by
  unfold execBarrierRelease
  dsimp only
  split
  · rfl
  split
  · simp
  · split <;> simp
@[simp] theorem execErFlagWordSet_kept (t : TileId) (s : State) : keptAfter (execErFlagWordSet t s) = some s.kept := by
  unfold execErFlagWordSet
  dsimp only
  split
  · split <;> simp
  · rfl

/-! ### The fabric -/

@[simp] theorem execPSlotStart_kept (n : PortId) (s : State) : keptAfter (execPSlotStart n s) = some s.kept := by
  unfold execPSlotStart
  dsimp only
  split
  · rfl
  split
  · rfl
  · split <;> simp
@[simp] theorem execOpenPacketTransmit_kept (n : PortId) (s : State) :
    keptAfter (execOpenPacketTransmit n s) = some s.kept := by
  unfold execOpenPacketTransmit
  dsimp only
  split
  · rfl
  · split <;> simp
@[simp] theorem execVentMessage_kept (s : State) : keptAfter (execVentMessage s) = some s.kept := by
  unfold execVentMessage
  dsimp only
  split
  · rfl
  · split <;> simp

/-! ### Ports -/

@[simp] theorem execAck_kept (n : PortId) (val : BitVec 16) (s : State) :
    keptAfter (execAck n val s) = some s.kept := by
  unfold execAck
  dsimp only
  split
  · rfl
  · split <;> simp
@[simp] theorem execNak_kept (n : PortId) (val : BitVec 16) (s : State) :
    keptAfter (execNak n val s) = some s.kept := by
  unfold execNak
  dsimp only
  split
  · rfl
  · split <;> simp
@[simp] theorem execTrainingDone_kept (n : PortId) (id : LinkIdent) (locked : BitVec 9) (s : State) :
    keptAfter (execTrainingDone n id locked s) = some s.kept := by
  unfold execTrainingDone
  dsimp only
  split
  · rfl
  split
  · rfl
  split
  · simp
  · split <;> simp
@[simp] theorem execRetrainDone_kept (n : PortId) (id : LinkIdent) (locked : BitVec 9) (s : State) :
    keptAfter (execRetrainDone n id locked s) = some s.kept := by
  unfold execRetrainDone
  dsimp only
  split
  · rfl
  split
  · rfl
  split
  · simp
  · split <;> simp
@[simp] theorem execLaneLockTimeout_kept (n : PortId) (locked : BitVec 9) (s : State) :
    keptAfter (execLaneLockTimeout n locked s) = some s.kept := by
  unfold execLaneLockTimeout
  dsimp only
  split
  · rfl
  · split <;> simp
@[simp] theorem execLaneErrorWindow_kept (n : PortId) (counts : List (BitVec 32)) (corrected : BitVec 32) (s : State) :
    keptAfter (execLaneErrorWindow n counts corrected s) = some s.kept := by
  simp [execLaneErrorWindow, State.fixed_foldl]

/-! ### Stacks and staging -/

@[simp] theorem execPatrolScrub_kept (k : StackId) (c : ChId) (s : State) :
    keptAfter (execPatrolScrub k c s) = some s.kept := by
  unfold execPatrolScrub
  dsimp only
  split
  · rfl
  split
  · simp
  · split <;> simp
@[simp] theorem execStackOpenAccess_kept (k : StackId) (c : ChId) (s : State) :
    keptAfter (execStackOpenAccess k c s) = some s.kept := by
  unfold execStackOpenAccess
  dsimp only
  split
  · rfl
  split
  · rfl
  · split <;> simp
@[simp] theorem execForcedRefresh_kept (k : StackId) (s : State) : keptAfter (execForcedRefresh k s) = some s.kept := by
  simp [execForcedRefresh, State.fixed_foldl]
@[simp] theorem execHoldRefresh_kept (k : StackId) (s : State) : keptAfter (execHoldRefresh k s) = some s.kept := by
  simp [execHoldRefresh, State.fixed_foldl]

/-! ### The mapper -/

@[simp] theorem execHealthDisagree_kept (s : State) : keptAfter (execHealthDisagree s) = some s.kept := by
  unfold execHealthDisagree
  dsimp only
  split
  · rfl
  split
  · rfl
  · split <;> simp

/-! ### Step boundaries -/

@[simp] theorem execBoundaryWork_kept (p : PartId) (posted : List (Nat × BitVec 8)) (s : State) :
    keptAfter (execBoundaryWork p posted s) = some s.kept := by
  unfold execBoundaryWork
  dsimp only
  split
  · split
    · simp
    split
    · simp
    · rw [keptAfter_next]
      split <;> simp
  · rfl

/-! ### Step replay -/

@[simp] theorem execStepReplay_kept (p : PartId) (s : State) : keptAfter (execStepReplay p s) = some s.kept := by
  unfold execStepReplay
  dsimp only
  split
  · rfl
  split
  · rfl
  split
  · simp
  · split <;> simp

/-! ### Checkpoints -/

@[simp] theorem execCkptRead_kept (s : State) : keptAfter (execCkptRead s) = some s.kept := by
  unfold execCkptRead
  split <;> simp [State.fixed_foldl]

/-! ### Rollback -/

@[simp] theorem execCkptData_kept (s : State) : keptAfter (execCkptData s) = some s.kept := by
  unfold execCkptData
  dsimp only
  split
  · rfl
  split
  · simp
  · split <;> simp
@[simp] theorem execChipDeclaredFailed_kept (chip : BitVec 24) (s : State) :
    keptAfter (execChipDeclaredFailed chip s) = some s.kept := by
  unfold execChipDeclaredFailed
  extract_lets a old map s1 ranks s2 dig s3 s4 ps p dig' s5 env
  have h4 : s4.fwReady = s.fwReady ∧ s4.fixed = s.fixed := by simp [s4, s3, s2, s1, State.fixed_foldl]
  clear_value s4 ps
  split
  · rfl
  split
  · simp [h4]
  split
  · simp [h4]
  split
  · simp [s5, h4]
  split
  · split
    · simp [h4]
    · rw [keptAfter_next, State.wantRollback_kept, State.kept_foldl fun _ _ => State.modPt_kept ..]
      simp [h4]
  · simp [h4]

/-! ### Frames and mirrors -/

@[simp] theorem execMirrorDigest_kept (s : State) : keptAfter (execMirrorDigest s) = some s.kept := by
  unfold execMirrorDigest
  split
  · extract_lets u f s1 es
    have h : s1.kept = s.kept := by simp [s1]
    split
    · rfl
    · split
      · exact congrArg some h
      · simp [s1]
  · rfl
@[simp] theorem execMirrorEntries_kept (s : State) : keptAfter (execMirrorEntries s) = some s.kept := by
  unfold execMirrorEntries
  split
  · extract_lets s1 u f total o n bs theirs
    have h : s1.kept = s.kept := by simp [s1]
    split
    · exact congrArg some h
    · split
      · exact congrArg some h
      · exact congrArg some ((State.setDig_kept s1 _).trans h)
  · rfl
@[simp] theorem execFrameTick_kept (p : PartId) (s : State) : keptAfter (execFrameTick p s) = some s.kept := by
  unfold execFrameTick
  extract_lets b g s1 n s2 s3
  split
  · rfl
  have h2 : s2.fwReady = s.fwReady ∧ s2.fixed = s.fixed := by
    simp only [s2]
    split <;> simp [s1]
  simp [s3, h2]

/-! ### Partitions -/

@[simp] theorem execScrubDone_kept (p : PartId) (fails : List (StackId × ChId)) (s : State) :
    keptAfter (execScrubDone p fails s) = some s.kept := by
  simp [execScrubDone, State.fixed_foldl]
@[simp] theorem execWingsLoadDone_kept (p : PartId) (res : LoadResult) (s : State) :
    keptAfter (execWingsLoadDone p res s) = some s.kept := by
  unfold execWingsLoadDone
  dsimp only
  split
  · rfl
  split
  · rfl
  · split <;> simp
@[simp] theorem execCurtain_kept (p : PartId) (s : State) : keptAfter (execCurtain p s) = some s.kept := by
  unfold execCurtain
  dsimp only
  split
  · rfl
  split
  · rfl
  · split <;> simp

/-! ### The time unit -/

@[simp] theorem execTimeIncCommit_kept (dom : Bool) (val : BitVec 32) (s : State) :
    keptAfter (execTimeIncCommit dom val s) = some s.kept := by
  rw [execTimeIncCommit, State.ifReady]
  split <;> simp
@[simp] theorem execTimeAdjust_kept (dom : Bool) (s : State) : keptAfter (execTimeAdjust dom s) = some s.kept := by
  rw [execTimeAdjust, State.ifReady]
  split <;> simp
@[simp] theorem execTimeActiveWrite_kept (dom : Bool) (s : State) :
    keptAfter (execTimeActiveWrite dom s) = some s.kept := by
  rw [execTimeActiveWrite, State.ifReady]
  split <;> rfl

/-! ### Register reads -/

@[simp] theorem execRcCounterRead_kept (f : FnId) (off : BitVec 26) (s : State) :
    keptAfter (execRcCounterRead f off s) = some s.kept :=
  congrArg some (State.access_kept _ _ _ (by split <;> simp))

/-! ### Scrubs after reset, rails, clocks and temperatures -/

@[simp] theorem execAlertNRelease_kept (tj : BitVec 8) (temps : List (BitVec 8)) (s : State) :
    keptAfter (execAlertNRelease tj temps s) = some s.kept := by
  unfold execAlertNRelease
  split
  · rfl
  · exact congrArg some (State.kept_foldl (fun _ _ => by simp) _ _)

end Sys2Proof.Machine
end

section
/-! FW_READY and what is fixed under the commands that write FWU, the register port and reset: FW_LOAD_DONE alone raises
FW_READY (R480), a reset takes it back, and no command changes what is fixed. -/

namespace Sys2Proof.Machine
open Sys2Proof

/-! ### Firmware update (R453 to R457) -/

@[simp] theorem State.loadSlot_fwReady (s : State) (p : BootPick) : (s.loadSlot p).fwReady = s.fwReady := by rfl
@[simp] theorem State.beginTransfer_fwReady (s : State) (mac : BitVec 48) (blk : Nat) :
    (s.beginTransfer mac blk).fwReady = s.fwReady := by
  simp [State.beginTransfer]
@[simp] theorem State.confirm_fwReady (s : State) : s.confirm.fwReady = s.fwReady := by simp [State.confirm]
@[simp] theorem State.healthConfirm_fwReady (s : State) (host : Bool) :
    (s.healthConfirm host).fwReady = s.fwReady := by
  simp [State.healthConfirm]
@[simp] theorem State.cancelStage_fwReady (s : State) : s.cancelStage.fwReady = s.fwReady := by
  simp [State.cancelStage]
@[simp] theorem State.svnCommit_fwReady (s : State) : s.svnCommit.fwReady = s.fwReady := by
  simp [State.svnCommit]

@[simp] theorem execTftpWriteRequest_kept (mac : BitVec 48) (octet : Bool) (blksize : Option Nat) (s : State) :
    keptAfter (execTftpWriteRequest mac octet blksize s) = some s.kept := by
  cases blksize <;> simp [execTftpWriteRequest]
@[simp] theorem execRomBoot_kept (s : State) : keptAfter (execRomBoot s) = some s.kept := by
  unfold execRomBoot
  split
  · rfl
  · dsimp only
    cases s.flash.governing <;> simp

/-! ### Register writes -/

@[simp] theorem State.writeFwu_fwReady (s : State) (o : Nat) (v : BitVec 32) :
    (s.writeFwu o v).fwReady = s.fwReady := by
  unfold State.writeFwu
  split <;> simp
@[simp] theorem State.writeBlock_fwReady (s : State) (off : Nat) (v : BitVec 32) :
    (s.writeBlock off v).fwReady = s.fwReady := by
  unfold State.writeBlock
  dsimp only
  split <;> simp
@[simp] theorem State.writeReg_fwReady (s : State) (off : Nat) (v : BitVec 32) :
    (s.writeReg off v).fwReady = s.fwReady := by simp [State.writeReg]
@[simp] theorem State.aliasWrite_fwReady (s : State) (off : Nat) (v : BitVec 32) :
    (s.aliasWrite off v).fwReady = s.fwReady := by
  rw [State.aliasWrite]
  split
  · simp
  split
  · simp
  · split <;> simp
@[simp] theorem State.portWrite_fwReady (s : State) (off : Nat) (v : BitVec 32) :
    (s.portWrite off v).fwReady = s.fwReady := by simp [State.portWrite]
@[simp] theorem execRegisterWrite_kept (f : FnId) (off : BitVec 26) (val : BitVec 32) (s : State) :
    keptAfter (execRegisterWrite f off val s) = some s.kept :=
  congrArg some (State.access_kept _ _ _ (by split <;> simp))
@[simp] theorem execBitAliasAccess_kept (off : BitVec 26) (write : Bool) (val : BitVec 32) (s : State) :
    keptAfter (execBitAliasAccess off write val s) = some s.kept := by
  unfold execBitAliasAccess
  split
  · rfl
  · exact congrArg some (State.access_kept _ _ _ (by split <;> simp))

/-! ### Every command -/

/-- The commands that reset the part or end a reset, and the one that makes FW_READY 1. -/
def setsFwReady : Instr → Bool
  | .fwLoadDone | .sysReset | .perst | .railUndervoltage _ | .resetRelease | .railRestored => true
  | _ => false

/-- Every other command leaves FW_READY and what is fixed as they are: a tile instruction is `State.runInstr` of its
form, and the others are made of the operations above. -/
theorem exec_kept {i : Instr} (s : State) (h : setsFwReady i = false) : keptAfter (exec i s) = some s.kept := by
  cases hf : i.tileForm with
  | some f =>
    obtain ⟨plan, hx⟩ := exec_of_tileForm s hf
    simp [hx]
  | none =>
    cases i with
    | fwLoadDone | sysReset | perst | railUndervoltage | resetRelease | railRestored => cases h
    | ctNop | ctLwait | ctHalt | ctAmov | ctAadd | ctAalu | ctSmov | ctSalu | ctXmov | ctSld | ctSst | ctPoll
    | ctLoop | ctJmp | ctFbr | ctBbr | ctFeset | ctBar | ctWatch
    | mxLdw | mxMma
    | vxAlu | vxCvt | vxTr | vxRed | vxRng | vxReds | vxEracc | vxEradd | vxErcvt | vxDclose
    | mvCpy | mvFill | mvSend | mvSld | mvSst | mvFsend | mvFrecv | mvEld | mvPgath | mvPst | mvStrf => cases hf
    -- Fetch, parity and windows of the tiles
    | instructionFetch | tileEccWriteback | tileScrubRead | tileWinRead | tileWinWrite | tileFeSet | tileFeClr =>
      simp [exec, execInstructionFetch, execTileEccWriteback, execTileScrubRead, execTileWinRead, execTileWinWrite,
        execTileFeSet, execTileFeClr]
    -- Plan time
    | holdSymbol | releaseSymbol | episodeRelease | counterResume | holdLimitWrite | throttleEval | throttleWrite
    | alignStart | alignSymbol | launchArm | barrierSymbol | stepArm =>
      simp [exec, execHoldSymbol, execReleaseSymbol, execEpisodeRelease, execCounterResume, execHoldLimitWrite,
        execThrottleEval, execThrottleWrite, execAlignStart, execAlignSymbol, execLaunchArm, execBarrierSymbol,
        execStepArm]
    -- The fabric
    | flatDataWrite | flow | flowRefresh => simp [exec, execFlatDataWrite, execFlow, execFlowRefresh]
    -- Ports
    | replay | linkPacketCheck | ackTimerExpiry | nakRepeat | ackInterval | uncorrectableCodeword | cal | linkDown
    | linkEnable | fullTrain | forceRetrain | declareFailed | retrainTimeout | linkCatchUp | laneSwapReq | laneReq
    | laneAck | laneDone | laneRevert =>
      simp [exec, execReplay, execLinkPacketCheck, execAckTimerExpiry, execNakRepeat, execAckInterval,
        execUncorrectableCodeword, execCal, execLinkDown, execLinkEnable, execFullTrain, execForceRetrain,
        execDeclareFailed, execRetrainTimeout, execLinkCatchUp, execLaneSwapReq, execLaneReq, execLaneAck,
        execLaneDone, execLaneRevert]
    -- Stacks and staging
    | stackEccWriteback | refreshDebtTick | refreshIdle | stackHot | stkWinRead | stkWinWrite | sealedLoad
    | stackTrain =>
      simp [exec, execStackEccWriteback, execRefreshDebtTick, execRefreshIdle, execStackHot, execStkWinRead,
        execStkWinWrite, execSealedLoad, execStackTrain]
    -- The mapper
    | bindRun | rebind => simp [exec, execBind, execRebind]
    -- Budgets
    | budOpGrant | budOpSetBalance | budOpSetSpring | budOpSetCap | budOpSetPageQuota | budOpSetReserve | budBktSel =>
      simp [exec, execBudOpGrant, execBudOpSetBalance, execBudOpSetSpring, execBudOpSetCap, execBudOpSetPageQuota,
        execBudOpSetReserve, execBudBktSel]
    -- Sequences
    | seqEntrySel => simp [exec, execSeqEntrySel]
    -- Step boundaries
    | ashConfirm => simp [exec, execAshConfirm]
    -- Checkpoints
    | ckptArm => simp [exec, execCkptArm]
    -- Rollback
    | restoreGenWrite | roDone => simp [exec, execRestoreGenWrite, execRoDone]
    -- Frames and mirrors
    | mirrorDigestLate => simp [exec, execMirrorDigestLate]
    -- Partitions
    | partEnable | teardown | wingsLoad | curtainArm =>
      simp [exec, execPartEnable, execTeardown, execWingsLoad, execCurtainArm]
    -- Security
    | attestationRequest | keyDelivery | mgmtPromote =>
      simp [exec, execAttestationRequest, execKeyDelivery, execMgmtPromote]
    -- PCIe
    | flr | hotReset | busMasterEnable | msixUnmask | d3hotRequest | d3hotEntry | invalidAccess | pcieLinkUp =>
      simp [exec, execFlr, execHotReset, execBusMasterEnable, execMsixUnmask, execD3hotRequest, execD3hotEntry,
        execInvalidAccess, execPcieLinkUp]
    -- The service port
    | serviceFrameDrop | sgmiiLinkChange | arpRequest | icmpEcho | ptpEventTimestamp | ptpTsPop | i3cCommitAddress
    | entdaa | bypass | idcode | samplePreload | extest =>
      simp [exec, execServiceFrameDrop, execSgmiiLinkChange, execArpRequest, execIcmpEcho, execPtpEventTimestamp,
        execPtpTsPop, execI3cCommitAddress, execEntdaa, execBypass, execIdcode, execSamplePreload, execExtest]
    -- The time unit
    | timeAdjustEnd | timeSetA | timeSetB | ppsOut | ppsIn | triggerArm | triggerCapture | triggerArmLaunch
    | triggerStartAlign | triggerArmStep | timeLogPop | timeRefLost | timeRefRestored =>
      simp [exec, execTimeAdjustEnd, execTimeSetA, execTimeSetB, execPpsOut, execPpsIn, execTriggerArm,
        execTriggerCapture, execTriggerArmLaunch, execTriggerStartAlign, execTriggerArmStep, execTimeLogPop,
        execTimeRefLost, execTimeRefRestored]
    -- Check-value units
    | crcCompute | crcCheck => simp [exec, execCrcCompute, execCrcCheck]
    -- Snapshots and the fault log
    | snapCapture | snapArmAt | snapTickCapture | faultLogClear | faultLogPop =>
      simp [exec, execSnapCapture, execSnapArmAt, execSnapTickCapture, execFaultLogClear, execFaultLogPop]
    -- Scrubs after reset, rails, clocks and temperatures
    | tileResetScrubDone | stackResetScrubDone | railFault | refclkLost | thermalLimit | thermalTrip =>
      simp [exec, execTileResetScrubDone, execStackResetScrubDone, execRailFault, execRefclkLost, execThermalLimit,
        execThermalTrip]
    -- Firmware update (R453 to R457)
    | healthConfirm | selftestPass | fwConfirmExpired | cancelStage | svnCommit =>
      simp [exec, execHealthConfirm, execSelftestPass, execFwConfirmExpired, execCancelStage, execSvnCommit]
    -- Commands that choose by what the state holds, and make a shared operation in each case
    | watchFire | wakeWrite | watchTimeout | barrierTimeout | parityReplay | tileWinAccess | holdApply
    | releaseApply | holdLimit | thermalHoldEnd | launch | launchBarrierRelease | stepSwitch | stepSwitchEnd
    | relayTransmit | pPacketReceive | openPacketReceive | ventAck | ventRetryTimeout | laneSymbolRetry | laneSwap
    | laneSwapVerify | refreshWindow | stkWinAccess | stagingEpoch | stagingCompletion | healthRecordTimeout
    | groupMessage | relaunch | checkpointPause | checkpointPauseEnd | ckptWrite | bulk | rollback | curtainPauseEnd
    | outboundQueueSend | ppsOutEnd | crcRunDone | tftpTransferEnd =>
      simp only [exec, execWatchFire, execWakeWrite, execWatchTimeout, execBarrierTimeout, execParityReplay,
        execTileWinAccess, execHoldApply, execReleaseApply, execHoldLimit, execThermalHoldEnd, execLaunch,
        execLaunchBarrierRelease, execStepSwitch, execStepSwitchEnd, execRelayTransmit, execPPacketReceive,
        execOpenPacketReceive, execVentAck, execVentRetryTimeout, execLaneSymbolRetry, execLaneSwap,
        execLaneSwapVerify, execRefreshWindow, execStkWinAccess, execStagingEpoch, execStagingCompletion,
        execHealthRecordTimeout, execGroupMessage, execRelaunch, execCheckpointPause, execCheckpointPauseEnd,
        execCkptWrite, execBulk, execRollback, execCurtainPauseEnd, execOutboundQueueSend, execPpsOutEnd,
        execCrcRunDone, execTftpTransferEnd]
      split <;> simp
    -- Those with a lemma of their own
    | _ => simp [exec]

/-! ### Resets (R500, R501) -/

/-- No next state that `o` answers differs from `s` in what is fixed, or has FW_READY where `s` has it not. -/
def GateKept (s : State) (o : Host.Outcome State Fault Refusal) : Prop :=
  ∀ t : State, o = .next t → t.fixed = s.fixed ∧ (t.fwReady = true → s.fwReady = true)

theorem GateKept.of_kept {s : State} {o : Host.Outcome State Fault Refusal} (h : keptAfter o = some s.kept) :
    GateKept s o := by
  rintro t rfl
  obtain ⟨hr, hf⟩ := Prod.ext_iff.mp (Option.some.inj h)
  exact ⟨hf, fun ht => hr.symm.trans ht⟩

theorem GateKept.enterReset (s : State) (f : Pins → Pins) : GateKept s (.next (s.enterReset f)) := by
  rintro _ ⟨⟩
  exact ⟨State.enterReset_fixed s f, nofun⟩

theorem GateKept.leaveReset (s : State) : GateKept s (.next s.leaveReset) := by
  rintro _ ⟨⟩
  exact ⟨State.leaveReset_fixed s, nofun⟩

theorem execResetRelease_gateKept (s : State) : GateKept s (execResetRelease s) := by
  unfold execResetRelease
  split
  · exact .of_kept rfl
  split
  · exact .of_kept rfl
  · exact .leaveReset s

theorem execRailRestored_gateKept (s : State) : GateKept s (execRailRestored s) := by
  unfold execRailRestored
  split
  · exact .of_kept rfl
  split
  · exact .of_kept rfl
  · exact .leaveReset s

/-- No command but FW_LOAD_DONE raises FW_READY, and none of them changes what is fixed: a reset brings FW_READY to 0
and keeps what is fixed, and the others leave both as they are (R480, R500). -/
theorem exec_gateKept {i : Instr} (s : State) (h : i ≠ .fwLoadDone) : GateKept s (exec i s) := by
  cases hi : setsFwReady i with
  | false => exact .of_kept (exec_kept s hi)
  | true =>
    cases i with
    | fwLoadDone => exact absurd rfl h
    | sysReset | perst | railUndervoltage => exact GateKept.enterReset s _
    | resetRelease => exact execResetRelease_gateKept s
    | railRestored => exact execRailRestored_gateKept s
    | _ => cases hi

/-! ### FW_LOAD_DONE (R480) -/

theorem exec_fwLoadDone_not_due {s : State} (h : (!s.alive || !s.fwu.booted || s.fwReady) = true) :
    exec .fwLoadDone s = .next s := if_pos h

theorem exec_fwLoadDone_due {s : State} (h : (!s.alive || !s.fwu.booted || s.fwReady) = false) :
    exec .fwLoadDone s = .next
      (let s' := (List.range 12).foldl (fun s n => s.writeEnable n true) s
       { s' with
          top := { s'.top with fwReady := true }
          sec := { s'.sec with identity := true } }) := if_neg (by simp [h])

theorem exec_fwLoadDone_raises {s : State} (ha : s.alive = true) (hb : s.fwu.booted = true) (hr : s.fwReady = false) :
    ∃ t : State, exec .fwLoadDone s = .next t ∧ t.fwReady = true :=
  ⟨_, exec_fwLoadDone_due (by simp [ha, hb, hr]), rfl⟩

theorem exec_fwLoadDone_fixed {s t : State} (h : exec .fwLoadDone s = .next t) : t.fixed = s.fixed := by
  cases hd : (!s.alive || !s.fwu.booted || s.fwReady) with
  | true =>
    rw [← Host.Outcome.next.inj ((exec_fwLoadDone_not_due hd).symm.trans h)]
  | false =>
    rw [← Host.Outcome.next.inj ((exec_fwLoadDone_due hd).symm.trans h)]
    simp [State.fixed_foldl]

theorem exec_fixed {c : Instr} {s t : State} (h : exec c s = .next t) : t.fixed = s.fixed := by
  by_cases hc : c = .fwLoadDone
  · exact exec_fwLoadDone_fixed (hc ▸ h)
  · exact (exec_gateKept s hc t h).1

/-- Only FW_LOAD_DONE raises FW_READY, once the ROM has loaded the boot slot (R480). -/
theorem exec_raises_fwReady {c : Instr} {s t : State} (h : exec c s = .next t) (hs : s.fwReady = false)
    (ht : t.fwReady = true) : c = .fwLoadDone ∧ s.fwu.booted = true := by
  have hc : c = .fwLoadDone := by
    by_contra hne
    simpa [hs] using (exec_gateKept s hne t h).2 ht
  refine ⟨hc, ?_⟩
  subst hc
  by_contra hb
  rw [exec_fwLoadDone_not_due (by simp [hb])] at h
  cases h
  simp [hs] at ht

end Sys2Proof.Machine
end

section
/-! The register port before firmware is ready (R480), and the identity word (R483). -/

namespace Sys2Proof.Machine
open Sys2Proof

/-! ### The port -/

theorem State.access_of_aligned {s : State} {off : Nat} {write : Bool} {f : State → State} (ha : s.alive = true)
    (ho : off % 4 = 0) : s.access off write f = f s := by
  simp [State.access, ha, ho]

section
variable {s : State} {off : BitVec 26} (v : BitVec 32) (ha : s.alive = true) (ho : off.toNat % 4 = 0)
  (hl : off.toNat < 0x2000000)
include ha ho hl

theorem exec_registerWrite_zero :
    exec (.registerWrite 0 off v) s = .next (s.writeReg off.toNat v) :=
  congrArg Host.Outcome.next ((State.access_of_aligned ha ho).trans (if_neg (Nat.not_le.mpr hl)))

theorem exec_rcCounterRead_zero :
    exec (.rcCounterRead 0 off) s = .next
      ((if s.fwReady || earlyBlock off.toNat then s.afterRead off.toNat else s).deliverRead (s.readReg off.toNat)) :=
  congrArg Host.Outcome.next ((State.access_of_aligned ha ho).trans (if_neg (Nat.not_le.mpr hl)))

end

theorem earlyBlock_iff (off : Nat) : earlyBlock off = true ↔
    off / 65536 = 0 ∨ off / 65536 = 3 ∨ off / 65536 = 4 ∨ off / 65536 = 6 ∨ off / 65536 = 0x30 := by
  simp [earlyBlock]

section
variable {s : State} {off : Nat}

theorem State.readReg_early (h : earlyBlock off = true) : s.readReg off = s.readBlock off := by
  simp [State.readReg, h]

theorem State.writeReg_early (v : BitVec 32) (h : earlyBlock off = true) : s.writeReg off v = s.writeBlock off v := by
  simp [State.writeReg, h]

theorem State.readReg_gated (h : earlyBlock off = false) (hr : s.fwReady = false) :
    s.readReg off = s.blank.readBlock off := by
  simp [State.readReg, h, hr]

theorem State.writeReg_gated (v : BitVec 32) (h : earlyBlock off = false) (hr : s.fwReady = false) :
    s.writeReg off v = s := by
  simp [State.writeReg, h, hr]

end

/-- The flags of TOP.STATUS do not overlap. -/
theorem bit_pack32_zero (a b c d : Bool) : bit (pack32 [(bn a, 0), (bn b, 1), (bn c, 2), (bn d, 3)]) 0 = a := by
  revert a b c d
  decide

/-- TOP.STATUS.FW_READY is FW_READY (R482). -/
theorem State.readReg_status_fwReady (s : State) : bit (s.readReg 0x10) 0 = s.fwReady := by
  rw [State.readReg_early (by decide)]
  exact bit_pack32_zero ..

/-- Settles O53: FW_READY is raised by FW_LOAD_DONE alone (`exec_raises_fwReady`), and the port looks at it for the
blocks outside of `earlyBlock` only. -/
theorem firmwareReadyGatesTheBlocks : Obligations.FirmwareReadyGatesTheBlocks := by
  unfold Obligations.FirmwareReadyGatesTheBlocks
  refine ⟨rfl, fun c s t => exec_raises_fwReady, fun s => exec_fwLoadDone_raises, State.readReg_status_fwReady,
    fun off v s ha ho hl => ?port, fun s => rfl⟩
  rw [exec_registerWrite_zero v ha ho hl, exec_rcCounterRead_zero ha ho hl]
  refine ⟨earlyBlock_iff _, fun he => ?early, fun he hr => ?gated⟩
  case early => simp [State.readReg_early he, State.writeReg_early v he, he]
  case gated => simp [State.readReg_gated he hr, State.writeReg_gated v he hr, he, hr]

/-! ### TOP.ID (R483) -/

/-- The word of TOP.ID that the fuses give. -/
def Fuses.idWord (f : Fuses) : BitVec 32 :=
  pack32 [(f.grade.toNat, 0), (f.stepping.toNat, 4), (f.tiles.toNat, 8), (0x4B32, 16)]

theorem State.readReg_id (s : State) : s.readReg 0 = s.fuses.idWord := State.readReg_early (by decide)

/-- The fields of TOP.ID do not overlap, whatever the stepping. -/
theorem idWord_fields (x : BitVec 4) :
    (field (pack32 [(1, 0), (x.toNat, 4), (160, 8), (0x4B32, 16)]) 3 0 = 0x1 ∧
      field (pack32 [(1, 0), (x.toNat, 4), (160, 8), (0x4B32, 16)]) 15 8 = 0xA0) ∧
    field (pack32 [(2, 0), (x.toNat, 4), (144, 8), (0x4B32, 16)]) 3 0 = 0x2 ∧
      field (pack32 [(2, 0), (x.toNat, 4), (144, 8), (0x4B32, 16)]) 15 8 = 0x90 := by
  revert x
  decide

theorem Fuses.legal.idWord {f : Fuses} (h : f.legal) :
    (field f.idWord 3 0 = 0x1 ∧ field f.idWord 15 8 = 0xA0) ∨
      (field f.idWord 3 0 = 0x2 ∧ field f.idWord 15 8 = 0x90) := by
  obtain ⟨hg, ht, -⟩ | ⟨hg, ht, -⟩ := h
  · exact .inl (by simpa [Fuses.idWord, hg, ht] using (idWord_fields f.stepping).1)
  · exact .inr (by simpa [Fuses.idWord, hg, ht] using (idWord_fields f.stepping).2)

theorem exec_fuses {c : Instr} {s t : State} (h : exec c s = .next t) : t.fuses = s.fuses :=
  congrArg Prod.fst (exec_fixed h)

theorem step_fuses {s t : State} (h : step s = .next t) : t.fuses = s.fuses := by
  unfold step at h
  split at h
  next =>
    rw [← Host.Outcome.next.inj h]
    exact congrArg Prod.fst (State.tick_fixed s)
  next c rest _ => exact exec_fuses (s := { s with pending := rest }) h

/-- Settles O55: TOP.ID shows the fuses alone (`State.readReg_id`), which no command and no clk changes. -/
theorem theIdentityWordNamesTheGrade : Obligations.TheIdentityWordNamesTheGrade := by
  unfold Obligations.TheIdentityWordNamesTheGrade
  simp only [State.readReg_id]
  exact ⟨fun s h => h.idWord, fun s t h => by rw [step_fuses h], fun c s t h => by rw [exec_fuses h]⟩

/-! ### One step -/

/-- Settles O1: both cases of the queue are the two equations of `step`. -/
theorem stepRunsTheFrontCommand : Obligations.StepRunsTheFrontCommand := by
  refine ⟨fun c rest s => rfl, fun s h => ?_⟩
  simp [step, h]

end Sys2Proof.Machine
end

section
/-! The invariants of the one-time memory (R3, R413, R500), and the state after reset. -/

namespace Sys2Proof.Machine
open Sys2Proof

/-- What a step keeps of the one-time memory: the fuses, the chip secret and the identity record. -/
def State.oneTime (s : State) : Fuses × BitVec 256 × List (BitVec 8) := (s.fuses, s.sec.secret, s.sec.identityRec)

theorem State.oneTime_of_fixed {s t : State} (h : t.fixed = s.fixed) : t.oneTime = s.oneTime := by
  simp only [State.fixed, Prod.mk.injEq] at h
  obtain ⟨hf, hs, hi, -⟩ := h
  simp only [State.oneTime, hf, hs, hi]

/-- A step is a tick or one command, and neither writes the one-time memory. -/
theorem step_oneTime {s t : State} (h : step s = .next t) : t.oneTime = s.oneTime := by
  unfold step at h
  split at h
  next =>
    cases h
    exact State.oneTime_of_fixed (State.tick_fixed s)
  next c rest _ => exact State.oneTime_of_fixed (s := { s with pending := rest }) (exec_fixed h)

/-- Settles O2: `exec_fixed` for a command, `step_oneTime` for a step. -/
theorem noCommandChangesTheOneTimeMemory : Obligations.NoCommandChangesTheOneTimeMemory := by
  unfold Obligations.NoCommandChangesTheOneTimeMemory
  refine ⟨fun c s t h => exec_fixed h, fun s t h => ?_⟩
  have := step_oneTime h
  simpa only [State.oneTime, Prod.mk.injEq] using this

/-- Settles O3: a step leaves the fuses alone. -/
theorem everyStepKeepsTheGrade : Obligations.EveryStepKeepsTheGrade := by
  intro s t hl h
  rw [step_fuses h]
  exact hl

theorem State.reset_tile {t : Nat} (h : t < 160) : State.reset.tile t = Tile.reset := vget_replicate t _ _ h

theorem State.reset_chan {k c : Nat} (hk : k < 8) (hc : c < 32) : State.reset.chan k c = Channel.reset :=
  (congrArg (fun y : Stack => vget y.ch c Channel.reset) (vget_replicate k _ _ hk)).trans (vget_replicate c _ _ hc)

/-- Settles O4: after reset every memory is empty. -/
theorem resetMeetsTheInvariants : Obligations.ResetMeetsTheInvariants := by
  unfold Obligations.ResetMeetsTheInvariants State.tileMemOk State.stackMemOk
  refine ⟨.inl ⟨rfl, rfl, rfl⟩, fun t ht => ?tiles, fun k c hk hc => ?channels, rfl⟩
  case tiles => rw [State.reset_tile ht]; rfl
  case channels => rw [State.reset_chan hk hc]; rfl

end Sys2Proof.Machine
end

section
/-! The control group: each instruction at its check point (`State.runInstr_takes`), and what it plans. -/

namespace Sys2Proof.Machine
open Sys2Proof

/-- The plan of an instruction in flight is that of its opcode and its words. -/
theorem Ctx.plan_of_runs {c : Ctx} {op : Nat} {w : IWord} (h : c.runs op w) : c.plan = planOf op w c := by
  obtain ⟨rfl, rfl⟩ := h
  rfl

section
variable {s : State} {t : Nat} {e : Eng} {op : Nat} {w : IWord} {ok : Bool} {plan : Ctx → Plan} {fr : Front}

theorem State.atCheck.passes_nil (h : s.atCheck t e op w fr) : s.passes t e op w fr [] := ⟨h, by simp⟩

/-- An instruction that plans no test, no fault and no other condition passes its check point whenever it comes (R93). -/
theorem State.runInstr_takes_untested (hok : ok = true) (h : s.atCheck t e op w fr)
    (hpl : ∀ c, (plan c).tests = [] ∧ (plan c).pre = none ∧ (plan c).fault = none ∧ (plan c).late = none) :
    s.runInstr t e op w ok plan = s.takes t e fr (s.flightAt t e op w fr) (plan (s.ctxAt t e op w fr)).lwait
      (plan (s.ctxAt t e op w fr)).flow := by
  obtain ⟨htests, hpre, hfault, hlate⟩ := hpl (s.ctxAt t e op w fr)
  exact State.runInstr_takes hok (htests ▸ h.passes_nil) hpre hfault hlate

/-- A check point that passes, where the next instruction follows in order and nothing else is tested (R93). -/
theorem State.runInstr_inFlight {tests : List (Nat × Bool)} (hok : ok = true) (h : s.passes t e op w fr tests)
    (hpl : ∀ c, (plan c).pre = none ∧ (plan c).fault = none ∧ (plan c).late = none ∧ (plan c).lwait = 0 ∧ (plan c).flow = .seq)
    (htests : (plan (s.ctxAt t e op w fr)).tests = tests) :
    s.runInstr t e op w ok plan = s.inFlight t e op w fr := by
  obtain ⟨hpre, hfault, hlate, hlw, hflow⟩ := hpl (s.ctxAt t e op w fr)
  rw [State.runInstr_takes hok (htests ▸ h) hpre hfault hlate, hlw, hflow]
  rfl

/-- A tested word that is not as its mode asks is a late use, which raises DATA_LATE (R34, R94). -/
theorem State.runInstr_dataLate {k : Nat} {b : Bool} (hok : ok = true) (h : s.atCheck t e op w fr)
    (hpl : ∀ c, (plan c).pre = none ∧ (plan c).fault = none ∧ (plan c).late = none)
    (htests : (plan (s.ctxAt t e op w fr)).tests = [(k, b)]) (hk : nsHas k (s.tile t).full ≠ b) :
    s.runInstr t e op w ok plan = s.lateUse t e 0x1 [k] (BitVec.ofNat 32 fr.pc) := by
  obtain ⟨hpre, hfault, hlate⟩ := hpl (s.ctxAt t e op w fr)
  have hpar := h.parityFails_any
  obtain ⟨hl, hfr, -⟩ := h
  have hf : List.filter (s.tile t).testFails [(k, b)] = [(k, b)] := by simp [Tile.testFails, hk]
  simp only [State.ctxAt] at hpre hfault hlate htests
  simp [State.runInstr, hl, hfr, State.check, hpar, hok, hpre, State.checkPlan, hfault, hlate, htests, hf]

end

/-! ### Registers (R96, R99, R100) -/

/-- A register result in the form of the statement: A0 is never written (R95). -/
theorem planReg_eq (c : Ctx) (scalar : Bool) (i : Nat) (v : BitVec 32) :
    planReg c (c.p + 1) scalar i (fun _ => v) = { Plan.nop c.p with
      regs := if !scalar && i = 0 then [] else [{ due := c.p + 1, scalar := scalar, idx := i, val := fun _ => v }]
      done := c.p + 1 } := rfl

/-- Settles O5: every check point is `State.runInstr_takes_untested`, and each plan is one register result. -/
theorem ctRegisterInstructionsComplete : Obligations.CtRegisterInstructionsComplete := by
  intro t e w fr s go
  refine ⟨?nop, ?lwait, ?amov, ?aadd, ?aalu, ?smov, ?salu, ?xmov, fun c => ⟨?pNop, ?pLwait, ?pAmov, ?pAadd, ?pAalu, ?pSmov,
    ?pSalu, ?pXmov⟩⟩
  case nop | lwait | amov | aadd | aalu | smov | salu | xmov =>
    intro hok h
    exact congrArg Host.Outcome.next (State.runInstr_takes_untested hok h fun _ => ⟨rfl, rfl, rfl, rfl⟩)
  case pNop | pLwait | pAmov | pAadd | pAalu | pSmov | pSalu =>
    intro h
    exact Ctx.plan_of_runs h
  case pXmov =>
    intro h
    rw [Ctx.plan_of_runs h]
    by_cases hm : w.md = 0 <;> simp [planOf, planXmov, planReg, setReg, hm]

/-! ### Words (R92, R93, R99) -/

/-- The tests of one word under a source mode. -/
theorem testsOf_srcTest_one (fe k : Nat) :
    testsOf (srcTest fe) [k] = if fe = 1 ∨ fe = 2 then [(k, true)] else [] := testsOf_srcTest fe [k]

/-- The tests of one word under a destination mode. -/
theorem testsOf_dstTest_one (fe k : Nat) :
    testsOf (dstTest fe) [k] = if fe = 1 then [(k, false)] else if fe = 3 then [(k, true)] else [] := testsOf_dstTest fe [k]

/-- Settles O7: a check point that passes, the late use of a word, and the plans, whose tests and changes are those of the
operand's mode. -/
theorem ctWordInstructionsComplete : Obligations.CtWordInstructionsComplete := by
  intro t e w fr s word at_ fe sldTest sstTest
  refine ⟨fun hok h => ?sld, fun hok h hfe hk => ?sldLate, fun hok h => ?sst, fun hok h => ?poll, fun hok h => ?feset,
    fun c => ⟨fun h => ?pSld, fun h => ?pSst, fun h => ?pPoll, fun h => ?pFeset⟩⟩
  case sld =>
    exact congrArg Host.Outcome.next (State.runInstr_inFlight hok h (fun _ => ⟨rfl, rfl, rfl, rfl, rfl⟩) (testsOf_srcTest_one ..))
  case sldLate =>
    refine congrArg Host.Outcome.next (State.runInstr_dataLate (b := true) hok h (fun _ => ⟨rfl, rfl, rfl⟩) ?_ (by simp [hk]))
    exact (testsOf_srcTest_one ..).trans (if_pos hfe)
  case sst =>
    exact congrArg Host.Outcome.next (State.runInstr_inFlight hok h (fun _ => ⟨rfl, rfl, rfl, rfl, rfl⟩) (testsOf_dstTest_one ..))
  case poll | feset =>
    exact congrArg Host.Outcome.next (State.runInstr_inFlight hok h.passes_nil (fun _ => ⟨rfl, rfl, rfl, rfl, rfl⟩) rfl)
  case pSld =>
    rw [Ctx.plan_of_runs h]
    simp only [planOf, planCtSld, testsOf_srcTest_one]
    rfl
  case pSst =>
    rw [Ctx.plan_of_runs h]
    simp only [planOf, planCtSst, testsOf_dstTest_one, dstWrite, dstFull_eq]
    rfl
  case pPoll => exact Ctx.plan_of_runs h
  case pFeset =>
    rw [Ctx.plan_of_runs h]
    simp only [planOf, planFeset, plainReads, List.map_map]
    rfl

end Sys2Proof.Machine
end

section
/-! The control group's flow instructions. -/

namespace Sys2Proof.Machine
open Sys2Proof

/-! ### Where a stream goes on at an issue (R99, R101, R102, R103, R137) -/

section
variable {s : State} {j : Job} (hi : j.c.f.issued = true) (hp : j.c.f.p = s.plan.geyser)
include hi hp

theorem State.follow_halt (h : j.pl.flow = .halt) :
    s.follow j = s.modStream j.c.t j.c.e (fun x => { x with halted := true }) := by
  simp [State.follow, hi, hp, h]

theorem State.follow_frame {target : Nat} (h : j.pl.flow = .frame target) :
    s.follow j = s.modStream j.c.t j.c.e fun x => { x with
      fronts := [{ Front.reset with pc := target, seq := x.fetchSeq, last := j.c.f.p }]
      queue := []
      skips := []
      fetchPc := target
      fetchStop := false } := by
  simp [State.follow, hi, hp, h]

theorem State.follow_branch {lt lf : Nat} {takesT : Bool} (h : j.pl.flow = .branch lt lf takesT) :
    s.follow j = s.takeArm j.c.t j.c.e j.c.f lt lf takesT := by
  simp [State.follow, hi, hp, h]

end

/-- The places of the arm that is not taken leave the queue, where the branch itself does (R101, R137). -/
theorem State.takeArm_outside_loop (s : State) (t : Nat) (e : Eng) {f : Flight} (lt lf : Nat) (takesT : Bool)
    (h : f.drop ≠ []) :
    s.takeArm t e f lt lf takesT =
      ((((s.tile t).stream e).fronts.filter fun z => z.path.contains (f.p, !takesT)).foldl
        (fun s z => s.clearCause (.lateUse t e.num z.pc)) s).modStream t e fun y =>
          ({ y with
            fronts := (y.fronts.filter fun z => !z.path.contains (f.p, !takesT)).map fun z =>
              { z with path := z.path.filter fun x => x.1 ≠ f.p }
            flights := (y.flights.filter fun z => !z.path.contains (f.p, !takesT)).map fun z =>
              { z with path := z.path.filter fun x => x.1 ≠ f.p } } : Stream).dropPlaces
            (if takesT then f.seq + lt + 1 else f.seq + 1) (if takesT then f.seq + lt + lf else f.seq + lt) := by
  have hdrop : f.drop.isEmpty = false := by simpa using h
  simp only [State.takeArm, hdrop]
  rfl

/-- Settles O6: every check point is `State.runInstr_takes_untested` with the front that `Front.next` gives; what its issue
does is `State.follow` of its flow. -/
theorem ctFlowInstructionsComplete : Obligations.CtFlowInstructionsComplete := by
  intro t e w fr s lt lf p ln goes stops
  refine ⟨?halt, ?loop, ?jmp, ?fbr, ?bbr, ?plans, ?issues⟩
  case halt | loop | jmp | fbr | bbr =>
    intro hok h
    exact congrArg Host.Outcome.next (State.runInstr_takes_untested hok h fun _ => ⟨rfl, rfl, rfl, rfl⟩)
  case plans =>
    exact fun c => ⟨Ctx.plan_of_runs, Ctx.plan_of_runs, Ctx.plan_of_runs, Ctx.plan_of_runs, Ctx.plan_of_runs⟩
  case issues =>
    intro c beats hi hp job
    refine ⟨State.follow_halt hi hp rfl, fun target => State.follow_frame hi hp rfl, fun a b takesT hd => ?_⟩
    exact (State.follow_branch hi hp rfl).trans (State.takeArm_outside_loop _ _ _ _ _ _ hd)

end Sys2Proof.Machine
end

section
/-! Barriers and watches as CT.BAR and CT.WATCH reach them. -/

namespace Sys2Proof.Machine
open Sys2Proof

theorem mem_nsIns {x y : Nat} {l : List Nat} : y ∈ nsIns x l ↔ y = x ∨ y ∈ l := by
  induction l with
  | nil => simp [nsIns]
  | cons a l ih =>
    unfold nsIns
    split
    · simp
    split
    next h => subst h; simp
    next => simp only [List.mem_cons, ih]; tauto

/-- A fold whose every step leaves the start as it is. -/
theorem foldl_eq_self {α β : Type} {f : β → α → β} {b : β} {l : List α} (h : ∀ a ∈ l, f b a = b) : l.foldl f b = b := by
  induction l with
  | nil => rfl
  | cons a l ih =>
    rw [List.foldl_cons, h a (by simp)]
    exact ih fun x hx => h x (by simp [hx])

section
variable {s : State} {p b : Nat}

theorem State.bar_modBar_same (f : Barrier → Barrier) (hp : p < 16) (hb : b < 32) :
    (s.modBar p b f).bar p b = f (s.bar p b) := by
  simp [State.bar, State.modBar, hp, hb]

/-- A word that is a sync object already stays as it is (R307). -/
theorem State.syncObject_of_isSome {t w : Nat} (h : (alGet w (s.ts t).objects).isSome) : s.syncObject t w = s := by
  simp [State.syncObject, h]

theorem State.barObjects_of_isSome {d : BarDecl}
    (h : ∀ i ∈ d.tiles, ∀ pt, s.physTile p i = some pt → (alGet d.compWord (s.ts pt).objects).isSome) :
    s.barObjects p d = s := by
  refine foldl_eq_self fun i hi => ?_
  split
  next pt hpt => exact State.syncObject_of_isSome (h i hi pt hpt)
  next => rfl

/-- A round that a member tile has not reached goes no further (R300). -/
theorem State.checkBar_of_missing {past m : Nat} {d : BarDecl} (hm : m ∈ d.tiles) (h : m ∉ (s.bar p b).arrived) :
    s.checkBar p b past d = s := by
  have hall : (d.tiles.all fun l => (s.bar p b).arrived.contains l) = false :=
    List.all_eq_false.mpr ⟨m, hm, by simpa using h⟩
  simp only [State.checkBar, hall]
  rfl

/-- An arrival of a tile that the barrier names and that has not arrived yet, where the completion words are sync objects
already (R299). -/
theorem State.arrive_of_member {t engine : Nat} {pc : BitVec 32} {d : BarDecl}
    (hd : s.barDecl (s.tile t).part.toNat b = some d) (hscope : d.scope ≠ 0) (hl : (s.tile t).logical.toNat ∈ d.tiles)
    (htree : d.scope = 2 → (s.treeIndex (s.tile t).part.toNat d).isSome)
    (hnew : (s.tile t).logical.toNat ∉ (s.bar (s.tile t).part.toNat b).arrived)
    (hobj : s.barObjects (s.tile t).part.toNat d = s) :
    s.arrive t engine pc b = (s.modBar (s.tile t).part.toNat b fun y => { y with
      isOpen := true
      arrived := nsIns (s.tile t).logical.toNat y.arrived
      expireAt := if (s.bar (s.tile t).part.toNat b).arrived.isEmpty then
          s.frameStart (s.tile t).part.toNat s.plan.geyser d.timeout
        else y.expireAt
      firstTile := if y.firstTile = 0xFF then BitVec.ofNat 8 t else y.firstTile
      firstEngine := if y.firstTile = 0xFF then BitVec.ofNat 2 engine else y.firstEngine
      firstPc := if y.firstTile = 0xFF then pc else y.firstPc }).checkBar (s.tile t).part.toNat b 1 d := by
  have hmiss : (d.scope = 0 || !d.tiles.contains (s.tile t).logical.toNat ||
      (d.scope = 2 && (s.treeIndex (s.tile t).part.toNat d).isNone) ||
      (s.bar (s.tile t).part.toNat b).arrived.contains (s.tile t).logical.toNat) = false := by
    by_cases h2 : d.scope = 2
    · simp [h2, Option.isNone_eq_false_iff.mpr (htree h2), hl, hnew]
    · simp [h2, hscope, hl, hnew]
  simp only [State.arrive, hd, hmiss, hobj]
  rfl

end

/-- Settles O8: both check points are `State.runInstr_inFlight`; an arrival that another member still has to follow ends
before the round's completion (`State.checkBar_of_missing`). -/
theorem ctSyncInstructionsComplete : Obligations.CtSyncInstructionsComplete := by
  intro t e w fr s
  refine ⟨fun hok h => ?bar, fun hok h => ?watch, fun c => ⟨Ctx.plan_of_runs, Ctx.plan_of_runs⟩, ?arrival, ?registration⟩
  case bar | watch =>
    exact congrArg Host.Outcome.next
      (State.runInstr_inFlight hok h.passes_nil (fun _ => ⟨rfl, rfl, rfl, rfl, rfl⟩) rfl)
  case arrival =>
    intro b m pc d p l hp hb hd hscope hl htree hnew hm hml hmissing hobj
    rw [State.arrive_of_member hd hscope hl htree hnew (State.barObjects_of_isSome hobj)]
    refine State.checkBar_of_missing hm ?_
    rw [State.bar_modBar_same _ hp hb]
    simpa [mem_nsIns] using ⟨hml, hmissing⟩
  case registration =>
    intro watched wake timeout full pc hlen hwake hobj1 hobj2
    have hnone : ((s.ts t).watches.find? fun v => decide (v.wake = wake)) = none := by simpa using hwake
    simp only [State.registerWatch, if_neg (Nat.not_le.mpr hlen), hnone, State.syncObject_of_isSome hobj1,
      State.syncObject_of_isSome hobj2]

end Sys2Proof.Machine
end

section
/-! The matrix engine's instructions: weight slots and rows (R105 to R108, R130, R132). -/

namespace Sys2Proof.Machine
open Sys2Proof

/-- The tests of MX.LDW, as the modes of its two operands ask (R92, R107). -/
theorem planLdw_tests (w : IWord) (c : Ctx) : (planLdw w c).tests =
    (if spFe w.s1 = 1 ∨ spFe w.s1 = 2 then ((ldwReads w c).map (·.2)).map fun k => (k, true) else []) ++
    (if spFe w.s2 = 1 ∨ spFe w.s2 = 2 then ((ldwScales w c).map (·.2)).map fun k => (k, true) else []) := by
  simp only [planLdw, testsOf_srcTest]

/-- The tests of MX.MMA, as the modes of its three operands ask (R92, R108). -/
theorem planMma_tests (w : IWord) (c : Ctx) : (planMma w c).tests =
    (if spFe w.s1 = 1 ∨ spFe w.s1 = 2 then
      ((List.range (field w.ops 23 16 + 1)).flatMap fun i => (mmaReads w c i).1.map (·.2)).map fun k => (k, true) else []) ++
    (if spFe w.s2 = 1 ∨ spFe w.s2 = 2 then
      (((List.range (ceilDiv (field w.ops 23 16 + 1) 16)).flatMap fun u => (mmaReads w c (16 * u)).2.1).map (·.2)).map
        fun k => (k, true) else []) ++
    (let ds := (List.range (field w.ops 23 16 + 1)).flatMap fun i =>
        (List.range 5).map fun k => wordAt (c.first w.d) (5 * i + k)
      if spFe w.d = 1 then ds.map fun k => (k, false) else if spFe w.d = 3 then ds.map fun k => (k, true) else []) := by
  simp only [planMma, testsOf_srcTest, testsOf_dstTest, List.flatMap_map]

/-- An MX.LDW into the slot is in flight and has not made it ready. -/
theorem State.slotLoading_iff (s : State) (t : Nat) (slot : Bool) : s.slotLoading t slot = true ↔
    ∃ y ∈ (s.tile t).mx.flights, y.op = 0x40 ∧ bit y.w.ops 15 = slot ∧
      s.plan.geyser < y.at_ (y.p + 6 + ceilDiv (mxFmtD y.w.md).wWords 8) := by
  simp only [State.slotLoading, List.any_eq_true, Bool.and_eq_true, decide_eq_true_eq, and_assoc]
  rfl

section
variable {s : State} {t : Nat} {w : IWord} {fr : Front}

/-- The slot that MX.MMA names is valid and no load of it is in progress (R94). -/
def State.slotReady (s : State) (t : Nat) (slot : Bool) : Bool :=
  ((s.tile t).wslot slot).valid && !s.slotLoading t slot

theorem State.slotReady_iff {slot : Bool} : s.slotReady t slot = true ↔
    ((s.tile t).wslot slot).valid = true ∧ ¬ s.slotLoading t slot = true := by
  simp [State.slotReady]

theorem planMma_late (w : IWord) (c : Ctx) :
    (planMma w c).late = if c.s.slotReady c.t (bit w.ops 15) then none else some 1 := rfl

theorem planMma_fault (w : IWord) (c : Ctx) : (planMma w c).fault =
    if c.s.slotReady c.t (bit w.ops 15) = true ∧
      (mxFmtD ((c.s.tile c.t).wslot (bit w.ops 15)).fmt.toNat).set ≠ (mxFmtD w.md).set then
      some (c.s.instrFault c.t c.e 0x309 c.pc, none) else none := by
  simp only [planMma, State.slotReady, Bool.and_eq_true, decide_eq_true_eq]
  rfl

end

/-- Settles O10: the check points are those of `State.runInstr`, with the slot's readiness (`planMma_late`) and its format
(`planMma_fault`) as further conditions of MX.MMA. -/
theorem matrixInstructionsComplete : Obligations.MatrixInstructionsComplete := by
  intro t w fr s f m slot word src dst read el sc ldwTests rowPc act scale old scales mmaTests loading set at_ sl
  have hload : loading ↔ s.slotLoading t slot = true := (State.slotLoading_iff ..).symm
  have htests : ∀ c, (planMma w c).tests = mmaTests c := fun c => planMma_tests w c
  rw [hload]
  refine ⟨fun hok h => ?ldw, fun hok hv hl hset h => ?mma, fun hok hv hl hset h => ?format, fun hok hr h => ?slot,
    fun c => ⟨fun h => ?pLdw, fun h => ?pMma⟩⟩
  case ldw =>
    exact congrArg Host.Outcome.next (State.runInstr_inFlight hok h (fun _ => ⟨rfl, rfl, rfl, rfl, rfl⟩) (planLdw_tests ..))
  case mma =>
    have hready : s.slotReady t slot = true := State.slotReady_iff.mpr ⟨hv, hl⟩
    have hlate : (planMma w (at_ 0x41)).late = none := by rw [planMma_late]; exact if_pos hready
    have hfault : (planMma w (at_ 0x41)).fault = none := by
      rw [planMma_fault]
      exact if_neg fun hf => hf.2 hset
    exact congrArg Host.Outcome.next (State.runInstr_takes hok (htests _ ▸ h) rfl hfault hlate)
  case format =>
    have hready : s.slotReady t slot = true := State.slotReady_iff.mpr ⟨hv, hl⟩
    have hfault : (planMma w (at_ 0x41)).fault = some (s.instrFault t .mx 0x309 fr.pc, none) := by
      rw [planMma_fault]
      exact if_pos ⟨hready, hset⟩
    exact congrArg Host.Outcome.next (State.runInstr_faults hok h rfl hfault)
  case slot =>
    have hready : ¬ s.slotReady t slot = true := by
      rw [State.slotReady_iff]
      rintro ⟨hv, hl⟩
      exact hr.elim (fun hv' => by simp [sl, hv] at hv') hl
    have hlate : (planMma w (at_ 0x41)).late = some 1 := by rw [planMma_late]; exact if_neg hready
    have hfault : (planMma w (at_ 0x41)).fault = none := by
      rw [planMma_fault]
      exact if_neg fun hf => hready hf.1
    rw [← htests]
    exact congrArg Host.Outcome.next (State.runInstr_late hok h rfl hfault hlate)
  case pLdw =>
    rw [Ctx.plan_of_runs h]
    simp only [planOf, planLdw, testsOf_srcTest]
    rfl
  case pMma =>
    rw [Ctx.plan_of_runs h]
    simp only [planOf, planMma, testsOf_srcTest, testsOf_dstTest, List.flatMap_map, dstWrite, dstFull_eq]
    rfl

end Sys2Proof.Machine
end

section
/-! The vector engine's instructions: check points, plans and layer digests (R110 to R115, R134, R135, R140 to R143). -/

namespace Sys2Proof.Machine
open Sys2Proof

/-! ### Plans in the terms of the operand modes (R92) -/

/-- The words that a destination writes, with its mode's change spelled out. -/
theorem dstWrite_eq (fe : Nat) (digest : Bool) (due word lat : Nat) (data : Unit → Line) (needs : List (Nat × Nat)) :
    dstWrite fe digest due word lat data needs = {
      due := due
      word := word
      lat := lat
      data := some data
      full := if fe = 0 ∨ fe = 1 then some true else none
      digest := digest
      needs := needs } := by
  rw [dstWrite, dstFull_eq]

theorem vecWrites_eq (fe : Nat) (digest : Bool) (due lat w0 k j : Nat) (x : Unit → Nat) (needs : List (Nat × Nat)) :
    vecWrites fe digest due lat w0 k j x needs = (List.range k).map fun i => {
      due := due
      word := wordAt w0 (k * j + i)
      lat := lat
      data := some fun _ => BitVec.ofNat 512 (x () >>> (512 * i))
      full := if fe = 0 ∨ fe = 1 then some true else none
      digest := digest
      needs := needs } := by
  simp only [vecWrites, dstWrite_eq]

/-! ### Layer digests (R143, R378, R381) -/

/-- Without a mirror an entry goes into the log whatever it overwrites (R378, R381). -/
theorem State.appendDigest_unmirrored {s : State} (e : DigEntry) (h : s.dig.mirror = false) :
    s.appendDigest e = { s with dig := { s.dig with
      log := alSet s.dig.logHead.toNat e s.dig.log
      logWrapped := s.dig.logWrapped || decide (s.dig.logHead = 0x1FFF#13)
      logHead := s.dig.logHead + 1 } } := by
  simp only [State.appendDigest, h]
  rfl

/-- Where no fold waits for a replay, a digest that is closed starts anew at once (R142, R143). -/
theorem State.closeDigest_unmirrored {s : State} {t : Nat} (layer : BitVec 16) (hw : (s.tile t).foldWait = [])
    (hm : s.dig.mirror = false) :
    s.closeDigest t layer = ({ s with dig := { s.dig with
      log := alSet s.dig.logHead.toNat {
        digest := (s.tile t).digest
        layer := layer
        ltile := (s.tile t).logical
        compared := false
        part := (s.tile t).part
        frame := BitVec.ofNat 32 (s.frameNo (s.tile t).part.toNat) } s.dig.log
      logWrapped := s.dig.logWrapped || decide (s.dig.logHead = 0x1FFF#13)
      logHead := s.dig.logHead + 1 } } : State).modTile t fun y => { y with digest := digestInit } := by
  rw [State.closeDigest, State.appendDigest_unmirrored _ hm]
  exact State.modTile_congr _ _ _ _ (by simp only [State.tile] at hw ⊢; simp [hw])

/-- Settles O11: each plan is the statement's, once the modes of its operands are spelled out; a check point that passes its
tests is `State.runInstr_inFlight`. -/
theorem vectorInstructionsComplete : Obligations.VectorInstructionsComplete := by
  intro t w fr s n fe1 fe2 feD word src dst read range vec vecs out outs one map3 alu tr rng sb narrow k scaleWords cvt red
    reds er ercvt base at_ passes go
  have hAlu : ∀ c, planAlu w c = alu c := by
    intro c
    simp only [planAlu, planMap, testsOf_srcTest, testsOf_dstTest, vecWrites_eq]
    rfl
  have hTr : ∀ c, planTr w c = tr c := by
    intro c
    simp only [planTr, planMap, testsOf_srcTest, testsOf_dstTest, vecWrites_eq]
    rfl
  have hRng : ∀ c, planRng w c = rng c := by
    intro c
    simp only [planRng, planMap, testsOf_srcTest, testsOf_dstTest, vecWrites_eq]
    rfl
  have hCvt : ∀ c, planCvt w c = cvt c := by
    intro c
    simp only [planCvt, testsOf_srcTest, testsOf_dstTest, vecWrites_eq, dstWrite_eq]
    rfl
  have hRed : ∀ c, planRed w c = red c := by
    intro c
    simp only [planRed, testsOf_srcTest, testsOf_dstTest, vecWrites_eq]
    rfl
  have hReds : ∀ c, planReds w c = reds c := by
    intro c
    simp only [planReds, testsOf_srcTest]
    rfl
  have hEracc : ∀ c, planEracc w c = { er c 1 with issueFault := base c } := by
    intro c
    simp only [planEracc, planEr, testsOf_srcTest, testsOf_dstTest, vecWrites_eq]
    rfl
  have hEradd : ∀ c, planEradd w c = er c 4 := by
    intro c
    simp only [planEradd, planEr, testsOf_srcTest, testsOf_dstTest, vecWrites_eq]
    rfl
  have hErcvt : ∀ c, planErcvt w c = { ercvt c with issueFault := base c } := by
    intro c
    simp only [planErcvt, testsOf_srcTest, testsOf_dstTest, vecWrites_eq]
    rfl
  refine ⟨fun hok h => ?alu, fun hok h => ?cvt, fun hok h => ?tr, fun hok h => ?red, fun hok h => ?rng, fun hok h => ?reds,
    fun hok h => ?eracc, fun hok h => ?eradd, fun hok h => ?ercvt, fun hok h => ?dclose, fun c => ?plans,
    fun layer hw hm => State.closeDigest_unmirrored layer hw hm⟩
  case alu | cvt | tr | red | rng | reds | eracc | eradd | ercvt =>
    refine congrArg Host.Outcome.next (State.runInstr_inFlight hok h (fun _ => ⟨rfl, rfl, rfl, rfl, rfl⟩) ?_)
    simp only [hAlu, hCvt, hTr, hRed, hRng, hReds, hEracc, hEradd, hErcvt, at_]
  case dclose =>
    exact congrArg Host.Outcome.next (State.runInstr_inFlight hok h.passes_nil (fun _ => ⟨rfl, rfl, rfl, rfl, rfl⟩) rfl)
  case plans =>
    exact ⟨fun h => (Ctx.plan_of_runs h).trans (hAlu c), fun h => (Ctx.plan_of_runs h).trans (hCvt c),
      fun h => (Ctx.plan_of_runs h).trans (hTr c), fun h => (Ctx.plan_of_runs h).trans (hRed c),
      fun h => (Ctx.plan_of_runs h).trans (hRng c), fun h => (Ctx.plan_of_runs h).trans (hReds c),
      fun h => (Ctx.plan_of_runs h).trans (hEracc c), fun h => (Ctx.plan_of_runs h).trans (hEradd c),
      fun h => (Ctx.plan_of_runs h).trans (hErcvt c), Ctx.plan_of_runs⟩

end Sys2Proof.Machine
end

section
/-! The moves inside a tile and to the fabric (R117, R118, R120). -/

namespace Sys2Proof.Machine
open Sys2Proof

theorem firstFault_none (l : List (Option (FaultRec × Option FaultRec))) : firstFault (none :: l) = firstFault l := rfl

theorem firstFault_some (r : FaultRec × Option FaultRec) (l : List (Option (FaultRec × Option FaultRec))) :
    firstFault (some r :: l) = some r := rfl

theorem firstFault_nil : firstFault [] = none := rfl

/-- The words of a move's destination, with its mode's change spelled out (R92, R117). -/
theorem beatOuts_eq (fe p lat w0 n : Nat) (data : Nat → Unit → Line) (needs : Nat → List (Nat × Nat)) :
    beatOuts fe p lat w0 n data needs = (List.range n).map fun i => {
      due := p + lat + i / 4
      word := wordAt w0 i
      lat := lat + i / 4
      data := some (data i)
      full := if fe = 0 ∨ fe = 1 then some true else none
      digest := false
      needs := needs i } := by
  simp only [beatOuts, dstWrite_eq]

section
variable {w : IWord} {c : Ctx}

theorem planFsend_fault_none (hl : w.s2 % 256 < c.img.n) (hr : w.s2 / 256 < rankCount c.img.dims) :
    (planFsend w c).fault = none := by
  simp only [planFsend, if_pos hl, if_pos hr, firstFault_none, firstFault_nil]

theorem planFsend_fault_tile (hl : c.img.n ≤ w.s2 % 256) : (planFsend w c).fault = c.meshFault := by
  simp only [planFsend, if_neg (Nat.not_lt.mpr hl)]
  rfl

theorem planFsend_fault_rank (hl : w.s2 % 256 < c.img.n) (hr : rankCount c.img.dims ≤ w.s2 / 256) :
    (planFsend w c).fault = c.addrFault (w.s2 / 256) := by
  simp only [planFsend, if_pos hl, if_neg (Nat.not_lt.mpr hr), firstFault_none]
  rfl

end

/-- Settles O12: a check point that passes is `State.runInstr_takes`; the faults of MV.FSEND are those of its plan, in
order. -/
theorem localMovesComplete : Obligations.LocalMovesComplete := by
  intro t w fr s n word src dst read beats outs move srcWord srcTests dstTests img at_ record
  refine ⟨fun hok h => ?cpy, fun hok h => ?fill, fun hok hl hr h => ?fsend, fun hok hl h => ?fsendTile,
    fun hok hl hr h => ?fsendRank, fun c => ⟨fun h => ?pCpy, fun h => ?pFill, fun h => ?pFsend⟩⟩
  case cpy =>
    refine congrArg Host.Outcome.next (State.runInstr_inFlight hok h (fun _ => ⟨rfl, rfl, rfl, rfl, rfl⟩) ?_)
    simp only [planCpy, testsOf_srcTest, testsOf_dstTest]
    rfl
  case fill =>
    refine congrArg Host.Outcome.next (State.runInstr_inFlight hok h (fun _ => ⟨rfl, rfl, rfl, rfl, rfl⟩) ?_)
    exact testsOf_dstTest ..
  case fsend =>
    have htests : (planFsend w (at_ 0xC5)).tests = srcTests (at_ 0xC5) := testsOf_srcTest ..
    exact congrArg Host.Outcome.next (State.runInstr_takes hok (htests ▸ h) rfl (planFsend_fault_none hl hr) rfl)
  case fsendTile => exact congrArg Host.Outcome.next (State.runInstr_faults hok h rfl (planFsend_fault_tile hl))
  case fsendRank => exact congrArg Host.Outcome.next (State.runInstr_faults hok h rfl (planFsend_fault_rank hl hr))
  case pCpy =>
    rw [Ctx.plan_of_runs h]
    simp only [planOf, planCpy, testsOf_srcTest, testsOf_dstTest, beatOuts_eq]
    rfl
  case pFill =>
    rw [Ctx.plan_of_runs h]
    simp only [planOf, planFill, testsOf_dstTest, beatOuts_eq]
    rfl
  case pFsend =>
    rw [Ctx.plan_of_runs h]
    simp only [planOf, planFsend, testsOf_srcTest]
    rfl

end Sys2Proof.Machine
end

section
/-! The moves through the mesh, the fabric and the stacks: the conditions of their check points (R120, R195, R207). -/

namespace Sys2Proof.Machine
open Sys2Proof

/-! ### Conditions of a check point -/

section
variable {c : Ctx} {ember : Bool} {ws : List Nat}

theorem Ctx.outside_none (h : ∀ x ∈ ws, (c.img.regionOf ember x).isSome) : c.outside ember ws = none := by
  have hf : (ws.find? fun x => (c.img.regionOf ember x).isNone) = none := by
    simpa [Option.isSome_iff_ne_none] using h
  simp [Ctx.outside, hf]

theorem Ctx.outside_some {x : Nat} (h : (ws.find? fun y => (c.img.regionOf ember y).isNone) = some x) :
    c.outside ember ws = c.addrFault x := by
  simp [Ctx.outside, h]

theorem Ctx.outside_range {a n : Nat} (h : ∀ i < n, (c.img.regionOf ember (a + i)).isSome) :
    c.outside ember ((List.range n).map fun i => a + i) = none := by
  refine Ctx.outside_none fun x hx => ?_
  obtain ⟨i, hi, rfl⟩ := List.mem_map.mp hx
  exact h i (List.mem_range.mp hi)

end

/-- No refresh and no staging epoch holds a stack instruction back (R195, R207). -/
theorem State.stackLate_none {s : State} {p : Nat} {i : Image} {ws : List Nat}
    (h : (s.slicePending p).isSome = false ∧ s.stagingLate p i ws = false) : s.stackLate p i ws = none := by
  simp [State.stackLate, h]

/-- A packet that an earlier MV.FRECV has issued for, or that a later one waits for, is this one's (R118). -/
theorem Ctx.recvPkt_of_unclaimed {c : Ctx} {tag : BitVec 12} (hp : c.f.pkt = none)
    (h : ∀ y ∈ c.tile.mv.flights, y.op = 0xC6 → BitVec.ofNat 12 y.w.cfg = tag → y.issued = true ∨ c.p ≤ y.p) :
    c.recvPkt tag = c.s.recvPacket c.lt tag := by
  have hany : (c.tile.mv.flights.any fun y =>
      y.op = 0xC6 && !y.issued && decide (y.p < c.p) && BitVec.ofNat 12 y.w.cfg = tag) = false := by
    rw [List.any_eq_false]
    intro y hy
    simp only [Bool.and_eq_true, decide_eq_true_eq, Bool.not_eq_true', not_and, and_imp]
    intro hop hi hlt htag
    rcases h y hy hop htag with h1 | h1
    · simp [hi] at h1
    · omega
  simp [Ctx.recvPkt, hp, hany]

/-! ### Lists of words -/

theorem zipIdx_map_range {α : Type} (f : Nat → α) (n : Nat) :
    ((List.range n).map f).zipIdx = (List.range n).map fun i => (f i, i) := by
  apply List.ext_getElem <;> simp

theorem getD_map_range {α : Type} (f : Nat → α) {n i : Nat} (d : α) (h : i < n) :
    ((List.range n).map f).getD i d = f i := by
  simp [h]

theorem Ctx.planReads_range (c : Ctx) (a n arr : Nat) : c.planReads ((List.range n).map fun i => a + i) arr =
    (List.range n).map fun i => {
      pc := c.p + arr + i / 4
      chan := (c.s.planLoc c.part c.img (a + i)).1
      word := (c.s.planLoc c.part c.img (a + i)).2
      ix := i } := by
  simp [Ctx.planReads, zipIdx_map_range, List.map_map]

/-- Plan-space words in a row, loaded (R188, R203). -/
theorem Ctx.loadPlan_range (c : Ctx) (pl : Plan) (a n arr lat fe d0 : Nat) :
    c.loadPlan pl ((List.range n).map fun i => a + i) arr lat fe d0 =
      { pl.landIn c.t fe c.p lat d0 n (fun i _ => c.planWord (a + i) arr i) (fun i => [stackKey (c.p + arr + i / 4) i]) with
        stack := (List.range n).map fun i => {
          pc := c.p + arr + i / 4
          chan := (c.s.planLoc c.part c.img (a + i)).1
          word := (c.s.planLoc c.part c.img (a + i)).2
          ix := i } } := by
  have houts : beatOuts fe c.p lat d0 n (fun i _ => c.planWord (((List.range n).map fun i => a + i).getD i 0) arr i)
      (fun i => [stackKey (c.p + arr + i / 4) i]) =
      beatOuts fe c.p lat d0 n (fun i _ => c.planWord (a + i) arr i) (fun i => [stackKey (c.p + arr + i / 4) i]) := by
    unfold beatOuts
    refine List.map_congr_left fun i hi => ?_
    simp only [getD_map_range _ _ (List.mem_range.mp hi)]
  simp only [Ctx.loadPlan, Plan.landIn, List.length_map, List.length_range, c.planReads_range, houts]

end Sys2Proof.Machine
end

section
/-! The moves through the mesh, the fabric and the stacks: what each plans, and its check point (R117, R118, R144 to R148,
R188). -/

namespace Sys2Proof.Machine
open Sys2Proof

/-! ### MV.SEND (R75, R117) -/

theorem planSend_of_tile {w : IWord} {c : Ctx} {d : Nat} (hl : w.s2 / 2 ^ 16 < c.img.n)
    (hd : c.s.physTile c.part (w.s2 / 2 ^ 16) = some d) :
    planSend w c = ({ movePlan c.p w.nWord 102 with
      tests := testsOf (srcTest (spFe w.s1)) ((beatReads (c.first w.s1) w.nWord c.p).map (·.2))
      reads := srcReads (spFe w.s1) (beatReads (c.first w.s1) w.nWord c.p) } : Plan).landIn d (spFe w.d) c.p 102 (c.first w.d)
        w.nWord (fun i _ => c.src (c.first w.s1) i) fun i => [c.srcKey (c.first w.s1) i] := by
  simp only [planSend, if_pos hl, hd]

/-! ### MV.FRECV (R118, R144) -/

/-- What MV.FRECV plans for the packet `k`, before its words land or are added. -/
def frecvBase (w : IWord) (c : Ctx) (lat : Nat) : Plan :=
  { movePlan c.p w.nWord lat with
    tests := testsOf (dstTest (spFe w.d)) (wordsFrom (c.first w.d) w.nWord)
    acts := [(c.p, fun s =>
      s.claimPacket c.t c.p c.lt (BitVec.ofNat 12 w.cfg) (c.f.at_ (c.p + 6 + (w.nWord - 1) / 4) + 1))] }

section
variable {w : IWord} {c : Ctx} {port : Nat} {k : Packet}

theorem planFrecv_of_packet (h : c.recvPkt (BitVec.ofNat 12 w.cfg) = some (port, k)) (hn : k.payload.length = w.nWord) :
    planFrecv w c = if w.md = 0 then
        (frecvBase w c 102).landIn c.t (spFe w.d) c.p 102 (c.first w.d) w.nWord (fun i _ => k.payload.getD i 0) fun _ => []
      else { frecvBase w c 118 with
        beats := beatsAt w.nWord (c.p + 102) c.t
        reads := plainReads ((List.range w.nWord).map fun i => (c.p + 102 + i / 4, wordAt (c.first w.d) i))
        writes := (beatOuts (spFe w.d) c.p 118 (c.first w.d) w.nWord
          (fun i _ => (frecvSum w (c.word (wordAt (c.first w.d) i) (c.p + 102 + i / 4)) (k.payload.getD i 0)).1)
          fun i => [(c.p + 102 + i / 4, wordAt (c.first w.d) i)]).zipIdx.map fun o => { o.1 with
            er := fun _ => (frecvSum w (c.word (wordAt (c.first w.d) o.2) (c.p + 102 + o.2 / 4)) (k.payload.getD o.2 0)).2 } } := by
  by_cases hm : w.md = 0
  · simp only [planFrecv, h, hn, hm]
    rfl
  · simp only [planFrecv, h, hn, if_neg hm]
    rfl

/-- Whatever the reduction, MV.FRECV tests its destination and waits for nothing else once its packet is there. -/
theorem planFrecv_check (h : c.recvPkt (BitVec.ofNat 12 w.cfg) = some (port, k)) (hn : k.payload.length = w.nWord) :
    (planFrecv w c).tests = testsOf (dstTest (spFe w.d)) (wordsFrom (c.first w.d) w.nWord) ∧ (planFrecv w c).pre = none ∧
      (planFrecv w c).fault = none ∧ (planFrecv w c).late = none ∧ (planFrecv w c).lwait = 0 ∧ (planFrecv w c).flow = .seq := by
  rw [planFrecv_of_packet h hn]
  split <;> exact ⟨rfl, rfl, rfl, rfl, rfl, rfl⟩

end

/-! ### MV.SLD and MV.SST (R117, R188) -/

section
variable (w : IWord) (c : Ctx)

theorem planSld_eq : planSld w c = c.loadPlan { movePlan c.p w.nWord 420 with
    fault := (planSld w c).fault
    late := (planSld w c).late
    tests := testsOf (dstTest (spFe w.d)) (wordsFrom (c.first w.d) w.nWord) }
      ((List.range w.nWord).map fun i => c.remote w + i) 102 420 (spFe w.d) (c.first w.d) := rfl

/-- Plan-space words in a row, stored (R188, R203). -/
theorem planSst_stack : (planSst w c).stack = (List.range w.nWord).map fun i => {
    pc := c.p + 102 + i / 4
    chan := (c.s.planLoc c.part c.img (c.remote w + i)).1
    word := (c.s.planLoc c.part c.img (c.remote w + i)).2
    ix := i
    data := some fun _ => c.s.atRest c.part ((c.img.regionOf false (c.remote w + i)).bind Region.slot)
      (planTweak (c.remote w + i)) (c.src (c.first w.s1) i)
    needs := [c.srcKey (c.first w.s1) i] } := by
  simp only [planSst, c.planReads_range, List.zip_map', List.map_map]
  rfl

/-! ### MV.STRF (R147, R148) -/

/-- The list entry that MV.STRF reads at its check point. -/
def strfEntry : Nat := field (c.word (c.first w.s1) c.f.chk) (64 * (w.cfg % 8) + 63) (64 * (w.cfg % 8))

/-- The first word of the String's place in the cache. -/
def strfDst : Nat := c.first w.d + strfEntry w c % 65536 * w.nWord

/-- The first plan-space word of the String. -/
def strfSrc : Nat :=
  let pr := ((c.s.pt c.part).stage.params).getD Params.reset
  pr.stringBase + strfEntry w c / 65536 % 2 ^ 32 * pr.stringStride + w.rOff

/-- What MV.STRF plans, before its string lands or its bits change. -/
def strfBase : Plan :=
  { movePlan c.p w.nWord 428 with
    fault := (planStrf w c).fault
    late := (planStrf w c).late
    tests := testsOf (srcTest (spFe w.s1)) [c.first w.s1]
      ++ testsOf (dstTest (spFe w.d)) ((List.range w.nWord).map fun i => (strfDst w c + i) % 65536)
    pre := some (c.first w.s1)
    reads := srcReads (spFe w.s1) [(c.f.chk, c.first w.s1)] }

end

section
variable {w : IWord} {c : Ctx}

/-- An entry with a set loads its String (R147). -/
theorem planStrf_of_set (h : 2 ^ 63 ≤ strfEntry w c) : planStrf w c =
    c.loadPlan (strfBase w c) ((List.range w.nWord).map fun i => strfSrc w c + i) 110 428 (spFe w.d) (strfDst w c % 65536) := by
  unfold strfBase planStrf
  unfold strfEntry at h
  simp only [h, if_true, List.map_map]
  rfl

/-- An entry without a set changes full/empty bits alone (R147). -/
theorem planStrf_of_no_set (h : strfEntry w c < 2 ^ 63) : planStrf w c = { strfBase w c with
    writes := match dstFull (spFe w.d) with
      | none => []
      | some b => (List.range w.nWord).map fun i => {
          due := c.p + 428 + i / 4
          word := wordAt (strfDst w c) i
          lat := 428 + i / 4
          data := none
          full := some b } } := by
  unfold strfBase planStrf
  unfold strfEntry at h
  simp only [Nat.not_le.mpr h, if_false, List.map_map]
  rfl

end

end Sys2Proof.Machine
end

section
/-! The moves through the mesh, the fabric and the stacks: the statement. -/

namespace Sys2Proof.Machine
open Sys2Proof

section
variable {w : IWord} {c : Ctx}

theorem planStrf_late : (planStrf w c).late = c.s.stackLate c.part c.img
    (if 2 ^ 63 ≤ strfEntry w c then (List.range w.nWord).map fun i => strfSrc w c + i else []) := by
  by_cases h : 2 ^ 63 ≤ strfEntry w c
  · rw [if_pos h]
    unfold planStrf
    unfold strfEntry at h
    simp only [h, if_true]
    rfl
  · rw [if_neg h]
    unfold planStrf
    unfold strfEntry at h
    simp only [h, if_false]

/-- MV.STRF finds no fault where its place lies in the cache and its set in the Strings of the image (R120, R147). -/
theorem planStrf_fault_none
    (hc : ∀ i < w.nWord, ((c.img.serving).getD Serving.reset).cacheBase ≤ strfDst w c + i ∧
      strfDst w c + i < ((c.img.serving).getD Serving.reset).cacheBase + ((c.img.serving).getD Serving.reset).cacheWords)
    (hs : 2 ^ 63 ≤ strfEntry w c →
      strfEntry w c / 65536 % 2 ^ 32 < (((c.s.pt c.part).stage.params).getD Params.reset).stringCount ∧
      ∀ i < w.nWord, (c.img.regionOf false (strfSrc w c + i)).isSome) : (planStrf w c).fault = none := by
  have hin : ((List.range w.nWord).map fun i => strfDst w c + i).all (fun x =>
      ((c.img.serving).getD Serving.reset).cacheBase ≤ x &&
        x < ((c.img.serving).getD Serving.reset).cacheBase + ((c.img.serving).getD Serving.reset).cacheWords) = true := by
    simpa using hc
  simp only [strfDst, strfEntry] at hin
  by_cases h : 2 ^ 63 ≤ strfEntry w c
  · obtain ⟨hcount, hreg⟩ := hs h
    have hout := Ctx.outside_range hreg
    simp only [strfSrc, strfEntry] at hout hcount h
    unfold planStrf
    simp only [h, hin, Nat.not_le.mpr hcount, if_true, Bool.not_true, decide_false, Bool.and_false]
    exact hout
  · simp only [strfEntry] at h
    unfold planStrf
    simp only [h, hin, if_false, decide_false, Bool.not_true, Bool.false_and]
    rfl

theorem planStrf_check : (planStrf w c).tests = testsOf (srcTest (spFe w.s1)) [c.first w.s1]
      ++ testsOf (dstTest (spFe w.d)) ((List.range w.nWord).map fun i => (strfDst w c + i) % 65536) ∧
    (planStrf w c).pre = some (c.first w.s1) ∧ (planStrf w c).lwait = 0 ∧ (planStrf w c).flow = .seq := by
  by_cases h : 2 ^ 63 ≤ strfEntry w c
  · rw [planStrf_of_set h]
    exact ⟨rfl, rfl, rfl, rfl⟩
  · rw [planStrf_of_no_set (Nat.lt_of_not_le h)]
    exact ⟨rfl, rfl, rfl, rfl⟩

end

/-- MV.ELD of whole chunks inside of the Ember regions finds no fault (R145). -/
theorem planEld_fault_none {w : IWord} {c : Ctx} (ha : c.remote w % 1024 = 0) (hn : w.nWord % 1024 = 0)
    (hin : ∀ i < w.nWord, (c.img.regionOf true (c.remote w + i)).isSome) : (planEld w c).fault = none := by
  unfold planEld Plan.landIn
  simp only [ha, hn]
  exact Ctx.outside_range hin

/-- A KV access in whole units finds no fault at its check point (R202). -/
theorem Ctx.unitFault_none {w : IWord} {c : Ctx} (h : w.md = 0 ∨ w.nWord % 8 = 0) : c.unitFault w = none := by
  rcases h with h | h <;> simp [Ctx.unitFault, h]

/-- A check point that passes, in a plan whose conditions are given where it stands (R93). -/
theorem State.runInstr_inFlight_at {s : State} {t : Nat} {e : Eng} {op : Nat} {w : IWord} {ok : Bool} {plan : Ctx → Plan}
    {fr : Front} {pl : Plan} {tests : List (Nat × Bool)} (hok : ok = true) (h : s.passes t e op w fr tests)
    (hpl : plan (s.ctxAt t e op w fr) = pl) (htests : pl.tests = tests) (hpre : pl.pre = none) (hfault : pl.fault = none) (hlate : pl.late = none) (hlw : pl.lwait = 0) (hflow : pl.flow = .seq) :
    s.runInstr t e op w ok plan = s.inFlight t e op w fr := by
  subst hpl htests
  rw [State.runInstr_takes hok h hpre hfault hlate, hlw, hflow]
  rfl

/-- MV.STRF reads its list word at its check point, and passes it with its place, its set and its region as they must be
(R147). -/
theorem State.runInstr_strf {s : State} {t : Nat} {w : IWord} {ok : Bool} {fr : Front} {k : Nat} {c : Ctx}
    {tests : List (Nat × Bool)} (hok : ok = true) (hk : (s.ctxAt t .mv 0xCB w fr).first w.s1 = k)
    (hc : c = { s := s, t := t, e := .mv, f := s.preRead t (s.flightAt t .mv 0xCB w fr) k })
    (hread : (s.tile t).unreadable [k] = [])
    (htests : (planStrf w c).tests = tests) (hfault : (planStrf w c).fault = none) (hlate : (planStrf w c).late = none)
    (h : s.passes t .mv 0xCB w fr tests) :
    s.runInstr t .mv 0xCB w ok (planStrf w) = s.takes t .mv fr (s.preRead t (s.flightAt t .mv 0xCB w fr) k) 0 .seq := by
  subst hc hk htests
  obtain ⟨-, hpre, -, -⟩ := planStrf_check (w := w) (c := s.ctxAt t .mv 0xCB w fr)
  obtain ⟨-, -, hlw, hflow⟩ := planStrf_check (w := w)
    (c := { s := s, t := t, e := .mv, f := s.preRead t (s.flightAt t .mv 0xCB w fr) ((s.ctxAt t .mv 0xCB w fr).first w.s1) })
  rw [State.runInstr_takes_pre rfl hok h hpre hread hfault hlate, hlw, hflow]

/-! ### The check points, one move at a time -/

/-- The tests of a move's source words (R92, R117). -/
def Ctx.srcTests (c : Ctx) (w : IWord) : List (Nat × Bool) :=
  testsOf (srcTest (spFe w.s1)) ((beatReads (c.first w.s1) w.nWord c.p).map (·.2))

/-- The tests of a move's destination words (R92, R117). -/
def Ctx.dstTests (c : Ctx) (w : IWord) : List (Nat × Bool) :=
  testsOf (dstTest (spFe w.d)) (wordsFrom (c.first w.d) w.nWord)

section
variable {t : TileId} {w : IWord} {fr : Front} {s : State} {tests : List (Nat × Bool)}

theorem exec_mvSend_passes {d : Nat} (hok : mvSendOk w = true)
    (hl : w.s2 / 2 ^ 16 < (s.ctxAt t .mv 0xC2 w fr).img.n)
    (hd : s.physTile (s.tile t).part.toNat (w.s2 / 2 ^ 16) = some d) (h : s.passes t .mv 0xC2 w fr tests)
    (htests : (s.ctxAt t .mv 0xC2 w fr).srcTests w = tests) :
    exec (.mvSend t w) s = .next (s.inFlight t .mv 0xC2 w fr) :=
  congrArg Host.Outcome.next (State.runInstr_inFlight_at hok h (planSend_of_tile hl hd) htests rfl rfl rfl rfl rfl)

theorem exec_mvFrecv_passes {port : Nat} {k : Packet} (hok : mvFrecvOk w = true)
    (hk : (s.ctxAt t .mv 0xC6 w fr).recvPkt (BitVec.ofNat 12 w.cfg) = some (port, k)) (hn : k.payload.length = w.nWord)
    (h : s.passes t .mv 0xC6 w fr tests) (htests : (s.ctxAt t .mv 0xC6 w fr).dstTests w = tests) :
    exec (.mvFrecv t w) s = .next (s.inFlight t .mv 0xC6 w fr) := by
  obtain ⟨htests', hpre, hfault, hlate, hlw, hflow⟩ := planFrecv_check hk hn
  exact congrArg Host.Outcome.next
    (State.runInstr_inFlight_at hok h rfl (htests'.trans htests) hpre hfault hlate hlw hflow)

theorem exec_mvSld_passes (hok : mvSldOk w = true) (hfault : (planSld w (s.ctxAt t .mv 0xC3 w fr)).fault = none)
    (hlate : (planSld w (s.ctxAt t .mv 0xC3 w fr)).late = none) (h : s.passes t .mv 0xC3 w fr tests)
    (htests : (s.ctxAt t .mv 0xC3 w fr).dstTests w = tests) :
    exec (.mvSld t w) s = .next (s.inFlight t .mv 0xC3 w fr) :=
  congrArg Host.Outcome.next (State.runInstr_inFlight_at hok h rfl htests rfl hfault hlate rfl rfl)

theorem exec_mvSst_passes (hok : mvSstOk w = true) (hfault : (planSst w (s.ctxAt t .mv 0xC4 w fr)).fault = none)
    (hlate : (planSst w (s.ctxAt t .mv 0xC4 w fr)).late = none) (h : s.passes t .mv 0xC4 w fr tests)
    (htests : (s.ctxAt t .mv 0xC4 w fr).srcTests w = tests) :
    exec (.mvSst t w) s = .next (s.inFlight t .mv 0xC4 w fr) :=
  congrArg Host.Outcome.next (State.runInstr_inFlight_at hok h rfl htests rfl hfault hlate rfl rfl)

theorem exec_mvEld_passes (hok : mvEldOk w = true) (hfault : (planEld w (s.ctxAt t .mv 0xC8 w fr)).fault = none)
    (hlate : (planEld w (s.ctxAt t .mv 0xC8 w fr)).late = none) (h : s.passes t .mv 0xC8 w fr tests)
    (htests : (s.ctxAt t .mv 0xC8 w fr).dstTests w = tests) :
    exec (.mvEld t w) s = .next (s.inFlight t .mv 0xC8 w fr) :=
  congrArg Host.Outcome.next (State.runInstr_inFlight_at hok h rfl htests rfl hfault hlate rfl rfl)

theorem exec_mvPgath_passes (hok : mvPgathOk w = true) (hfault : (s.ctxAt t .mv 0xC9 w fr).unitFault w = none)
    (hlate : (planPgath w (s.ctxAt t .mv 0xC9 w fr)).late = none) (h : s.passes t .mv 0xC9 w fr tests)
    (htests : (s.ctxAt t .mv 0xC9 w fr).dstTests w = tests) :
    exec (.mvPgath t w) s = .next (s.inFlight t .mv 0xC9 w fr) :=
  congrArg Host.Outcome.next (State.runInstr_inFlight_at hok h rfl htests rfl hfault hlate rfl rfl)

theorem exec_mvPst_passes (hok : mvPstOk w = true) (hfault : (s.ctxAt t .mv 0xCA w fr).unitFault w = none)
    (hlate : (planPst w (s.ctxAt t .mv 0xCA w fr)).late = none) (h : s.passes t .mv 0xCA w fr tests)
    (htests : (s.ctxAt t .mv 0xCA w fr).srcTests w = tests) :
    exec (.mvPst t w) s = .next (s.inFlight t .mv 0xCA w fr) :=
  congrArg Host.Outcome.next (State.runInstr_inFlight_at hok h rfl htests rfl hfault hlate rfl rfl)

/-- MV.STRF reads its list word at its check point, and passes it with its place, its set and its region as they must be
(R147). -/
theorem exec_mvStrf_passes {k : Nat} {c : Ctx} (hok : mvStrfOk w = true) (hk : (s.ctxAt t .mv 0xCB w fr).first w.s1 = k)
    (hc : c = { s := s, t := t, e := .mv, f := s.preRead t (s.flightAt t .mv 0xCB w fr) k })
    (hread : (s.tile t).unreadable [k] = []) (hfault : (planStrf w c).fault = none) (hlate : (planStrf w c).late = none)
    (h : s.passes t .mv 0xCB w fr tests) (htests : (planStrf w c).tests = tests) :
    exec (.mvStrf t w) s = .next (s.takes t .mv fr (s.preRead t (s.flightAt t .mv 0xCB w fr) k) 0 .seq) := by
  subst hc hk htests
  obtain ⟨-, hpre, -, -⟩ := planStrf_check (w := w) (c := s.ctxAt t .mv 0xCB w fr)
  obtain ⟨-, -, hlw, hflow⟩ := planStrf_check (w := w)
    (c := { s := s, t := t, e := .mv, f := s.preRead t (s.flightAt t .mv 0xCB w fr) ((s.ctxAt t .mv 0xCB w fr).first w.s1) })
  have := State.runInstr_takes_pre rfl hok h hpre hread hfault hlate
  rw [hlw, hflow] at this
  exact congrArg Host.Outcome.next this

/-- A plan-space word of MV.SLD or MV.SST that lies in no region (R120). -/
theorem exec_mvSld_outside {r : FaultRec × Option FaultRec} (hok : mvSldOk w = true)
    (hfault : (planSld w (s.ctxAt t .mv 0xC3 w fr)).fault = some r) (h : s.atCheck t .mv 0xC3 w fr) :
    exec (.mvSld t w) s = .next (s.faultHold r.1 r.2) :=
  congrArg Host.Outcome.next (State.runInstr_faults hok h rfl hfault)

theorem exec_mvSst_outside {r : FaultRec × Option FaultRec} (hok : mvSstOk w = true)
    (hfault : (planSst w (s.ctxAt t .mv 0xC4 w fr)).fault = some r) (h : s.atCheck t .mv 0xC4 w fr) :
    exec (.mvSst t w) s = .next (s.faultHold r.1 r.2) :=
  congrArg Host.Outcome.next (State.runInstr_faults hok h rfl hfault)

end

end Sys2Proof.Machine
end

section
/-! The moves through the mesh, the fabric and the stacks: the statement. -/

namespace Sys2Proof.Machine
open Sys2Proof

theorem planSst_eq (w : IWord) (c : Ctx) : planSst w c = { movePlan c.p w.nWord 252 with
    fault := (planSst w c).fault
    late := (planSst w c).late
    tests := c.srcTests w
    reads := srcReads (spFe w.s1) (beatReads (c.first w.s1) w.nWord c.p)
    stack := (List.range w.nWord).map fun i => {
      pc := c.p + 102 + i / 4
      chan := (c.s.planLoc c.part c.img (c.remote w + i)).1
      word := (c.s.planLoc c.part c.img (c.remote w + i)).2
      ix := i
      data := some fun _ => c.s.atRest c.part ((c.img.regionOf false (c.remote w + i)).bind Region.slot)
        (planTweak (c.remote w + i)) (c.src (c.first w.s1) i)
      needs := [c.srcKey (c.first w.s1) i] } } := by
  rw [← planSst_stack w c]
  rfl

/-- Settles O13: the check points of each move, and the plans of R117 and R188 with the modes of their operands spelled
out. -/
theorem remoteMovesIssue : Obligations.RemoteMovesIssue := by
  intro t w fr s n part img lt tag word src dst read four outs move landIn srcWord srcTests dstTests rem slot at_ calm words
    inside flies chunks chunkAcc chunkKeys chunkRes unit per entry serving params strD strP strA strTests strC
  have hsrc : ∀ c : Ctx, c.srcTests w = srcTests c := fun c => testsOf_srcTest ..
  have hdst : ∀ c : Ctx, c.dstTests w = dstTests c := fun c => testsOf_dstTest ..
  have houts : ∀ p lat k data needs, outs p lat k data needs =
      beatOuts (spFe w.d) p lat k w.nWord (fun i _ => data i) needs := fun _ _ _ _ _ => (beatOuts_eq ..).symm
  have hland : ∀ pl d p lat k data needs, landIn pl d p lat k data needs =
      pl.landIn d (spFe w.d) p lat k w.nWord (fun i _ => data i) needs := by
    intro pl d p lat k data needs
    rw [Plan.landIn, ← houts]
    rfl
  have hstr : ∀ c, (planStrf w c).tests = strTests c := by
    intro c
    rw [planStrf_check.1, testsOf_srcTest, testsOf_dstTest]
    rfl
  refine ⟨fun d hok hl hd h => ?send, fun port k hok hfree hk hn h => ?frecv, fun hok hin hcalm h => ?sld,
    fun hok hin hcalm h => ?sst, fun hok ha hn hin hcalm h => ?eld, fun hok hn hcalm h => ?pgath, fun hok hn hcalm h => ?pst,
    fun hok hread hc hset hcalm h => ?strf, fun x => ⟨fun hok hx h => ?sldFault, fun hok hx h => ?sstFault⟩,
    fun c => ⟨fun d h hl hd => ?pSend, fun port k h hk hn => ?pFrecv, fun h => ?pSld, fun h => ?pSst, fun h => ?pEld,
      fun h => ?pPgath, fun h => ?pPst, fun h => ?pStrf⟩⟩
  case send => exact exec_mvSend_passes hok hl hd h (hsrc _)
  case frecv =>
    exact exec_mvFrecv_passes hok ((Ctx.recvPkt_of_unclaimed (c := at_ 0xC6) (tag := tag) rfl hfree).trans hk) hn h (hdst _)
  case sld => exact exec_mvSld_passes hok (Ctx.outside_range hin) (State.stackLate_none hcalm) h (hdst _)
  case sst => exact exec_mvSst_passes hok (Ctx.outside_range hin) (State.stackLate_none hcalm) h (hsrc _)
  case eld => exact exec_mvEld_passes hok (planEld_fault_none ha hn hin) (State.stackLate_none hcalm) h (hdst _)
  case pgath => exact exec_mvPgath_passes hok (Ctx.unitFault_none hn) (State.stackLate_none hcalm) h (hdst _)
  case pst => exact exec_mvPst_passes hok (Ctx.unitFault_none hn) (State.stackLate_none hcalm) h (hsrc _)
  case strf =>
    have hfault : (planStrf w strC).fault = none := planStrf_fault_none hc hset
    have hlate : (planStrf w strC).late = none := planStrf_late.trans (State.stackLate_none hcalm)
    exact exec_mvStrf_passes hok rfl rfl hread hfault hlate h (hstr strC)
  case sldFault => exact exec_mvSld_outside (r := ((s.fault 0x30A 4 x (some part)).waits t 2 (BitVec.ofNat 32 fr.pc), none)) hok (Ctx.outside_some hx) h
  case sstFault => exact exec_mvSst_outside (r := ((s.fault 0x30A 4 x (some part)).waits t 2 (BitVec.ofNat 32 fr.pc), none)) hok (Ctx.outside_some hx) h
  case pSend =>
    rw [Ctx.plan_of_runs h]
    rw [hland, ← hsrc]
    exact planSend_of_tile hl hd
  case pFrecv =>
    rw [Ctx.plan_of_runs h]
    refine ⟨fun hm => ?_, fun hm => ?_⟩
    · rw [hland, ← hdst]
      exact (planFrecv_of_packet hk hn).trans (if_pos hm)
    · rw [houts, ← hdst]
      exact (planFrecv_of_packet hk hn).trans (if_neg hm)
  case pSld =>
    rw [Ctx.plan_of_runs h]
    rw [hland, ← hdst]
    exact (planSld_eq w c).trans (Ctx.loadPlan_range ..)
  case pSst =>
    rw [Ctx.plan_of_runs h, ← hsrc]
    exact planSst_eq w c
  case pEld =>
    rw [Ctx.plan_of_runs h, hland, houts, ← hdst]
    rfl
  case pPgath =>
    intro lat kv
    rw [Ctx.plan_of_runs h, hland, houts, ← hdst]
    rfl
  case pPst =>
    intro kv
    rw [Ctx.plan_of_runs h, ← hsrc]
    rfl
  case pStrf =>
    rw [Ctx.plan_of_runs h]
    refine ⟨fun hv => ?_, fun hv => ?_⟩
    · rw [hland]
      exact ((planStrf_of_set hv).trans (Ctx.loadPlan_range ..)).trans (by rw [strfBase, ← planStrf_check.1, hstr]; rfl)
    · exact (planStrf_of_no_set hv).trans (by rw [strfBase, ← planStrf_check.1, hstr]; rfl)

end Sys2Proof.Machine
end

section
/-! Fetch slots, parity checks and their replays (R65, R68, R71 to R74). -/

namespace Sys2Proof.Machine
open Sys2Proof

/-! ### Changes of one tile, one after the other -/

theorem vset_vset {α : Type} {n : Nat} (v : Vector α n) (i : Nat) (x y : α) : vset (vset v i x) i y = vset v i y := by
  simp [vset, Vector.setIfInBounds_setIfInBounds]

/-- Two changes of a tile are one. -/
theorem State.modTile_modTile (s : State) (t : Nat) (f g : Tile → Tile) :
    (s.modTile t f).modTile t g = s.modTile t fun x => g (f x) := by
  by_cases h : t < 160
  · simp only [State.modTile, vset_vset]
    exact congrArg (fun x => { s with tiles := vset s.tiles t (g x) }) (State.tile_modTile_same s t f h)
  · simp only [State.modTile, vset_of_ge _ _ _ (Nat.le_of_not_lt h)]

theorem Tile.setStream_setStream (x : Tile) (e : Eng) (a b : Stream) : (x.setStream e a).setStream e b = x.setStream e b := by
  cases e <;> rfl

/-! ### Fetch (R65, R68) -/

section
variable {s : State} {t : Nat} {e : Eng}

theorem State.isFetchSlot_of_slot {i : Image} {c : StreamCode} (hi : s.img (s.tile t).part.toNat = some i)
    (hc : i.streams.find? (fun c => c.ltile = (s.tile t).logical.toNat && c.engine = e.num) = some c)
    (h : (s.plan.geyser + max 1 (s.frameLen (s.tile t).part.toNat)
      - s.frameZero (s.tile t).part.toNat % max 1 (s.frameLen (s.tile t).part.toNat))
        % max 1 (s.frameLen (s.tile t).part.toNat) ∈ c.slots) : s.isFetchSlot t e = true := by
  simp only [State.isFetchSlot, hi, Option.bind_some, hc]
  simpa using h

/-- The bank read of a fetch slot that may be used (R65). -/
theorem State.fetchUse_of_room (hslots : 0 < ((s.tile t).stream e).fetchSlots) (hstop : ((s.tile t).stream e).fetchStop = false)
    (hhalt : ((s.tile t).stream e).halted = false) (hroom : ((s.tile t).stream e).queue.length ≤ 508) :
    s.fetchUse t e = [{ d := t, word := ((s.tile t).stream e).codeWord, kind := .fetch, q := s.plan.geyser,
                        c := { s := s, t := t, e := e,
                               f := { Flight.reset with pc := ((s.tile t).stream e).fetchPc } } }] := by
  have h1 : ¬ ((s.tile t).stream e).fetchSlots = 0 := by omega
  have h2 : ¬ 512 < ((s.tile t).stream e).queue.length + 4 := by omega
  simp [State.fetchUse, h1, h2, hstop, hhalt]

/-- A word without an error reads as it stands, and nothing is counted (R61, R63). -/
theorem State.readWord_clean {w unit : Nat} {pc : BitVec 32} (hbad : nsHas w (s.tile t).bad = false)
    (hpoison : nsHas w (s.tile t).poison = false) (hce : nsHas w (s.tile t).correctable = false) :
    s.readWord t w unit pc = (some (Memory.readLine (s.tile t).mem w), s) := by
  simp [State.readWord, hbad, hpoison, hce]

/-- A code word read without an error enters the queue (R65, R69). -/
theorem State.makeRead_fetch {u : Use} (hk : u.kind = .fetch) (hd : u.d = t) (he : u.c.e = e)
    (hbad : nsHas u.word (s.tile t).bad = false)
    (hpoison : nsHas u.word (s.tile t).poison = false) (hce : nsHas u.word (s.tile t).correctable = false) :
    s.makeRead u = s.modTile t fun z =>
      z.setStream e ((z.stream e).takeCode (Memory.readLine (s.tile t).mem u.word) (s.plan.geyser + 6)) := by
  subst hd he
  simp only [State.makeRead, hk, State.readWord_clean hbad hpoison hce]
  rfl

end

/-! ### Parity (R71 to R74) -/

section
variable {s : State} {t : Nat}

/-- The puts of a list of writes leave the tile's parity failures and its waiting folds as they are. -/
theorem Tile.put_kept (y : Tile) (x : PendWrite) :
    (y.put x).parityFails = y.parityFails ∧ (y.put x).foldWait = y.foldWait ∧ (y.put x).digest = y.digest := by
  unfold Tile.put
  cases x.data <;> cases x.full <;> simp

theorem Tile.foldl_put_kept (ws : List PendWrite) (y : Tile) :
    (ws.foldl (fun y w => y.put w) y).parityFails = y.parityFails ∧
      (ws.foldl (fun y w => y.put w) y).foldWait = y.foldWait ∧ (ws.foldl (fun y w => y.put w) y).digest = y.digest := by
  induction ws generalizing y with
  | nil => exact ⟨rfl, rfl, rfl⟩
  | cons w ws ih =>
    obtain ⟨h1, h2, h3⟩ := ih (y.put w)
    obtain ⟨k1, k2, k3⟩ := y.put_kept w
    exact ⟨h1.trans k1, h2.trans k2, h3.trans k3⟩

theorem State.parityDetect_of_found {source : BitVec 2} {queue : Bool} {pc : BitVec 32} (hrun : s.running = true)
    (hfound : if queue then source ≠ 3#2 ∧ s.decoding t (engOf source) pc.toNat = true else s.failing t source pc ≠ []) :
    (!s.running || !(if queue then source ≠ 3#2 && s.decoding t (engOf source) pc.toNat
      else !(if queue then [] else s.failing t source pc).isEmpty)) = false := by
  cases queue
  · simpa [hrun] using hfound
  · simpa [hrun] using hfound

/-- Words that waited are folded in order; no log entry waits among them (R142). -/
theorem foldl_foldStep_words (fs : List (Nat × Line)) (a : BitVec 64 × List (Nat × DigEntry)) :
    (fs.map fun x => FoldItem.word x.1 x.2).foldl foldStep a = (fs.foldl (fun h x => digestFold h x.1 x.2) a.1, a.2) := by
  induction fs generalizing a with
  | nil => rfl
  | cons x fs ih => exact ih (digestFold a.1 x.1 x.2, a.2)

/-- The folds that waited are made, once no failed fold is left (R142). -/
theorem State.releaseFolds_words {fs : List (Nat × Line)} (hp : (s.tile t).parityFails = [])
    (hw : (s.tile t).foldWait = fs.map fun x => .word x.1 x.2) :
    s.releaseFolds t = s.modTile t fun y => { y with
      digest := fs.foldl (fun h x => digestFold h x.1 x.2) y.digest
      foldWait := [] } := by
  by_cases hnil : (s.tile t).foldWait = []
  · obtain rfl : fs = [] := List.map_eq_nil_iff.mp (hw.symm.trans hnil)
    simp only [State.releaseFolds, hnil, List.isEmpty_nil, Bool.true_or, if_true]
    refine (State.modTile_id _ _ _ ?_).symm
    simp only [List.foldl_nil, ← hnil]
  · have hwait : (s.tile t).foldWait.isEmpty = false := by simpa using hnil
    simp only [State.releaseFolds, hwait, hp, List.any_nil, Bool.or_false, Bool.false_eq_true, if_false]
    simp only [hw, foldl_foldStep_words]
    exact State.modTile_congr _ _ _ _ rfl

/-- The one failure of a tile whose replay has ended. -/
theorem State.parityFinish_find {f : ParityFail} {source : BitVec 2} (hf : (s.tile t).parityFails = [f])
    (hs : f.source = source) (he : f.endAt ≤ s.wall) :
    ((s.tile t).parityFails.find? fun f => f.source = source && f.endAt ≤ s.wall) = some f := by
  simp [hf, hs, he]

/-- A replay whose suppressed writes carry no ER setting event, as it ends well (R73). -/
theorem State.parityFinish_ok_eq {f : ParityFail} {source : BitVec 2}
    (hfind : ((s.tile t).parityFails.find? fun f => f.source = source && f.endAt ≤ s.wall) = some f) (her : f.er = false) :
    s.parityFinish t source true =
      let s1 := (s.modTile t fun y => { f.writes.foldl (fun y w => y.put w) y with
        parityFails := y.parityFails.erase f }).releaseFolds t
      if (s1.tile t).parityFails.isEmpty then s1.clearCause (.parity t) else s1 := by
  simp only [State.parityFinish, hfind, her]
  rfl

/-- A replay that succeeds makes the writes that were held back and the folds that waited, and clears the cause (R73). -/
theorem State.parityFinish_ok {f : ParityFail} {source : BitVec 2} {fs : List (Nat × Line)} (ht : t < 160)
    (hf : (s.tile t).parityFails = [f]) (hs : f.source = source) (he : f.endAt ≤ s.wall) (her : f.er = false)
    (hw : (s.tile t).foldWait = fs.map fun x => .word x.1 x.2) :
    s.parityFinish t source true = (s.modTile t fun y => { f.writes.foldl (fun y w => y.put w) y with
      parityFails := []
      digest := fs.foldl (fun h x => digestFold h x.1 x.2) y.digest
      foldWait := [] }).clearCause (.parity t) := by
  obtain ⟨-, hkw, hkd⟩ := Tile.foldl_put_kept f.writes (s.tile t)
  obtain ⟨s1, hs1⟩ : ∃ s1, s1 = s.modTile t fun y =>
    { f.writes.foldl (fun y w => y.put w) y with parityFails := y.parityFails.erase f } := ⟨_, rfl⟩
  have htile : s1.tile t = { f.writes.foldl (fun y w => y.put w) (s.tile t) with
      parityFails := (s.tile t).parityFails.erase f } := by
    rw [hs1, State.tile_modTile_same _ _ _ ht]
  have hp1 : (s1.tile t).parityFails = [] := by rw [htile, hf]; simp
  have hfold := State.releaseFolds_words hp1 ((by rw [htile]; exact hkw.trans hw) :
    (s1.tile t).foldWait = fs.map fun x => .word x.1 x.2)
  have hp2 : ((s1.releaseFolds t).tile t).parityFails.isEmpty = true := by
    rw [hfold, State.tile_modTile_same _ _ _ ht]
    simp [hp1]
  rw [State.parityFinish_ok_eq (State.parityFinish_find hf hs he) her, ← hs1]
  refine (if_pos hp2).trans ?_
  rw [hfold, hs1, State.modTile_modTile]
  refine congrArg (State.clearCause · _) (State.modTile_congr _ _ _ _ ?_)
  rw [hf, hkd]
  simp

/-- A replay that fails starts again, and the third time its tile has failed (R74). -/
theorem State.parityFinish_failed {f : ParityFail} {source : BitVec 2}
    (hf : (s.tile t).parityFails = [f]) (hs : f.source = source) (he : f.endAt ≤ s.wall) :
    s.parityFinish t source false =
      let n := f.attempt + 1
      let s1 := s.modTile t fun y => { y.countParity source f.queue n f.pc with
        parityFails := if n ≥ 3 then [] else [{ f with
          attempt := n
          endAt := s.wall + replayClk f.queue f.latency * s.clkTu }] }
      if n ≥ 3 then
        let s2 : State := { s1 with map := { s1.map with tileFailed := s1.map.tileFailed ||| BitVec.ofNat 160 (2 ^ t) } }
        s2.faultHold ((s2.fault 0x202 1 f.pc.toNat (some (s.tile t).part.toNat)).waits t (min source.toNat 3) f.pc)
      else s1 := by
  have h1 : (s.modTile t fun y => { y.countParity source f.queue (f.attempt + 1) f.pc with
        parityFails := if f.attempt + 1 ≥ 3 then y.parityFails.erase f
          else y.parityFails.map fun g => if g = f then { f with
            attempt := f.attempt + 1
            endAt := s.wall + replayClk f.queue f.latency * s.clkTu } else g }) =
      s.modTile t fun y => { y.countParity source f.queue (f.attempt + 1) f.pc with
        parityFails := if f.attempt + 1 ≥ 3 then [] else [{ f with
          attempt := f.attempt + 1
          endAt := s.wall + replayClk f.queue f.latency * s.clkTu }] } :=
    State.modTile_congr _ _ _ _ (by rw [hf]; simp)
  simp only [State.parityFinish, State.parityFinish_find hf hs he, h1]
  rfl

end

/-- Settles O15: each clause is the operation's case with the conditions of the clause put in; a replay's success is
`State.parityFinish_ok`. -/
theorem fetchAndParityComplete : Obligations.FetchAndParityComplete := by
  refine ⟨?slot, ?read, ?detect, ?finish⟩
  case slot =>
    intro t e i c s y p l hrun hb hi hc hslot
    have := State.isFetchSlot_of_slot hi hc hslot
    show execInstructionFetch t e s = _
    simp only [execInstructionFetch, hrun, show (s.tile t).bound = true from hb, this]
    rfl
  case read =>
    intro t e s x w d r u hslots hstop hhalt hroom
    refine ⟨State.fetchUse_of_room hslots hstop hhalt hroom, fun hbad hpoison hce => ?_⟩
    refine (State.makeRead_fetch (u := u) rfl rfl rfl hbad hpoison hce).trans ?_
    exact State.modTile_congr _ _ _ _ rfl
  case detect =>
    intro t source queue pc s ws l hrun hfound
    have hfound' : if queue then source ≠ 3#2 ∧ s.decoding t (engOf source) pc.toNat = true
        else s.failing t source pc ≠ [] := by
      cases queue <;> exact hfound
    have := State.parityDetect_of_found hrun hfound'
    refine congrArg Host.Outcome.next ?_
    simp only [State.parityDetect, this]
    rfl
  case finish =>
    intro t source f fs s hf hs he n count
    refine ⟨fun her hw => congrArg Host.Outcome.next (State.parityFinish_ok t.isLt hf hs he her hw), fun hn => ?_,
      fun hn => ?_⟩
    · refine congrArg Host.Outcome.next ((State.parityFinish_failed hf hs he).trans ?_)
      simp only [if_neg (show ¬ f.attempt + 1 ≥ 3 from Nat.not_le.mpr hn)]
      rfl
    · refine congrArg Host.Outcome.next ((State.parityFinish_failed hf hs he).trans ?_)
      simp only [if_pos (show f.attempt + 1 ≥ 3 from hn)]
      rfl

end Sys2Proof.Machine
end

section
/-! A tile's open windows, scrubber and host window (R56, R57, R61, R62, R82 to R84). -/

namespace Sys2Proof.Machine
open Sys2Proof

/-! ### Open windows (R56, R57) -/

section
variable {s : State} {t b : Nat}

theorem State.bankTaken_eq_false_iff : s.bankTaken t b = false ↔
    ∀ w ∈ (s.tile t).windows, w.bank = b → w.start ≤ s.plan.geyser → w.start + 4 ≤ s.plan.geyser := by
  simp [State.bankTaken]

theorem State.bankPlanned_eq_false_iff {lo hi : Nat} : s.bankPlanned t b lo hi = false ↔
    ∀ j ∈ s.jobs s.busyTiles, ∀ u ∈ j.bankUses, u.2.1 = t → u.2.2 % 64 = b → lo ≤ u.1 → hi < u.1 := by
  simp only [State.bankPlanned, List.any_eq_false, Bool.and_eq_true, decide_eq_true_eq, not_and, not_le, Bool.not_eq_true,
    and_imp]

/-- A bank's window is free for an unplanned user in the first of its pcs (R56, R57). -/
theorem State.windowFree_iff : s.windowFree t b = true ↔ s.running = true ∧
    (s.plan.geyser + 256 - s.frameZero (s.tile t).part.toNat % 256) % 256 / 4 = b ∧
    (s.plan.geyser + 256 - s.frameZero (s.tile t).part.toNat % 256) % 4 = 0 ∧
    (∀ w ∈ (s.tile t).windows, w.bank = b → w.start ≤ s.plan.geyser → w.start + 4 ≤ s.plan.geyser) ∧
    ∀ j ∈ s.jobs s.busyTiles, ∀ u ∈ j.bankUses, u.2.1 = t → u.2.2 % 64 = b → s.plan.geyser ≤ u.1 → s.plan.geyser + 3 < u.1 := by
  rw [← State.bankTaken_eq_false_iff, ← State.bankPlanned_eq_false_iff]
  simp [State.windowFree, State.inWindow, and_assoc]

/-! ### Corrected words (R61) -/

theorem Tile.corrected_eq (y : Tile) (w : Nat) : y.corrected w = { y with
    eccCe := if nsHas w y.correctable then satInc y.eccCe else y.eccCe
    writeBacks := if nsHas w y.correctable then nsIns w y.writeBacks else y.writeBacks } := by
  unfold Tile.corrected
  split <;> rfl

theorem Tile.corrected_clean {y : Tile} {w : Nat} (h : nsHas w y.correctable = false) : y.corrected w = y := by
  rw [Tile.corrected, h]
  rfl

/-! ### The host window (R81 to R85) -/

/-- A tile that is neither disabled nor being scrubbed takes window accesses (R81, R412). -/
theorem State.queueWindow_ready {rs : List WinReq} (h0 : (s.tile t).state ≠ 0#3) (h5 : (s.tile t).state ≠ 5#3) :
    s.queueWindow t rs = s.modTile t fun y => { y with
      winQueue := y.winQueue ++ rs.map fun r => { r with openOnly := y.openOnly, arrived := s.plan.geyser } } :=
  State.modTile_congr _ _ _ _ (by simp [h0, h5])

section
variable {off : Nat} (hready : s.ready = true) (h0 : (s.tile t).state ≠ 0#3) (h5 : (s.tile t).state ≠ 5#3)
include hready

theorem State.winWrite_ready {val : Nat} {dbl : Bool} (hoff : 0x800 ≤ off) :
    s.winWrite t off val dbl = s.queueWindow t
      ({ WinReq.reset with word := ((s.tile t).winBase.toNat + (off - 0x800) / 64) % 65536, kind := .write,
                           byteOff := off % 64, bytes := bytesOf 4 val } ::
        (if dbl then [{ WinReq.reset with word := ((s.tile t).winBase.toNat + (off - 0x800) / 64) % 65536, kind := .write,
                                          byteOff := off % 64 + 4, bytes := bytesOf 4 (val / 2 ^ 32) }] else [])) := by
  simp only [State.winWrite, hready, Tile.windowAt]
  rw [if_neg (by simpa using hoff)]

theorem State.queueFe_ready {kind : WinKind} {mask : BitVec 32} : s.queueFe t kind mask =
    s.queueWindow t ((bitsOf mask).map fun i =>
      { WinReq.reset with word := ((s.tile t).winBase.toNat + i) % 65536, kind := kind }) := by
  simp only [State.queueFe, hready]
  rfl

include h0 h5

/-- The word that the last read kept serves a read that no access waits before (R82). -/
theorem State.winRead_buffered {d : Line} {dbl : Bool} (hoff : 0x800 ≤ off)
    (hb : (s.tile t).winBuf = some (((s.tile t).winBase.toNat + (off - 0x800) / 64) % 65536, d))
    (hq : (s.tile t).winQueue = []) :
    s.winRead t off dbl = s.modTile t fun y => { y with
      winData := BitVec.ofNat 64 (bytesAt d (off % 64) (if dbl then 8 else 4))
      winPoison := false } := by
  simp [State.winRead, Nat.not_lt.mpr hoff, h0, h5, hready, Tile.windowAt, hb, hq]

/-- Any other read waits for its bank (R82). -/
theorem State.winRead_waits {dbl : Bool} (hoff : 0x800 ≤ off)
    (h : (s.tile t).winQueue ≠ [] ∨ (s.tile t).winBuf = none ∨ ∃ v d, (s.tile t).winBuf = some (v, d) ∧
      v ≠ ((s.tile t).winBase.toNat + (off - 0x800) / 64) % 65536) :
    s.winRead t off dbl = s.queueWindow t [{ WinReq.reset with
      word := ((s.tile t).winBase.toNat + (off - 0x800) / 64) % 65536
      kind := .read
      byteOff := off % 64
      bytes := List.replicate (if dbl then 8 else 4) 0 }] := by
  simp only [State.winRead, if_neg (Nat.not_lt.mpr hoff), h0, h5, hready, Tile.windowAt]
  cases hq : (s.tile t).winQueue with
  | cons r rest => cases hb : (s.tile t).winBuf <;> simp
  | nil =>
    cases hb : (s.tile t).winBuf with
    | none => simp
    | some x =>
      obtain ⟨v, d⟩ := x
      have hv : v ≠ ((s.tile t).winBase.toNat + (off - 0x800) / 64) % 65536 := by
        simpa [hq, hb] using h
      simp [hv]

end

/-! ### A window access in its bank's pc (R63, R82, R83) -/

/-- What a host access writes leaves poison (R63). -/
theorem Tile.put_hostData (y : Tile) (w : Nat) (d : Line) : y.put (hostPut w (some d) none) = { y with
    mem := Memory.writeLine y.mem w d
    bad := nsDel w y.bad
    correctable := nsDel w y.correctable
    writeBacks := nsDel w y.writeBacks } := by
  simp only [Tile.put, hostPut, PendWrite.reset, Bool.false_eq_true, if_false]

theorem Tile.put_hostFull (y : Tile) (w : Nat) (b : Bool) :
    y.put (hostPut w none (some b)) = { y with full := nsSet w b y.full } := rfl

section
variable {r : WinReq} (hbad : nsHas r.word (s.tile t).bad = false) (hpoison : nsHas r.word (s.tile t).poison = false)
  (hce : nsHas r.word (s.tile t).correctable = false)
include hbad hpoison hce

/-- An access to a word without an error is served (R63, R82). -/
theorem State.serveWindow_clean : s.serveWindow t r = s.modTile t fun y =>
    let y := { y with winQueue := y.winQueue.drop 1, winAt := none, winPoison := false }
    match r.kind with
    | .read => { y with
        winBuf := some (r.word, Memory.readLine (s.tile t).mem r.word)
        winData := BitVec.ofNat 64 (bytesAt (Memory.readLine (s.tile t).mem r.word) r.byteOff r.bytes.length) }
    | .write =>
      let d' := setBytes (Memory.readLine (s.tile t).mem r.word) r.byteOff r.bytes
      { y.put (hostPut r.word (some d') none) with winBuf := some (r.word, d') }
    | k => y.put (hostPut r.word none (some (decide (k = .setFull)))) := by
  have hread : (s.tile t).unreadable [r.word] = [] := by simp [Tile.unreadable, hbad, hpoison]
  simp only [State.serveWindow, hread, State.modTile_modTile, List.isEmpty_nil, Bool.not_true, Bool.false_eq_true, if_false]
  refine State.modTile_congr _ _ _ _ ?_
  simp only [Tile.corrected_clean hce] <;> cases r.kind <;> rfl

end

end

section
variable {t : TileId} {s : State}

/-- The scrubber reads in a free window of a bank that nothing else waits for (R57, R61, R62). -/
theorem execTileScrubRead_free {b : BankIx} (hstate : (s.tile t).state ≠ 0#3) (hwb : ∀ v ∈ (s.tile t).writeBacks, v % 64 ≠ b.val)
    (hq : ∀ r ∈ (s.tile t).winQueue, r.openOnly = false) (hdone : nsHas b.val (s.tile t).scrubDone = false)
    (hfree : s.windowFree t b = true) :
    execTileScrubRead t b s =
      let w := (s.tile t).scrubRow.toNat * 64 + b.val
      let d := nsIns b.val (s.tile t).scrubDone
      let s1 := s.modTile t fun y => { y with
        windows := y.windows ++ [{ bank := b.val, start := s.plan.geyser }]
        eccCe := if nsHas w y.correctable then satInc y.eccCe else y.eccCe
        writeBacks := if nsHas w y.correctable then nsIns w y.writeBacks else y.writeBacks
        scrubDone := if d.length = 64 then [] else d
        scrubRow := if d.length = 64 then y.scrubRow + 1 else y.scrubRow }
      if nsHas w (s.tile t).bad then .next (s1.tileUE t w 3 0xFFFFFFFF) else .next s1 := by
  have hwait : (s.tile t).writeBackWaits b = false := by simpa [Tile.writeBackWaits] using hwb
  have hopen : ((s.tile t).winQueue.head?.any fun r => r.openOnly && r.word % 64 = b.val) = false := by
    cases hl : (s.tile t).winQueue with
    | nil => rfl
    | cons r rest => simp [hq r (by simp [hl])]
  simp only [execTileScrubRead, hwait, hopen, hdone, hfree, State.takeWindow, State.modTile_modTile, Tile.corrected_eq,
    hstate]
  rfl

/-- TILE_WIN_ACCESS where the plan of the tile's partition does not run (R57). -/
theorem execTileWinAccess_idle {r : WinReq} {rest : List WinReq} (hq : (s.tile t).winQueue = r :: rest)
    (hactive : (s.tile t).winActive = none) (hat : (s.tile t).winAt = none)
    (hidle : (s.tile t).bound = false ∨ (s.pt (s.tile t).part.toNat).launched = none) :
    execTileWinAccess t s = .next ((s.serveWindow t r).beginWindow t 4 false) := by
  have hruns : ((s.tile t).bound && (s.pt (s.tile t).part.toNat).launched.isSome) = false := by
    rcases hidle with h | h <;> simp [h]
  simp only [execTileWinAccess, hq, hactive, hat, hruns]
  rfl

/-- TILE_WIN_ACCESS while the plan runs: an access that may wait for no window is committed 24 pc ahead (R83). -/
theorem execTileWinAccess_commits {r : WinReq} {rest : List WinReq} (hq : (s.tile t).winQueue = r :: rest)
    (hactive : (s.tile t).winActive = none) (hat : (s.tile t).winAt = none) (hb : (s.tile t).bound = true)
    (hl : (s.pt (s.tile t).part.toNat).launched.isSome = true) (hrun : s.running = true) (ho : r.openOnly = false)
    (hfree : s.bankPlanned t (r.word % 64) (s.plan.geyser + 24) (s.plan.geyser + 24) = false) :
    execTileWinAccess t s = .next (s.modTile t fun y => { y with winAt := some (s.plan.geyser + 24) }) := by
  simp only [execTileWinAccess, hq, hactive, hat, hb, hl, hrun, ho, hfree]
  rfl

end

/-- Settles O16: each clause is the operation's case with the conditions of the clause put in; a window access that is served
is `State.serveWindow_clean`. -/
theorem tileScrubAndWindowComplete : Obligations.TileScrubAndWindowComplete := by
  refine ⟨fun t b s => State.windowFree_iff, ?writeBack, ?scrub, ?window, ?access⟩
  case writeBack =>
    intro t w s hw hfree
    show execTileEccWriteback t w s = _
    simp only [execTileEccWriteback, hw, hfree, State.takeWindow, State.modTile_modTile]
    rfl
  case scrub =>
    intro t b s x w d scrubbed hstate hwb hq hdone hfree
    show execTileScrubRead t b s = _
    exact (execTileScrubRead_free hstate hwb hq hdone hfree).trans (apply_ite Host.Outcome.next _ _ _).symm
  case window =>
    intro t off dbl val mask s x n w o queue write hready h0 h5
    refine ⟨fun hoff d hb hq => ?_, fun hoff h => ?_, fun hoff => ?_, ?_, ?_⟩
    · exact congrArg Host.Outcome.next (State.winRead_buffered hready h0 h5 hoff hb hq)
    · exact congrArg Host.Outcome.next ((State.winRead_waits hready h0 h5 hoff h).trans (State.queueWindow_ready h0 h5))
    · exact congrArg Host.Outcome.next ((State.winWrite_ready hready hoff).trans (State.queueWindow_ready h0 h5))
    · exact congrArg Host.Outcome.next ((State.queueFe_ready hready).trans (State.queueWindow_ready h0 h5))
    · exact congrArg Host.Outcome.next ((State.queueFe_ready hready).trans (State.queueWindow_ready h0 h5))
  case access =>
    intro t r rest s x d d' served hq hactive hat
    refine ⟨fun hidle hbad hpoison hce => ?_, fun hb hl hrun ho hfree =>
      execTileWinAccess_commits hq hactive hat hb hl hrun ho hfree⟩
    have hexec : exec (.tileWinAccess t) s = .next ((s.serveWindow t r).beginWindow t 4 false) :=
      execTileWinAccess_idle hq hactive hat hidle
    rw [hexec, State.serveWindow_clean hbad hpoison hce, State.beginWindow, State.modTile_modTile]
    refine ⟨fun hk => ?_, fun hk => ?_, fun hk => ?_, fun hk => ?_⟩
    all_goals
      refine congrArg Host.Outcome.next (State.modTile_congr _ _ _ _ ?_)
      simp only [hk, served, show (s.tile t).winQueue = r :: rest from hq, List.drop_succ_cons, List.drop_zero,
        Tile.put_hostData, Tile.put_hostFull]
      rfl

end Sys2Proof.Machine
end

section
/-! Barriers: arrivals up the tree, releases down it, completion and expiry (R298 to R304). -/

namespace Sys2Proof.Machine
open Sys2Proof

section
variable {s : State} {p b past : Nat} {d : BarDecl} (hd : (s.bar p b).delivering = none) (hs : (s.bar p b).sentUp = false)
include hd hs

/-- Arrivals of a TILE barrier that are complete start its 64 delivery steps (R300). -/
theorem State.checkBar_tile (hscope : d.scope = 1) (hall : ∀ l ∈ d.tiles, l ∈ (s.bar p b).arrived) :
    s.checkBar p b past d = s.modBar p b fun y => { y with delivering := some (64 - past) } := by
  have h : (d.tiles.all fun l => (s.bar p b).arrived.contains l) = true := by simpa using hall
  simp only [State.checkBar, h, hd, hs, hscope]
  rfl

/-- Arrivals of a JOB barrier go up the tree, or down from its root, once they are complete on this chip (R301). -/
theorem State.checkBar_job {i : Nat} (hscope : d.scope = 2) (hi : s.treeIndex p d = some i) :
    ((∀ l ∈ d.tiles, l ∈ (s.bar p b).arrived) ∧ (∀ c ∈ treeChildren d i, c ∈ (s.bar p b).children) →
      s.checkBar p b past d = if i = 0 then s.releaseBar p b (40 - past) d 0
        else (s.sendBar 0 p b ((i - 1) / 8) d).modBar p b fun y => { y with sentUp := true }) ∧
    (¬ ((∀ l ∈ d.tiles, l ∈ (s.bar p b).arrived) ∧ ∀ c ∈ treeChildren d i, c ∈ (s.bar p b).children) →
      s.checkBar p b past d = s) := by
  have hne : d.scope ≠ 1 := by omega
  refine ⟨fun ⟨htiles, hchildren⟩ => ?_, fun h => ?_⟩
  · have h1 : (d.tiles.all fun l => (s.bar p b).arrived.contains l) = true := by simpa using htiles
    have h2 : ((treeChildren d i).all fun j => (s.bar p b).children.contains j) = true := by simpa using hchildren
    simp only [State.checkBar, h1, h2, hd, hs, if_neg hne, hi]
    rfl
  · by_cases htiles : ∀ l ∈ d.tiles, l ∈ (s.bar p b).arrived
    · have h1 : (d.tiles.all fun l => (s.bar p b).arrived.contains l) = true := by simpa using htiles
      have h2 : ((treeChildren d i).all fun j => (s.bar p b).children.contains j) = false := by
        rw [Bool.eq_false_iff]
        exact fun hc => h ⟨htiles, by simpa using hc⟩
      simp only [State.checkBar, h1, h2, hd, hs, if_neg hne, hi]
      rfl
    · have h1 : (d.tiles.all fun l => (s.bar p b).arrived.contains l) = false := by
        rw [Bool.eq_false_iff]
        exact fun hc => htiles (by simpa using hc)
      simp only [State.checkBar, h1]
      rfl

end

/-- An ARRIVE of a child, for the round in progress or for the next one (R301, R302). -/
theorem execBarrierArrive_of_child {s : State} {k : Packet} {d : BarDecl} {i : Nat}
    (hk : (s.deliveredOf fun k => k.clsN = 1 && k.type = 0#4) = some k)
    (hd : (s.consume k).barDecl (barFields k).1 (barFields k).2.1 = some d)
    (hi : (s.consume k).treeIndex (barFields k).1 d = some i) (hscope : d.scope = 2)
    (hrank : ((s.consume k).rankOfChip (barFields k).1 k.src).getD 0 ∈ d.ranks)
    (hj : (d.ranks.takeWhile (· < ((s.consume k).rankOfChip (barFields k).1 k.src).getD 0)).length ∈ treeChildren d i) :
    exec .barrierArrive s =
      let s1 := s.consume k
      let p := (barFields k).1
      let b := (barFields k).2.1
      let j := (d.ranks.takeWhile (· < (s1.rankOfChip p k.src).getD 0)).length
      if (barFields k).2.2 = (s1.bar p b).round.toNat then
        .next ((s1.modBar p b fun y => { y with isOpen := true, children := nsIns j y.children }).checkBar p b 0 d)
      else if (barFields k).2.2 = ((s1.bar p b).round.toNat + 1) % 256 then
        .next (s1.modBar p b fun y => { y with nextChildren := nsIns j y.nextChildren })
      else .next (s1.faultHold
        (s1.fault 0x407 10 (b + 256 + ((s1.rankOfChip p k.src).getD 0) * 65536) (some p))) := by
  show execBarrierArrive s = _
  have hne : (decide (d.scope ≠ 2) || !d.ranks.contains (((s.consume k).rankOfChip (barFields k).1 k.src).getD 0) ||
      !(treeChildren d i).contains (d.ranks.takeWhile
        (· < ((s.consume k).rankOfChip (barFields k).1 k.src).getD 0)).length) = false := by
    simp [hscope, hrank, hj]
  simp only [execBarrierArrive, hk, hd, hi, hne]
  rfl

/-- A RELEASE for a round that has sent its arrival up (R301). -/
theorem execBarrierRelease_of_sent {s : State} {k : Packet} {d : BarDecl} {i : Nat}
    (hk : (s.deliveredOf fun k => k.clsN = 1 && k.type = 1#4) = some k)
    (hd : (s.consume k).barDecl (barFields k).1 (barFields k).2.1 = some d)
    (hi : (s.consume k).treeIndex (barFields k).1 d = some i)
    (hsent : ((s.consume k).bar (barFields k).1 (barFields k).2.1).sentUp = true)
    (hround : (barFields k).2.2 = ((s.consume k).bar (barFields k).1 (barFields k).2.1).round.toNat)
    (hnone : ((s.consume k).bar (barFields k).1 (barFields k).2.1).delivering = none) :
    exec .barrierRelease s = .next ((s.consume k).releaseBar (barFields k).1 (barFields k).2.1 40 d i) := by
  show execBarrierRelease s = _
  simp [execBarrierRelease, hk, hd, hi, hsent, hround, hnone]

theorem execBarrierTimeout_expired {p : PartId} {b : BarIx} {d : BarDecl} {m : Nat × Bool × Bool} {s : State}
    (hd : s.barDecl p b = some d) (harr : (s.bar p b).arrived ≠ []) (hnone : (s.bar p b).delivering = none)
    (hexp : (s.bar p b).expireAt ≤ s.plan.geyser) (hm : s.missing p b d = some m) :
    exec (.barrierTimeout p b) s = .next (s.faultHold
      { s.fault 0x402 10 (b.val + bn m.2.1 * 256 + bn m.2.2 * 512 + m.1 * 65536) (some p.val) with
        tile := (s.bar p b).firstTile, engine := (s.bar p b).firstEngine, waiter := (s.bar p b).firstPc }) := by
  have hdue : ((s.bar p b).arrived.isEmpty || (s.bar p b).delivering.isSome ||
      decide (s.plan.geyser < (s.bar p b).expireAt)) = false := by
    simp [harr, hnone, hexp]
  show execBarrierTimeout p b s = _
  simp only [execBarrierTimeout, hd, hdue, hm]
  rfl

/-- Settles O18: an ARRIVE is `execBarrierArrive_of_child` with the cases of `State.checkBar_job`; the other clauses are the
operations with their conditions put in. -/
theorem barriersCompleteAndExpire : Obligations.BarriersCompleteAndExpire := by
  refine ⟨fun p b d s hd h0 => ?completion, fun k d i s hk => ?arrive, fun k d i s hk => ?release,
    fun p b d s hscope hall hd hs => State.checkBar_tile hd hs hscope hall,
    fun p b d m s hd harr hnone hexp hm => execBarrierTimeout_expired hd harr hnone hexp hm⟩
  case completion =>
    show execBarrierCompletionWrite p b s = _
    simp only [execBarrierCompletionWrite, hd, h0]
    rfl
  case arrive =>
    intro s1 p b x rank j counted send complete hd hi hscope hrank hj
    have hexec := execBarrierArrive_of_child hk hd hi hscope hrank hj
    refine ⟨fun hround hnone hsent => ?_, fun hne hround => ?_⟩
    · have hcheck : exec .barrierArrive s = .next (counted.checkBar p b 0 d) := hexec.trans (if_pos hround)
      obtain ⟨hdone, hwait⟩ := State.checkBar_job (past := 0) hnone hsent hscope (show counted.treeIndex p d = some i from hi)
      rw [hcheck]
      refine ⟨fun hc => ?_, fun hc _ h0 => ?_, fun hc _ h0 => ?_⟩
      · rw [hwait hc]
      · subst h0
        rw [hdone hc]
        rfl
      · rw [hdone hc, if_neg h0]
        rfl
    · exact hexec.trans ((if_neg hne).trans (if_pos hround))
  case release =>
    intro s1 p b x hd hi hsent hround hnone
    exact execBarrierRelease_of_sent hk hd hi hsent hround hnone

end Sys2Proof.Machine
end

section
/-! Holds and their symbols, the hold limit and the thermal holds: O19 and O20 (02_plan_time_and_statue_hold.md,
13_link_layer.md). -/

namespace Sys2Proof.Machine
open Sys2Proof

/-- What EPISODE_RELEASE leaves where no local cause stands (R35). -/
theorem State.releaseOwn_some {s : State} {e : Episode} (h : s.ownEpisode = some e) :
    s.releaseOwn = (({ s with plan := { s.plan with
      episodes := s.plan.episodes.map (fun x => if x = e then { x with released := true, releaseAt := s.wall + 24 * s.clkTu } else x)
      holdSeen := seenIns s.plan.holdSeen (e.origin, e.num, true) } } : State)).flood 12 (holdSym s true e.origin e.num s.wall) := by
  simp only [State.releaseOwn, h]
  rfl

/-- HOLD_APPLY's episode is counted, and the counter stands (R40). -/
theorem State.applyHold_some {s : State} {o : BitVec 24} {k : BitVec 8} {e : Episode}
    (h : s.plan.episodes.find? (fun e => e.origin = o && e.num = k && !e.counted) = some e) :
    s.applyHold o k =
      let s1 : State := { s with plan := { s.plan with
        counterWasStopped := true
        wasHeld := true
        episodes := modFirst (fun x => x.origin = o && x.num = k && !x.counted)
          (fun x => { x with counted := true, countedAt := if x.origin = s.selfOrigin then x.countedAt else s.wall }) s.plan.episodes } }
      let s2 := if s.running then s1.logEvent 4 (e.cause.toNat + e.origin.toNat * 256) else s1
      if e.cause = 0xF#4 then s2.enterFaultStop else s2 := by
  simp only [State.applyHold, h]

/-- The counter resumes where nothing of R513 keeps it. -/
theorem State.resume_free {s : State} (h : s.dueToResume = true) (hc : s.plan.localCauses = [])
    (hw : s.windowBusy = none) (hr : s.refreshBusy = none) :
    s.resume =
      let s1 : State := { s with plan := { s.plan with counterWasStopped := false, wasHeld := false } }
      if s.plan.wasHeld then s1.logEvent 5 s.plan.holdEpisodes.toNat else s1 := by
  have hlate : s.lateAtStop = false := by simp [State.lateAtStop, hc]
  simp only [State.resume, h, hlate, hw, hr]
  rfl

/-- With neither episode nor debt nor pause, a counter that stood is due to resume. -/
theorem State.dueToResume_of_free {s : State} (ha : s.alive = true) (hs : s.plan.counterWasStopped = true)
    (h0 : s.depth = 0) (hd : s.plan.debt = 0) (hp : s.paused = false) : s.dueToResume = true := by
  have hheld : s.held = false := by simp [State.held, h0, hd]
  simp [State.dueToResume, ha, hs, hheld, hp]

/-- HOLD_SYMBOL of a symbol taken (R36, R347). -/
theorem execHoldSymbol_taken {n : PortId} {u : BitVec 64} {cause : BitVec 4} {s : State} (hok : unitOk 1 u = true)
    (htake : s.takesSymbol n u = true) (hseen : (unitOrigin u, unitNum u, false) ∉ s.plan.holdSeen) :
    exec (.holdSymbol n u cause) s =
      let o := unitOrigin u
      let k := unitNum u
      let late := (s.symbolDue n u).2
      let e : Episode := { Episode.reset with origin := o, num := k, cause := cause, applyAt := s.wall + (s.symbolDue n u).1 }
      let s0 : State := { s with plan := { s.plan with
        episodes := s.plan.episodes ++ [e]
        holdEpisodes := s.plan.holdEpisodes + 1
        holdSeen := seenIns s.plan.holdSeen (o, k, false) } }
      let s1 := s0.flood n (holdSym s0 false o k (s.wall - s.elapsed n u))
      if late = 0 then .next s1 else .next ((s1.applyHold o k).addDebt (late / max 1 s.clkTu)) := by
  have hc : s.plan.holdSeen.contains (unitOrigin u, unitNum u, false) = false := by simpa using hseen
  show execHoldSymbol n u cause s = _
  simp only [execHoldSymbol, hok, htake, hc, Bool.not_true, Bool.or_self, Bool.false_eq_true, if_false, lateClk]

/-- RELEASE_SYMBOL of a symbol taken (R36, R347). -/
theorem execReleaseSymbol_taken {n : PortId} {u : BitVec 64} {s : State} (hok : unitOk 2 u = true)
    (htake : s.takesSymbol n u = true) (hseen : (unitOrigin u, unitNum u, true) ∉ s.plan.holdSeen) :
    exec (.releaseSymbol n u) s =
      let o := unitOrigin u
      let k := unitNum u
      let late := (s.symbolDue n u).2
      let s0 : State := { s with plan := { s.plan with
        episodes := s.plan.episodes.map fun e =>
          if e.origin = o && e.num = k then { e with released := true, releaseAt := s.wall + (s.symbolDue n u).1 } else e
        holdSeen := seenIns s.plan.holdSeen (o, k, true) } }
      let s1 := s0.flood n (holdSym s0 true o k (s.wall - s.elapsed n u))
      if late = 0 then .next s1 else .next ((s1.applyRelease o k).subDebt (late / max 1 s.clkTu) o) := by
  have hc : s.plan.holdSeen.contains (unitOrigin u, unitNum u, true) = false := by simpa using hseen
  show execReleaseSymbol n u s = _
  simp only [execReleaseSymbol, hok, htake, hc, Bool.not_true, Bool.or_self, Bool.false_eq_true, if_false, lateClk]

/-- A debt that covers what a late RELEASE takes from it (R347). -/
theorem State.subDebt_le {s : State} {d : Nat} {o : BitVec 24} (h : d ≤ s.plan.debt) :
    s.subDebt d o = { s with plan := { s.plan with debt := s.plan.debt - d } } := if_pos h

/-- HOLD_APPLY of an episode that waits, once its wall time has come (R40, R347). -/
theorem execHoldApply_due {o : BitVec 24} {k : BitVec 8} {e : Episode} {s : State}
    (hfind : s.plan.episodes.find? (fun e => e.origin = o && e.num = k && !e.counted) = some e) (hdue : e.applyAt ≤ s.wall) :
    exec (.holdApply o k) s = .next ((s.applyHold o k).addDebt ((s.wall - e.applyAt) / max 1 s.clkTu)) := by
  show execHoldApply o k s = _
  simp only [execHoldApply, hfind, if_neg (Nat.not_lt.mpr hdue), lateClk]

/-- RELEASE_APPLY of an episode released, once its wall time has come (R40, R347). -/
theorem execReleaseApply_due {o : BitVec 24} {k : BitVec 8} {e : Episode} {s : State}
    (hfind : s.plan.episodes.find? (fun e => e.origin = o && e.num = k && e.counted && e.released) = some e)
    (hdue : e.releaseAt ≤ s.wall) :
    exec (.releaseApply o k) s = .next ((s.applyRelease o k).subDebt ((s.wall - e.releaseAt) / max 1 s.clkTu) o) := by
  show execReleaseApply o k s = _
  simp only [execReleaseApply, hfind, if_neg (Nat.not_lt.mpr hdue), lateClk]

/-- Settles O19: each command is its operation, with the guards of its clause put in. -/
theorem holdsComplete : Obligations.HoldsComplete := by
  refine ⟨?hold, ?release, ?apply, ?relApply, ?epRelease, fun s ha hs h0 hd hp hc hw hr => ?resume⟩
  case hold =>
    intro n u cause s o k late e s0 s1 hok htake hseen
    have hexec := execHoldSymbol_taken (cause := cause) hok htake hseen
    exact ⟨fun h => hexec.trans (if_pos h), fun h => hexec.trans (if_neg h)⟩
  case release =>
    intro n u s o k late s0 s1 gone hok htake hseen
    have hexec := execReleaseSymbol_taken hok htake hseen
    refine ⟨fun h => hexec.trans (if_pos h), fun h hle => ?_⟩
    exact (hexec.trans (if_neg h)).trans (congrArg Host.Outcome.next (State.subDebt_le hle))
  case apply =>
    intro o k e s late s1 s2 hfind hdue
    rw [execHoldApply_due hfind hdue, State.applyHold_some hfind]
  case relApply =>
    intro o k e s late s1 r hfind hdue
    exact execReleaseApply_due hfind hdue
  case epRelease =>
    intro e s hc he s0
    show execEpisodeRelease s = _
    simp only [execEpisodeRelease, hc, List.isEmpty_nil, if_true]
    exact congrArg Host.Outcome.next (State.releaseOwn_some he)
  case resume =>
    exact congrArg Host.Outcome.next (State.resume_free (State.dueToResume_of_free ha hs h0 hd hp) hc hw hr)

/-- A THROTTLE_EVAL due, by the level that its comparison gives (R49). -/
theorem execThrottleEval_due {tj : BitVec 8} {s : State} (ha : s.alive = true) (hdue : s.plan.throttleEvalAt ≤ s.plan.geyser) :
    exec (.throttleEval tj) s =
      let n := throttleNext s.plan.throttleLevel.toNat tj.toNat s.plan.throttleTemp.toNat s.plan.throttleMax.toNat
      let s1 : State := { s with
        plan := { s.plan with throttleLevel := BitVec.ofNat 4 n, throttleEvalAt := s.plan.throttleEvalAt + 65536 }
        pins := { s.pins with tj := tj }
        top := { s.top with tempC := tj } }
      if n = 0 ∨ s.launchedParts = [] then .next s1
      else .next (({ s1 with plan := { s1.plan with thermalEnd := some (s.wall + n * 4096 * s.clkTu) } } : State).raiseCause 0x6#4 .thermal) := by
  show execThrottleEval tj s = _
  simp only [execThrottleEval, ha, Nat.not_lt.mpr hdue, decide_false, Bool.not_true, Bool.or_self, Bool.false_eq_true, if_false,
    Bool.or_eq_true, decide_eq_true_eq, List.isEmpty_iff]
  rfl

/-- Settles O20: HOLD_LIMIT is `raiseLimit` of the episode found, and a comparison is `execThrottleEval_due`. -/
theorem holdLimitAndThermalComplete : Obligations.HoldLimitAndThermalComplete := by
  refine ⟨fun o k e s hfind => ?limit, ?limitWrite, ?eval,
    fun e s hend hdue => ?thermalEnd, fun v s hready => ?throttleWrite⟩
  case limit =>
    show execHoldLimit o k s = _
    simp only [execHoldLimit, hfind]
    rfl
  case limitWrite =>
    intro v s hready s1 hnone
    have hfilter : s1.plan.episodes.filter s1.limitReached = [] :=
      List.filter_eq_nil_iff.mpr fun e he => by simp [hnone e he]
    have hwrite : s.writeHoldLimit v = s1 := by
      show (s1.plan.episodes.filter s1.limitReached).foldl (fun s e => s.raiseLimit e) s1 = s1
      rw [hfilter, List.foldl_nil]
    exact congrArg Host.Outcome.next ((if_pos hready).trans hwrite)
  case eval =>
    intro tj s ha hdue n n' s1
    have hexec := execThrottleEval_due (tj := tj) ha hdue
    exact ⟨fun h => hexec.trans (if_pos h), fun hn hl => hexec.trans (if_neg fun h => h.elim hn hl)⟩
  case thermalEnd =>
    show execThermalHoldEnd s = _
    simp only [execThermalHoldEnd, hend, if_neg (Nat.not_lt.mpr hdue)]
    simp only [State.clearCause]
  case throttleWrite =>
    have hfield : BitVec.ofNat 4 (field v 15 12) = BitVec.ofNat 4 (v.toNat / 2 ^ 12) := by
      apply BitVec.eq_of_toNat_eq
      simp [field, Nat.shiftRight_eq_div_pow]
    have hwrite : exec (.throttleWrite v) s = .next (s.writeThrottle v) := congrArg Host.Outcome.next (if_pos hready)
    rw [hwrite]
    simp only [State.writeThrottle, hfield, BitVec.toNat_ofNat]

end Sys2Proof.Machine
end

section
/-! Alignment, launch and frequency steps: O21 and O22 (02_plan_time_and_statue_hold.md). -/

namespace Sys2Proof.Machine
open Sys2Proof

/-- The root without a launched plan aligns (R44). -/
theorem State.alignStart_root {s : State} (hmay : s.mayAlign = true) (hroot : s.map.upRoot = true) :
    s.alignStart = (({ s with plan := { s.plan with
      nextSym := s.plan.nextSym + 1
      state := 2
      alignOk := true } } : State)).flood 12
        (valueSym s 3 s.selfOrigin s.plan.nextSym (s.plan.geyser * 16 + s.plan.alignFrac.toNat)) := by
  simp only [State.alignStart, hmay, hroot, Bool.not_true, Bool.or_self, Bool.false_eq_true, if_false]

/-- ALIGN_SYMBOL of a symbol taken, by the calibration of its port (R44). -/
theorem execAlignSymbol_taken {n : PortId} {u lo hi : BitVec 64} {s : State} (hmay : s.mayAlign = true)
    (htake : s.takesValue 3 n u lo hi = true) :
    exec (.alignSymbol n u lo hi) s =
      let v := unitData lo + unitData hi * 2 ^ 49
      let s1 := s.rememberSym 3 u
      let c := (v % 2 ^ 68 + s.hop16 n) % 2 ^ 68
      let s2 : State := { s1 with plan := { s1.plan with state := 0, alignOk := false } }
      if (s.link n).calHold = 0 then .next (s2.logFault (s2.fault 0x306 0xC (v / 16 % 2 ^ 32) none 3))
      else .next ((s1.setCount c).flood n (valueSym s1 3 (unitOrigin u) (unitNum u) c)) := by
  show execAlignSymbol n u lo hi s = _
  simp only [execAlignSymbol, hmay, htake, Bool.not_true, Bool.or_self, Bool.false_eq_true, if_false]
  rfl

/-- An ARM of an aligned chip 24 pc ahead or more primes the launching partitions (R45). -/
theorem State.launchArm_ahead {s : State} (hst : s.plan.state = 2#3) (hg : s.plan.geyser + 24 ≤ s.plan.launchAt.toNat) :
    s.launchArm =
      let g := s.plan.launchAt.toNat
      let s1 := s.launching.foldl (fun s p => s.primePart g p) s
      let s2 : State := { s1 with plan := { s1.plan with armed := some g, state := 3 } }
      if s2.mirrorLaunch then s2.sendBarrier g else s2 := by
  simp only [State.launchArm, hst, ne_eq, not_true_eq_false, if_false, if_neg (Nat.not_lt.mpr hg)]

/-- An ARM less than 24 pc ahead is rejected (R45). -/
theorem State.launchArm_near {s : State} (hst : s.plan.state = 2#3) (hg : s.plan.launchAt.toNat < s.plan.geyser + 24) :
    s.launchArm = s.logFault (s.fault 0x305 0xC (s.plan.launchAt.toNat % 2 ^ 32) none 2) := by
  simp only [State.launchArm, hst, ne_eq, not_true_eq_false, if_false, if_pos hg]

/-- The BARRIER symbol leaves by the partner's port where that port carries traffic (R46). -/
theorem State.sendBarrier_eq (s : State) (g : Nat) :
    s.sendBarrier g =
      let n := coordDim s.pcie.self 0 % 2
      let s3 : State := { s with plan := { s.plan with nextSym := s.plan.nextSym + 1 } }
      if (s.link n).fab.role = 1 ∧ (s.link n).state = 5 then
        s3.modLink n fun l => { l with inlineOut := l.inlineOut ++ [valueSym s3 4 s.selfOrigin s.plan.nextSym g] }
      else s3 := by
  simp only [State.sendBarrier, State.jobPort, Bool.and_eq_true, decide_eq_true_eq]
  rfl

/-- A count that is armed and not mirrored starts every launching partition (R45). -/
theorem execLaunch_reached {g : Nat} {s : State} (ha : s.plan.armed = some g) (hg : s.plan.geyser = g) (hm : s.mirrorLaunch = false) :
    exec .launch s = .next (s.startAll g) := by
  show execLaunch s = _
  simp only [execLaunch, ha, hg, hm]
  rfl

/-- Settles O21: alignment and ARM are their equations above, and a launch is `State.startAll`. -/
theorem launchCommandsComplete : Obligations.LaunchCommandsComplete := by
  refine ⟨fun s hl hst hj hr => ?start, ?symbol, ?arm, ?launch, ?barrier, ?release⟩
  case start =>
    have hmay : s.mayAlign = true := by simp [State.mayAlign, hl, hst, hj]
    exact congrArg Host.Outcome.next (State.alignStart_root hmay hr)
  case symbol =>
    intro n u lo hi s hmay htake v s1 c s2
    have hexec := execAlignSymbol_taken hmay htake
    exact ⟨fun h => hexec.trans (if_neg h), fun h => hexec.trans (if_pos h)⟩
  case arm =>
    intro s hready hst g s1 s2 n s3
    have hexec : exec .launchArm s = .next s.launchArm := congrArg Host.Outcome.next (if_pos hready)
    refine ⟨fun hg => ?near, fun hg hm => ?plain, fun hg hm => ?mirror⟩
    case near => rw [hexec, State.launchArm_near hst hg]
    case plain => exact hexec.trans (congrArg Host.Outcome.next ((State.launchArm_ahead hst hg).trans (if_neg (by rw [hm]; decide))))
    case mirror =>
      have hsend : s.launchArm = s2.sendBarrier g := (State.launchArm_ahead hst hg).trans (if_pos hm)
      rw [hexec, hsend, State.sendBarrier_eq]
  case launch =>
    intro g s ha hg hm serves s1
    exact execLaunch_reached ha hg hm
  case barrier =>
    intro n u lo hi s htake s1
    show execBarrierSymbol n u lo hi s = _
    simp only [execBarrierSymbol, htake, Bool.not_true, Bool.false_eq_true, if_false]
    rfl
  case release =>
    intro g s hb hg
    refine ⟨fun h => ?_, fun ha hgg hm => ?_⟩
    · have hc : (s.plan.armed.isSome && s.mirrorLaunch) = false := by
        obtain ha | hm := h
        · simp [ha]
        · simp [hm]
      show execLaunchBarrierRelease s = _
      simp only [execLaunchBarrierRelease, hb, if_neg (Nat.not_lt.mpr hg), hc]
      rfl
    · show execLaunchBarrierRelease s = _
      simp only [execLaunchBarrierRelease, hb, ha, hgg, hm, Nat.lt_irrefl, if_false]
      rfl

/-- An ARM of the step with none armed or in progress is decided by its tick (R48). -/
theorem State.stepArm_free {s : State} (ha : s.clk.armed = none) (hs : s.clk.switching = none) :
    s.stepArm =
      if s.commonTick s.clk.stepAt.toNat = false then s.rejectStep s.clk.stepAt.toNat
      else if s.clk.stepAt.toNat < s.plan.geyser then s.tickPassed s.clk.stepAt.toNat 1
      else { s with clk := { s.clk with armed := some (s.clk.stepAt.toNat, s.clk.stepTarget) } } := by
  simp only [State.stepArm, ha, hs, Option.isSome_none, Bool.or_self, Bool.false_eq_true, if_false, Bool.not_eq_true']

/-- STEP_SWITCH at the armed count, nothing of the tick left (R30, R48). -/
theorem execStepSwitch_reached {g : Nat} {tgt : BitVec 3} {s : State} (ha : s.clk.armed = some (g, tgt)) (hg : s.plan.geyser = g)
    (hr : s.recordLeft g = false) (hc : s.curtainLeft g = false) (hp : s.paused = false) :
    exec .stepSwitch s =
      if s.stepMax < tgt.toNat then .next (s.rejectStep g)
      else if tgt = s.clk.stepCur then .next { s with clk := { s.clk with armed := none } }
      else .next { s with
        clk := { s.clk with
          armed := none
          switching := some (s.wall + 6400 * tuLinkRef, tgt) }
        plan := { s.plan with counterWasStopped := true }
        pins := { s.pins with coreVid := if s.clk.stepCur.toNat < tgt.toNat then tgt else s.pins.coreVid } } := by
  show execStepSwitch s = _
  simp only [execStepSwitch, ha, hg, hr, hc, hp, ne_eq, not_true_eq_false, decide_false, Bool.or_self, Bool.false_eq_true, if_false]

/-- Settles O22: an ARM is `State.stepArm_free`, a switch `execStepSwitch_reached`. -/
theorem frequencyStepsComplete : Obligations.FrequencyStepsComplete := by
  refine ⟨?arm, ?switch, fun e tgt s hs he => ?finish⟩
  case arm =>
    intro s hready ha hs g s1
    have hexec : exec .stepArm s = .next s.stepArm := congrArg Host.Outcome.next (if_pos hready)
    have harm := State.stepArm_free ha hs
    refine ⟨fun hc => ?_, fun hc hg => ?_, fun hc hg => ?_⟩
    · exact hexec.trans (congrArg Host.Outcome.next (harm.trans (if_pos hc)))
    · exact hexec.trans (congrArg Host.Outcome.next (harm.trans ((if_neg (by rw [hc]; decide)).trans (if_pos hg))))
    · exact hexec.trans (congrArg Host.Outcome.next
        (harm.trans ((if_neg (by rw [hc]; decide)).trans (if_neg (Nat.not_lt.mpr hg)))))
  case switch =>
    intro g tgt s ha hg hr hc hp s1
    have hexec := execStepSwitch_reached ha hg hr hc hp
    exact ⟨fun h => hexec.trans (if_pos h), fun h heq => hexec.trans ((if_neg (Nat.not_lt.mpr h)).trans (if_pos heq)),
      fun h hne => hexec.trans ((if_neg (Nat.not_lt.mpr h)).trans (if_neg hne))⟩
  case finish =>
    show execStepSwitchEnd s = _
    simp only [execStepSwitchEnd, hs, if_neg (Nat.not_lt.mpr he)]

end Sys2Proof.Machine
end

section
/-! Snapshots, the fault log's registers, the budget commands and the check-value units: O23, O24 and O25
(18_register_conventions_and_map.md, 10_budgets_and_speculation.md, 17_service_update_time_check.md). -/

namespace Sys2Proof.Machine
open Sys2Proof

/-- A capture in a clk without the other kind (R484, R487). -/
theorem State.takeSnap_alone {s : State} {tick : Bool} (h : s.snap.lastAt ≠ some (s.wall, !tick)) :
    s.takeSnap tick = { s with snap := { s.snap with
      hold := s.snapshot
      held := !s.running
      atTick := tick
      count := s.snap.count + 1
      lastAt := some (s.wall, tick) } } := by
  simp only [State.takeSnap, h, decide_false, Bool.false_and, Bool.or_false, if_false]

/-- An immediate capture in the clk of a tick capture is one with it (R487). -/
theorem State.takeSnap_withTick {s : State} (h : s.snap.lastAt = some (s.wall, true)) :
    s.takeSnap false = { s with snap := { s.snap with
      hold := s.snapshot
      held := !s.running
      lastAt := some (s.wall, false) } } := by
  simp only [State.takeSnap, h, Bool.not_false, decide_true, Bool.true_and, Bool.false_or, if_true]

/-- ARM_AT with none armed, by its count (R487). -/
theorem State.armSnap_free {s : State} (h : s.snap.armed = none) :
    s.armSnap = if s.snap.armAt.toNat < s.plan.geyser ∨ s.commonTick s.snap.armAt.toNat = false then
        { s with snap := { s.snap with atRejected := true } }
      else { s with snap := { s.snap with armed := some s.snap.armAt.toNat } } := by
  simp only [State.armSnap, h, Option.isSome_none, Bool.false_eq_true, if_false, Bool.or_eq_true, decide_eq_true_eq, Bool.not_eq_true']

/-- Settles O23: a capture is `State.takeSnap`, alone or in the clk of the other kind. -/
theorem snapshotsAndFaultLogComplete : Obligations.SnapshotsAndFaultLogComplete := by
  refine ⟨fun s ha h => ?alone, fun s ha h => ?same, fun s ha hn => ?arm, fun s ha hn h => ?tick, fun s ha => ?clear,
    fun r rest s ha hl => ?pop, fun s ha hl => ?empty⟩
  case alone => exact congrArg Host.Outcome.next ((if_pos ha).trans (State.takeSnap_alone h))
  case same => exact congrArg Host.Outcome.next ((if_pos ha).trans (State.takeSnap_withTick h))
  case arm =>
    have hexec : exec .snapArmAt s = .next s.armSnap := congrArg Host.Outcome.next (if_pos ha)
    have harm := State.armSnap_free hn
    refine ⟨fun hg hc => ?_, fun h => ?_⟩
    · have hno : ¬(s.snap.armAt.toNat < s.plan.geyser ∨ s.commonTick s.snap.armAt.toNat = false) := by
        simp [hc, hg]
      exact hexec.trans (congrArg Host.Outcome.next (harm.trans (if_neg hno)))
    · exact hexec.trans (congrArg Host.Outcome.next (harm.trans (if_pos h)))
  case tick =>
    have hexec : exec .snapTickCapture s = .next (({ s with snap := { s.snap with armed := none } } : State).takeSnap true) := by
      show execSnapTickCapture s = _
      simp only [execSnapTickCapture, hn, ha, ne_eq, not_true_eq_false, decide_false, Bool.not_true, Bool.or_self,
        Bool.false_eq_true, if_false]
    rw [hexec, State.takeSnap_alone h]
    rfl
  case clear => exact congrArg Host.Outcome.next (if_pos ha)
  case pop =>
    have hword : (recWord (some r) 7).setWidth 64 = BitVec.ofNat 64 (fieldN r.bytes 28 4 % 2 ^ 32) := by
      apply BitVec.eq_of_toNat_eq
      simp [recWord]
    have hpop : s.popFault = { s with
        pcie := { s.pcie with readback := BitVec.ofNat 64 (fieldN r.bytes 28 4 % 2 ^ 32) }
        top := { s.top with log := rest } } := by
      simp only [State.popFault, hl, List.head?_cons, hword, List.drop_succ_cons, List.drop_zero]
    exact congrArg Host.Outcome.next ((if_pos ha).trans hpop)
  case empty =>
    have hpop : s.popFault = { s with pcie := { s.pcie with readback := 0 } } := by
      have htop : ({ s.top with log := [] } : TopRegs) = s.top := by rw [← hl]
      simp only [State.popFault, hl, List.head?_nil, List.drop_nil, htop]
      rfl
    exact congrArg Host.Outcome.next ((if_pos ha).trans hpop)

/-! ### Bytes and the numbers that they spell -/

/-- Bytes spell a number below 256 to their count. -/
theorem natOfBytes_lt (bs : List (BitVec 8)) : natOfBytes bs < 256 ^ bs.length := by
  induction bs with
  | nil => simp [natOfBytes]
  | cons b bs ih =>
    have hb := b.isLt
    simp only [natOfBytes, List.length_cons, Nat.pow_succ]
    omega

/-- The bytes of the number that bytes spell are these bytes. -/
theorem bytesOf_natOfBytes (bs : List (BitVec 8)) : bytesOf bs.length (natOfBytes bs) = bs := by
  induction bs with
  | nil => rfl
  | cons b bs ih =>
    have hlow : BitVec.ofNat 8 (b.toNat + 256 * natOfBytes bs) = b := by
      apply BitVec.eq_of_toNat_eq
      have hb := b.isLt
      simp only [BitVec.toNat_ofNat]
      omega
    have hhigh : (b.toNat + 256 * natOfBytes bs) / 256 = natOfBytes bs := by
      have hb := b.isLt
      omega
    simp only [natOfBytes, List.length_cons, bytesOf, hlow, hhigh, ih]

/-- Four bytes pass through a register word. -/
theorem bytesOf_word {bs : List (BitVec 8)} (h : bs.length = 4) :
    bytesOf 4 (BitVec.ofNat 32 (natOfBytes bs)).toNat = bs := by
  have hlt := natOfBytes_lt bs
  rw [h] at hlt
  rw [BitVec.toNat_ofNat, Nat.mod_eq_of_lt (by omega)]
  simpa only [h] using bytesOf_natOfBytes bs

/-- Pieces of four in order are the list they were cut from. -/
theorem flatMap_pieces {α : Type} (l : List α) (k : Nat) :
    ((List.range k).flatMap fun i => (l.drop (4 * i)).take 4) = l.take (4 * k) := by
  induction k with
  | zero => simp
  | succ k ih => rw [List.range_succ, List.flatMap_append, ih, Nat.mul_succ, List.take_add]; simp

/-! ### The budget commands (R276, R288) -/

/-- Two changes of a budget bank are one. -/
theorem State.modBd_modBd {s : State} {p : Nat} (hp : p < 16) (f g : BudBank → BudBank) :
    (s.modBd p f).modBd p g = s.modBd p fun x => g (f x) := by
  simp only [State.modBd, vset_vset]
  exact congrArg (fun x => { s with budB := vset s.budB p (g x) }) (State.bd_modBd_same s p f hp)

/-- Changes that agree on a budget bank as it stands are one change. -/
theorem State.modBd_congr {s : State} {p : Nat} {f g : BudBank → BudBank} (h : f (s.bd p) = g (s.bd p)) :
    s.modBd p f = s.modBd p g := by
  simp only [State.modBd, h]

/-- A budget operation writes OP, and arms it where none is armed (R288). -/
theorem State.budOp_eq (s : State) (op : Nat) :
    s.budOp op = s.modBd s.bud.psel.toNat fun b =>
      let b' := { b with opCode := BitVec.ofNat 3 op }
      if b.opArmed.isSome then b' else { b' with opArmed := some { op := BitVec.ofNat 3 op, cust := b.opCust, val := b.opVal } } := by
  simp only [State.budOp, State.budGo]
  rw [State.modBd_modBd s.bud.psel.isLt]

/-- Every bucket has 32 bytes (R271). -/
theorem Bucket.bytes_length (b : Bucket) : b.bytes.length = 32 := by
  simp [Bucket.bytes]

/-- Settles O24: each command is `State.budOp` of its code, and BKT_SEL copies the bytes of the bucket word by word. -/
theorem budgetCommandsComplete : Obligations.BudgetCommandsComplete := by
  refine ⟨fun c op s hc hready => ?op, fun v s hready => ?sel⟩
  case op =>
    intro p b
    have hexec : exec c s = .next (s.budOp op) := by
      simp only [List.mem_cons, Prod.mk.injEq, List.not_mem_nil, or_false] at hc
      rcases hc with ⟨rfl, rfl⟩ | ⟨rfl, rfl⟩ | ⟨rfl, rfl⟩ | ⟨rfl, rfl⟩ | ⟨rfl, rfl⟩ | ⟨rfl, rfl⟩ <;>
        exact congrArg Host.Outcome.next (if_pos hready)
    rw [hexec, State.budOp_eq]
    refine ⟨fun hn => ?_, fun hn => ?_⟩
    · have hnone : (s.bd s.bud.psel.toNat).opArmed = none := hn
      exact congrArg Host.Outcome.next (State.modBd_congr (by simp [hnone]))
    · have hsome : (s.bd s.bud.psel.toNat).opArmed.isSome = true := Option.isSome_iff_ne_none.mpr hn
      exact congrArg Host.Outcome.next (State.modBd_congr (by simp only [hsome, if_true]))
  case sel =>
    intro b
    refine ⟨_, congrArg Host.Outcome.next (if_pos hready), ?_⟩
    have hpiece (i : Fin 8) : bytesOf 4 (BitVec.ofNat 32 (natOfBytes ((b.bytes.drop (4 * i.val)).take 4))).toNat =
        (b.bytes.drop (4 * i.val)).take 4 :=
      bytesOf_word (by simp only [List.length_take, List.length_drop, Bucket.bytes_length]; omega)
    have hcopy : ((Vector.ofFn fun i : Fin 8 => BitVec.ofNat 32 (natOfBytes ((b.bytes.drop (4 * i.val)).take 4))).toList.flatMap
        fun w => bytesOf 4 w.toNat) = (List.range 8).flatMap fun i => (b.bytes.drop (4 * i)).take 4 := by
      simp only [Vector.toList_ofFn, List.ofFn_eq_map, List.flatMap_map, hpiece]
      rw [← List.map_coe_finRange_eq_range, List.flatMap_map]
    rw [flatMap_pieces, List.take_of_length_le (Bucket.bytes_length b).le] at hcopy
    exact hcopy

/-! ### The check-value units (R467, R468) -/

/-- Changes that agree on a check-value unit as it stands are one change. -/
theorem State.modCrc_congr {s : State} {u : Nat} {f g : CrcRegs → CrcRegs} (h : f (s.crc u) = g (s.crc u)) :
    s.modCrc u f = s.modCrc u g := by
  simp only [State.modCrc, h]

/-- The end of a run whose bytes came, or that ended with an error (R467, R468). -/
theorem execCrcRunDone_due {u : CrcIx} {data : List (BitVec 8)} {err : Bool} {r : CrcRun} {s : State} (hr : (s.crc u).run = some r)
    (ha : s.alive = true) (hb : (s.fn 0).bme = true) (hlen : err = true ∨ data.length = r.len.toNat) :
    exec (.crcRunDone u data err) s =
      if err then .next ((s.draw 64).2.modCrc u fun x => { x with dmaErr := true, reg := (s.draw 64).1 }.endRun)
      else if r.check then .next ((s.draw 64).2.modCrc u fun x => { x.checkRun r data with reg := (s.draw 64).1 }.endRun)
      else .next (s.modCrc u fun x => (x.computeRun r data).endRun) := by
  have hshort : (!err && decide (data.length ≠ r.len.toNat)) = false := by
    obtain h | h := hlen <;> simp [h]
  show execCrcRunDone u data err s = _
  simp only [execCrcRunDone, hr, ha, hb, hshort, Bool.not_true, Bool.and_false, Bool.or_self, Bool.false_eq_true, if_false]

/-- GO of a unit in the command's mode (R467). -/
theorem exec_crcGo {u : CrcIx} {s : State} {check : Bool} (hready : s.ready = true) :
    exec (if check then .crcCheck u else .crcCompute u) s = .next (s.crcGo u check) := by
  cases check
  · exact congrArg Host.Outcome.next (if_pos hready)
  · exact congrArg Host.Outcome.next (if_pos hready)

/-- GO of a busy unit queues one further run (R467). -/
theorem State.crcGo_busy {s : State} {u : Nat} (check : Bool) (h : (s.crc u).run ≠ none) :
    s.crcGo u check = s.modCrc u fun x => { x with queued := true } := by
  have hsome : (s.crc u).run.isSome = true := Option.isSome_iff_ne_none.mpr h
  simp only [State.crcGo, hsome, Bool.true_or, if_true]
  exact State.modCrc_congr (if_pos hsome)

/-- GO of an idle unit starts its run or refuses it (R467, R468). -/
theorem State.crcGo_idle {s : State} {u : Nat} {check : Bool} (h : (s.crc u).run = none) (hc : (s.crc u).cur.check = check) :
    s.crcGo u check = s.modCrc u CrcRegs.start := by
  have hnone : (s.crc u).run.isSome = false := by simp [h]
  simp only [State.crcGo, hnone, hc, decide_true, Bool.or_true, if_true]
  exact State.modCrc_congr (if_neg (by simp [h]))

/-- A start with a configuration that may start. -/
theorem CrcRegs.start_ok {x : CrcRegs} (h : x.cur.startable = true) : x.start = { x with run := some x.cur } := if_pos h

/-- A start with a configuration that breaks a condition of R468. -/
theorem CrcRegs.start_bad {x : CrcRegs} (h : x.cur.startable = false) : x.start = { x with cfgErr := true, done := true } :=
  if_neg (by simp [h])

/-- Settles O25: GO is `State.crcGo_idle` or `_busy`, the end of a run `execCrcRunDone_due`. -/
theorem checkValueUnitsComplete : Obligations.CheckValueUnitsComplete := by
  refine ⟨fun u s hready => ⟨fun hn hc => ?compute, fun hb => ?busy, fun hn hc => ?check⟩,
    fun u data err r s hr ha hb hlen => ?done⟩
  case compute =>
    have hstart : (s.crc u).cur.startable = true := by simp [CrcRun.startable, hc]
    refine (exec_crcGo (check := false) hready).trans (congrArg Host.Outcome.next ?_)
    exact (State.crcGo_idle hn hc).trans (State.modCrc_congr (CrcRegs.start_ok hstart))
  case busy =>
    exact ⟨(exec_crcGo (check := false) hready).trans (congrArg Host.Outcome.next (State.crcGo_busy _ hb)),
      (exec_crcGo (check := true) hready).trans (congrArg Host.Outcome.next (State.crcGo_busy _ hb))⟩
  case check =>
    have hexec : exec (.crcCheck u) s = .next (s.modCrc u CrcRegs.start) :=
      (exec_crcGo (check := true) hready).trans (congrArg Host.Outcome.next (State.crcGo_idle hn hc))
    exact ⟨fun h => hexec.trans (congrArg Host.Outcome.next (State.modCrc_congr (CrcRegs.start_ok h))),
      fun h => hexec.trans (congrArg Host.Outcome.next (State.modCrc_congr (CrcRegs.start_bad h)))⟩
  case done =>
    have hexec := execCrcRunDone_due hr ha hb hlen
    refine ⟨fun he hc => ?_, fun he hc => ?_, fun he => ?_⟩
    · subst he
      exact hexec.trans ((if_neg Bool.false_ne_true).trans (if_neg (by simp [hc])))
    · subst he
      exact hexec.trans ((if_neg Bool.false_ne_true).trans (if_pos hc))
    · exact hexec.trans (if_pos he)

end Sys2Proof.Machine
end

section
/-! The time unit and its triggers: O26 and O27 (17_service_update_time_check.md). -/

namespace Sys2Proof.Machine
open Sys2Proof

/-! ### Domains, PPS and the reference (R459 to R462, R465) -/

/-- The range of an increment, 7.5 to 8.5 ns (R459). -/
theorem incOk_iff (ns : BitVec 4) (frac : BitVec 32) :
    incOk ns frac = true ↔ 15 * 2 ^ 31 ≤ ns.toNat * 2 ^ 32 + frac.toNat ∧ ns.toNat * 2 ^ 32 + frac.toNat ≤ 17 * 2 ^ 31 := by
  simp only [incOk, Bool.and_eq_true, decide_eq_true_eq]

/-- Two changes of a domain are one. -/
theorem TimeRegs.modDom_modDom (t : TimeRegs) (b : Bool) (f g : Domain → Domain) :
    (t.modDom b f).modDom b g = t.modDom b fun d => g (f d) := by
  cases b <;> rfl

/-- A commit of the pair written (R459). -/
theorem State.incCommit_eq (s : State) (b : Bool) (v : BitVec 32) :
    s.incCommit b v =
      if incOk (s.time.dom b).wrNs v then
        { s with time := s.time.modDom b fun d => { d with wrFrac := v, incNs := (s.time.dom b).wrNs, incFrac := v } }
      else { s with time := { s.time.modDom b fun d => { d with wrFrac := v } with incReject := true } } := by
  have hns : ((s.modDom b fun d => { d with wrFrac := v }).time.dom b).wrNs = (s.time.dom b).wrNs := by cases b <;> rfl
  simp only [State.incCommit, hns]
  simp only [State.modDom, TimeRegs.modDom_modDom, State.incRejected]

/-- GO of the adjustment registers (R460). -/
theorem State.adjust_eq (s : State) :
    s.adjust = if incOk s.time.adjNs s.time.adjFrac = true ∧ s.time.adjTicks ≠ 0 then
        { s with time := s.time.modDom s.time.adjDom fun d => { d with
          adjNs := s.time.adjNs
          adjFrac := s.time.adjFrac
          adjLeft := s.time.adjTicks } }
      else { s with time := { s.time with incReject := true } } := by
  simp only [State.adjust, Bool.and_eq_true, decide_eq_true_eq]
  rfl

/-- Settles O26: a commit is `State.incCommit_eq`, the other commands one operation each. -/
theorem timeDomainCommandsComplete : Obligations.TimeDomainCommandsComplete := by
  refine ⟨fun b v s hready => ?commit, fun b s hready => ?adjust, fun b s h0 => ?adjustEnd, fun s hready => ?set,
    fun s ha hd he => ?pps, fun e s ha he hd => ?ppsEnd, fun s ha => ?ppsIn, fun s ha => ?reference⟩
  case commit =>
    intro ns x
    have hexec : exec (.timeIncCommit b v) s = .next (s.incCommit b v) := congrArg Host.Outcome.next (if_pos hready)
    rw [hexec, State.incCommit_eq]
    exact ⟨fun h => congrArg Host.Outcome.next (if_pos ((incOk_iff _ _).mpr h)),
      fun h => congrArg Host.Outcome.next (if_neg fun hc => h ((incOk_iff _ _).mp hc))⟩
  case adjust =>
    intro t x
    have hexec : exec (.timeAdjust b) s = .next ({ s with time := t } : State).adjust := congrArg Host.Outcome.next (if_pos hready)
    have hcond : incOk s.time.adjNs s.time.adjFrac = true ∧ s.time.adjTicks ≠ 0 ↔
        15 * 2 ^ 31 ≤ x ∧ x ≤ 17 * 2 ^ 31 ∧ s.time.adjTicks ≠ 0 := by
      rw [incOk_iff, and_assoc]
    rw [hexec, State.adjust_eq]
    exact ⟨fun h => congrArg Host.Outcome.next (if_pos (hcond.mpr h)),
      fun h => congrArg Host.Outcome.next (if_neg fun hc => h (hcond.mp hc))⟩
  case adjustEnd =>
    exact if_neg (not_not.mpr h0)
  case set =>
    exact ⟨congrArg Host.Outcome.next (if_pos hready), congrArg Host.Outcome.next (if_pos hready),
      fun b => congrArg Host.Outcome.next (if_pos hready)⟩
  case pps =>
    show execPpsOut s = _
    simp only [execPpsOut, ha, hd, he, Bool.not_true, Bool.or_self, Bool.false_eq_true, if_false]
  case ppsEnd =>
    show execPpsOutEnd s = _
    simp only [execPpsOutEnd, he, ha, Nat.not_lt.mpr hd, decide_false, Bool.not_true, Bool.or_self, Bool.false_eq_true, if_false]
    rfl
  case ppsIn =>
    show execPpsIn s = _
    simp only [execPpsIn, ha, Bool.not_true, Bool.false_eq_true, if_false, State.modDom, TimeRegs.modDom, if_true]
  case reference =>
    intro s1
    refine ⟨fun h => ?_, congrArg Host.Outcome.next (if_pos ha)⟩
    show execTimeRefLost s = _
    simp only [execTimeRefLost, ha, h, Bool.not_true, Bool.or_self, Bool.false_eq_true, if_false]
    rfl

/-! ### Triggers (R464) -/

/-- A trigger that is armed, and whose domain has reached its time, fires where no lower one is armed. -/
theorem State.trigFires_of_due {s : State} {j : Nat} {a : TrigArm} (ha : s.alive = true) (harm : (s.trig j).armed = some a)
    (hb : a.notBefore ≤ s.wall) (hdue : a.late = true ∨ a.time.toNat ≤ (s.time.dom a.dom).ns.toNat)
    (hlow : ∀ i < j, (s.trig i).armed = none) (act : BitVec 2) (hact : a.action = act) : s.trigFires j act = true := by
  have hj : s.trigDue j = true := by
    simp only [State.trigDue, harm, ha, hb, decide_true, Bool.true_and, Bool.or_eq_true, decide_eq_true_eq]
    exact hdue
  have hlower : ((List.range j).all fun i => !s.trigDue i) = true := by
    simp only [List.all_eq_true, List.mem_range]
    intro i hi
    simp only [State.trigDue, hlow i hi, Bool.not_false]
  simp only [State.trigFires, hj, harm, hact, hlower, Option.map_some, Option.getD_some, decide_true, Bool.and_self]

/-- ARM of a trigger that is not armed (R464, R478). -/
theorem State.armTrigger_free {s : State} {j : Nat} (h : (s.trig j).armed = none) :
    s.armTrigger j = s.modTrig j fun t => { t with armed := some {
      time := t.fireAt
      action := t.action
      dom := t.dom
      late := decide (t.fireAt.toNat ≤ (s.time.dom t.dom).ns.toNat)
      notBefore := s.time.nextTick } } := by
  simp only [State.armTrigger, h]
  rfl

/-- ARM of a trigger that is armed already. -/
theorem State.armTrigger_armed {s : State} {j : Nat} (h : (s.trig j).armed ≠ none) : s.armTrigger j = s := by
  simp only [State.armTrigger, Option.isSome_iff_ne_none.mpr h, if_true]

/-- Settles O27: a trigger that is due fires by `State.trigFires_of_due`, and its action is the operation of the command. -/
theorem triggersComplete : Obligations.TriggersComplete := by
  refine ⟨fun v s hready => ?arm, fun j a s ha harm hb hdue hlow => ?fire, fun j act r a s harm => ?record,
    fun e rest s hready hl => ?pop⟩
  case arm =>
    intro j s1 t
    have hexec : exec (.triggerArm v) s = .next (if bit v 3 then s1.armTrigger j else s1) :=
      congrArg Host.Outcome.next (if_pos hready)
    refine ⟨fun h => ?_, fun hbit hn => ?_⟩
    · rw [hexec]
      obtain h | h := h
      · simp only [h, Bool.false_eq_true, if_false]
      · rw [State.armTrigger_armed h, ite_self]
    · exact hexec.trans (congrArg Host.Outcome.next ((if_pos hbit).trans (State.armTrigger_free hn)))
  case fire =>
    have hfires := State.trigFires_of_due ha harm hb hdue hlow
    refine ⟨fun h => ?_, fun hready => ⟨congrArg Host.Outcome.next (if_pos hready), congrArg Host.Outcome.next (if_pos hready)⟩,
      rfl, fun h => ?_, fun h => ?_, fun h => ?_⟩
    · exact congrArg Host.Outcome.next (if_pos (hfires _ h))
    · have hj : s.trigFires j 1 = true := hfires _ h
      show execTriggerArmLaunch j s = _
      simp only [execTriggerArmLaunch, hj, Bool.not_true, Bool.false_eq_true, if_false]
    · have hj : s.trigFires j 2 = true := hfires _ h
      show execTriggerStartAlign j s = _
      simp only [execTriggerStartAlign, hj, Bool.not_true, Bool.false_eq_true, if_false]
    · have hj : s.trigFires j 3 = true := hfires _ h
      show execTriggerArmStep j s = _
      simp only [execTriggerArmStep, hj, Bool.not_true, Bool.false_eq_true, if_false]
  case record =>
    intro s1
    simp only [State.fireTrigger, harm, Option.map_some, Option.getD_some]
    rfl
  case pop =>
    have hpop : s.popTimeLog = { s with
        pcie := { s.pcie with readback := (e.word 7).setWidth 64 }
        time := { s.time with log := rest } } := by
      simp only [State.popTimeLog, TimeRegs.logWord, hl, List.head?_cons, Option.map_some, Option.getD_some, List.drop_succ_cons,
        List.drop_zero]
    exact congrArg Host.Outcome.next ((if_pos hready).trans hpop)

end Sys2Proof.Machine
end

section
/-! Checkpoints and the packets between buddies: O28 and O29 (12_fabric.md, 14_determinism_and_faults.md). -/

namespace Sys2Proof.Machine
open Sys2Proof

/-! ### The checkpoint (R389, R390) -/

/-- ARM of a checkpoint with none armed, by its count (R389). -/
theorem State.ckptArm_free {s : State} (h : s.dig.ckptArmed = none) :
    s.ckptArm =
      let g := s.dig.ckptAt.toNat
      if (!s.restartParts.isEmpty && s.restartParts.all fun p => s.isUnitTick p g) = false then
        { s with dig := { s.dig with ckptRejected := true } }
      else if g < s.plan.geyser then
        (s.draw 3).2.faultHold ((s.draw 3).2.fault 0x304 0xC (g % 2 ^ 32) none (s.draw 3).1.toNat)
      else { s with dig := { s.dig with ckptArmed := some (g, s.dig.ckptPause.toNat, s.dig.ckptSlot) } } := by
  have hcond : ∀ a b : Bool, ((a || !b) = true) ↔ ((!a && b) = false) := by decide
  simp only [State.ckptArm, h, Option.isSome_none, Bool.false_eq_true, if_false, hcond]
  rfl

/-- CHECKPOINT_PAUSE_END once the pause is over (R389, R390, R394). -/
theorem execCheckpointPauseEnd_over {e : Nat} {slot : Bool} {x : CkptGen} {s : State} (hp : s.dig.ckptPausing = some (e, slot))
    (hw : s.dig.ckptWriting = some x) (he : e ≤ s.wall) :
    exec .checkpointPauseEnd s =
      let d : DigRegs := { s.dig with
        ckptArmed := none
        ckptPausing := none
        ckptWriting := none
        buddyAcked := false
        ckptAbort := false }
      if s.dig.buddyAcked && !s.dig.ckptAbort && !s.faultHeld then
        .next { s with dig := { d with
          slots := vset d.slots (bn slot) (some { x with complete := true })
          ckptGen := x.gen
          ckptStep := x.stepNo } }
      else
        .next (({ s with dig := { d with ckptIncomplete := true } } : State).logFault
          (s.fault 0x210 0x12 x.gen.toNat none (bn slot))) := by
  show execCheckpointPauseEnd s = _
  simp only [execCheckpointPauseEnd, hp, hw, if_neg (Nat.not_lt.mpr he)]
  rfl

/-- Settles O28: ARM is `State.ckptArm_free`, the end of the pause `execCheckpointPauseEnd_over`. -/
theorem checkpointsComplete : Obligations.CheckpointsComplete := by
  refine ⟨?arm, ?pause, ?finish⟩
  case arm =>
    intro s hready hn g ok
    have hexec : exec .ckptArm s = .next s.ckptArm := congrArg Host.Outcome.next (if_pos hready)
    have harm := State.ckptArm_free hn
    refine ⟨fun h => ?_, fun h hg => ?_, fun h hg => ?_⟩
    · exact hexec.trans (congrArg Host.Outcome.next (harm.trans (if_pos h)))
    · exact hexec.trans (congrArg Host.Outcome.next
        (harm.trans ((if_neg (ne_false_of_eq_true h)).trans (if_pos hg))))
    · exact hexec.trans (congrArg Host.Outcome.next
        (harm.trans ((if_neg (ne_false_of_eq_true h)).trans (if_neg (Nat.not_lt.mpr hg)))))
  case pause =>
    intro g us slot s ha harm hg hp x
    show execCheckpointPause s = _
    simp only [execCheckpointPause, harm, hg, ha, hp, ne_eq, not_true_eq_false, decide_false, Bool.not_true, Option.isSome_none,
      Bool.or_self, Bool.false_eq_true, if_false]
    rfl
  case finish =>
    intro e slot x s hp hw he d ok s1
    have hexec := execCheckpointPauseEnd_over hp hw he
    exact ⟨fun h => hexec.trans (if_pos h), fun h => hexec.trans (if_neg (ne_true_of_eq_false h))⟩

/-! ### Buddy packets (R320, R383, R390, R391) -/

/-- CKPT_WRITE of buddy data: it is kept, and acknowledged once whole (R390). -/
theorem execCkptWrite_data {p : Packet} {s : State} (hk : s.hPacket 0 (· ≠ 2) = some p)
    (hkind : (buddyHead (p.payload.headD 0)).1 ≠ 3) :
    exec .ckptWrite s =
      let s0 := s.consume p
      let h := buddyHead (p.payload.headD 0)
      let keep (x : BuddyItem) : Bool :=
        if h.1 = 1 then !(x.kind = 1 && x.part = h.2.1 && x.tag ≠ h.2.2.2.2.1) else !(x.kind = 0 && x.tag < s.dig.ashFloor.toNat)
      let items := addUnits (s.dig.buddy.filter keep) h (p.payload.drop 1)
      let s1 : State := { s0 with dig := { s0.dig with buddy := items } }
      if items.any fun x => x.kind = h.1 && x.part = h.2.1 && x.tag = h.2.2.2.2.1 && x.whole then
        .next (s1.inject (s1.flatPacket 3 0 p.src
          [lineOfBytes (bytesOf 1 (h.1 + 2) ++ bytesOf 1 h.2.1 ++ bytesOf 2 0 ++ bytesOf 4 0 ++ bytesOf 8 h.2.2.2.2.1)]))
      else .next s1 := by
  show execCkptWrite s = _
  simp only [execCkptWrite, hk, if_neg hkind]
  exact apply_ite Host.Outcome.next _ _ _

section
variable {p : Packet} {s : State} (hk : s.hPacket 2 (fun _ => true) = some p) (h4 : s.dig.recPhase = 4)
include hk h4

/-- CKPT_DATA in phase 4, with the generation sought not whole yet (R391). -/
theorem execCkptData_missing
    (hnone : ((addUnits s.dig.fetched (buddyHead (p.payload.headD 0)) (p.payload.drop 1)).find? fun y =>
      y.kind = 1 && y.tag = s.dig.restoreGen.toNat && y.whole) = none) :
    exec .ckptData s = .next { s.consume p with dig := { (s.consume p).dig with
      fetched := addUnits s.dig.fetched (buddyHead (p.payload.headD 0)) (p.payload.drop 1) } } := by
  have hphase : (s.consume p).dig = s.dig := rfl
  show execCkptData s = _
  simp only [execCkptData, hk, hphase, h4, ne_eq, not_true_eq_false, if_false, hnone]

/-- CKPT_DATA in phase 4 that makes the generation sought whole (R391). -/
theorem execCkptData_whole {y : BuddyItem}
    (hsome : ((addUnits s.dig.fetched (buddyHead (p.payload.headD 0)) (p.payload.drop 1)).find? fun y =>
      y.kind = 1 && y.tag = s.dig.restoreGen.toNat && y.whole) = some y) :
    exec .ckptData s =
      let items := addUnits s.dig.fetched (buddyHead (p.payload.headD 0)) (p.payload.drop 1)
      let s1 : State := { s.consume p with dig := { (s.consume p).dig with fetched := items } }
      .next (if y.units.isEmpty then s1.recoveryFail 1 else (s1.adoptAsh items).restoreGen (readGen y.units)) := by
  have hphase : (s.consume p).dig = s.dig := rfl
  show execCkptData s = _
  simp only [execCkptData, hk, hphase, h4, ne_eq, not_true_eq_false, if_false, hsome]

end

section
variable {s t : State} {g : CkptGen}

/-- The state of SEQ and the words that a generation restores (R391 phase 4). -/
def State.restoredWords (s : State) (g : CkptGen) : State :=
  let s2 := g.seqs.foldl (fun s q => s.restoreSeq q) s
  g.steps.foldl (fun s x => s.restoreWords x.1 ((s.img x.1).getD Image.reset) g.words) s2

/-- Every plan of a generation made ready to resume; none where a log has a gap (R391, R393). -/
def State.resumedPlans (s : State) (g : CkptGen) : Option State :=
  g.steps.foldl (fun (s : Option State) x => s.bind fun s => s.resumePart x.1 x.2) (some s)

/-- A restore whose plans can all resume enters phase 5 (R391). -/
theorem State.restoreGen_resumed (h : (s.restoredWords g).resumedPlans g = some t) :
    s.restoreGen g = { t with dig := { t.dig with recPhase := 5, fetched := [] } } := by
  unfold State.restoredWords State.resumedPlans at h
  simp only [State.restoreGen, h]

/-- A restore with a gap in a log fails with class 3 (R385). -/
theorem State.restoreGen_gap (h : (s.restoredWords g).resumedPlans g = none) :
    s.restoreGen g = (s.restoredWords g).recoveryFail 3 := by
  unfold State.restoredWords State.resumedPlans at h
  simp only [State.restoreGen, h]
  rfl

end

/-- Settles O29: data kept is `execCkptWrite_data`, data fetched `execCkptData_missing` or `_whole`. -/
theorem buddyPacketsComplete : Obligations.BuddyPacketsComplete := by
  refine ⟨?write, ?read, ?fetched, fun p s hk => ?bulk⟩
  case write =>
    intro p s hk s0 h mine keep items s1 whole
    refine ⟨fun h3 => ?_, fun h3 hw => ?_, fun h3 hw => ?_⟩
    · show execCkptWrite s = _
      simp only [execCkptWrite, hk]
      exact if_pos h3
    · exact (execCkptWrite_data hk h3).trans (if_neg (ne_true_of_eq_false hw))
    · exact (execCkptWrite_data hk h3).trans (if_pos hw)
  case read =>
    intro p s hk s0 h cuts send
    have hexec : exec .ckptRead s =
        if h.1 = 1 then .next (s0.sendItem 2 p.src 1 h.2.1 h.2.2.2.2.1
          (((s.dig.buddy.find? fun x => x.kind = 1 && x.tag = h.2.2.2.2.1 && x.whole).map (·.units)).getD []))
        else .next ((s.dig.buddy.filter fun x => x.kind = 0 && x.whole).foldl
          (fun s x => s.sendItem 2 p.src 0 x.part x.tag x.units) s0) := by
      show execCkptRead s = _
      simp only [execCkptRead, hk]
      rfl
    exact ⟨fun h1 => hexec.trans (if_pos h1), fun h1 => hexec.trans (if_neg h1)⟩
  case fetched =>
    intro p s hk h4 s0 items s1 found
    refine ⟨fun hn => execCkptData_missing hk h4 hn, fun y hy hu => ?_, fun y hy hu => ?_⟩
    · refine (execCkptData_whole hk h4 hy).trans (congrArg Host.Outcome.next (if_pos ?_))
      rw [hu, List.isEmpty_nil]
    · intro g s2 s3 r
      have hexec : exec .ckptData s = .next ((s1.adoptAsh items).restoreGen g) := by
        refine (execCkptData_whole hk h4 hy).trans (congrArg Host.Outcome.next (if_neg ?_))
        simpa using hu
      exact ⟨fun t ht => hexec.trans (congrArg Host.Outcome.next (State.restoreGen_resumed ht)),
        fun ht => hexec.trans (congrArg Host.Outcome.next (State.restoreGen_gap ht))⟩
  case bulk =>
    show execBulk s = _
    simp only [execBulk, hk]
    rfl

end Sys2Proof.Machine
end

section
/-! Step replay, relaunch and rollback: O30 (14_determinism_and_faults.md). -/

namespace Sys2Proof.Machine
open Sys2Proof

/-! ### Step replay (R386 to R388) -/

/-- STEP_REPLAY inside a hold, of a launched partition whose replay may be automatic. -/
structure State.ReplayReady (s : State) (p : Nat) (i : Image) : Prop where
  alive : s.alive = true
  depth : 0 < s.depth
  image : (s.pt p).stage.image = some i
  active : (s.pt p).state = 1#3
  launched : (s.pt p).launched ≠ none
  noStop : (s.pt p).faultStop = false
  auto : s.dig.cfgAuto = true
  noRollback : s.dig.recState ≠ 3#3

/-- STEP_REPLAY by what the words met call for (R386, R388). -/
theorem execStepReplay_ready {p : PartId} {i : Image} {s : State} (h : s.ReplayReady p i) :
    exec (.stepReplay p) s =
      if i.restartable = false then .next (if (s.poisonMet p).isEmpty then s else s.recoveryFail 4)
      else match s.recoveryNeeded p i with
        | .rollback => .next (s.wantRollback p)
        | .reload =>
          .next { s with dig := { s.dig with
            recState := 2
            recPart := BitVec.ofNat 4 p.val
            roNeeded := true
            roDone := false } }
        | .replay => .next (if 2 ≤ s.attempts p then s.wantRollback p else s.replayUnit p i) := by
  have hnone : (s.pt p).launched.isNone = false := 
    Option.isNone_eq_false_iff.mpr (Option.isSome_iff_ne_none.mpr h.launched)
  show execStepReplay p s = _
  simp only [execStepReplay, h.alive, h.depth.ne', h.image, h.active, hnone, h.noStop, h.auto, h.noRollback, ne_eq,
    not_true_eq_false, decide_false, Bool.not_true, Bool.or_self, Bool.false_eq_true, if_false, Bool.not_eq_true'] <;> rfl

/-! ### RO_DONE and the re-bound sets (R386, R391) -/

/-- With no re-bound set, nothing comes into force. -/
theorem State.settleRebound_none {s : State} (h : ∀ p < 16, (s.pt p).rebound = none) : s.settleRebound = s := by
  have hfold : (List.range 16).foldl (fun s p =>
      let b := s.pt p
      if b.rebound.isNone then s
      else if b.faultStop then s.endByRebind p
      else if b.launched.isNone || s.isTick p s.plan.geyser then s.takeRebound p
      else s) s = s :=
    foldl_eq_self fun p hp => if_pos (by simp [h p (List.mem_range.mp hp)])
  exact (congrArg (ite _ s) hfold).trans (ite_self s)

/-- Outside phase 1, and with no re-bound set, a rollback does not go on (R391). -/
theorem State.rollAdvance_idle {s : State} (hp : s.dig.recPhase ≠ 1) (h : ∀ p < 16, (s.pt p).rebound = none) :
    s.rollAdvance = s := by
  simp only [State.rollAdvance, State.settleRebound_none h, hp, ne_eq, not_false_eq_true, decide_true, Bool.true_or, if_true]

/-- RO_DONE where a reload is waited for (R386, R391). -/
theorem State.writeRoDone_needed {s : State} (hp : s.dig.recPhase ≠ 1) (h : ∀ p < 16, (s.pt p).rebound = none)
    (hn : s.dig.roNeeded = true) :
    s.writeRoDone =
      let s1 : State := { s with dig := { s.dig with roDone := true, roNeeded := false } }
      if s.dig.recState = 2#3 then
        match s.img s.dig.recPart.toNat with
        | some i => if 2 ≤ s1.attempts s.dig.recPart.toNat then s1.wantRollback s.dig.recPart.toNat
          else s1.replayUnit s.dig.recPart.toNat i
        | none => s1
      else if s.dig.recPhase = 3 then { s1 with dig := { s1.dig with recPhase := 4 } }
      else s1 := by
  simp only [State.writeRoDone, State.rollAdvance_idle hp h, hn, Bool.not_true, Bool.false_eq_true, if_false]
  rfl

/-! ### Rollback (R391) -/

/-- ROLLBACK called for, outside a rollback in progress (R391). -/
theorem execRollback_called {p : PartId} {env : BindEnv} {i : Image} {s : State} (ha : s.alive = true)
    (hi : (s.pt p).stage.image = some i) (hst : (s.pt p).state = 1#3) (hl : (s.pt p).launched ≠ none)
    (hcall : s.dig.recState = 3#3 ∨ s.map.declared ≠ [] ∨ ((s.pt p).faultStop = true ∧ s.dig.cfgRollback = true))
    (hphase : s.dig.recPhase = 0) (hpause : s.dig.ckptPausing = none) :
    exec (.rollback p env) s =
      let s1 : State := { s with dig := { s.dig with
        recState := 3
        recPhase := 1
        recPart := BitVec.ofNat 4 p.val
        recRanks := (s.pt p).stage.ranks
        fetched := []
        logReplayTo := []
        rollbacks := satInc s.dig.rollbacks } }
      if i.restartable = false then .next (s.recoveryFail 4) else .next (s1.startRun p true env) := by
  have hnone : (s.pt p).launched.isNone = false :=
    Option.isNone_eq_false_iff.mpr (Option.isSome_iff_ne_none.mpr hl)
  have hcalled : (decide (s.dig.recState = 3#3) || !s.map.declared.isEmpty || ((s.pt p).faultStop && s.dig.cfgRollback)) = true := by
    simpa [or_assoc] using hcall
  have hp : s.dig.ckptPausing.isSome = false := by simp [hpause]
  show execRollback p env s = _
  simp only [execRollback, hi, ha, hst, hnone, hcalled, hphase, hp, Nat.not_lt_zero, Nat.zero_ne_one, ne_eq, not_true_eq_false, decide_false, Bool.not_true,
    Bool.or_self, Bool.false_eq_true, if_false, Bool.not_eq_true']

/-! ### RESTORE_GEN (R391, R397) -/

/-- A write of RESTORE_GEN with no re-bind in progress: phase 4 starts, or nothing more (R397). -/
theorem State.writeRestoreGen_idle {s : State} {v : BitVec 32} (hp : s.dig.recPhase ≠ 1) (h : ∀ p < 16, (s.pt p).rebound = none) :
    s.writeRestoreGen v =
      let s1 : State := { s with dig := { s.dig with restoreGen := v } }
      if s.dig.recPhase = 4 then s1.phase4 else s1 := by
  have hadv : ({ s with dig := { s.dig with restoreGen := v } } : State).rollAdvance = { s with dig := { s.dig with restoreGen := v } } :=
    State.rollAdvance_idle hp h
  simp only [State.writeRestoreGen, hadv]

/-- Phase 4 of a rank that did not move: its own complete generation is restored, or the recovery fails (R391). -/
theorem State.phase4_own {s : State} (hm : (s.pt s.dig.recPart.toNat).stage.rankMoved = false) :
    s.phase4 = match s.dig.slots.toList.findSome? fun y => y.bind fun z =>
        if z.gen = s.dig.restoreGen && z.complete then some z else none with
      | some z => s.restoreGen z
      | none => s.recoveryFail 1 := by
  simp only [State.phase4, hm, Bool.not_false, if_true] <;> rfl

/-! ### A chip declared failed (R217, R220, R391, R394) -/

/-- What a new declaration leaves before a rollback is looked for: kept, spread, the checkpoint incomplete and the bind started
again. -/
def State.spreadDeclared (s : State) (a : BitVec 24) : State :=
  let ranks := ((List.range 16).flatMap fun p => (s.pt p).stage.ranks).eraseDups
  let s1 : State := { s with map := { s.map with
    declared := insertBy (fun x y => x.toNat < y.toNat) a s.map.declared
    chipState := if a = s.selfOrigin then 2 else s.map.chipState } }
  let s2 := (ranks.filter fun r => r ≠ s.selfOrigin && r ≠ a).foldl (fun s r => s.ventSend r (declareBody a)) s1
  let s3 : State := { s2 with dig := { s2.dig with ckptAbort := s2.dig.ckptAbort || s2.dig.ckptPausing.isSome } }
  s3.restartRun s.runDigest

section
variable {a : BitVec 24} {s : State} (ha : s.alive = true) (hmask : a &&& 0xFFFC00#24 = a) (hnew : a ∉ s.map.declared)
include ha hmask hnew

/-- A new declaration that calls for no rollback. -/
theorem execChipDeclaredFailed_none (h : (s.spreadDeclared a).dig.cfgAuto = false ∨
      a ∉ ((List.range 16).flatMap fun p => (s.pt p).stage.ranks).eraseDups ∨
      ((s.spreadDeclared a).launchedParts = [] ∧ (s.spreadDeclared a).dig.recPhase = 0)) :
    exec (.chipDeclaredFailed a) s = .next (s.spreadDeclared a) := by
  have hc : s.map.declared.contains a = false := by simpa using hnew
  have hquit : (!(s.spreadDeclared a).dig.cfgAuto || !(((List.range 16).flatMap fun p => (s.pt p).stage.ranks).eraseDups.contains a) ||
      ((s.spreadDeclared a).launchedParts.isEmpty && decide ((s.spreadDeclared a).dig.recPhase = 0))) = true := by
    simpa [or_assoc] using h
  unfold State.spreadDeclared at hquit ⊢
  show execChipDeclaredFailed a s = _
  simp only [execChipDeclaredFailed, hmask, ha, hc, Bool.not_true, Bool.or_self, Bool.false_eq_true, if_false]
  exact if_pos hquit

/-- A new declaration of a rank of a launched job, with no rollback in progress (R391, R394). -/
theorem execChipDeclaredFailed_rank {p : Nat} {ps : List Nat} (hauto : (s.spreadDeclared a).dig.cfgAuto = true)
    (hrank : a ∈ ((List.range 16).flatMap fun p => (s.pt p).stage.ranks).eraseDups)
    (hl : (s.spreadDeclared a).launchedParts = p :: ps) (hphase : (s.spreadDeclared a).dig.recPhase = 0) :
    exec (.chipDeclaredFailed a) s =
      let s4 := s.spreadDeclared a
      if s4.bothLost then .next (s4.recoveryFail 2)
      else if s4.restartParts.isEmpty then .next (s4.recoveryFail 4)
      else .next (((p :: ps).foldl (fun s q => s.modPt q fun b => { b with relaunchAt := none, resumeUnit := none }) s4).wantRollback p) := by
  have hc : s.map.declared.contains a = false := by simpa using hnew
  have hcr : (((List.range 16).flatMap fun p => (s.pt p).stage.ranks).eraseDups.contains a) = true := by simpa using hrank
  have hstay : (!(s.spreadDeclared a).dig.cfgAuto || !(((List.range 16).flatMap fun p => (s.pt p).stage.ranks).eraseDups.contains a) ||
      ((s.spreadDeclared a).launchedParts.isEmpty && decide ((s.spreadDeclared a).dig.recPhase = 0))) = false := by
    simp only [hauto, hcr, hl, List.isEmpty_cons, Bool.not_true, Bool.false_and, Bool.or_self]
  have hzero : ¬(s.spreadDeclared a).dig.recPhase ≠ 0 := not_not.mpr hphase
  have hmatch : (match (s.spreadDeclared a).launchedParts with
      | p :: _ =>
        if (s.spreadDeclared a).restartParts.isEmpty then Host.Outcome.next ((s.spreadDeclared a).recoveryFail 4)
        else .next (((s.spreadDeclared a).launchedParts.foldl (fun s q => s.modPt q fun b =>
          { b with relaunchAt := none, resumeUnit := none }) (s.spreadDeclared a)).wantRollback p)
      | [] => (.next (s.spreadDeclared a) : Host.Outcome State Fault Refusal)) =
        if (s.spreadDeclared a).restartParts.isEmpty then Host.Outcome.next ((s.spreadDeclared a).recoveryFail 4)
        else .next (((p :: ps).foldl (fun s q => s.modPt q fun b =>
          { b with relaunchAt := none, resumeUnit := none }) (s.spreadDeclared a)).wantRollback p) := by
    rw [hl]
  unfold State.spreadDeclared at hstay hzero hmatch ⊢
  show execChipDeclaredFailed a s = _
  simp only [execChipDeclaredFailed, hmask, ha, hc, Bool.not_true, Bool.or_self, Bool.false_eq_true, if_false]
  refine (if_neg (ne_true_of_eq_false hstay)).trans ?_
  exact congrArg (ite _ _) ((if_neg hzero).trans hmatch)

end

/-- Settles O30: each command is its equation above, with the case of its clause put in. -/
theorem recoveryCommandsComplete : Obligations.RecoveryCommandsComplete := by
  refine ⟨?replay, ?relaunch, ?roDone, ?rollback, ?restore, ?declared⟩
  case replay =>
    intro p i s ha hd hi hst hl hf hauto hrec want n entry lone g first s1 s2 same s3
    have hexec := execStepReplay_ready (p := p) ⟨ha, hd, hi, hst, hl, hf, hauto, hrec⟩
    have hready {t : State} (hr : i.restartable = true)
        (ht : (match s.recoveryNeeded p i with
          | .rollback => Host.Outcome.next (s.wantRollback p)
          | .reload =>
            .next { s with dig := { s.dig with
              recState := 2
              recPart := BitVec.ofNat 4 p.val
              roNeeded := true
              roDone := false } }
          | .replay => .next (if 2 ≤ s.attempts p then s.wantRollback p else s.replayUnit p i)) =
            (.next t : Host.Outcome State Fault Refusal)) :
        exec (.stepReplay p) s = .next t := by
      rw [hexec, if_neg (ne_false_of_eq_true hr)]
      exact ht
    refine ⟨fun hr hm => ?_, fun hr hn => hready hr ?_, fun hr hn => hready hr ?_, fun hr hn h2 => hready hr ?_,
      fun hr hn h2 hlone => hready hr ?_, fun hr hn h2 hlone => hready hr ?_⟩
    · rw [hexec, if_pos hr, if_neg (by simpa using hm)]
    · rw [hn]
      rfl
    · rw [hn]
    · rw [hn]
      exact congrArg Host.Outcome.next (if_pos h2)
    · rw [hn]
      exact congrArg Host.Outcome.next ((if_neg (Nat.not_le.mpr h2)).trans (if_pos hlone))
    · rw [hn]
      exact congrArg Host.Outcome.next ((if_neg (Nat.not_le.mpr h2)).trans (if_neg (ne_true_of_eq_false hlone)))
  case relaunch =>
    intro p i s ha hi hf hg s1
    have hexec : exec (.relaunch p) s = .next (s.relaunch p s.plan.geyser i) := by
      show execRelaunch p s = _
      simp only [execRelaunch, hg, hi, ha, hf, decide_true, Bool.not_false, Bool.and_self, if_true]
    refine ⟨fun hn => ?_, fun sv hsv => ?_⟩
    · rw [hexec]
      simp only [State.relaunch, hn]
      rfl
    · rw [hexec]
      simp only [State.relaunch, hsv]
      rfl
  case roDone =>
    intro i s hready hp hnone hneed p s1
    have hexec : exec .roDone s = .next s.writeRoDone := congrArg Host.Outcome.next (if_pos hready)
    rw [hexec, State.writeRoDone_needed hp hnone hneed]
    refine ⟨fun h2 hi hatt => congrArg Host.Outcome.next ((if_pos h2).trans ?_),
      fun h2 h3 => congrArg Host.Outcome.next ((if_neg h2).trans (if_pos h3))⟩
    rw [hi]
    exact if_neg (Nat.not_le.mpr hatt)
  case rollback =>
    intro p env i s ha hi hst hl hcall hphase hpause s1
    have hexec := execRollback_called (env := env) ha hi hst hl hcall hphase hpause
    refine ⟨fun hr => ?_, fun hr => hexec.trans (if_pos hr)⟩
    have hrun : exec (.rollback p env) s = .next (s1.startRun p true env) := hexec.trans (if_neg (ne_false_of_eq_true hr))
    refine ⟨hrun, fun hfw => hrun.trans (congrArg Host.Outcome.next (if_pos ?_)).symm⟩
    show (s.alive && s.top.fwReady) = true
    rw [ha, hfw]
    rfl
  case restore =>
    intro v s hready hp hnone s1 own
    have hexec : exec (.restoreGenWrite v) s = .next (s.writeRestoreGen v) := congrArg Host.Outcome.next (if_pos hready)
    have hwrite := State.writeRestoreGen_idle (v := v) hp hnone
    have h4 (h : s.dig.recPhase = 4) : exec (.restoreGenWrite v) s = .next s1.phase4 :=
      hexec.trans (congrArg Host.Outcome.next (hwrite.trans (if_pos h)))
    refine ⟨fun h => hexec.trans (congrArg Host.Outcome.next (hwrite.trans (if_neg h))), fun h hm => ?_, fun h _ => h4 h⟩
    have hown := State.phase4_own (s := s1) hm
    refine ⟨fun ho => ?_, fun z hz => ?_⟩
    · rw [h4 h, hown, show s1.dig.slots.toList.findSome? _ = none from ho]
    · rw [h4 h, hown, show s1.dig.slots.toList.findSome? _ = some z from hz]
  case declared =>
    intro a s ha hmask hnew ranks s1 s2 s3 s4
    refine ⟨fun h => execChipDeclaredFailed_none ha hmask hnew h, fun p ps hauto hrank hl hphase => ?_⟩
    have hexec := execChipDeclaredFailed_rank ha hmask hnew hauto hrank hl hphase
    refine ⟨fun hb => hexec.trans (if_pos hb), fun hb hr => ?_, fun hb hr => ?_⟩
    · exact hexec.trans ((if_neg (ne_true_of_eq_false hb)).trans (if_pos (List.isEmpty_iff.mpr hr)))
    · exact hexec.trans ((if_neg (ne_true_of_eq_false hb)).trans (if_neg (List.isEmpty_iff.not.mpr hr)))

end Sys2Proof.Machine
end

section
/-! The fabric's transmission, reception and Vent endpoint: O31, O32 and O33 (12_fabric.md, 13_link_layer.md). -/

namespace Sys2Proof.Machine
open Sys2Proof

/-! ### Transmission (R324, R327, R332, R333) -/

/-- The P packet that a slot of port `n` finds queued for its cell's owner (R324). -/
def State.slotPacket (s : State) (n i b : Nat) : Option PQueued :=
  let s1 := s.modLink n fun l => { l with fab := { l.fab with lastCell := b } }
  ((s.link n).fab.pQueue.find? fun q => !q.relay && some q.part = s1.cellOwner n i).filter fun q => decide (q.readyAt ≤ s.plan.geyser)

/-- P_SLOT_START at the begin of its cell: the slot is the packet's, or counted idle (R324). -/
theorem execPSlotStart_begin {n : PortId} {i b cells : Nat} {s : State} (hcell : s.cellNow = some (i, b, cells))
    (hrun : s.running = true) (hst : (s.link n).state = 5#3) (hb : s.plan.geyser = b) (hcode : (s.link n).fab.code i = 1)
    (hlast : (s.link n).fab.lastCell ≠ b) :
    exec (.pSlotStart n) s =
      let s1 := s.modLink n fun l => { l with fab := { l.fab with lastCell := b } }
      match s.slotPacket n i b with
      | none => .next (s1.modLink n fun l => { l with counters := { l.counters with pIdle := satInc l.counters.pIdle } })
      | some q =>
        if s1.runBytes (1 + (s.link n).fab.runLen 2 cells (i + 1)) < q.pkt.wire then .next (s1.slotOverrun n i q.pkt)
        else if (s1.link n).resendFrom.isSome then .next s1
        else if !(s1.link n).roomFor q.pkt then .next (s1.countStall n)
        else .next ((s1.takeP n q).transmit n q.pkt) := by
  show execPSlotStart n s = _
  simp only [execPSlotStart, hcell, hrun, hst, hb, hcode, hlast, ne_eq, not_true_eq_false, decide_false, Bool.not_true, Bool.or_self,
    Bool.false_eq_true, if_false, State.slotPacket, State.modLink_plan] <;> rfl

/-- The transmission of an open packet on a free port (R324, R332, R333). -/
theorem execOpenPacketTransmit_found {n : PortId} {c : Nat} {o : OQueued} {s : State} (hfree : s.portFree n = true)
    (hfirst : s.plannedFirst n = false)
    (hfound : ((s.classOrder n).1.findSome? fun c => (s.openHead n c).map fun o => (c, o)) = some (c, o))
    (hfits : s.running = true → ∀ left, s.openLeft n = some left → wireTime o.pkt.wire ≤ left * s.clkTu)
    (hroom : (s.link n).roomFor o.pkt = true) :
    exec (.openPacketTransmit n) s = .next (((s.modLink n fun l => { l with fab := { l.fab with
      openQ := l.fab.openQ.erase o
      rotation := if (s.classOrder n).2 then BitVec.ofNat 2 (c % 3 + 1) else l.fab.rotation } }).transmit n o.pkt).admitOpen n) := by
  have hfit : (!s.running || (match s.openLeft n with
      | some left => decide (wireTime o.pkt.wire ≤ left * s.clkTu)
      | none => true)) = true := by
    cases hr : s.running with
    | false => rfl
    | true =>
      cases hl : s.openLeft n with
      | none => rfl
      | some left => simpa using hfits hr left hl
  show execOpenPacketTransmit n s = _
  simp only [execOpenPacketTransmit, hfree, hfirst, hfound, hroom, Bool.not_true, Bool.or_self, Bool.false_eq_true, if_false]
  exact if_neg (by rw [Bool.not_eq_true, Bool.not_eq_false']; exact hfit)

/-- Settles O31: a slot is `execPSlotStart_begin`, an open packet `execOpenPacketTransmit_found`. -/
theorem fabricTransmissionComplete : Obligations.FabricTransmissionComplete := by
  refine ⟨?slot, ?relay, fun n c o s hfree hfirst hfound hfits hroom => execOpenPacketTransmit_found hfree hfirst hfound hfits hroom,
    fun n p s hn => ?sent⟩
  case slot =>
    intro n i b cells s hcell hrun hst hb hcode hlast s1 found room
    have hexec := execPSlotStart_begin hcell hrun hst hb hcode hlast
    refine ⟨fun h => ?_, fun q h hroom => ?_, fun q h hroom hre hfor => ?_⟩
    · rw [hexec, show s.slotPacket n i b = none from h]
    · rw [hexec, show s.slotPacket n i b = some q from h]
      exact if_pos hroom
    · rw [hexec, show s.slotPacket n i b = some q from h]
      refine (if_neg (Nat.not_lt.mpr hroom)).trans ((if_neg ?_).trans (if_neg ?_))
      · rw [show (s1.link n).resendFrom = none from hre]
        exact Bool.false_ne_true
      · rw [show (s1.link n).roomFor q.pkt = true from hfor]
        exact Bool.false_ne_true
  case relay =>
    intro n run q s hrun hhead hst hre hfit hroom
    show execRelayTransmit n s = _
    simp only [execRelayTransmit, hrun, hhead, hst, hre, hroom, Nat.not_lt.mpr hfit, ne_eq, not_true_eq_false, decide_false,
      Option.isSome_none, Bool.or_self, Bool.not_true, Bool.false_eq_true, if_false]
    rfl
  case sent =>
    intro l q
    refine ⟨?_, fun m hm hne => State.link_modLink_ne _ _ _ _ (Ne.symm hne)⟩
    simp only [State.transmit, State.link_modLink_same _ _ _ hn, wireTime]
    rfl

/-! ### Reception (R118, R320, R325 to R335) -/

section
variable {s : State} {n : Nat} {p : Packet} (hfit : (s.link n).fab.pArea ≥ s.poolUsed n 0 + p.stored)
include hfit

/-- A rank entry that is not valid raises F-0111 (R325). -/
theorem State.acceptP_invalid (hv : rkValid (s.rankEntry n (p.dest.toNat % 65536)) = false) :
    s.acceptP n p = s.faultHold (s.fault 0x111 9 (n + p.dest.toNat * 256)) := by
  simp only [State.acceptP, if_neg (Nat.not_lt.mpr hfit), hv, Bool.not_false, if_true, destObj]

variable (hv : rkValid (s.rankEntry n (p.dest.toNat % 65536)) = true)
include hv

/-- A packet whose rank ends here is kept under its key, unless the key is taken (R118, R127). -/
theorem State.acceptP_here (h19 : bit (s.rankEntry n (p.dest.toNat % 65536)) 19 = true) :
    s.acceptP n p = if s.recvDir.any fun d => d.ltile = p.ltile && d.tag = p.tag then
        s.faultHold (s.fault 0x30B 8 (n + p.ltile.toNat * 16 + p.tag.toNat * 4096))
      else
        let s1 := s.modLink n fun l => { l with fab := { l.fab with
          pool := l.fab.pool ++ [{ pkt := p, landedAt := s.plan.geyser, freeAt := none, relayPort := none }] } }
        { s1 with recvDir := s.recvDir ++ [{ ltile := p.ltile, tag := p.tag, port := n }] } := by
  simp only [State.acceptP, if_neg (Nat.not_lt.mpr hfit), hv, h19, Bool.not_true, Bool.false_eq_true, if_false, if_true]
  rfl

variable (h19 : bit (s.rankEntry n (p.dest.toNat % 65536)) 19 = false)
include h19

/-- A packet whose entry neither ends here nor goes on raises F-0111. -/
theorem State.acceptP_neither (h18 : bit (s.rankEntry n (p.dest.toNat % 65536)) 18 = false) :
    s.acceptP n p = s.faultHold (s.fault 0x111 9 (n + p.dest.toNat * 256)) := by
  simp only [State.acceptP, if_neg (Nat.not_lt.mpr hfit), hv, h19, h18, Bool.not_true, Bool.false_eq_true, if_false, destObj]

/-- A FAILED chip drops what it would relay (R217). -/
theorem State.acceptP_failed (h18 : bit (s.rankEntry n (p.dest.toNat % 65536)) 18 = true) (hc : s.map.chipState = 2#2) :
    s.acceptP n p = s.countDrop n := by
  simp only [State.acceptP, if_neg (Nat.not_lt.mpr hfit), hv, h19, h18, State.forwardsNone, hc, decide_true, Bool.not_true,
    Bool.false_eq_true, if_false, if_true]

/-- A relayed packet waits at its port (R327). -/
theorem State.acceptP_relay (h18 : bit (s.rankEntry n (p.dest.toNat % 65536)) 18 = true) (hc : s.map.chipState ≠ 2#2)
    (hrole : (s.link (field (s.rankEntry n (p.dest.toNat % 65536)) 17 14)).fab.role ≠ 3#2) :
    s.acceptP n p =
      let out := field (s.rankEntry n (p.dest.toNat % 65536)) 17 14
      (s.modLink n fun l => { l with fab := { l.fab with
        pool := l.fab.pool ++ [{ pkt := { p with relayed := true }, landedAt := s.plan.geyser, freeAt := none, relayPort := some out }] } }).queueP
          out { p with relayed := true } (s.plan.geyser + 16) true n 16 := by
  simp only [State.acceptP, if_neg (Nat.not_lt.mpr hfit), hv, h19, h18, State.forwardsNone, hc, hrole, decide_false, Bool.not_true,
    Bool.false_eq_true, if_false, if_true]
  rfl

end

section
variable {s : State} {n m : Nat} {p : Packet} (hn : n < 12)
include hn

/-- A packet routed to a port that is no boundary waits there (R329, R332). -/
theorem State.routeOpen_port (hr : s.route p n = .port m) (hc : s.map.chipState ≠ 2#2) :
    s.routeOpen p n =
      if (s.link m).fab.role = 3#2 then
        if p.clsN = 1 then s.faultHold (s.fault 0x112 9 (m + p.dest.toNat * 256)) else s.countDrop m
      else
        let o : OQueued := { OQueued.reset with
          pkt := p
          readyAt := s.wall + 16 * s.clkTu
          newRing := !(n / 2 = m / 2 && n ≠ m)
          via := n }
        (s.modLink m fun l => { l with fab := { l.fab with openQ := l.fab.openQ ++ [o] } }).admitOpen m := by
  simp only [State.routeOpen, hr, hn, State.forwardsNone, hc, decide_true, decide_false, Bool.and_false, Bool.false_eq_true, if_false,
    if_true, Bool.true_and, destObj]

/-- A packet without a route, or that a FAILED chip would forward, is dropped and counted (R217, R329). -/
theorem State.routeOpen_dropped (h : s.route p n = .nowhere ∨ (s.route p n = .port m ∧ s.map.chipState = 2#2)) :
    s.routeOpen p n = s.countDrop n := by
  obtain hr | ⟨hr, hc⟩ := h
  · simp only [State.routeOpen, hr, if_pos hn]
  · simp only [State.routeOpen, hr, hn, State.forwardsNone, hc, decide_true, Bool.and_self, if_true]

end

/-- FLAT_DATA's PORT field, its top four bits (R339). -/
theorem field_port (v : BitVec 32) : field v 31 28 = v.toNat / 2 ^ 28 := by
  have h := v.isLt
  simp only [field, Nat.shiftRight_eq_div_pow]
  omega

/-- Settles O32: acceptance is `State.acceptP` by its rank entry, an open packet's way `State.routeOpen` by its route. -/
theorem fabricReceptionComplete : Obligations.FabricReceptionComplete := by
  refine ⟨?planned, ?accept, fun n p s h => if_pos h, ?opened, fun n m p s hn => ?route, fun v s hready => ?flat, fun n v s hst => ?flow⟩
  case planned =>
    intro n p s hfind s1
    have hexec : exec (.pPacketReceive n) s =
        if !p.typeOk then .next (s1.countDrop n) else if s1.foreign n p then .next (s1.dropForeign n p) else .next (s1.acceptP n p) := by
      show execPPacketReceive n s = _
      simp only [execPPacketReceive, hfind]
      rfl
    refine ⟨fun ht => ?_, fun ht hf => ?_, fun ht hf => ?_⟩ <;> rw [hexec, ht]
    · rfl
    · rw [hf]
      rfl
    · rw [hf]
      rfl
  case accept =>
    intro n p s obj e hfit
    refine ⟨fun hv => State.acceptP_invalid hfit hv, fun hv h19 => ?_, fun hv h19 h18 => State.acceptP_neither hfit hv h19 h18,
      fun hv h19 h18 hc => State.acceptP_failed hfit hv h19 h18 hc, fun hv h19 h18 hc hr => State.acceptP_relay hfit hv h19 h18 hc hr⟩
    have hhere := State.acceptP_here hfit hv h19
    refine ⟨fun ⟨d, hd, hl, ht⟩ => hhere.trans (if_pos ?_), fun h => hhere.trans (if_neg ?_)⟩
    · exact List.any_eq_true.mpr ⟨d, hd, by simp [hl, ht]⟩
    · rw [List.any_eq_true]
      exact fun ⟨d, hd, hk⟩ => h d hd (by simpa using hk)
  case opened =>
    intro n p s hfind s1
    have hexec : exec (.openPacketReceive n) s = .next ((if !p.typeOk then s1.countDrop n
        else if s1.foreign n p then s1.dropForeign n p else s1.routeOpen p n).flowUpdate n) := by
      show execOpenPacketReceive n s = _
      simp only [execOpenPacketReceive, hfind]
      rfl
    refine ⟨fun ht => ?_, fun ht hf => ?_, fun ht hf => ?_⟩ <;> rw [hexec, ht]
    · rfl
    · rw [hf]
      rfl
    · rw [hf]
      rfl
  case route =>
    intro o
    refine ⟨fun hr => ?_, fun hr => ?_, fun h => State.routeOpen_dropped hn h, fun hr hc hrole => ?_, fun hr hc hrole => ?_⟩
    · simp only [State.routeOpen, hr]
    · simp only [State.routeOpen, hr, if_pos hn, destObj]
    · exact (State.routeOpen_port hn hr hc).trans (if_neg hrole)
    · exact (State.routeOpen_port hn hr hc).trans (if_pos hrole)
  case flat =>
    intro port i
    have hexec : exec (.flatDataWrite v) s = .next (s.writeFlat v) := congrArg Host.Outcome.next (if_pos hready)
    have hwrite : s.writeFlat v = if 12 ≤ port ∧ port ≤ 14 then s else { s with fab := { s.fab with
        exceptions := if v = 0xF0000000#32 then alDel i s.fab.exceptions else alSet i v s.fab.exceptions } } := by
      simp only [State.writeFlat, field_port, Bool.and_eq_true, decide_eq_true_eq]
      rfl
    exact ⟨fun h => hexec.trans (congrArg Host.Outcome.next (hwrite.trans (if_pos h))),
      fun h => hexec.trans (congrArg Host.Outcome.next (hwrite.trans (if_neg h)))⟩
  case flow =>
    refine ⟨if_neg (not_not.mpr hst), fun hsince => ?_⟩
    show execFlowRefresh n s = _
    simp only [execFlowRefresh, hst, Nat.not_lt.mpr hsince, ne_eq, not_true_eq_false, decide_false, Bool.or_self, Bool.false_eq_true,
      if_false]

/-! ### The Vent endpoint (R337, R419) -/

/-- A retry of a message that has tries left is sent under its epoch's key (R337, R420). -/
theorem State.ventTransmit_eq (s : State) (m : VentOut) :
    s.ventTransmit m = if s.mgmtKey m.epoch.toNat = none then s else
      (chunksOf 8128 8 m.body).zipIdx.foldl
        (fun s x => s.inject (s.ventPacket m.epoch m.dest m.msgId x.2 (chunksOf 8128 8 m.body).length x.1)) s := by
  simp only [State.ventTransmit, Option.isNone_iff_eq_none]

/-- Settles O33: a fragment by what it opens to, an acknowledgement, and a retry by its tries. -/
theorem ventMessagesComplete : Obligations.VentMessagesComplete := by
  refine ⟨?message, fun m k s hk => ?ack, ?retry⟩
  case message =>
    intro k s hk s0 b src msgId ident ack s1 r fail
    show execVentMessage s = _
    simp only [execVentMessage, hk]
    cases hopen : s0.ventOpen b with
    | none => rfl
    | some pt =>
      simp only [apply_ite Host.Outcome.next]
      rfl
  case ack =>
    show execVentAck m s = _
    simp only [execVentAck, hk]
    rfl
  case retry =>
    intro id m s hm m' s1 cuts
    have hexec : exec (.ventRetryTimeout id) s = if m.tries < 8 then .next (s1.ventTransmit m') else .next { s with vent := { s.vent with
        out := s.vent.out.erase m
        unreachable := s.vent.unreachable ++ [m.dest] } } := by
      show execVentRetryTimeout id s = _
      simp only [execVentRetryTimeout, hm]
      rfl
    refine ⟨fun ht hk => ?_, fun ht hk => ?_, fun ht => hexec.trans (if_neg (Nat.not_lt.mpr ht))⟩
    · exact (hexec.trans (if_pos ht)).trans (congrArg Host.Outcome.next ((State.ventTransmit_eq s1 m').trans (if_pos hk)))
    · exact (hexec.trans (if_pos ht)).trans (congrArg Host.Outcome.next ((State.ventTransmit_eq s1 m').trans (if_neg hk)))

end Sys2Proof.Machine
end

section
/-! Frame ticks and mirror pairs: O34 (01_architecture.md, 14_determinism_and_faults.md, 17_service_update_time_check.md). -/

namespace Sys2Proof.Machine
open Sys2Proof

/-! ### The frame tick (R29, R396, R463) -/

/-- FRAME_TICK at a tick of an active partition not yet taken. -/
theorem execFrameTick_due {p : PartId} {s : State} (ha : s.alive = true) (hst : (s.pt p).state = 1#3)
    (ht : s.isTick p s.plan.geyser = true) (hnew : (s.pt p).tickAt ≠ s.plan.geyser) :
    exec (.frameTick p) s =
      let s1 := s.modPt p fun b => { b with tickAt := s.plan.geyser }
      let s2 := if s1.framesSince p s.plan.geyser % 2 ^ s.time.tickLog2.toNat = 0 then s1.logEvent 1 p else s1
      .next ((if (s.pt p).relaunchAt.isSome then s2 else (s2.frameWork p).sendDigest p).conserve p) := by
  show execFrameTick p s = _
  simp only [execFrameTick, ha, hst, ht, hnew, ne_eq, not_true_eq_false, decide_false, Bool.not_true, Bool.or_self, Bool.false_eq_true,
    if_false]
  rfl

/-- A stream has its frame work done exactly where it does not run, or its FEND is executed and nothing of it is unfinished
(R29, R103). -/
theorem State.overrunPc_eq_none (s : State) (t g : Nat) (e : Eng) :
    s.overrunPc t e g = none ↔ (((s.tile t).stream e).running = false ∨
      ((((s.tile t).stream e).fendAt ≠ none ∨ ((s.tile t).stream e).halted = true) ∧
        ∀ f ∈ ((s.tile t).stream e).flights, ({ s := s, t := t, e := e, f := f } : Ctx).unfinished g = false)) := by
  unfold State.overrunPc
  cases hr : ((s.tile t).stream e).running with
  | false => simp [hr]
  | true =>
    cases hf : ((s.tile t).stream e).fendAt with
    | some f => simp [hr, hf]
    | none =>
      cases hh : ((s.tile t).stream e).halted with
      | false => simp [hr, hf, hh]
      | true => simp [hr, hf, hh]

section
variable {s : State} {p : Nat}

/-- The streams of a partition begin their next frame. -/
def State.nextFrames (s : State) (p : Nat) : State :=
  (s.tilesOf p).foldl (fun s t => s.modTile t fun x => { x with
    mx := x.mx.nextFrame
    vx := x.vx.nextFrame
    mv := x.mv.nextFrame }) s

/-- A frame whose work is complete only begins the next (R29). -/
theorem State.frameWork_complete (h : ∀ t ∈ s.tilesOf p, s.overrun t s.plan.geyser = none) : s.frameWork p = s.nextFrames p := by
  have hbad : ((s.tilesOf p).findSome? fun t => (s.overrun t s.plan.geyser).map fun x => (t, x.1, x.2)) = none :=
    List.findSome?_eq_none_iff.mpr fun t ht => by rw [h t ht, Option.map_none]
  simp only [State.frameWork, hbad]
  rfl

/-- A first tile whose work is not complete raises F-0301 (R29). -/
theorem State.frameWork_overrun {t : Nat} {x : Nat × Nat} {rest : List Nat} (ht : s.tilesOf p = t :: rest)
    (h : s.overrun t s.plan.geyser = some x) :
    s.frameWork p = (s.nextFrames p).faultHold
      (((s.nextFrames p).fault 0x301 1 x.2 (some p)).waits t x.1 (BitVec.ofNat 32 x.2)) := by
  have hbad : ((s.tilesOf p).findSome? fun t => (s.overrun t s.plan.geyser).map fun x => (t, x.1, x.2)) = some (t, x.1, x.2) := by
    rw [ht, List.findSome?_cons, h, Option.map_some]
  simp only [State.frameWork, hbad]
  rfl

/-- A partition whose identities all hold is left as it is (R396). -/
theorem State.conserve_kept (hports : ∀ n < 12, s.brokenPort n = []) (hpart : s.brokenPart p = []) (htable : s.tableOk = true) :
    s.conserve p = s := by
  have hnone : (List.range 12).flatMap s.brokenPort = [] :=
    List.flatMap_eq_nil_iff.mpr fun n hn => hports n (List.mem_range.mp hn)
  simp only [State.conserve, hnone, List.foldl_nil, hpart, htable, if_true]

/-- A plan without MIRROR sends no digest (R380). -/
theorem State.sendDigest_plain {i : Image} (hi : s.img p = some i) (hm : i.mirror = false) : s.sendDigest p = s := by
  simp only [State.sendDigest, hi, hm, Bool.not_false, if_true]

/-- A chip of a mirror pair sends its frame digest (R380). -/
theorem State.sendDigest_mirror {i : Image} (hi : s.img p = some i) (hm : i.mirror = true) :
    s.sendDigest p =
      let x := (s.pt p).stage
      let f : BitVec 32 := BitVec.ofNat 32 (s.frameNo p - 1)
      let es := s.frameEntries p f
      let s1 := s.toPartner x.copyB (s.sPacket 3 x.rank.toNat [digestUnit f es.length (frameDigest es) 0 0])
      { s1 with dig := { s1.dig with mirrorEnds := s1.dig.mirrorEnds ++ [(f, s1.plan.geyser + 2 * s1.frameLen p)] } } := by
  simp only [State.sendDigest, hi, hm, Bool.not_true, Bool.false_eq_true, if_false]

end

/-! ### Mirror digests (R380, R381) -/

/-- The partner's digest of a frame that has ended here is compared (R380, R381). -/
theorem execMirrorDigest_ended {k : Packet} {p : Nat} {s : State} (hk : s.digestPacket 0 = some k) (hp : s.mirrorPart = some p)
    (hend : ∃ e ∈ s.dig.mirrorEnds, e.1 = BitVec.ofNat 32 (field (k.payload.headD 0) 31 0)) :
    exec .mirrorDigest s =
      let u := k.payload.headD 0
      let f : BitVec 32 := BitVec.ofNat 32 (field u 31 0)
      let s1 := (s.consume k).mirrorDone f
      let es := s1.frameEntries p f
      if field u 63 32 = es.length ∧ field u 127 64 = (frameDigest es).toNat then
        .next { s1 with dig := { s1.dig with
          mirrorOk := f
          log := s1.dig.log.map fun e => if e.2.part.toNat = p ∧ e.2.frame = f then (e.1, { e.2 with compared := true }) else e } }
      else .next (s1.mirrorDiffers p f) := by
  have hany : (s.dig.mirrorEnds.any fun e => e.1 = BitVec.ofNat 32 (field (k.payload.headD 0) 31 0)) = true := by
    simpa [List.any_eq_true] using hend
  show execMirrorDigest s = _
  simp only [execMirrorDigest, hk, hp, hany, Bool.not_true, Bool.false_eq_true, if_false, Bool.and_eq_true, decide_eq_true_eq]

/-- Settles O34: the tick is `execFrameTick_due`, its parts the lemmas on them, and a digest `execMirrorDigest_ended`. -/
theorem frameTicksAndMirrorsComplete : Obligations.FrameTicksAndMirrorsComplete := by
  refine ⟨fun p s ha hst ht hnew => ?tick, ?parts, fun t g e s => State.overrunPc_eq_none s t g e,
    fun p t x rest s ht h => ?overrun, ?digest, ?entries, fun f s ha h => ?late⟩
  case tick =>
    intro s1 s2
    have hexec := execFrameTick_due ha hst ht hnew
    refine ⟨fun h => ?_, fun h => ?_⟩
    · rw [hexec, h]
      rfl
    · rw [hexec, Option.isSome_iff_ne_none.mpr h]
      rfl
  case parts =>
    intro p s x
    exact ⟨State.frameWork_complete, fun i hi hm => State.sendDigest_plain hi hm, fun i hi hm => State.sendDigest_mirror hi hm,
      fun hports hpart htable => State.conserve_kept hports hpart htable⟩
  case overrun =>
    rw [State.frameWork_overrun ht h, State.nextFrames, ht]
  case digest =>
    intro k p s hk hp u f s1 es same hend
    have hexec := execMirrorDigest_ended hk hp hend
    exact ⟨fun h => hexec.trans (if_pos h), fun h => hexec.trans (if_neg h)⟩
  case entries =>
    intro k p s hk hp s1 u f n bs d
    refine ⟨fun h => ?_, fun layer ltile hv hd => ?_⟩
    · show execMirrorEntries s = _
      simp only [execMirrorEntries, hk, hp]
      by_cases hv : s.dig.mismatchValid = true
      · exact if_pos hv
      · refine (if_neg hv).trans ?_
        rw [show firstDiff _ _ _ _ = none from h.resolve_left hv]
    · show execMirrorEntries s = _
      simp only [execMirrorEntries, hk, hp]
      refine (if_neg (ne_true_of_eq_false hv)).trans ?_
      rw [show firstDiff _ _ _ _ = some (layer, ltile) from hd]
  case late =>
    show execMirrorDigestLate f s = _
    have hany : (s.dig.mirrorEnds.any fun e => e.1 = f && e.2 ≤ s.plan.geyser) = true := by
      obtain ⟨e, he, h1, h2⟩ := h
      exact List.any_eq_true.mpr ⟨e, he, by simp [h1, h2]⟩
    simp only [execMirrorDigestLate, ha, hany, Bool.and_self, if_true]

end Sys2Proof.Machine
end

section
/-! Link acknowledgement, training, returns and spare lanes: O35, O36, O37 and O38 (13_link_layer.md). -/

namespace Sys2Proof.Machine
open Sys2Proof

/-! ### Changes of a port -/

/-- Two changes of a port are one. -/
theorem State.modLink_modLink {s : State} {n : Nat} (hn : n < 12) (f g : Link → Link) :
    (s.modLink n f).modLink n g = s.modLink n fun x => g (f x) := by
  simp only [State.modLink, vset_vset]
  exact congrArg (fun x => { s with links := vset s.links n (g x) }) (State.link_modLink_same s n f hn)

/-- A port of the ports all changed alike. -/
theorem vget_map {α : Type} {k : Nat} (v : Vector α k) (f : α → α) {i : Nat} (hi : i < k) (d : α) :
    vget (v.map f) i d = f (vget v i d) := by
  simp [vget, hi]

/-! ### Acknowledgement and replay (R349 to R353) -/

/-- A number in the window of unacknowledged numbers (R351). -/
theorem Link.windowOf_in {l : Link} {k : BitVec 16} (h : (k - l.txOldest).toNat ≤ (l.txNext - l.txOldest).toNat) :
    l.windowOf k = (some (k - l.txOldest).toNat, false) := if_pos h

/-- A number behind the window or in none (R351). -/
theorem Link.windowOf_out {l : Link} {k : BitVec 16} (h : (l.txNext - l.txOldest).toNat < (k - l.txOldest).toNat) :
    l.windowOf k = (none, decide (65536 - 4096 ≤ (k - l.txOldest).toNat)) := if_neg (Nat.not_le.mpr h)

/-- A packet is heard where none is missed, or the replay repeats it or an earlier one (R349, R353). -/
theorem Link.unheard_iff (l : Link) (d : Nat) :
    (l.lost && (!l.replaying || (decide (0 < d) && decide (d < 61440)))) = true ↔
      ¬(l.lost = false ∨ (l.replaying = true ∧ (d = 0 ∨ 61440 ≤ d))) := by
  cases l.lost <;> cases l.replaying <;> (simp; try omega)

/-- LINK_PACKET_CHECK of a packet that is heard, by its number (R349, R350, R357). -/
theorem execLinkPacketCheck_heard {n : PortId} {p : Packet} {s : State} (hst : (s.link n).state = 5#3) (ht : p.trailerOk = true)
    (hh : (s.link n).lost = false ∨ ((s.link n).replaying = true ∧ ((p.lseq - (s.link n).rxExpected).toNat = 0 ∨
      61440 ≤ (p.lseq - (s.link n).rxExpected).toNat))) :
    exec (.linkPacketCheck n p) s =
      let d := (p.lseq - (s.link n).rxExpected).toNat
      if d = 0 then
        if s.noRoom n p then .next (s.modLink n fun l => { l.nakOnce s.wall with
          lost := false
          counters := { l.counters with poolNak := satInc l.counters.poolNak } })
        else .next (s.acceptNext n p)
      else if d ≤ 4095 then .next (s.modLink n fun l => l.nakOnce s.wall)
      else if 61440 ≤ d then .next (s.modLink n fun l => { l.sendAck with lost := false })
      else .next (s.seqProtocol n p.lseq) := by
  have hheard := mt (Link.unheard_iff (s.link n) (p.lseq - (s.link n).rxExpected).toNat).mp (not_not.mpr hh)
  show execLinkPacketCheck n p s = _
  simp only [execLinkPacketCheck, hst, ht, ne_eq, not_true_eq_false, if_false, Bool.not_true, Bool.false_eq_true, if_neg hheard]

/-- Settles O35: ACK and NAK by the window of their number, a packet by `execLinkPacketCheck_heard`. -/
theorem linkAcknowledgementComplete : Obligations.LinkAcknowledgementComplete := by
  refine ⟨?window, ?check, fun n s hst => ⟨fun t ht hdue hr => ?timer, fun hp hdue => ?repeated, fun hz h => ?interval⟩⟩
  case window =>
    intro n v s hst l d w d1
    have hin {k : BitVec 16} (h : (k - l.txOldest).toNat ≤ w) : (s.link n).windowOf k = (some (k - l.txOldest).toNat, false) :=
      Link.windowOf_in h
    have hbehind {k : BitVec 16} (h : w < (k - l.txOldest).toNat) (hb : 65536 - 4096 ≤ (k - l.txOldest).toNat) :
        (s.link n).windowOf k = (none, true) :=
      (Link.windowOf_out h).trans (congrArg (Prod.mk none) (decide_eq_true hb))
    have hfar {k : BitVec 16} (h : w < (k - l.txOldest).toNat) (hf : (k - l.txOldest).toNat < 65536 - 4096) :
        (s.link n).windowOf k = (none, false) :=
      (Link.windowOf_out h).trans (congrArg (Prod.mk none) (decide_eq_false (Nat.not_le.mpr hf)))
    refine ⟨fun h => ?_, fun h hb => ?_, fun h hf => ?_, fun h => ?_, fun h hb => ?_, fun h hf => ?_, if_neg (not_not.mpr hst)⟩
    · show execAck n v s = _
      simp only [execAck, hst, hin h, ne_eq, not_true_eq_false, if_false]
    · show execAck n v s = _
      simp only [execAck, hst, hbehind h hb, ne_eq, not_true_eq_false, if_false]
    · show execAck n v s = _
      simp only [execAck, hst, hfar h hf, ne_eq, not_true_eq_false, if_false]
      rfl
    · show execNak n v s = _
      simp only [execNak, hst, hin h, ne_eq, not_true_eq_false, if_false]
      rfl
    · show execNak n v s = _
      simp only [execNak, hst, hbehind h hb, ne_eq, not_true_eq_false, if_false]
    · show execNak n v s = _
      simp only [execNak, hst, hfar h hf, ne_eq, not_true_eq_false, if_false]
      rfl
  case check =>
    intro n p s hst l d heard ix s1
    refine ⟨fun ht => ?_, fun ht hh => ?_, fun ht hh h0 hr => ?_, fun ht hh h0 hr => ?_, fun ht hh h1 h2 => ?_,
      fun ht hh h => ?_, fun ht hh h1 h2 => ?_⟩
    · show execLinkPacketCheck n p s = _
      simp only [execLinkPacketCheck, hst, ht, ne_eq, not_true_eq_false, if_false, Bool.not_false, if_true]
      rfl
    · show execLinkPacketCheck n p s = _
      simp only [execLinkPacketCheck, hst, ht, ne_eq, not_true_eq_false, if_false, Bool.not_true, Bool.false_eq_true]
      exact if_pos ((Link.unheard_iff l d).mpr hh)
    · refine (execLinkPacketCheck_heard hst ht hh).trans ((if_pos h0).trans ?_)
      rw [hr]
      rfl
    · exact (execLinkPacketCheck_heard hst ht hh).trans ((if_pos h0).trans (if_pos hr))
    · exact (execLinkPacketCheck_heard hst ht hh).trans ((if_neg (Nat.ne_of_gt h1)).trans (if_pos h2))
    · have h0 : d ≠ 0 := by omega
      have h2 : ¬d ≤ 4095 := by omega
      exact (execLinkPacketCheck_heard hst ht hh).trans ((if_neg h0).trans ((if_neg h2).trans (if_pos h)))
    · have h0 : d ≠ 0 := by omega
      have h3 : ¬d ≤ 4095 := by omega
      exact (execLinkPacketCheck_heard hst ht hh).trans
        ((if_neg h0).trans ((if_neg h3).trans (if_neg (Nat.not_le.mpr h2))))
  case timer =>
    have hr' : (s.link n).replay.isEmpty = false := by simpa using hr
    show execAckTimerExpiry n s = _
    simp only [execAckTimerExpiry, hst, ht, hdue, hr', ne_eq, not_true_eq_false, decide_false, decide_true, Bool.not_true, Bool.or_self,
      Bool.false_eq_true, if_false]
  case repeated =>
    show execNakRepeat n s = _
    simp only [execNakRepeat, hst, hp, Nat.not_lt.mpr hdue, ne_eq, not_true_eq_false, decide_false, Bool.not_true, Bool.or_self,
      Bool.false_eq_true, if_false]
  case interval =>
    have hdue : (decide (32 ≤ (s.link n).sinceAck) || (match (s.link n).ackAt with
        | some t => decide (t ≤ s.wall)
        | none => false)) = true := by
      obtain h | ⟨t, ht, hle⟩ := h
      · simp [h]
      · simp [ht, hle]
    show execAckInterval n s = _
    simp only [execAckInterval, hst, hz, ne_eq, not_true_eq_false, decide_false, Bool.or_self, Bool.false_or]
    exact if_neg (by rw [Bool.not_eq_true, Bool.not_eq_false']; exact hdue)

/-! ### Training (R360 to R364) -/

/-- The number that F-0101 gives a cause of going down (R363). -/
theorem DownCause.code_eq (c : DownCause) : c.code = match c with
    | .lockLost => 1
    | .uncorrectable => 2
    | .nakLimit => 3
    | .pattern => 4 := by
  cases c <;> rfl

/-- An ACTIVE port goes down (R363). -/
theorem State.goDown_active {s : State} {n : Nat} (cause : Nat) (hst : (s.link n).state = 5#3) :
    s.goDown n cause =
      let s1 := s.modLink n fun l => { l with
        inlineOut := []
        resendFrom := none
        catchUp := false
        replaySeen := false
        retraining := true
        calCount := 0
        trainAt := s.wall
        uncorrWin := []
        downHeld := l.downHeld || decide ((s.link n).fab.role = 1#2)
        lanes := { l.lanes with
          armed := none
          request := none
          verifying := none
          verifyBad := false }
        counters := { l.counters with retrains := satInc l.counters.retrains } }
      let s3 := (s1.setLinkState n 6).logFault (s1.fault 0x101 7 (n + cause * 16))
      if (s.link n).fab.role = 1#2 then s3.raiseCause 0x8 (.linkDown n) else s3 := by
  simp only [State.goDown, hst, ne_eq, not_true_eq_false, if_false, portObj]

/-- What the packets discarded leave of their own port (R362). -/
theorem State.discardPackets_link {s : State} {n : Nat} (hn : n < 12) :
    (s.discardPackets n).link n = { s.link n with
      replay := []
      resendFrom := none
      tAckAt := none
      nakPending := false
      replayUntil := none
      sinceAck := 0
      ackAt := none
      lost := false
      fab := { (s.link n).fab with
        pQueue := (s.link n).fab.pQueue.filter fun q => !(q.relay && q.via = n)
        openQ := (s.link n).fab.openQ.filter fun o => !(o.via = n && !o.inBuf)
        pool := []
        accepted := [] } } := by
  simp only [State.discardPackets, State.link_modLink_same _ _ _ hn]
  simp only [State.link, vget_map _ _ hn]

/-- The lanes that lock decide LANE_LOCK_TIMEOUT (R361). -/
theorem execLaneLockTimeout_due {n : PortId} {locked : BitVec 9} {s : State} (hst : (s.link n).state = 1#3)
    (hdue : (s.link n).trainAt + 20 * tuMs ≤ s.wall) :
    exec (.laneLockTimeout n locked) s = match (s.link n).lanes.lockWith locked with
      | some x => .next ((s.modLink n fun l => { l with lanes := x }).setLinkState n 2)
      | none => .next (s.modLink n fun l => { l with
          lanes := { l.lanes with locked := locked }
          trainAt := l.trainAt + 100 * tuMs }) := by
  show execLaneLockTimeout n locked s = _
  simp only [execLaneLockTimeout, hst, Nat.not_lt.mpr hdue, ne_eq, not_true_eq_false, decide_false, Bool.or_self, Bool.false_eq_true,
    if_false] <;> rfl

/-- Settles O36: going down is `State.goDown_active`, the register writes one operation each. -/
theorem linkTrainingComplete : Obligations.LinkTrainingComplete := by
  refine ⟨fun n c s hst => ?down, fun n s hst => ?uncorrectable, fun n s hn => ⟨State.discardPackets_link hn, rfl⟩,
    fun n s hready => ?writes, fun n stamp raw s ht hat hid => ?cal, fun n locked s hst hdue => ?lock⟩
  case down =>
    intro job s1 s2 code s3
    have hdown := State.goDown_active c.code hst
    rw [DownCause.code_eq] at hdown
    have hexec : exec (.linkDown n c) s = .next (if job then s3.raiseCause 0x8 (.linkDown n) else s3) :=
      congrArg Host.Outcome.next ((congrArg (s.goDown n) (DownCause.code_eq c)).trans hdown)
    exact ⟨fun h => hexec.trans (congrArg Host.Outcome.next (if_neg h)), fun h => hexec.trans (congrArg Host.Outcome.next (if_pos h))⟩
  case uncorrectable =>
    intro s1
    have hexec : exec (.uncorrectableCodeword n) s = .next (if 8 ≤ (s1.link n).uncorrWin.length then s1.goDown n 2 else s1) :=
      if_neg (not_not.mpr hst)
    exact ⟨fun h => hexec.trans (congrArg Host.Outcome.next (if_neg (Nat.not_le.mpr h))),
      fun h => hexec.trans (congrArg Host.Outcome.next (if_pos h))⟩
  case writes =>
    intro train
    have hon : exec (.linkEnable n true) s = .next (s.writeEnable n true) := congrArg Host.Outcome.next (if_pos hready)
    have hoff : exec (.linkEnable n false) s = .next (s.writeEnable n false) := congrArg Host.Outcome.next (if_pos hready)
    have hfull : exec (.fullTrain n) s = .next (s.fullTrainReq n) := congrArg Host.Outcome.next (if_pos hready)
    have hforce : exec (.forceRetrain n) s = .next (s.forceRetrain n) := congrArg Host.Outcome.next (if_pos hready)
    have htrain (t : State) (b : Bool) : t.startTraining n b = train t b := rfl
    refine ⟨fun h => ?_, fun h => ?_, hoff, fun h => ?_, fun h => ?_, fun h hr => ?_, ?_⟩
    · rw [hon, ← htrain]
      simp only [State.writeEnable, h, if_true, Bool.false_eq_true, if_false]
    · rw [hon]
      simp only [State.writeEnable, h, if_true]
    · rw [hfull, ← htrain]
      exact congrArg Host.Outcome.next (if_pos h)
    · exact hforce.trans (congrArg Host.Outcome.next (if_pos h))
    · exact hforce.trans (congrArg Host.Outcome.next ((if_neg h).trans (if_pos hr)))
    · refine (congrArg Host.Outcome.next (if_pos hready)).trans ?_
      simp only [State.declarePort, State.failPort, State.modLink_modLink n.isLt]
  case cal =>
    have hself : (!(s.link n).retraining && !s.pcie.selfValid) = false := by
      obtain h | h := hid <;> simp [h]
    show execCal n stamp raw s = _
    simp only [execCal, ht, hself, Nat.not_lt.mpr hat, decide_false, Bool.not_true, Bool.or_self, Bool.false_eq_true, if_false]
  case lock =>
    have hexec := execLaneLockTimeout_due (locked := locked) hst hdue
    exact ⟨fun x hx => by rw [hexec, hx], fun hn => by rw [hexec, hn]⟩

/-! ### Return to ACTIVE (R358 to R364) -/

/-- TRAINING_DONE of lanes that lock: by the wiring and the versions of the neighbour (R313, R361, R362). -/
theorem execTrainingDone_locked {n : PortId} {id : LinkIdent} {locked : BitVec 9} {x : LinkLanes} {s : State}
    (ht : (s.link n).training = true) (hr : (s.link n).retraining = false) (hv : s.pcie.selfValid = true)
    (hat : (s.link n).trainAt ≤ s.wall) (hcal : 256 ≤ (s.link n).calCount) (hx : (s.link n).lanes.lockWith locked = some x) :
    exec (.trainingDone n id locked) s =
      let s1 := ((s.modLink n fun l => { l with lanes := x }).passStates n 3).modLink n fun l => l.identified id
      if s1.wired n ≠ (id.addr, id.port.toNat) then .next (s1.wiringMismatch n id)
      else match commonVersion (s.link n) id with
        | none => .next ((s1.failPort n).logFault (s1.fault 0x107 7 (portObj n (id.verMin.toNat + id.verMax.toNat * 256))))
        | some v =>
          let s2 := s1.passStates n 4
          let s3 := s2.modLink n fun l => { l.goActive s2.wall with
            verUsed := v
            txNext := 0
            txOldest := 0
            rxExpected := 0
            rxAcked := 0
            downHeld := false
            ctlOut := []
            fab := { l.fab with
              role := if l.fab.role = 3#2 then 0 else l.fab.role
              xoffSent := 0
              xoffRcvd := 0 } }
          .next (((s3.setLinkState n 5).clearCause (.linkDown n)).flowUpdate n) := by
  show execTrainingDone n id locked s = _
  simp only [execTrainingDone, ht, hr, hv, Nat.not_lt.mpr hat, Nat.not_lt.mpr hcal, hx, decide_false, Bool.not_true, Bool.or_self,
    Bool.false_eq_true, if_false] <;> rfl

/-- RETRAIN_DONE of lanes that lock: by the neighbour and the pad (R359, R364). -/
theorem execRetrainDone_locked {n : PortId} {id : LinkIdent} {locked : BitVec 9} {x : LinkLanes} {s : State}
    (ht : (s.link n).training = true) (hr : (s.link n).retraining = true) (hat : (s.link n).trainAt ≤ s.wall)
    (hcal : 64 ≤ (s.link n).calCount) (hx : (s.link n).lanes.lockWith locked = some x) :
    exec (.retrainDone n id locked) s =
      let s1 := s.modLink n fun l => { l with lanes := x }
      if ¬((s.link n).neighbour = id.addr ∧ (s.link n).neighbourPort = id.port) then .next ((s1.passStates n 3).wiringMismatch n id)
      else match (s.link n).newPad with
        | none => .next ((s1.setLinkState n 6).logFault (s1.fault 0x106 7 (portObj n (s.link n).rawHold)))
        | some pad =>
          let s4 := s1.passStates n 4
          .next ((s4.modLink n fun l => { l.resume s4.wall with pad := pad }).setLinkState n 5) := by
  show execRetrainDone n id locked s = _
  simp only [execRetrainDone, ht, hr, Nat.not_lt.mpr hat, Nat.not_lt.mpr hcal, hx, decide_false, Bool.not_true, Bool.or_self,
    Bool.false_eq_true, if_false, ne_eq, Prod.mk.injEq] <;> rfl

/-- The pad that restores a recorded latency (R359). -/
theorem Link.newPad_recorded {l : Link} (h : l.calHold ≠ 0) :
    l.newPad = if l.rawHold ≤ l.calHold.toNat ∧ l.calHold.toNat - l.rawHold ≤ 2048 then
      some (BitVec.ofNat 12 (l.calHold.toNat - l.rawHold)) else none := by
  simp only [Link.newPad, if_neg h, Bool.and_eq_true, decide_eq_true_eq]

/-- Settles O37: a return to ACTIVE is `execTrainingDone_locked` or `execRetrainDone_locked`. -/
theorem linkReturnsComplete : Obligations.LinkReturnsComplete := by
  refine ⟨?trained, ?retrained, fun n s ht hr hdue => ?timeout, fun n pll s hst hc hrep hu hp => ?caughtUp, fun l => ?pad⟩
  case trained =>
    intro n id locked x s ht hr hv hat hcal hx s1 s2 r
    have hexec := execTrainingDone_locked (id := id) ht hr hv hat hcal hx
    refine ⟨fun hw => hexec.trans (if_pos hw), fun hw hver => ?_, fun v hw hver => ?_⟩
    · refine hexec.trans ((if_neg (not_not.mpr hw)).trans ?_)
      rw [hver]
      rfl
    · refine hexec.trans ((if_neg (not_not.mpr hw)).trans ?_)
      rw [hver]
      rfl
  case retrained =>
    intro n id locked x s ht hr hat hcal hx s1 s2 same s3 s4 r
    have hexec := execRetrainDone_locked (id := id) ht hr hat hcal hx
    refine ⟨fun hs => hexec.trans (if_pos hs), fun hs hp => ?_, fun pad hs hp => ?_⟩
    · refine hexec.trans ((if_neg (not_not.mpr hs)).trans ?_)
      rw [hp]
    · refine hexec.trans ((if_neg (not_not.mpr hs)).trans ?_)
      rw [hp]
      rfl
  case timeout =>
    show execRetrainTimeout n s = _
    simp only [execRetrainTimeout, ht, hr, Nat.not_lt.mpr hdue, decide_false, Bool.not_true, Bool.or_self, Bool.false_eq_true,
      if_false]
  case caughtUp =>
    have hpll : (s.isUpstream n && !pll) = false := by
      obtain h | h := hp <;> simp [h]
    show execLinkCatchUp n pll s = _
    simp only [execLinkCatchUp, hst, hc, hrep, hu, hpll, ne_eq, not_true_eq_false, decide_false, Bool.not_true, Option.isSome_none,
      Bool.or_self, Bool.false_eq_true, if_false]
  case pad =>
    exact ⟨fun h0 h1 h2 => (Link.newPad_recorded h0).trans (if_pos ⟨h1, h2⟩),
      fun h0 h => (Link.newPad_recorded h0).trans (if_neg (by omega))⟩

/-! ### Spare lanes (R365 to R367) -/

/-- LANE_SWAP_VERIFY once 256 codewords have come (R366, R367). -/
theorem execLaneSwapVerify_due {n : PortId} {good : Bool} {lane : BitVec 4} {start : Nat} {s : State} (hst : (s.link n).state = 5#3)
    (hv : (s.link n).lanes.verifying = some (lane, start)) (hdue : start + 256 ≤ (s.link n).rxCodewords) :
    exec (.laneSwapVerify n good) s =
      let s1 := (s.modLink n fun l => { l with
        lastCtl := .lane 4 lane
        lanes := { l.lanes with
          replaced := 0xF
          verifying := none } }).goDown n 2
      if good && !(s.link n).lanes.verifyBad then .next ((s.modLink n fun l => { l with
        downHeld := false
        ctlOut := l.ctlOut ++ [.lane 3 lane]
        lanes := { l.lanes with verifying := none } }).clearCause (.linkDown n))
      else .next (s1.logFault (s1.fault 0x109 7 (n + lane.toNat * 16))) := by
  show execLaneSwapVerify n good s = _
  simp only [execLaneSwapVerify, hst, hv, Nat.not_lt.mpr hdue, ne_eq, not_true_eq_false, decide_false, Bool.or_self,
    Bool.false_eq_true, if_false]
  rfl

/-- Settles O38: each symbol and register write of a spare lane is one operation on the port. -/
theorem spareLanesComplete : Obligations.SpareLanesComplete := by
  refine ⟨fun n counts k s hst => if_neg (not_not.mpr hst), fun n lane s => ?degrades, fun n s hready hst hf hw hsel => ?request,
    fun n i s hst => ⟨if_neg (not_not.mpr hst), fun hreq => ?ack, if_neg (not_not.mpr hst), rfl⟩, fun n lane s hst hreq hdue => ?retry,
    ?swap, ?verify⟩
  case degrades =>
    intro x
    refine ⟨fun h => if_pos (by rw [h]; rfl), fun h ha hw => ?_, fun h hq => ?_⟩
    · exact (if_neg (by rw [h]; decide)).trans (if_pos (by rw [ha, hw]; rfl))
    · refine (if_neg (by rw [h]; decide)).trans (if_neg ?_)
      obtain ha | hw := hq
      · rw [ha]
        exact Bool.false_ne_true
      · rw [hw]
        simp
  case request =>
    have hguard : (decide ((s.link n).state = 5#3) && (s.link n).lanes.spareFree && !(s.link n).lanes.swapping &&
        decide ((s.link n).lanes.sel.toNat < 8)) = true := by
      simp [hst, hf, hw, hsel]
    exact (congrArg Host.Outcome.next (if_pos hready)).trans (congrArg Host.Outcome.next (if_pos hguard))
  case ack =>
    show execLaneAck n i s = _
    simp only [execLaneAck, hst, hreq, ne_eq, not_true_eq_false, decide_false, Bool.or_self, Bool.false_eq_true, if_false]
  case retry =>
    show execLaneSymbolRetry n s = _
    simp only [execLaneSymbolRetry, hst, hreq, Nat.not_lt.mpr hdue, ne_eq, not_true_eq_false, decide_false, Bool.or_self,
      Bool.false_eq_true, if_false, State.requestLane, BitVec.ofNat_toNat, BitVec.setWidth_eq]
  case swap =>
    intro n lane s hst harm s1
    refine ⟨fun hjob htick => ?_, fun hjob => ?_⟩
    · show execLaneSwap n s = _
      simp only [execLaneSwap, hst, harm, htick, ne_eq, not_true_eq_false, decide_false, Bool.not_true, Bool.and_false, Bool.or_self,
        Bool.false_eq_true, if_false, if_pos hjob]
      rfl
    · show execLaneSwap n s = _
      simp only [execLaneSwap, hst, harm, decide_eq_false hjob, ne_eq, not_true_eq_false, decide_false, Bool.false_and, Bool.or_self,
        Bool.false_eq_true, if_false, if_neg hjob, s1]
  case verify =>
    intro n good lane start s hst hv hdue ok s1
    have hexec := execLaneSwapVerify_due (good := good) hst hv hdue
    exact ⟨fun h => hexec.trans (if_pos h), fun h => hexec.trans (if_neg (ne_true_of_eq_false h))⟩

end Sys2Proof.Machine
end

section
/-! Partitions, Wings and Curtains: O39 and O40 (15_partitions_and_security.md, 02_plan_time_and_statue_hold.md,
11_synchronisation.md). -/

namespace Sys2Proof.Machine
open Sys2Proof

/-! ### Partitions (R399 to R412) -/

/-- An enable by what its check finds (R400). -/
theorem State.checkEnable_eq (s : State) (p : Nat) :
    s.checkEnable p = match s.enableFails p (s.pt p).res with
      | some f => (s.logFault (s.fault 0x601 0xE (p + f * 256) (some p))).setPartState p 0
      | none => if s.enableWaits p (s.pt p).res then s.setPartState p 4
        else (((s.rng 512).2.modPt p fun b => { b with
          keys := { PartKeys.reset with xts := vset b.keys.xts 0 (some (s.rng 512).1) } }).modBd p fun b => { b with
            base := (s.pt p).res.bktBase
            count := (s.pt p).res.bktCount }).setPartState p 1 := by
  unfold State.checkEnable
  rfl

/-- PART_ENABLE of an OFF partition puts the pending copy in force and checks it (R400, R401). -/
theorem exec_partEnable_off {p : PartId} {s : State} (hready : s.ready = true) (h : (s.pt p).state = 0#3) :
    exec (.partEnable p) s = .next (s.enable p) :=
  congrArg Host.Outcome.next ((if_pos hready).trans (if_pos h))

/-- SCRUB_DONE once the scrub's time has passed (R410, R411). -/
theorem execScrubDone_over {p : PartId} {fails : List (StackId × ChId)} {s : State} (ha : s.alive = true)
    (hst : (s.pt p).state = 2#3 ∨ (s.pt p).state = 3#3) (hend : (s.pt p).scrubEnd ≤ s.wall) :
    exec (.scrubDone p fails) s =
      let s1 := (fails.filter fun x => (s.pt p).res.slice.getLsbD x.2.val).foldl (fun s x => s.scrubFailed p x.1 x.2) (s.erase p)
      .next (if (s.pt p).state = 3#3 then s1.enable p else s1.setPartState p 0).retryWaiting.continueRun := by
  have hs : (decide ((s.pt p).state = 2#3) || decide ((s.pt p).state = 3#3)) = true := by
    simpa using hst
  show execScrubDone p fails s = _
  simp only [execScrubDone, ha, hs, Nat.not_lt.mpr hend, decide_false, Bool.not_true, Bool.or_self, Bool.false_eq_true, if_false]

/-- Settles O39: an enable is `State.checkEnable_eq`, a teardown `State.beginScrub`, the end of a scrub `execScrubDone_over`. -/
theorem partitionsComplete : Obligations.PartitionsComplete := by
  refine ⟨?enable, fun p s hready => ?writes, fun p fails s ha hend => ?scrub, fun p k c s => rfl⟩
  case enable =>
    intro p s hready h0 r s1
    have hres : (s1.pt p).res = r := by
      simp only [s1, State.pt_modPt_same _ _ _ p.isLt]
    have hexec : exec (.partEnable p) s = .next (s1.checkEnable p) := exec_partEnable_off hready h0
    rw [State.checkEnable_eq, hres] at hexec
    refine ⟨fun f hf => ?_, fun hf hw => ?_, fun hf hw => ?_⟩
    · rw [hexec, hf]
    · rw [hexec, hf]
      exact congrArg Host.Outcome.next (if_pos hw)
    · rw [hexec, hf]
      exact congrArg Host.Outcome.next (if_neg (ne_true_of_eq_false hw))
  case writes =>
    have hon : exec (.partEnable p) s = .next (s.partEnable p) := congrArg Host.Outcome.next (if_pos hready)
    have hoff : exec (.teardown p) s = .next (s.partDisable p) := congrArg Host.Outcome.next (if_pos hready)
    refine ⟨fun h => ?_, fun h => ?_, fun h => ?_, fun h => ?_⟩
    · rw [hon]
      simp only [State.partEnable, h]
      rfl
    · intro s1 s2 s3 s4 s5
      exact hoff.trans (congrArg Host.Outcome.next (if_pos h))
    · rw [hoff]
      simp only [State.partDisable, h]
      rfl
    · rw [hoff]
      simp only [State.partDisable, h]
      rfl
  case scrub =>
    intro s1
    refine ⟨fun h => ?_, fun h => ?_⟩
    · have h3 : ¬(s.pt p).state = 3#3 := by
        rw [h]
        decide
      exact (execScrubDone_over ha (Or.inl h) hend).trans
        (congrArg (fun t : State => Host.Outcome.next t.retryWaiting.continueRun) (if_neg h3))
    · exact (execScrubDone_over ha (Or.inr h) hend).trans
        (congrArg (fun t : State => Host.Outcome.next t.retryWaiting.continueRun) (if_pos h))

/-! ### Wings and Curtains (R403 to R409) -/

/-- WINGS_LOAD of an active partition with no load running (R404, R409). -/
theorem State.wingsGo_idle {s : State} {p : Nat} (hst : (s.pt p).state = 1#3) (hn : (s.pt p).wlRunning = none) :
    s.wingsGo p =
      let s1 := s.modPt p fun b => { b with wlRunning := some (b.wlAddr, b.wlLen, b.wlTarget) }
      if (s.pt p).wingsState = 5#3 then s1.setWings p 6 else s1.beginLoad p := by
  simp only [State.wingsGo, hst, hn, ne_eq, not_true_eq_false, decide_false, Option.isSome_none, Bool.or_self, Bool.false_eq_true,
    if_false]

/-- WINGS_LOAD_DONE of a running load, by what it brought (R404). -/
theorem execWingsLoadDone_running {p : PartId} {r : LoadResult} {run : BitVec 64 × BitVec 32 × Bool} {s : State} (ha : s.alive = true)
    (hr : (s.pt p).wlRunning = some run) (hw : (s.pt p).wingsState = 1#3) :
    exec (.wingsLoadDone p r) s =
      let s1 := s.modPt p fun x => { x with wlRunning := none }
      match loadInto (s.pt p).wings run r with
      | none => .next ((s1.loadFailed p (r = .error)).signal 0 4)
      | some w =>
        let s2 := s1.modPt p fun x => { x with wings := w }
        .next ((if w.image.isSome && w.params.isSome then s2.setWings p 2 else s2).signal 0 4) := by
  show execWingsLoadDone p r s = _
  simp only [execWingsLoadDone, hr, ha, hw, ne_eq, not_true_eq_false, decide_false, Bool.not_true, Bool.or_self, Bool.false_eq_true,
    if_false] <;> rfl

/-- An arm of a launched plan whose Wings are BOUND, by its count (R31, R406). -/
theorem State.curtainArm_launched {s : State} {p : Nat} (hw : (s.pt p).wingsState = 4#3) (hl : (s.pt p).launched ≠ none) :
    s.curtainArm p =
      let g := (s.pt p).curtainAt.toNat
      if (s.isTick p g && (decide (s.stepFrames p = 0) || s.isBoundary p g)) = false then s.rejectCurtain p g
      else if g < s.plan.geyser then s.faultHold (s.fault 0x304 0xC (g % 2 ^ 32) (some p) 0)
      else (s.modPt p fun x => { x with curtainArm := some g }).setWings p 5 := by
  have hnone : (s.pt p).launched.isNone = false := Option.isNone_eq_false_iff.mpr (Option.isSome_iff_ne_none.mpr hl)
  have hbad (a b : Bool) (n : Nat) : (!a || (decide (0 < n) && !b)) = true ↔ (a && (decide (n = 0) || b)) = false := by
    cases a <;> cases b <;> simp [Nat.pos_iff_ne_zero]
  simp only [State.curtainArm, hw, hnone, ne_eq, not_true_eq_false, if_false, Bool.false_eq_true, hbad, State.tickPassed]

/-- CURTAIN at its tick, with no record of it left: by the sync state and the images (R306, R407, R408). -/
theorem execCurtain_reached {p : PartId} {c : Nat} {s : State} (ha : s.alive = true) (harm : (s.pt p).curtainArm = some c)
    (hg : s.plan.geyser = c) (hr : s.recordLeft c = false) :
    exec (.curtain p) s = match firstSync (s.openSync p) with
      | some x => .next (s.curtainOpen p x)
      | none => .next (if (s.pt p).sameImage then s.paramCurtain p else s.imageCurtain p c) := by
  show execCurtain p s = _
  simp only [execCurtain, harm, hg, ha, hr, ne_eq, not_true_eq_false, decide_false, Bool.not_true, Bool.or_self, Bool.false_eq_true,
    if_false] <;> rfl

/-- The end of an image Curtain's pause (R408). -/
theorem execCurtainPauseEnd_over {p : PartId} {ready : Bool} {e c : Nat} {s : State} (ha : s.alive = true)
    (hp : (s.pt p).curtainPause = some (e, c)) (he : e ≤ s.wall) :
    exec (.curtainPauseEnd p ready) s =
      let s1 := (s.modPt p fun b => { b with curtainPause := none }).startTiles p
      .next (if ready then s1 else s1.raiseCause 1 (.preload p)) := by
  show execCurtainPauseEnd p ready s = _
  simp only [execCurtainPauseEnd, hp, ha, Nat.not_lt.mpr he, decide_false, Bool.not_true, Bool.or_self, Bool.false_eq_true, if_false]

/-- A Curtain of a plan that does not serve ends no step (R267). -/
theorem State.endServing_none {s : State} {p : Nat} (h : (s.img p).bind (·.serving) = none) : s.endServing p = s := by
  have hnone : ((s.img p).bind fun i => i.serving.map fun sv => (i, sv)) = none := by
    cases hi : s.img p with
    | none => rfl
    | some i =>
      have hs : i.serving = none := by simpa [hi] using h
      simp [hs]
  simp only [State.endServing, hnone]

/-- Settles O40: a load is `State.wingsGo_idle` and `execWingsLoadDone_running`, an arm `State.curtainArm_launched`, a Curtain
`execCurtain_reached`. -/
theorem wingsAndCurtainsComplete : Obligations.WingsAndCurtainsComplete := by
  refine ⟨?load, ?loaded, ?arm, ?curtain, ?exchange, ?pauseEnd, ?preload⟩
  case load =>
    intro p s hready hst hn s1
    have hexec : exec (.wingsLoad p) s = .next (s.wingsGo p) := congrArg Host.Outcome.next (if_pos hready)
    exact ⟨fun h => hexec.trans (congrArg Host.Outcome.next ((State.wingsGo_idle hst hn).trans (if_pos h))),
      fun h => hexec.trans (congrArg Host.Outcome.next ((State.wingsGo_idle hst hn).trans (if_neg h)))⟩
  case loaded =>
    intro p r run s ha hr hw s1
    have hexec := execWingsLoadDone_running (r := r) ha hr hw
    refine ⟨fun h => ?_, fun w h => ?_⟩
    · rw [hexec, h]
    · rw [hexec, h]
  case arm =>
    intro p s hready g s1 reject
    have hexec : exec (.curtainArm p) s = .next (s.curtainArm p) := congrArg Host.Outcome.next (if_pos hready)
    refine ⟨fun h => hexec.trans (congrArg Host.Outcome.next (if_pos h)), fun hw hl => ?_, fun hw hl => ?_⟩
    · rw [hexec]
      simp only [State.curtainArm, hw, hl]
      rfl
    · intro ok
      have harm := State.curtainArm_launched hw hl
      refine ⟨fun h => ?_, fun h hg => ?_, fun h hg => ?_⟩
      · exact hexec.trans (congrArg Host.Outcome.next (harm.trans (if_pos h)))
      · exact hexec.trans (congrArg Host.Outcome.next (harm.trans ((if_neg (ne_false_of_eq_true h)).trans (if_pos hg))))
      · exact hexec.trans (congrArg Host.Outcome.next
          (harm.trans ((if_neg (ne_false_of_eq_true h)).trans (if_neg (Nat.not_lt.mpr hg)))))
  case curtain =>
    intro p c s ha harm hg hr
    have hexec := execCurtain_reached ha harm hg hr
    refine ⟨fun x hx => ?_, fun hx hs => ?_, fun hx hs => ?_⟩
    · rw [hexec, hx]
      rfl
    · rw [hexec, hx]
      exact congrArg Host.Outcome.next (if_pos hs)
    · rw [hexec, hx]
      exact congrArg Host.Outcome.next (if_neg (ne_true_of_eq_false hs))
  case exchange =>
    intro p s hserv b s1 s2 s3 s4
    unfold State.exchange
    rw [State.endServing_none hserv] <;> rfl
  case pauseEnd =>
    intro p ready e c s ha hp he s1
    exact execCurtainPauseEnd_over ha hp he
  case preload =>
    intro p s hp
    show execCurtainPauseEnd p true s = _
    simp only [execCurtainPauseEnd, hp, if_true]

end Sys2Proof.Machine
end

section
/-! The PCI Express endpoint, reset and power: O41 and O42 (16_host_interface.md, 19_electrical_and_package.md). -/

namespace Sys2Proof.Machine
open Sys2Proof

/-- A command of a part out of reset does what stands behind its first test. -/
theorem ite_not_of_true {α : Type} {b : Bool} (hb : b = true) (x y : α) : (if !b then x else y) = y :=
  if_neg (by simp only [hb, Bool.not_true, Bool.false_eq_true, not_false_eq_true])

/-- The first test fails. -/
theorem ite_not_of_false {α : Type} {b : Bool} (hb : b = false) (x y : α) : (if !b then x else y) = x :=
  if_pos (by simp only [hb, Bool.not_false])

/-! ### The endpoint (R424 to R439) -/

/-- A request for D3hot enters it, or leaves it pending (R426). -/
theorem exec_d3hotRequest_alive {s : State} (ha : s.alive = true) :
    exec .d3hotRequest s = .next (if s.allOff then s.enterD3 else s.modFn 0 fun x => { x with d3Pending := true }) :=
  ite_not_of_true ha _ _

/-- The oldest queued write of a bus master leaves while the link is up (R432, R434, R435). -/
theorem exec_outboundQueueSend_some {f : FnId} {w : OutWrite} {s : State} (ha : s.alive = true) (hup : s.pcie.up = true)
    (hbme : (s.fn f).bme = true) (hw : (s.pcie.outq.find? fun w => w.fn = f.val) = some w) :
    exec (.outboundQueueSend f) s = .next { s with pcie := { s.pcie with
      outq := s.pcie.outq.erase w
      sent := [w] } } := by
  show execOutboundQueueSend f s = _
  simp only [execOutboundQueueSend, hw, ha, hup, hbme, Bool.not_true, Bool.or_self, Bool.false_eq_true, if_false]

/-- Training ends at a speed and width of the endpoint (R424). -/
theorem exec_pcieLinkUp_training {speed : BitVec 3} {width : BitVec 5} {flit : Bool} {s : State} (ha : s.alive = true)
    (ht : s.pcie.training = true) (h1 : 1 ≤ speed.toNat) (h6 : speed.toNat ≤ 6) (hw : width.toNat ∈ [1, 2, 4, 8, 16])
    (hf : speed = 6#3 → flit = true) :
    exec (.pcieLinkUp speed width flit) s = .next { s with pcie := { s.pcie with
      up := true
      training := false
      speed := speed
      width := width
      flit := flit } } := by
  have hflit : (flit || decide (speed ≠ 6#3)) = true := by
    by_cases h : speed = 6#3
    · rw [hf h, Bool.true_or]
    · rw [decide_eq_true h, Bool.or_true]
  show execPcieLinkUp speed width flit s = _
  simp only [execPcieLinkUp, ha, ht, h1, h6, hflit, List.contains_iff_mem.mpr hw, decide_true, Bool.and_self, Bool.not_true, Bool.or_self,
    Bool.false_eq_true, if_false]

/-- Settles O41: each command of a part out of reset does what stands behind its first test. -/
theorem hostLinkCommandsComplete : Obligations.HostLinkCommandsComplete :=
  ⟨fun _ _ ha => ite_not_of_true ha _ _,
    fun _ ha => ite_not_of_true ha _ _,
    fun _ _ ha => ⟨ite_not_of_true ha _ _, fun _ => ite_not_of_true ha _ _⟩,
    fun _ => ⟨fun ha hoff => (exec_d3hotRequest_alive ha).trans (congrArg Host.Outcome.next (if_pos hoff)),
      fun ha hoff => (exec_d3hotRequest_alive ha).trans (congrArg Host.Outcome.next (if_neg (ne_true_of_eq_false hoff))),
      fun hp hoff => congrArg Host.Outcome.next (if_pos (by rw [hp, hoff, Bool.and_self]))⟩,
    fun _ _ ha => ite_not_of_true ha _ _,
    fun _ _ _ ha hup hbme hw => exec_outboundQueueSend_some ha hup hbme hw,
    fun _ _ _ _ ha ht h1 h6 hw hf => exec_pcieLinkUp_training ha ht h1 h6 hw hf⟩

/-! ### Reset, rails, clocks and temperatures (R499 to R508) -/

/-- A tile's reset scrub ends (R59). -/
theorem exec_tileResetScrubDone_due {t : TileId} {s : State} (ha : s.alive = true) (hb : s.fwu.booted = true)
    (hst : (s.tile t).state = 1#3) (hs : (s.tile t).scrubbed = false) :
    exec (.tileResetScrubDone t) s =
      let s1 := s.modTile t Tile.scrub
      .next ({ s1 with top := { s1.top with
        scrubbed := s1.top.scrubbed || s1.tilesScrubbed } } : State).retryWaiting.continueRun := by
  show execTileResetScrubDone t s = _
  simp only [execTileResetScrubDone, ha, hb, hst, hs, ne_eq, not_true_eq_false, decide_false, Bool.not_true, Bool.or_self,
    Bool.false_eq_true, if_false]

/-- A stack's reset scrub ends (R501). -/
theorem exec_stackResetScrubDone_due {k : StackId} {s : State} (ha : s.alive = true) (hst : (s.stk k).state = 2#2)
    (hs : (s.stk k).scrubbed = false) :
    exec (.stackResetScrubDone k) s = .next (s.modStk k fun y => { y with
      ch := y.ch.map Channel.scrub
      scrubbed := true }).retryWaiting.continueRun := by
  show execStackResetScrubDone k s = _
  simp only [execStackResetScrubDone, ha, hst, hs, ne_eq, not_true_eq_false, decide_false, Bool.not_true, Bool.or_self,
    Bool.false_eq_true, if_false]

/-- A temperature at its limit is logged (R507). -/
theorem exec_thermalLimit_reached {x : SensorIx} {t : BitVec 8} {s : State} (ha : s.alive = true)
    (h : (if 20 ≤ x.val then 95 else 105) ≤ t.toNat) :
    exec (.thermalLimit x t) s = .next ((s.sense x t).logFault ((s.sense x t).fault 0x804 0x12 x.val)).alert := by
  show execThermalLimit x t s = _
  simp only [execThermalLimit, ha, Nat.not_lt.mpr h, decide_false, Bool.not_true, Bool.or_self, Bool.false_eq_true, if_false]

/-- ALERT_N is released with everything cool (R507). -/
theorem exec_alertNRelease_cool {tj : BitVec 8} {ts : List (BitVec 8)} {s : State} (ha : s.alive = true) (ht : tj.toNat < 102)
    (hlen : ts.length = 8) (hall : ∀ t ∈ ts, t.toNat < 92) :
    exec (.alertNRelease tj ts) s =
      let s1 := ts.zipIdx.foldl (fun s x => s.modStk x.2 fun y => y.warm x.1) s
      .next { s1 with
        top := { s1.top with tempC := tj }
        pins := { s1.pins with
          tj := tj
          alertN := true
          railBad := []
          sysRefLost := false
          linkRefLost := false } } := by
  have hany : (ts.any fun t => decide (92 ≤ t.toNat)) = false :=
    List.any_eq_false.mpr fun t hm => by simpa using hall t hm
  show execAlertNRelease tj ts s = _
  simp only [execAlertNRelease, ha, Nat.not_le.mpr ht, hlen, hany, ne_eq, not_true_eq_false, decide_false, Bool.not_true, Bool.or_self,
    Bool.false_eq_true, if_false]

/-- Settles O42: a reset is `State.enterReset` or `State.leaveReset`; the others are one test each. -/
theorem powerAndResetComplete : Obligations.PowerAndResetComplete := by
  refine ⟨fun s => ⟨rfl, rfl, fun r => rfl, fun hi hu => ?_, fun hi hu => ?_, fun hu hi => ?_, fun hu hi => ?_⟩,
    fun s => ⟨rfl, rfl, rfl, rfl, rfl, rfl, rfl, rfl, rfl, rfl⟩,
    fun t s ha hb hst hs => exec_tileResetScrubDone_due ha hb hst hs,
    fun k s ha hst hs => exec_stackResetScrubDone_due ha hst hs,
    fun r s ha hr => if_neg (by simp only [ha, hr, Bool.not_true, Bool.or_self, Bool.false_eq_true, not_false_eq_true]),
    fun link s ha hl => if_neg (by simp only [ha, hl, Bool.not_true, Bool.or_self, Bool.false_eq_true, not_false_eq_true]),
    fun x t s ha ht => ⟨exec_thermalLimit_reached ha ht, ite_not_of_true ha _ _⟩,
    fun tj ts s ha ht hlen hall => exec_alertNRelease_cool ha ht hlen hall⟩
  · exact (ite_not_of_true hi _ _).trans (if_neg (ne_true_of_eq_false hu))
  · exact (ite_not_of_true hi _ _).trans (if_pos hu)
  · exact (ite_not_of_true hu _ _).trans (if_neg (ne_true_of_eq_false hi))
  · exact (ite_not_of_true hu _ _).trans (if_pos hi)

end Sys2Proof.Machine
end

section
/-! The register port and the security commands: O43 and O44 (18_register_conventions_and_map.md,
15_partitions_and_security.md). -/

namespace Sys2Proof.Machine
open Sys2Proof

/-! ### The port (R429, R475 to R480) -/

/-- A misaligned access is counted and refused (R429). -/
theorem State.access_misaligned {s : State} {off : Nat} (write : Bool) (f : State → State) (ha : s.alive = true) (ho : off % 4 ≠ 0) :
    s.access off write f = { s with pcie := { s.pcie with
      accessErr := satInc s.pcie.accessErr
      unsupported := s.pcie.unsupported || !write } } :=
  (ite_not_of_true ha _ _).trans (if_pos ho)

/-- The offset of a refused aliased access is in the aliased region. -/
theorem exec_bitAliasAccess_misaligned {off : BitVec 26} (w : Bool) (v : BitVec 32) {s : State} (ha : s.alive = true)
    (ho : off.toNat % 4 ≠ 0) (hl : 0x2000000 ≤ off.toNat) :
    exec (.bitAliasAccess off w v) s = .next { s with pcie := { s.pcie with
      accessErr := satInc s.pcie.accessErr
      unsupported := s.pcie.unsupported || !w } } :=
  (if_neg (Nat.not_lt.mpr hl)).trans (congrArg Host.Outcome.next (State.access_misaligned w _ ha ho))

/-- An aligned aliased access is a read or a write of its bit (R489). -/
theorem exec_bitAliasAccess_aligned {off : BitVec 26} (w : Bool) (v : BitVec 32) {s : State} (ha : s.alive = true)
    (ho : off.toNat % 4 = 0) (hl : 0x2000000 ≤ off.toNat) :
    exec (.bitAliasAccess off w v) s = .next (if w then s.aliasWrite off.toNat v else s.deliverRead (s.aliasRead off.toNat)) := by
  show execBitAliasAccess off w v s = _
  simp only [execBitAliasAccess, Nat.not_lt.mpr hl, if_false, State.access_of_aligned ha ho, State.portWrite, State.portRead, hl,
    if_true]

/-- Before firmware is ready a block outside of `earlyBlock` ignores a write and reads its reset value (R480). -/
theorem exec_port_gated {off : BitVec 26} (v : BitVec 32) {s : State} (ha : s.alive = true) (ho : off.toNat % 4 = 0)
    (hl : off.toNat < 0x2000000) (hr : s.top.fwReady = false) (he : earlyBlock off.toNat = false) :
    exec (.registerWrite 0 off v) s = .next s ∧
    exec (.rcCounterRead 0 off) s = .next { s with pcie := { s.pcie with
      readback := (s.blank.readBlock off.toNat).setWidth 64 } } := by
  have hoff : ¬(s.fwReady || earlyBlock off.toNat) = true := by
    rw [show s.fwReady = false from hr, he]
    exact Bool.false_ne_true
  rw [exec_registerWrite_zero v ha ho hl, exec_rcCounterRead_zero ha ho hl, if_neg hoff, State.readReg_gated he hr,
    State.writeReg_gated v he hr]
  exact ⟨rfl, rfl⟩

/-- A read of a register that answers gives its value as it stands, and clears or pops what it clears (R475). -/
theorem exec_rcCounterRead_open {off : BitVec 26} {s : State} (ha : s.alive = true) (ho : off.toNat % 4 = 0)
    (hl : off.toNat < 0x2000000) (h : s.top.fwReady = true ∨ earlyBlock off.toNat = true) :
    exec (.rcCounterRead 0 off) s = .next { s.afterRead off.toNat with pcie := { (s.afterRead off.toNat).pcie with
      readback := (s.readBlock off.toNat).setWidth 64 } } := by
  have hon : (s.fwReady || earlyBlock off.toNat) = true := Bool.or_eq_true_iff.mpr h
  have hread : s.readReg off.toNat = s.readBlock off.toNat := if_pos hon
  rw [exec_rcCounterRead_zero ha ho hl, if_pos hon, hread]
  rfl

/-- The word that an aliased read delivers. -/
theorem setWidth_bn (b : Bool) : (BitVec.ofNat 32 (bn b)).setWidth 64 = BitVec.ofNat 64 (if b then 1 else 0) := by
  cases b <;> rfl

/-- The register and the bit that an aliased word stands for (R489). -/
theorem aliasOf_eq (off : Nat) : aliasOf off = ((off - 0x2000000) / 128 * 4, (off - 0x2000000) / 4 % 32) := by
  have hdiv : (off - 0x2000000) / 4 / 32 = (off - 0x2000000) / 128 := Nat.div_div_eq_div_mul _ 4 32
  rw [aliasOf, hdiv]

/-- A write of the bit that an aliased word stands for, by its access codes (R490). -/
theorem State.aliasWrite_of {s : State} {off o b : Nat} (v : BitVec 32) (h : aliasOf off = (o, b)) :
    s.aliasWrite off v =
      if bit (accOf o).rw b then s.writeReg o (if bit v 0 then s.writtenReg o &&& (accOf o).rw ||| BitVec.ofNat 32 (2 ^ b)
        else s.writtenReg o &&& (accOf o).rw &&& ~~~(BitVec.ofNat 32 (2 ^ b)))
      else if bit (accOf o).act b && bit v 0 then s.writeReg o (s.writtenReg o &&& (accOf o).rw ||| BitVec.ofNat 32 (2 ^ b))
      else if bit (accOf o).w1c b && !bit v 0 then s.writeReg o (s.writtenReg o &&& (accOf o).rw ||| BitVec.ofNat 32 (2 ^ b))
      else s := by
  simp only [State.aliasWrite, h]

/-- An aliased bit read, and written by its access code (R490). -/
theorem exec_bitAliasAccess_bit {off : BitVec 26} (v : BitVec 32) {s : State} {o b : Nat} (ha : s.alive = true)
    (ho : off.toNat % 4 = 0) (hl : 0x2000000 ≤ off.toNat) (hbit : aliasOf off.toNat = (o, b)) :
    let acc := accOf o
    let one : BitVec 32 := BitVec.ofNat 32 (2 ^ b)
    let rest := s.writtenReg o &&& acc.rw
    exec (.bitAliasAccess off false v) s = .next { s with pcie := { s.pcie with
      readback := BitVec.ofNat 64 (if bit (s.readReg o) b then 1 else 0) } } ∧
    (bit acc.rw b = true → bit v 0 = true → exec (.bitAliasAccess off true v) s = .next (s.writeReg o (rest ||| one))) ∧
    (bit acc.rw b = true → bit v 0 = false → exec (.bitAliasAccess off true v) s = .next (s.writeReg o (rest &&& ~~~one))) ∧
    (bit acc.rw b = false → bit acc.act b = true → bit v 0 = true → exec (.bitAliasAccess off true v) s =
      .next (s.writeReg o (rest ||| one))) ∧
    (bit acc.rw b = false → bit acc.act b = true → bit acc.w1c b = false → bit v 0 = false → exec (.bitAliasAccess off true v) s = .next s) ∧
    (bit acc.rw b = false → bit acc.act b = false → bit acc.w1c b = true → exec (.bitAliasAccess off true v) s =
      .next (if bit v 0 then s else s.writeReg o (rest ||| one))) ∧
    (bit acc.rw b = false → bit acc.act b = false → bit acc.w1c b = false → exec (.bitAliasAccess off true v) s = .next s) := by
  intro acc one rest
  have hread : exec (.bitAliasAccess off false v) s = .next (s.deliverRead (s.aliasRead off.toNat)) :=
    exec_bitAliasAccess_aligned false v ha ho hl
  have hwrite : exec (.bitAliasAccess off true v) s = .next (
      if bit acc.rw b then s.writeReg o (if bit v 0 then rest ||| one else rest &&& ~~~one)
      else if bit acc.act b && bit v 0 then s.writeReg o (rest ||| one)
      else if bit acc.w1c b && !bit v 0 then s.writeReg o (rest ||| one)
      else s) := by
    rw [exec_bitAliasAccess_aligned true v ha ho hl, if_pos rfl, State.aliasWrite_of v hbit]
  refine ⟨?_, fun hrw hv => ?_, fun hrw hv => ?_, fun hrw hact hv => ?_, fun hrw hact hw1c hv => ?_, fun hrw hact hw1c => ?_,
    fun hrw hact hw1c => ?_⟩
  · rw [hread]
    simp only [State.deliverRead, State.aliasRead, hbit, setWidth_bn]
  · simp only [hwrite, hrw, hv, if_true]
  · simp only [hwrite, hrw, hv, if_true, Bool.false_eq_true, if_false]
  · simp only [hwrite, hrw, hact, hv, Bool.and_self, if_true, Bool.false_eq_true, if_false]
  · simp only [hwrite, hrw, hact, hw1c, hv, Bool.and_false, Bool.false_and, Bool.false_eq_true, if_false]
  · simp only [hwrite, hrw, hact, hw1c, Bool.false_and, Bool.true_and, Bool.false_eq_true, if_false]
    cases bit v 0 <;> rfl
  · simp only [hwrite, hrw, hact, hw1c, Bool.false_and, Bool.false_eq_true, if_false]

/-- A write to the status page of a virtual function (R437). -/
theorem exec_registerWrite_page {f : FnId} {off : BitVec 26} (v : BitVec 32) {s : State} (ha : s.alive = true)
    (ho : off.toNat % 4 = 0) (hf : f.val ≠ 0) : exec (.registerWrite f off v) s = .next (s.writeFn f off.toNat v) :=
  congrArg Host.Outcome.next ((State.access_of_aligned ha ho).trans (if_neg hf))

/-- A write of SEQ.ENTRY_SEL keeps a copy of the entry's 64 bytes (R268). -/
theorem State.entrySel_copy (s : State) (v : BitVec 32) :
    ∃ copy : Vector (BitVec 32) 16, (∀ k (h : k < 16), copy[k] = BitVec.ofNat 32 (fieldN (s.ent (v.toNat % 16384)).bytes (4 * k) 4)) ∧
      s.entrySel v = { s with seq := { s.seq with
        entrySel := BitVec.ofNat 14 (v.toNat % 16384)
        entryCopy := copy } } :=
  ⟨_, fun _ _ => Vector.getElem_ofFn _, rfl⟩

/-- Settles O43: the port is `State.access_misaligned`, `exec_port_gated` and `exec_rcCounterRead_open`, an aliased bit
`exec_bitAliasAccess_bit`. -/
theorem registerAccessesComplete : Obligations.RegisterAccessesComplete := by
  refine ⟨fun off v w f s ha ho => ?misaligned, fun off v s ha ho hl => ?low, fun f v s ha hf => ?page,
    fun off v s ha ho hl => ?aliasBit, fun v s hready => ?entry⟩
  case misaligned =>
    exact ⟨congrArg Host.Outcome.next (State.access_misaligned true _ ha ho),
      congrArg Host.Outcome.next (State.access_misaligned false _ ha ho),
      fun hl => exec_bitAliasAccess_misaligned w v ha ho hl⟩
  case low =>
    exact ⟨exec_registerWrite_zero v ha ho hl, fun hr he => exec_port_gated v ha ho hl hr he,
      fun h => exec_rcCounterRead_open ha ho hl h⟩
  case page =>
    exact ⟨exec_registerWrite_page v ha (by decide) hf, exec_registerWrite_page v ha (by decide) hf,
      fun off ho => congrArg Host.Outcome.next ((State.access_of_aligned ha ho).trans (if_neg hf))⟩
  case aliasBit =>
    exact exec_bitAliasAccess_bit v ha ho hl (aliasOf_eq off.toNat)
  case entry =>
    obtain ⟨copy, hcopy, heq⟩ := s.entrySel_copy v
    exact ⟨copy, hcopy, congrArg Host.Outcome.next ((if_pos hready).trans heq)⟩

/-! ### Reports, keys and management keys (R412 to R420) -/

/-- SEC.REQ.GO of a part whose ROM has given it its identity (R415). -/
theorem State.requestReport_identity {s : State} (ha : s.alive = true) (hi : s.sec.identity = true) :
    s.requestReport =
      let s1 : State := { s with sec := { s.sec with reqDone := false } }
      if s.sec.reqChip then s1.makeReport none
      else if s.reportRefused s.sec.reqPart.toNat then s1
      else s1.makeReport (some s.sec.reqPart.toNat) := by
  refine if_neg ?_
  simp only [show ∀ x, State.alive { s with sec := x } = s.alive from fun x => rfl, ha, hi, Bool.not_true, Bool.or_self,
    Bool.false_eq_true, not_false_eq_true]

/-- SEC.REQ.GO before the ROM has given the part its identity. -/
theorem State.requestReport_anonymous {s : State} (hi : s.sec.identity = false) :
    s.requestReport = { s with sec := { s.sec with reqDone := false } } :=
  if_pos (by simp only [hi, Bool.not_false, Bool.or_true])

/-- A partition being scrubbed has no report (R412). -/
theorem State.reportRefused_iff {s : State} {p : Nat} :
    s.reportRefused p = true ↔ (s.pt p).state = 2#3 ∨ (s.pt p).state = 3#3 := by
  simp only [State.reportRefused, Bool.or_eq_true, decide_eq_true_eq]

/-- No subject without a key pair has a key to unwrap (R417). -/
theorem State.unwrapKey_none {s : State} {r : List (BitVec 8)} (h : s.pairOf (subjectOf (fieldN r 2 1)) = none) :
    s.unwrapKey r = none := by
  simp only [State.unwrapKey, h]

/-- A signal leaves the security block as it is. -/
@[simp] theorem State.signal_sec (s : State) (f v : Nat) : (s.signal f v).sec = s.sec := by
  simp only [State.signal]
  split <;> rfl

/-- A drawn number leaves the security block as it is. -/
@[simp] theorem State.rng_sec (s : State) (w : Nat) : (s.rng w).2.sec = s.sec := rfl

/-- A report of the chip leaves the partitions as they are (R415). -/
theorem State.makeReport_none_parts (s : State) : (s.makeReport none).parts = s.parts := by
  simp only [State.makeReport, State.signal_parts, State.rng_parts]

/-- Settles O44: a request is `State.requestReport_identity`, a delivery `State.deliver`. -/
theorem securityCommandsComplete : Obligations.SecurityCommandsComplete := by
  refine ⟨fun s ha hi => ?report, fun s hi => congrArg Host.Outcome.next (State.requestReport_anonymous hi),
    fun s => ⟨?counter, ?done, congrArg (fun f => f.2.1) (State.makeReport_fixed s none), State.makeReport_none_parts s⟩, fun s ha => ?deliver, fun k s hk => ?promote⟩
  case report =>
    intro s1
    have hexec : exec .attestationRequest s = _ := congrArg Host.Outcome.next (State.requestReport_identity ha hi)
    refine ⟨fun hc => ?_, fun hc h2 h3 => ?_, fun hc hst => ?_⟩
    · exact hexec.trans (congrArg Host.Outcome.next (if_pos hc))
    · have hok : ¬s.reportRefused s.sec.reqPart.toNat = true := by
        rw [State.reportRefused_iff]
        exact not_or_intro h2 h3
      exact hexec.trans (congrArg Host.Outcome.next ((if_neg (ne_true_of_eq_false hc)).trans (if_neg hok)))
    · exact hexec.trans (congrArg Host.Outcome.next
        ((if_neg (ne_true_of_eq_false hc)).trans (if_pos (State.reportRefused_iff.mpr hst))))
  case counter | done => simp only [State.makeReport, State.signal_sec, State.rng_sec]
  case deliver =>
    intro r who p failed
    have hexec : exec .keyDelivery s = .next s.deliver := congrArg Host.Outcome.next (if_pos ha)
    refine ⟨?_, fun hpair => ?_⟩
    · rw [hexec]
      refine congrArg (fun t : State => Host.Outcome.next (t.signal 0 3)) ?_
      cases hk : s.unwrapKey (Memory.readBytes s.sec.input 0 1200) <;>
        cases hw : subjectOf (fieldN (Memory.readBytes s.sec.input 0 1200) 2 1) <;>
          simp only [failed, p, hw, r, who]
    · have hk : s.unwrapKey r = none := State.unwrapKey_none hpair
      rw [hexec]
      refine congrArg (fun t : State => Host.Outcome.next (t.signal 0 3)) ?_
      simp only [r] at hk
      simp only [hk, failed, p, r, who] <;> rfl
  case promote =>
    refine congrArg Host.Outcome.next ?_
    simp only [State.promote, hk]

end Sys2Proof.Machine
end

section
/-! The service port and firmware update: O45 and O46 (17_service_update_time_check.md, 16_host_interface.md). -/

namespace Sys2Proof.Machine
open Sys2Proof

/-! ### The service port (R444 to R448) -/

/-- A write request of a served port with a block size, by what it finds (R453, R454). -/
theorem exec_tftpWriteRequest_some {mac : BitVec 48} {octet : Bool} {n : Nat} {s : State} (hf : s.frameServed = true) :
    exec (.tftpWriteRequest mac octet (some n)) s =
      if octet && decide (1024 ≤ n) && decide (n ≤ 1428) then
        if s.fwu.trial && !s.fwu.confirmed then .next (s.sendFrame (.tftpError mac 2))
        else if s.fwu.tftp.isSome then .next (s.sendFrame (.tftpError mac 3))
        else .next (s.beginTransfer mac n)
      else .next s.dropFrame := by
  have hok : (!octet || decide (n < 1024) || decide (1428 < n)) = !(octet && decide (1024 ≤ n) && decide (n ≤ 1428)) := by
    simp only [← Nat.not_le, decide_not, Bool.not_and]
  show execTftpWriteRequest mac octet (some n) s = _
  simp only [execTftpWriteRequest, hf, Bool.not_true, Bool.false_eq_true, if_false, hok]
  cases octet && decide (1024 ≤ n) && decide (n ≤ 1428) <;> rfl

/-- A frame of the port that is dropped (R445). -/
theorem exec_tftpWriteRequest_none {mac : BitVec 48} {octet : Bool} {s : State} (hf : s.frameServed = true) :
    exec (.tftpWriteRequest mac octet none) s = .next s.dropFrame :=
  ite_not_of_true hf _ _

/-- A PTP event message of type 0 to 3 is stamped, or lost (R446). -/
theorem exec_ptpEventTimestamp_event {tx : Bool} {ty : BitVec 4} {id : BitVec 16} {s : State} (ha : s.alive = true)
    (hl : s.svc.ethLink = true) (hp : s.svc.ptpEn = true) (ht : ty.toNat ≤ 3) :
    exec (.ptpEventTimestamp tx ty id) s =
      if 64 ≤ s.svc.ptpFifo.length then .next { s with svc := { s.svc with ptpLost := satInc s.svc.ptpLost } }
      else .next { s with svc := { s.svc with
        ptpFifo := s.svc.ptpFifo ++ [{
          ns := s.capture s.svc.ptpDom
          frac := (s.time.dom s.svc.ptpDom).frac
          seqId := id
          msgType := ty
          tx := tx }] } } := by
  show execPtpEventTimestamp tx ty id s = _
  simp only [execPtpEventTimestamp, ha, hl, hp, Nat.not_lt.mpr ht, decide_false, Bool.not_true, Bool.or_self, Bool.false_eq_true,
    if_false]

/-- The oldest stamp is read and goes (R469). -/
theorem State.popPtp_cons {x : PtpStamp} {rest : List PtpStamp} {s : State} (h : s.svc.ptpFifo = x :: rest) :
    s.popPtp = { s with
      pcie := { s.pcie with readback := x.frac.setWidth 64 }
      svc := { s.svc with ptpFifo := rest } } := by
  simp only [State.popPtp, h, List.headD_cons, List.drop_one, List.tail_cons]

/-- A target takes a dynamic address once (R444). -/
theorem exec_entdaa_free {d : BitVec 7} {s : State} (ha : s.alive = true) (h : s.svc.i3cAssigned = false) :
    exec (.entdaa d) s = .next { s with svc := { s.svc with
      i3cAddr := d
      i3cAssigned := true } } :=
  if_neg (by simp only [ha, h, Bool.not_true, Bool.or_self, Bool.false_eq_true, not_false_eq_true])

/-- The address committed (R442, R447). -/
theorem exec_i3cCommitAddress_alive {a : BitVec 24} {s : State} (ha : s.alive = true) :
    exec (.i3cCommitAddress a) s =
      let s1 : State := { s with svc := { s.svc with i3cChip := a } }
      if s.pcie.selfValid then .next s1
      else .next { s1 with pcie := { s.pcie with
        self := a
        selfValid := true } } :=
  ite_not_of_true ha _ _

/-- Settles O45: a write request is `exec_tftpWriteRequest_some`, a stamp `exec_ptpEventTimestamp_event`; the other commands are
one test each. -/
theorem servicePortComplete : Obligations.ServicePortComplete := by
  refine ⟨?request, fun mac ip body s hf => ?answer, fun tx ty id s ha hl hp ht => ⟨fun hlen => ?_, fun hlen => ?_⟩,
    fun x rest s hready hx => congrArg Host.Outcome.next ((if_pos hready).trans (State.popPtp_cons hx)),
    fun a d up s ha => ⟨fun hv => ?_, fun hv => ?_, exec_entdaa_free ha, congrArg Host.Outcome.next (if_pos ha)⟩,
    fun cells s => ⟨rfl, rfl, rfl, rfl⟩⟩
  case request =>
    intro mac octet blk s hf dropped ok locked began
    have hexec := exec_tftpWriteRequest_some (mac := mac) (octet := octet) (n := blk) hf
    refine ⟨exec_tftpWriteRequest_none hf, congrArg Host.Outcome.next (if_pos hf), fun hok => ?_, fun hok hlk => ?_,
      fun hok hlk ht => ?_, fun hok hlk ht => ?_⟩
    · exact hexec.trans (if_neg (ne_true_of_eq_false hok))
    · exact hexec.trans ((if_pos hok).trans (if_pos hlk))
    · exact hexec.trans ((if_pos hok).trans ((if_neg (ne_true_of_eq_false hlk)).trans (if_pos (Option.isSome_iff_ne_none.mpr ht))))
    · have hnone : ¬s.fwu.tftp.isSome = true := by
        rw [ht]
        exact Bool.false_ne_true
      exact hexec.trans ((if_pos hok).trans ((if_neg (ne_true_of_eq_false hlk)).trans (if_neg hnone)))
  case answer =>
    have hc : (s.frameServed && decide (s.svc.ipv4 = s.svc.ipv4)) = true := by rw [hf, decide_eq_true rfl, Bool.and_self]
    exact ⟨congrArg Host.Outcome.next (if_pos hc), congrArg Host.Outcome.next (if_pos hc)⟩
  · exact (exec_ptpEventTimestamp_event ha hl hp ht).trans (if_pos hlen)
  · exact (exec_ptpEventTimestamp_event ha hl hp ht).trans (if_neg (Nat.not_le.mpr hlen))
  · exact (exec_i3cCommitAddress_alive ha).trans (if_neg (ne_true_of_eq_false hv))
  · exact (exec_i3cCommitAddress_alive ha).trans (if_pos hv)

/-! ### Boot (R455) -/

/-- ROM_BOOT once after reset, by the slot that it picks (R455). -/
theorem exec_romBoot_first {s : State} (ha : s.alive = true) (hb : s.fwu.booted = false) (hh : s.fwu.halted = false) :
    exec .romBoot s =
      let p := match s.flash.governing with
        | some r => s.pickSlot r
        | none => s.pickFresh
      if !p.2.verifies p.1.slot then .next { p.2 with fwu := { p.2.fwu with halted := true } }
      else .next (if p.1.fell then (p.2.loadSlot p.1).logFault ((p.2.loadSlot p.1).fault 0x607 0x12 (bn p.1.left))
        else p.2.loadSlot p.1) :=
  if_neg (by simp only [ha, hb, hh, Bool.not_true, Bool.or_self, Bool.false_eq_true, not_false_eq_true])

/-! ### A transfer's end (R453) -/

/-- The end of a transfer from `mac`: the image stands in the slot that does not run, and the checks decide (R453). -/
theorem exec_tftpTransferEnd_some {mac : BitVec 48} {img : Slot48} {s : State} (ha : s.alive = true) (ht : s.fwu.tftp = some mac) :
    exec (.tftpTransferEnd img) s =
      let b := !s.fwu.running
      let x : Slot48 := { img with present := true }
      let k := x.failedStep s.fwu.floor
      let s1 : State := { s with
        flash := s.flash.setSlot b x
        fwu := { s.fwu with tftp := none }
        svc := { s.svc with frameOut := some (.tftpAck mac) } }
      let good := s1.updateRec fun r => { r with pending := slotByte b }
      let bad : State := { s1 with fwu := { s1.fwu with
        stage := 4
        failCode := BitVec.ofNat 3 k } }
      if k = 0 then .next (({ good with fwu := { good.fwu with
        stage := 3
        staged := img.version } } : State).signal 0 7)
      else .next ((bad.logFault (bad.fault 0x605 0x12 (bn b) none k)).signal 0 7) := by
  show execTftpTransferEnd img s = _
  simp only [execTftpTransferEnd, ht, ha, Bool.not_true, Bool.false_eq_true, if_false]
  rfl

/-! ### Confirmation (R456, R457) -/

/-- A confirmation of a trial boot that may be made (R456). -/
theorem State.healthConfirm_due {s : State} {host : Bool} (ha : s.alive = true) (hb : s.fwu.booted = true) (ht : s.fwu.trial = true)
    (hc : s.fwu.confirmed = false) (hs : s.fwu.selftest = true) (hl : 0 < s.confirmLeft)
    (hhost : host = true ∨ s.fwu.hostConfirm = false) : s.healthConfirm host = s.confirm := by
  have hor : (host || !s.fwu.hostConfirm) = true := by
    rw [Bool.or_eq_true, Bool.not_eq_true']
    exact hhost
  refine if_pos ?_
  simp only [ha, hb, ht, hc, hs, hl, hor, decide_true, Bool.not_false, Bool.and_self]

/-- A confirmation that the host has to make waits for the host (R456). -/
theorem State.healthConfirm_host {s : State} (h : s.fwu.hostConfirm = true) : s.healthConfirm false = s :=
  if_neg (by simp only [h, Bool.not_true, Bool.or_self, Bool.and_false, Bool.false_eq_true, not_false_eq_true])

/-- SELFTEST_PASS with its conditions met marks the self-test (R456). -/
theorem exec_selftestPass_due {s : State} (ha : s.alive = true) (hb : s.fwu.booted = true) (hs : s.selftestHolds = true) :
    exec .selftestPass s = .next (({ s with fwu := { s.fwu with selftest := true } } : State).healthConfirm false) :=
  if_neg (by simp only [ha, hb, hs, Bool.not_true, Bool.or_self, Bool.false_eq_true, not_false_eq_true])

/-- A trial boot that nobody confirmed in time (R456). -/
theorem exec_fwConfirmExpired_due {s : State} (ha : s.alive = true) (ht : s.fwu.trial = true) (hc : s.fwu.confirmed = false)
    (he : s.fwu.expired = false) (hl : s.confirmLeft = 0) :
    exec .fwConfirmExpired s =
      let s1 : State := { s with fwu := { s.fwu with expired := true } }
      .next ((s1.logFault (s1.fault 0x606 0x12 (bn s.fwu.running))).signal 0 7) :=
  if_neg (by simp only [ha, ht, hc, he, hl, Nat.lt_irrefl, decide_false, Bool.not_true, Bool.or_self, Bool.false_eq_true,
    not_false_eq_true])

/-- SVN_COMMIT of a booted part (R457). -/
theorem exec_svnCommit_booted {s : State} (ha : s.alive = true) (hb : s.fwu.booted = true) :
    exec .svnCommit s = .next (if s.fwu.trial || s.fwu.svn.toNat ≤ s.fwu.floor.toNat then s
      else { s with fwu := { s.fwu with floor := s.fwu.svn } }) :=
  congrArg Host.Outcome.next (if_pos (by rw [ha, hb, Bool.and_self]))

/-! ### The boot record (R450) -/

/-- An update governs from then on: it is valid, and its SEQ is the higher (R450). -/
theorem Flash.governing_update {f : Flash} {r r' : BootRec} (hg : f.governing = some r) (hr : r'.seq = r.seq)
    (hs : r.seq.toNat + 1 < 2 ^ 32) :
    (f.update r').governing = some { r' with
      valid := true
      seq := r.seq + 1 } := by
  have hnext : (r.seq + 1#32).toNat = r.seq.toNat + 1 := by
    rw [BitVec.toNat_add]
    exact Nat.mod_eq_of_lt hs
  cases hc : f.copyOne with
  | true =>
    have hupd : f.update r' = { f with rec0 := { r' with
      valid := true
      seq := r'.seq + 1 } } := if_pos hc
    have hr1 : f.rec1 = r := by simpa [Flash.governing, hc] using hg
    have hold : ¬r.seq.toNat + 1 < r.seq.toNat := by omega
    simp [hupd, Flash.governing, Flash.copyOne, hr, hr1, hnext, hold, -BitVec.toNat_add]
  | false =>
    cases hv : f.rec0.valid with
    | true =>
      have hupd : f.update r' = { f with rec1 := { r' with
        valid := true
        seq := r'.seq + 1 } } := (if_neg (ne_true_of_eq_false hc)).trans (if_pos hv)
      have hr0 : f.rec0 = r := by simpa [Flash.governing, hc, hv] using hg
      simp [hupd, Flash.governing, Flash.copyOne, hr, hr0, hnext, -BitVec.toNat_add]
    | false => simp [Flash.governing, hc, hv] at hg

/-- Settles O46: boot is `exec_romBoot_first`, a transfer's end `exec_tftpTransferEnd_some`, a confirmation
`State.healthConfirm_due`, and the boot record `Flash.governing_update`. -/
theorem firmwareUpdateComplete : Obligations.FirmwareUpdateComplete := by
  refine ⟨?boot, fun s ha hb hr => exec_fwLoadDone_due (Bool.or_eq_false_iff.mpr ⟨?_, hr⟩), ?transfer, ?confirm,
    fun s ha hb hs hh => (exec_selftestPass_due ha hb hs).trans (congrArg Host.Outcome.next (State.healthConfirm_host hh)),
    ?expiry, ?record⟩
  case boot =>
    intro s ha hb hh p x t
    have hexec := exec_romBoot_first ha hb hh
    refine ⟨fun hv => ?_, fun hv hf => ?_, fun hv hf => ?_⟩
    · exact hexec.trans (ite_not_of_false hv _ _)
    · exact hexec.trans ((ite_not_of_true hv _ _).trans (congrArg Host.Outcome.next (if_neg (ne_true_of_eq_false hf))))
    · exact hexec.trans ((ite_not_of_true hv _ _).trans (congrArg Host.Outcome.next (if_pos hf)))
  · rw [ha, hb, Bool.not_true, Bool.or_self]
  case transfer =>
    intro mac img s ha ht b x k s1 good bad
    have hexec := exec_tftpTransferEnd_some (img := img) ha ht
    exact ⟨fun hk => hexec.trans (if_pos hk), fun hk => hexec.trans (if_neg hk)⟩
  case confirm =>
    intro host s ha hb ht hc hl hhost ok f s1 s2
    refine ⟨fun hs => congrArg Host.Outcome.next (State.healthConfirm_due ha hb ht hc hs hl hhost), fun hs hh => ?_⟩
    have hs2 : s2.healthConfirm false = s2.confirm := State.healthConfirm_due ha hb ht hc rfl hl (.inr hh)
    exact (exec_selftestPass_due ha hb hs).trans (congrArg Host.Outcome.next hs2)
  case expiry =>
    intro s ha s1 s2
    refine ⟨exec_fwConfirmExpired_due ha, congrArg Host.Outcome.next (if_pos ha), fun hb ht hf => ?_, fun hb h => ?_⟩
    · refine (exec_svnCommit_booted ha hb).trans (congrArg Host.Outcome.next (if_neg ?_))
      rw [ht, decide_eq_false (Nat.not_le.mpr hf)]
      exact Bool.false_ne_true
    · refine (exec_svnCommit_booted ha hb).trans (congrArg Host.Outcome.next (if_pos ?_))
      rw [Bool.or_eq_true, decide_eq_true_eq]
      exact h
  case record =>
    intro r f s hg hseq hlt
    have hupd : s.updateRec f = { s with flash := s.flash.update (f r) } := by
      rw [State.updateRec, hg]
    rw [hupd]
    exact Flash.governing_update hg hseq hlt

end Sys2Proof.Machine
end

section
/-! The upkeep of the stacks: O47 (07_stacked_memory.md). -/

namespace Sys2Proof.Machine
open Sys2Proof

/-! ### A pseudo-channel changed -/

section
variable (s : State) {k c : Nat}

theorem State.chan_modChan_same (f : Channel → Channel) (hk : k < 8) (hc : c < 32) : (s.modChan k c f).chan k c = f (s.chan k c) := by
  simp only [State.chan, State.modChan, State.stk_modStk_same _ _ _ hk, vget_vset_same _ _ _ _ hc]

theorem State.chan_modChan_ne {c' : Nat} (f : Channel → Channel) (hk : k < 8) (h : c ≠ c') :
    (s.modChan k c f).chan k c' = s.chan k c' := by
  simp only [State.chan, State.modChan, State.stk_modStk_same _ _ _ hk, vget_vset_ne _ _ _ _ _ h]

theorem State.stk_modChan_ne {k' : Nat} (c : Nat) (f : Channel → Channel) (h : k ≠ k') : (s.modChan k c f).stk k' = s.stk k' :=
  State.stk_modStk_ne _ _ _ _ h

theorem State.modChan_congr {f g : Channel → Channel} (h : f (s.chan k c) = g (s.chan k c)) : s.modChan k c f = s.modChan k c g := by
  have hch : f (vget (s.stk k).ch c Channel.reset) = g (vget (s.stk k).ch c Channel.reset) := h
  simp only [State.modChan, State.modStk, hch]

theorem State.modChan_id {f : Channel → Channel} (h : f (s.chan k c) = s.chan k c) : s.modChan k c f = s := by
  have hch : f (vget (s.stk k).ch c Channel.reset) = vget (s.stk k).ch c Channel.reset := h
  have hbank : vset s.stackBanks k (s.stk k) = s.stackBanks := vset_vget _ _ _
  simp only [State.modChan, State.modStk, hch, vset_vget, hbank]

/-- A change of a stack that leaves its pseudo-channels as they are. -/
theorem State.chan_modStk {f : Stack → Stack} (h : ∀ y, (f y).ch = y.ch) (k' c' : Nat) : (s.modStk k f).chan k' c' = s.chan k' c' := by
  by_cases hk : k = k'
  · subst hk
    by_cases h8 : k < 8
    · simp only [State.chan, State.stk_modStk_same _ _ _ h8, h]
    · simp only [State.modStk, vset_of_ge _ _ _ (Nat.not_lt.mp h8)]
  · simp only [State.chan, State.stk_modStk_ne _ _ _ _ hk]

end

/-- The pseudo-channel at a physical number. -/
theorem State.pch_eq (s : State) (k : StackId) {c : Nat} (hc : c < 32) : s.pch (32 * k.val + c) = s.chan k c := by
  have hd : (32 * k.val + c) / 32 = k.val := by omega
  have hm : (32 * k.val + c) % 32 = c := by omega
  simp only [State.pch, hd, hm]

theorem State.modPch_eq (s : State) (k : StackId) {c : Nat} (hc : c < 32) (f : Channel → Channel) :
    s.modPch (32 * k.val + c) f = s.modChan k c f := by
  have hd : (32 * k.val + c) / 32 = k.val := by omega
  have hm : (32 * k.val + c) % 32 = c := by omega
  simp only [State.modPch, hd, hm]

/-! ### A change of several pseudo-channels of one stack -/

/-- Steps that each change one pseudo-channel of stack `k` by what it holds itself. -/
theorem foldl_modChan {step : State → Nat → State} {s : State} {k : Nat} {g : Channel → Channel} {l : List Nat}
    (h : ∀ b, ∀ c ∈ l, step { s with stackBanks := b } c = ({ s with stackBanks := b } : State).modChan k c g) :
    ∀ b, l.foldl step { s with stackBanks := b } = l.foldl (fun t c => t.modChan k c g) { s with stackBanks := b } := by
  induction l with
  | nil => exact fun b => rfl
  | cons c l ih =>
    intro b
    rw [List.foldl_cons, List.foldl_cons, h b c List.mem_cons_self]
    exact ih (fun b c hc => h b c (List.mem_cons_of_mem _ hc)) _

section
variable (k : Nat) (g : Channel → Channel) (l : List Nat) (s : State)

theorem State.foldl_modChan_banks :
    l.foldl (fun t c => t.modChan k c g) s = { s with stackBanks := (l.foldl (fun t c => t.modChan k c g) s).stackBanks } := by
  induction l generalizing s with
  | nil => rfl
  | cons c l ih =>
    rw [List.foldl_cons, ih]
    rfl

theorem State.foldl_modChan_stk_ne {k' : Nat} (h : k ≠ k') : (l.foldl (fun t c => t.modChan k c g) s).stk k' = s.stk k' :=
  foldl_keeps (fun t : State => t.stk k') (fun t c => t.stk_modChan_ne c g h) l s

theorem State.foldl_modChan_chan (hk : k < 8) (hl : ∀ c ∈ l, c < 32) (hn : l.Nodup) (c : Nat) :
    (l.foldl (fun t c => t.modChan k c g) s).chan k c = if c ∈ l then g (s.chan k c) else s.chan k c := by
  induction l generalizing s with
  | nil => rfl
  | cons d l ih =>
    obtain ⟨hd, hn⟩ := List.nodup_cons.mp hn
    rw [List.foldl_cons, ih _ (fun c hc => hl c (List.mem_cons_of_mem _ hc)) hn]
    by_cases hc : d = c
    · subst hc
      rw [if_neg hd, if_pos List.mem_cons_self, State.chan_modChan_same _ _ hk (hl d List.mem_cons_self)]
    · rw [State.chan_modChan_ne _ _ hk hc]
      simp only [List.mem_cons, Ne.symm hc, false_or]

end

/-! ### Scrub and write-back (R183, R184, R191) -/

theorem State.countOpen_plan (s : State) (x : Nat) : (s.countOpen x).plan = s.plan := by
  unfold State.countOpen
  split <;> rfl

/-- PATROL_SCRUB of a pseudo-channel that may be read now (R191). -/
theorem exec_patrolScrub_due {k : StackId} {c : ChId} {s : State} (hst : (s.stk k).state = 2#2)
    (hbit : (s.stk k).scrubCh.testBit c.val = false) (hb : (s.pch (32 * k.val + c.val)).noBetter 6 = true)
    (hw : ((s.stk k).winGo.any fun a => a.ch = c.val && (s.stk k).winLeft.isNone) = false)
    (ho : s.openFree (32 * k.val + c.val) = true) :
    exec (.patrolScrub k c) s =
      let x := 32 * k.val + c.val
      let w := (s.stk k).scrubWord.toNat
      let t := (s.countOpen x).modStk k fun z => z.scrubbedCh c
      if (s.pch x).unreadable w s.plan.geyser then
        .next (if nsHas w (s.pch x).bad then t.stackUE x w ((t.chanOwner x).map (·.1)) else t)
      else match (s.pch x).ceDie w with
        | some die => .next (t.stackCE x w die)
        | none => .next t := by
  show execPatrolScrub k c s = _
  simp only [execPatrolScrub, hst, hbit, hb, hw, ho, ne_eq, not_true_eq_false, decide_false, Bool.not_true, Bool.or_self,
    Bool.false_eq_true, if_false, State.modStk_plan, State.countOpen_plan] <;> rfl

/-- The scrub position within a word of every pseudo-channel (R209). -/
theorem Stack.scrubbedCh_within {y : Stack} {c : Nat} (h : y.scrubCh ||| 2 ^ c ≠ 2 ^ 32 - 1) :
    y.scrubbedCh c = { y with scrubCh := y.scrubCh ||| 2 ^ c } := if_neg h

/-- The scrub position after the last pseudo-channel of a word (R209). -/
theorem Stack.scrubbedCh_word {y : Stack} {c : Nat} (h : y.scrubCh ||| 2 ^ c = 2 ^ 32 - 1) (hw : y.scrubWord.toNat + 1 ≠ chanWords) :
    y.scrubbedCh c = { y with
      scrubCh := 0
      scrubWord := y.scrubWord + 1 } := by
  refine (if_pos h).trans ?_
  rw [if_neg hw, if_neg hw]

/-- The scrub position after the last word (R209). -/
theorem Stack.scrubbedCh_pass {y : Stack} {c : Nat} (h : y.scrubCh ||| 2 ^ c = 2 ^ 32 - 1) (hw : y.scrubWord.toNat + 1 = chanWords) :
    y.scrubbedCh c = { y with
      scrubCh := 0
      scrubWord := 0
      scrubPasses := y.scrubPasses + 1 } := by
  refine (if_pos h).trans ?_
  rw [if_pos hw, if_pos hw]

/-! ### Refresh (R192 to R196) -/

/-- A refresh of the pseudo-channel is in progress at the time. -/
def Channel.refreshingAt (z : Channel) (wall : Nat) : Bool := match z.refreshEnd with
  | some (e, _) => decide (wall < e)
  | none => false

/-- A pseudo-channel after `n` refreshes have begun, of which the last ends at `e`. -/
def Channel.begun (z : Channel) (e n : Nat) (forced held : Bool) : Channel :=
  { z with
    debt := z.debt - n
    refreshEnd := some (e, n)
    forced := z.forced || forced
    inHold := z.inHold || held }

theorem State.refreshing_eq (s : State) (k : StackId) {c : Nat} (hc : c < 32) :
    s.refreshing (32 * k.val + c) = (s.chan k c).refreshingAt s.wall := by
  simp only [State.refreshing, State.pch_eq s k hc]
  rfl

/-- What `n` refreshes that begin now make of a pseudo-channel of the state. -/
def State.refreshOf (s : State) (n : Nat) (forced held : Bool) (z : Channel) : Channel :=
  let busy := match z.refreshEnd with
    | some (e, m) => if s.wall < e then (e, m) else (0, 0)
    | none => (0, 0)
  { z with
    debt := z.debt - n
    refreshEnd := some (max (s.wall + 128 * s.clkTu) busy.1 + n * tuRefresh, busy.2 + n)
    forced := z.forced || forced
    inHold := z.inHold || held }

theorem State.beginRefresh_eq (s : State) (k c n : Nat) (forced held : Bool) :
    s.beginRefresh k c n forced held = s.modChan k c (s.refreshOf n forced held) := rfl

/-- Refreshes of a pseudo-channel that has none in progress begin after the drain (R194). -/
theorem State.refreshOf_idle {s : State} {n : Nat} {forced held : Bool} {z : Channel} (h : z.refreshingAt s.wall = false) :
    s.refreshOf n forced held z = z.begun (s.wall + 128 * s.clkTu + n * tuRefresh) n forced held := by
  unfold Channel.refreshingAt at h
  split at h
  next e m hz => simp only [State.refreshOf, hz, of_decide_eq_false h, if_false, Nat.max_zero, Nat.zero_add, Channel.begun]
  next hz => simp only [State.refreshOf, hz, Nat.max_zero, Nat.zero_add, Channel.begun]

/-- Refreshes that begin behind others (R194). -/
theorem State.refreshOf_busy {s : State} {n e q : Nat} {z : Channel} (hz : z.refreshEnd = some (e, q)) (hw : s.wall < e) :
    s.refreshOf n false false z = { z with
      debt := z.debt - n
      refreshEnd := some (max (s.wall + 128 * s.clkTu) e + n * tuRefresh, q + n) } := by
  simp only [State.refreshOf, hz, hw, if_true, Bool.or_false]

/-- REFRESH_IDLE of a pseudo-channel that no plan uses (R192). -/
theorem exec_refreshIdle_due {k : StackId} {c : ChId} {s : State} (ha : s.alive = true) (ho : s.chanOwner (32 * k.val + c.val) = none)
    (hd : 1 ≤ (s.pch (32 * k.val + c.val)).debt) (hr : s.refreshing (32 * k.val + c.val) = false) :
    exec (.refreshIdle k c) s = .next (s.beginRefresh k c 1 false false) := by
  show execRefreshIdle k c s = _
  simp only [execRefreshIdle, ha, ho, Int.not_lt.mpr hd, hr, Option.isSome_none, decide_false, Bool.not_true, Bool.or_self,
    Bool.false_eq_true, if_false]

/-- REFRESH_WINDOW in the first pc of a window (R193, R194). -/
theorem exec_refreshWindow_first {k : StackId} {c : ChId} {p l : Nat} {s : State} (hr : s.running = true)
    (ho : s.chanOwner (32 * k.val + c.val) = some (p, l)) (hw : s.windowPhase p (s.lchDecl p l) s.plan.geyser = 0) :
    exec (.refreshWindow k c) s =
      let n := windowRefreshes (s.lchDecl p l).len s.clkTu
      let m := min n ((s.pch (32 * k.val + c.val)).debt + 8).toNat
      let s1 := s.modChan k c fun z => { z with winN := n }
      if m = 0 then .next s1 else .next (s1.beginRefresh k c m false false) := by
  show execRefreshWindow k c s = _
  simp only [execRefreshWindow, ho, hr, hw, ne_eq, not_true_eq_false, decide_false, Bool.not_true, Bool.or_self,
    Bool.false_eq_true, if_false]

/-- The window's count of refreshes leaves those in progress as they are. -/
theorem State.chan_winN (s : State) (k : StackId) (c : ChId) (n : Nat) :
    (s.modChan k c fun z => { z with winN := n }).chan k c = { s.chan k c with winN := n } :=
  State.chan_modChan_same s _ k.isLt c.isLt

/-- The pseudo-channels that a forced refresh takes (R195). -/
def State.forcedChans (s : State) (k : Nat) : List Nat :=
  (List.range 32).filter fun c => !s.refreshing (32 * k + c) && ((s.chan k c).pending || decide (4 ≤ (s.chan k c).debt))

theorem State.mem_forcedChans {s : State} {k : Nat} {c : Nat} : c ∈ s.forcedChans k ↔
    c < 32 ∧ s.refreshing (32 * k + c) = false ∧ ((s.chan k c).pending = true ∨ 4 ≤ (s.chan k c).debt) := by
  simp only [State.forcedChans, List.mem_filter, List.mem_range, Bool.and_eq_true, Bool.not_eq_true', Bool.or_eq_true, decide_eq_true_eq]

theorem State.forcedChans_pending (s : State) (k : Nat) :
    (s.forcedChans k).filter (fun c => (s.chan k c).pending) =
      (List.range 32).filter fun c => !s.refreshing (32 * k + c) && (s.chan k c).pending := by
  rw [State.forcedChans, List.filter_filter]
  refine List.filter_congr fun c _ => ?_
  cases (s.chan k c).pending <;> cases s.refreshing (32 * k + c) <;> rfl

/-- FORCED_REFRESH with a pseudo-channel due: every one of `forcedChans` (R195). -/
theorem exec_forcedRefresh_due {k : StackId} {c₀ : ChId} {s : State} (ha : s.alive = true) (hp : (s.chan k c₀).pending = true)
    (hr : s.refreshing (32 * k.val + c₀.val) = false) (hw : s.running = false ∨ (s.chan k c₀).pendingPc + 1184 ≤ s.plan.geyser) :
    exec (.forcedRefresh k) s = .next ((s.forcedChans k).foldl (fun s c => s.beginRefresh k c 1 true false)
      (s.modStk k fun y => { y with
        refreshForced := satAdd y.refreshForced ((s.forcedChans k).filter fun c => (s.chan k c).pending).length })) := by
  refine if_neg ?_
  have hor : (!s.running || decide ((s.chan k c₀).pendingPc + 1184 ≤ s.plan.geyser)) = true := by
    simpa using hw
  simp only [ha, Bool.not_true, Bool.or_false, List.isEmpty_iff, List.filter_eq_nil_iff]
  intro hall
  refine hall c₀ (List.mem_range.mpr c₀.isLt) ?_
  rw [hp, hr, hor, Bool.false_and, Bool.not_false, Bool.and_self, Bool.and_self]

/-- Refreshes of several pseudo-channels of a stack are changes of each by itself. -/
theorem foldl_beginRefresh (k : Nat) (l : List Nat) (s : State) (forced held : Bool) :
    l.foldl (fun s c => s.beginRefresh k c 1 forced held) s = l.foldl (fun t c => t.modChan k c (s.refreshOf 1 forced held)) s :=
  foldl_modChan (s := s) (fun _ _ _ => rfl) s.stackBanks

/-- What HOLD_REFRESH makes of a pseudo-channel of the state: a refresh where its debt is at least `least` (R196). -/
def State.heldOf (s : State) (least : Int) (hold : Bool) (z : Channel) : Channel :=
  if least ≤ z.debt && !z.refreshingAt s.wall then s.refreshOf 1 false hold z else z

theorem State.holdRefresh_foldl (s : State) (k : StackId) (least : Int) (hold : Bool) (hs : s.clk.switching.isNone = hold) :
    (List.range 32).foldl (fun s c => if least ≤ (s.chan k c).debt && !s.refreshing (32 * k.val + c) then
        s.beginRefresh k c 1 false s.clk.switching.isNone else s) s =
      (List.range 32).foldl (fun t c => t.modChan k c (s.heldOf least hold)) s := by
  subst hs
  refine foldl_modChan (s := s) (fun b c hc => ?_) s.stackBanks
  rw [State.refreshing_eq _ k (List.mem_range.mp hc)]
  split
  next h => exact State.modChan_congr _ (if_pos h).symm
  next h => exact (State.modChan_id _ (if_neg h)).symm

theorem State.foldl_modChan_refreshForced (k : Nat) (g : Channel → Channel) (l : List Nat) (s : State) (hk : k < 8) :
    ((l.foldl (fun t c => t.modChan k c g) s).stk k).refreshForced = (s.stk k).refreshForced :=
  foldl_keeps (fun t : State => (t.stk k).refreshForced)
    (fun t c => by rw [State.modChan, State.stk_modStk_same _ _ _ hk]) l s

/-- What a forced refresh leaves of a pseudo-channel (R195). -/
theorem State.forcedRefresh_chan (s : State) (k : StackId) (c : ChId) (f : Stack → Stack) (hf : ∀ y, (f y).ch = y.ch) :
    ((s.forcedChans k).foldl (fun t c => t.modChan k c ((s.modStk k f).refreshOf 1 true false)) (s.modStk k f)).chan k c =
      if c.val ∈ s.forcedChans k then s.refreshOf 1 true false (s.chan k c) else s.chan k c := by
  rw [State.foldl_modChan_chan _ _ _ _ k.isLt (fun c hc => (State.mem_forcedChans.mp hc).1) (List.nodup_range.filter _) c.val,
    State.chan_modStk _ hf]
  rfl

/-- HOLD_REFRESH in a hold (R196). -/
theorem exec_holdRefresh_held {k : StackId} {s : State} (ha : s.alive = true) (hh : s.held = true) (hs : s.clk.switching = none) :
    exec (.holdRefresh k) s = .next ((List.range 32).foldl (fun t c => t.modChan k c (s.heldOf 6 true)) s) := by
  have hnone : s.clk.switching.isNone = true := by rw [hs, Option.isNone_none]
  rw [← s.holdRefresh_foldl k 6 true hnone]
  show execHoldRefresh k s = _
  simp only [execHoldRefresh, hs, hh, ha, Bool.not_true, Bool.or_self, Bool.false_eq_true, if_false]

/-- HOLD_REFRESH in a step switch that the refreshes fit (R196). -/
theorem exec_holdRefresh_switch {k : StackId} {s : State} {e : Nat} {st : BitVec 3} (ha : s.alive = true)
    (hs : s.clk.switching = some (e, st)) (hf : s.wall + 128 * s.clkTu + tuRefresh ≤ e) :
    exec (.holdRefresh k) s = .next ((List.range 32).foldl (fun t c => t.modChan k c (s.heldOf 1 false)) s) := by
  have hsome : s.clk.switching.isNone = false := by rw [hs, Option.isNone_some]
  rw [← s.holdRefresh_foldl k 1 false hsome]
  show execHoldRefresh k s = _
  simp only [execHoldRefresh, hs, hf, ha, decide_true, Bool.not_true, Bool.or_self, Bool.false_eq_true, if_false]

/-- What HOLD_REFRESH leaves of a pseudo-channel (R196). -/
theorem State.holdRefresh_chan (s : State) (k : StackId) (least : Int) (c : ChId) (hold : Bool) :
    ((List.range 32).foldl (fun t c => t.modChan k c (s.heldOf least hold)) s).chan k c =
      if s.refreshing (32 * k.val + c.val) = false ∧ least ≤ (s.chan k c).debt then
        { s.chan k c with
          debt := (s.chan k c).debt - 1
          refreshEnd := some (s.wall + 128 * s.clkTu + 320 * tuNs, 1)
          inHold := (s.chan k c).inHold || hold }
      else s.chan k c := by
  rw [State.foldl_modChan_chan _ _ _ _ k.isLt (fun c hc => List.mem_range.mp hc) List.nodup_range c.val, if_pos (List.mem_range.mpr c.isLt),
    State.refreshing_eq s k c.isLt]
  unfold State.heldOf
  by_cases h : (s.chan k c).refreshingAt s.wall = false ∧ least ≤ (s.chan k c).debt
  · obtain ⟨hidle, hle⟩ := h
    rw [if_pos (by rw [decide_eq_true hle, hidle, Bool.not_false, Bool.and_self]), if_pos ⟨hidle, hle⟩, State.refreshOf_idle hidle]
    simp only [Channel.begun, Nat.cast_one, Nat.one_mul, Bool.or_false, tuRefresh]
  · rw [if_neg h, if_neg]
    rw [Bool.and_eq_true, decide_eq_true_eq, Bool.not_eq_true']
    exact fun hc => h hc.symm

/-- A stack's temperature with the hysteresis of HOT (R192). -/
theorem Stack.warm_eq (y : Stack) (x : BitVec 8) : y.warm x = { y with
    tempC := x
    hot := decide (85 ≤ x.toNat) || (y.hot && decide (82 < x.toNat)) } := by
  unfold Stack.warm
  congr 1
  by_cases h85 : 85 ≤ x.toNat
  · rw [if_pos h85, decide_eq_true h85, Bool.true_or]
  · rw [if_neg h85, decide_eq_false h85, Bool.false_or]
    by_cases h82 : x.toNat ≤ 82
    · rw [if_pos h82, decide_eq_false (Nat.not_lt.mpr h82), Bool.and_false]
    · rw [if_neg h82, decide_eq_true (Nat.not_le.mp h82), Bool.and_true]

/-- Settles O47: what begins is `State.refreshOf`, a change of several pseudo-channels `State.foldl_modChan_chan`. -/
theorem stackUpkeepComplete : Obligations.StackUpkeepComplete := by
  refine ⟨fun k c word s => ?writeBack, fun k c s => ?patrol, fun k c s hst hd => ?tick, fun k c s => ?idle, fun k c p l s => ?window,
    fun k c₀ s ha hp hr hw => ?forced, fun k s ha => ?held, fun k x s => ?hot, fun k s ha hst => ?train⟩
  case writeBack =>
    intro x s1 hq ho
    exact if_pos (by rw [hq, ho, Bool.and_self])
  case patrol =>
    intro x y w s1 done t hst hbit hb hw ho
    have hexec := exec_patrolScrub_due hst hbit hb hw ho
    refine ⟨fun hu => ?_, fun hu => hexec.trans (if_pos hu), Stack.scrubbedCh_within, Stack.scrubbedCh_word, Stack.scrubbedCh_pass⟩
    refine (hexec.trans (if_neg (ne_true_of_eq_false hu))).trans ?_
    simp only [x, w, y]
    cases (s.pch (32 * k.val + c.val)).ceDie (s.stk k).scrubWord.toNat <;> rfl
  case tick =>
    refine if_neg ?_
    simp only [hst, Nat.not_lt.mpr hd, ne_eq, not_true_eq_false, decide_false, Bool.or_self, Bool.false_eq_true, not_false_eq_true]
  case idle =>
    intro x ha ho hd hr
    rw [State.refreshing_eq s k c.isLt] at hr
    rw [exec_refreshIdle_due ha ho hd ((State.refreshing_eq s k c.isLt).trans hr), State.beginRefresh_eq, State.modPch_eq s k c.isLt]
    refine congrArg Host.Outcome.next (State.modChan_congr s ?_)
    simp only [State.refreshOf_idle hr, Channel.begun, Nat.cast_one, Nat.one_mul, Bool.or_false, tuRefresh]
  case window =>
    intro x hr ho hw n m s1
    have hexec : exec (.refreshWindow k c) s = if m = 0 then .next s1 else .next (s1.beginRefresh k c m false false) :=
      exec_refreshWindow_first hr ho hw
    have hch : s1.chan k c = { s.chan k c with winN := n } := s.chan_winN k c n
    refine ⟨fun hm => hexec.trans (if_pos hm), fun hm hidle => ?_, fun e q hm he hlt => ?_⟩
    · rw [State.refreshing_eq s k c.isLt] at hidle
      have hz : (s1.chan k c).refreshingAt s1.wall = false := by
        rw [hch]
        exact hidle
      rw [hexec, if_neg hm.ne', State.beginRefresh_eq]
      refine congrArg Host.Outcome.next (State.modChan_congr s1 ?_)
      simp only [State.refreshOf_idle hz, Channel.begun, Bool.or_false]
      rfl
    · rw [State.pch_eq s k c.isLt] at he
      have hz : (s1.chan k c).refreshEnd = some (e, q) := by
        rw [hch]
        exact he
      rw [hexec, if_neg hm.ne', State.beginRefresh_eq]
      refine congrArg Host.Outcome.next (State.modChan_congr s1 ?_)
      exact State.refreshOf_busy (s := s1) hz hlt
  case forced =>
    let f (y : Stack) : Stack := { y with
      refreshForced := satAdd y.refreshForced ((s.forcedChans k).filter fun c => (s.chan k c).pending).length }
    let s1 := s.modStk k f
    refine ⟨_, (exec_forcedRefresh_due ha hp hr hw).trans (congrArg Host.Outcome.next (foldl_beginRefresh k (s.forcedChans k) s1 true false)),
      State.foldl_modChan_banks _ _ _ _, fun k' hk => ?_, ?_, fun c hidle hdue => ?_, fun c hno => ?_⟩
    · rw [State.foldl_modChan_stk_ne _ _ _ _ (Ne.symm hk)]
      exact State.stk_modStk_ne _ _ _ _ (Ne.symm hk)
    · rw [State.foldl_modChan_refreshForced _ _ _ _ k.isLt, State.stk_modStk_same _ _ _ k.isLt, ← State.forcedChans_pending]
    · have hmem : c.val ∈ s.forcedChans k := State.mem_forcedChans.mpr ⟨c.isLt, hidle, hdue⟩
      rw [State.refreshing_eq s k c.isLt] at hidle
      refine (s.forcedRefresh_chan k c f (fun _ => rfl)).trans ?_
      rw [if_pos hmem, State.refreshOf_idle hidle]
      simp only [Channel.begun, Nat.cast_one, Nat.one_mul, Bool.or_true, Bool.or_false, tuRefresh]
    · have hmem : c.val ∉ s.forcedChans k := by
        intro hc
        obtain ⟨-, hidle, hdue⟩ := State.mem_forcedChans.mp hc
        obtain h | ⟨hp', hd'⟩ := hno
        · exact Bool.false_ne_true (hidle.symm.trans h)
        · exact hdue.elim (ne_true_of_eq_false hp') (Int.not_le.mpr hd')
      exact (s.forcedRefresh_chan k c f (fun _ => rfl)).trans (if_neg hmem)
  case held =>
    intro refreshed
    refine ⟨fun hheld hsw => ⟨_, exec_holdRefresh_held ha hheld hsw, State.foldl_modChan_banks _ _ _ _, fun k' hk => ?_, fun c => ?_⟩,
      fun e st hsw hfits => ⟨_, exec_holdRefresh_switch ha hsw hfits, State.foldl_modChan_banks _ _ _ _, fun k' hk => ?_, fun c => ?_⟩⟩
    · exact State.foldl_modChan_stk_ne _ _ _ _ (Ne.symm hk)
    · exact (s.holdRefresh_chan k 6 c true).trans rfl
    · exact State.foldl_modChan_stk_ne _ _ _ _ (Ne.symm hk)
    · exact (s.holdRefresh_chan k 1 c false).trans rfl
  case hot => exact congrArg (fun f => Host.Outcome.next (s.modStk k f)) (funext fun y => y.warm_eq x)
  case train =>
    have hif : ¬(!s.alive || decide (1 < (s.stk k).state.toNat)) = true := by
      simp only [ha, Nat.not_lt.mpr hst, decide_false, Bool.not_true, Bool.or_self, Bool.false_eq_true, not_false_eq_true]
    exact ⟨(if_neg hif).trans (if_pos rfl), fun x hx => (if_neg hif).trans (if_neg hx)⟩

end Sys2Proof.Machine
end

section
/-! Accesses of the stacks: the window, open accesses, sealed records and staging: O48 (07_stacked_memory.md). -/

namespace Sys2Proof.Machine
open Sys2Proof

/-! ### The stack window (R209, R210) -/

theorem State.modStk_modStk (s : State) {k : Nat} (f g : Stack → Stack) (hk : k < 8) :
    (s.modStk k f).modStk k g = s.modStk k fun y => g (f y) := by
  unfold State.modStk
  simp only [State.stk, vget_vset_same _ _ _ _ hk, vset_vset]

theorem State.modStk_congr (s : State) {k : Nat} {f g : Stack → Stack} (h : f (s.stk k) = g (s.stk k)) :
    s.modStk k f = s.modStk k g := by
  unfold State.modStk
  rw [h]

/-- The address of the stack window (R209): the word below, the pseudo-channel above. -/
theorem winAddr_word (a : BitVec 31) : field a 25 0 = a.toNat % 2 ^ 26 := rfl

theorem winAddr_chan (a : BitVec 31) : field a 30 26 = a.toNat / 2 ^ 26 % 32 := by
  rw [field, Nat.shiftRight_eq_div_pow] <;> rfl

/-- What GO makes of a stack's window with the direction `wr` (R209, R412). -/
def Stack.go (y : Stack) (scrubs wr : Bool) : Stack :=
  if y.winGo.isSome then { y with winWrite := wr }
  else if scrubs then { y with
    winWrite := wr
    winError := true }
  else { y with
    winWrite := wr
    winGo := some { word := y.winAddr.toNat % 2 ^ 26, ch := y.winAddr.toNat / 2 ^ 26 % 32, write := wr, data := y.winData }
    winLeft := none
    winGot := none }

/-- A second GO is ignored. -/
theorem Stack.go_busy (y : Stack) (scrubs wr : Bool) (h : y.winGo ≠ none) : y.go scrubs wr = { y with winWrite := wr } :=
  if_pos (Option.isSome_iff_ne_none.mpr h)

theorem Stack.go_free (y : Stack) (wr : Bool) (h : y.winGo = none) : y.go false wr = { y with
    winWrite := wr
    winGo := some { word := y.winAddr.toNat % 2 ^ 26, ch := y.winAddr.toNat / 2 ^ 26 % 32, write := wr, data := y.winData }
    winLeft := none
    winGot := none } := by
  simp only [Stack.go, h, Option.isSome_none, Bool.false_eq_true, if_false]

/-- GO into a slice being scrubbed. -/
theorem Stack.go_scrubbed (y : Stack) (wr : Bool) (h : y.winGo = none) : y.go true wr = { y with
    winWrite := wr
    winError := true } := by
  simp only [Stack.go, h, Option.isSome_none, Bool.false_eq_true, if_false, if_true]

theorem State.stkGo_eq (s : State) (k : StackId) (wr : Bool) :
    (s.modStk k fun y => { y with winWrite := wr }).stkGo k =
      s.modStk k fun y => y.go (s.sliceScrubs (y.winAddr.toNat / 2 ^ 26 % 32)) wr := by
  unfold State.stkGo
  rw [State.modStk_modStk _ _ _ k.isLt]
  refine State.modStk_congr s ?_
  simp only [winAddr_word, winAddr_chan, Stack.go]
  rfl

/-- STK_WIN_READ and STK_WIN_WRITE of a ready chip (R210). -/
theorem exec_stkWin_ready {k : StackId} {s : State} (hr : s.ready = true) :
    exec (.stkWinRead k) s = .next (s.modStk k fun y => y.go (s.sliceScrubs (y.winAddr.toNat / 2 ^ 26 % 32)) false) ∧
    exec (.stkWinWrite k) s = .next (s.modStk k fun y => y.go (s.sliceScrubs (y.winAddr.toNat / 2 ^ 26 % 32)) true) :=
  ⟨congrArg Host.Outcome.next ((if_pos hr).trans (s.stkGo_eq k false)), congrArg Host.Outcome.next ((if_pos hr).trans (s.stkGo_eq k true))⟩

/-- STK_WIN_ACCESS of a waiting access that may be admitted now (R210). -/
theorem exec_stkWinAccess_admit {k : StackId} {a : WinAcc} {s : State} (hgo : (s.stk k).winGo = some a) (hleft : (s.stk k).winLeft = none)
    (hs : s.sliceScrubs a.ch = false) (hb : (s.pch (32 * k.val + a.ch)).noBetter 5 = true) (ho : s.openFree (32 * k.val + a.ch) = true) :
    exec (.stkWinAccess k) s = .next (s.admitWindow k a) := by
  show execStkWinAccess k s = _
  simp only [execStkWinAccess, hgo, hleft, hs, hb, ho, Bool.and_self, Bool.false_eq_true, if_false, if_true]

/-- The window access taken, with what a read got. -/
def State.windowTaken (s : State) (k : Nat) (a : WinAcc) (got : Option (BitVec 512)) : State :=
  (s.countOpen (32 * k + a.ch)).modStk k fun y => { y with
    winLeft := some (if a.write then 150 else 222)
    winGot := got }

/-- A window read of a readable word (R210). -/
theorem State.admitWindow_read {s : State} {k : Nat} {a : WinAcc} (hw : a.write = false)
    (hu : (s.pch (32 * k + a.ch)).unreadable a.word s.plan.geyser = false) :
    s.admitWindow k a =
      let t := s.windowTaken k a (some ((s.pch (32 * k + a.ch)).wordAtPc a.word s.plan.geyser))
      match (s.pch (32 * k + a.ch)).ceDie a.word with
      | some die => t.stackCE (32 * k + a.ch) a.word die
      | none => t := by
  simp only [State.admitWindow, hw, hu, Bool.or_self, Bool.false_eq_true, if_false, Option.isNone_some, State.windowTaken] <;> rfl

/-- A window read of a word that cannot be read (R210). -/
theorem State.admitWindow_unreadable {s : State} {k : Nat} {a : WinAcc} (hw : a.write = false)
    (hu : (s.pch (32 * k + a.ch)).unreadable a.word s.plan.geyser = true) :
    s.admitWindow k a =
      let t := s.windowTaken k a none
      if nsHas a.word (s.pch (32 * k + a.ch)).bad then
        t.stackUE (32 * k + a.ch) a.word ((t.chanOwner (32 * k + a.ch)).map (·.1)) else t := by
  simp only [State.admitWindow, hw, hu, Bool.false_or, Bool.false_eq_true, if_false, if_true, Option.isNone_none, State.windowTaken]

/-- A window write (R210). -/
theorem State.admitWindow_write {s : State} {k : Nat} {a : WinAcc} (hw : a.write = true) :
    s.admitWindow k a = (s.windowTaken k a none).openWrite (32 * k + a.ch) a.word a.data := by
  simp only [State.admitWindow, hw, Bool.true_or, if_true, State.windowTaken]

/-- STK_WIN_ACCESS of an access whose admission cycles have passed (R210). -/
theorem exec_stkWinAccess_done {k : StackId} {a : WinAcc} {s : State} (hgo : (s.stk k).winGo = some a) (hleft : (s.stk k).winLeft = some 0) :
    exec (.stkWinAccess k) s = .next (s.modStk k fun y => y.winDone a) := by
  show execStkWinAccess k s = _
  simp only [execStkWinAccess, hgo, hleft]

/-! ### Open accesses (R191) -/

/-- The first of the least by a measure. -/
theorem minBy_append {α : Type} (f : α → Nat) {o : α} {pre post : List α} (hpre : ∀ y ∈ pre, f o < f y) (hpost : ∀ y ∈ post, f o ≤ f y) :
    minBy f (pre ++ o :: post) = some o := by
  induction pre with
  | nil =>
    rw [List.nil_append, minBy]
    cases hm : minBy f post with
    | none => rfl
    | some y => exact if_neg (Nat.not_lt.mpr (hpost y (minBy_mem f post hm)))
  | cons x pre ih =>
    rw [List.cons_append, minBy, ih fun y hy => hpre y (List.mem_cons_of_mem _ hy)]
    exact if_pos (hpre x List.mem_cons_self)

/-- STACK_OPEN_ACCESS of a pseudo-channel that may take its best queued access now (R191). -/
theorem exec_stackOpenAccess_best {k : StackId} {c : ChId} {o : OpenReq} {s : State}
    (ho : minBy (·.kind.rank) (s.pch (32 * k.val + c.val)).openQueue = some o) (hk : o.kind ≠ .writeBack)
    (hf : s.openFree (32 * k.val + c.val) = true) :
    exec (.stackOpenAccess k c) s =
      let x := 32 * k.val + c.val
      let t := (s.countOpen x).modPch x fun y => { y with openQueue := y.openQueue.erase o }
      .next (State.stageSettle (match o.data with
        | some d => t.openWrite x o.word d
        | none => t) o.tag) := by
  show execStackOpenAccess k c s = _
  simp only [execStackOpenAccess, ho, hk, hf, decide_false, Bool.not_true, Bool.or_self, Bool.false_eq_true, if_false] <;> rfl

/-! ### Sealed records (R205) -/

section
variable {s : State} {p : Nat} {b : List (BitVec 8)} {tag : Option (Nat × Nat × Nat)} {i : Image} (hi : s.img p = some i)
include hi

theorem State.loadSealed_noRegion (hr : i.regions[(sealedOf b).region]? = none) :
    s.loadSealed p b tag = (s.sealFailed p 0 (sealedOf b).region (sealedOf b).target, false) := by
  simp only [State.loadSealed, hi, hr]

theorem State.loadSealed_outside {g : Region} (hr : i.regions[(sealedOf b).region]? = some g)
    (hl : s.sealedLocs p i g (sealedOf b).target (sealedOf b).count = none) :
    s.loadSealed p b tag =
      (s.sealFailed p ((s.planLoc p i (sealedOf b).target).1 / 32) (sealedOf b).region (sealedOf b).target, false) := by
  simp only [State.loadSealed, hi, hr, hl]

/-- A record whose target lies in its region, by what its checks find (R205). -/
theorem State.loadSealed_inside {g : Region} {locs : List ((Nat × Nat) × BitVec 128)}
    (hr : i.regions[(sealedOf b).region]? = some g)
    (hl : s.sealedLocs p i g (sealedOf b).target (sealedOf b).count = some locs) :
    (s.loadSealed p b tag).1 =
      let r := sealedOf b
      let k := (locs.headD ((0, 0), 0)).1.1 / 32
      match s.openSealed p r k with
      | some pt => (locs.zip (linesOfBytes pt)).foldl (fun s w => s.modPch w.1.1.1 fun c => { c with
          openQueue := c.openQueue ++ [{
            kind := .sealedLoad
            word := w.1.1.2
            data := some (s.atRest p g.slot w.1.2 w.2)
            tag := tag }] })
          (s.modStk k fun y => y.remember ((s.sealKey p r).getD 0) r.nonce)
      | none => s.sealFailed p k r.region r.target := by
  simp only [State.loadSealed, hi, hr, hl]
  cases s.openSealed p (sealedOf b) ((locs.headD ((0, 0), 0)).1.1 / 32) <;> rfl

end

/-! ### Staging (R207, R208) -/

/-- STAGING_EPOCH at the tick that starts the epoch (R207). -/
theorem exec_stagingEpoch_due {p : PartId} {i : Image} {l : Nat} {s : State} (hi : s.img p = some i) (hl : (s.pt p).launched = some l)
    (ht : i.stageTable.isEmpty = false) (htick : s.isTick p s.plan.geyser = true)
    (hf : s.framesSince p s.plan.geyser % max 1 i.epochFrames = 0)
    (hm : (s.pt p).epoch = (s.plan.geyser - l) / max 1 (s.frameLen p * i.epochFrames)) :
    exec (.stagingEpoch p) s =
      let m := (s.plan.geyser - l) / max 1 (s.frameLen p * i.epochFrames)
      let t := s.modPt p fun b => { b with epoch := m + 1 }
      if m = 0 then .next ((t.fillHalf p 0).fillHalf p 1) else .next (t.fillHalf p ((m + 1) % 2)) := by
  show execStagingEpoch p s = _
  simp only [execStagingEpoch, hi, hl, ht, htick, hf, hm, ne_eq, not_true_eq_false, decide_false, decide_true, Bool.and_self, Bool.not_true,
    Bool.or_self, Bool.false_eq_true, if_false]

section
variable {p : PartId} {h : HalfIx} {d : DescIx} {data : List (BitVec 512)} {r : StageRead} {s : State}
  (hr : s.pcie.stgReads.find? (fun r => r.part.toNat = p.val && r.half = h.val && r.desc = d.val) = some r)
include hr

/-- STAGING_COMPLETION with an error (R208, R440). -/
theorem exec_stagingCompletion_error :
    exec (.stagingCompletion p h d data true) s = .next (issueStaging 4096 (({ s with pcie := { s.pcie with
      cplErr := satInc s.pcie.cplErr
      stgReads := s.pcie.stgReads.erase r } } : State).stagingError p d)) := by
  show execStagingCompletion p h d data true s = _
  simp only [execStagingCompletion, hr, if_true]

/-- STAGING_COMPLETION of words that the descriptor still lacks (R207). -/
theorem exec_stagingCompletion_words
    (hlen : r.done + data.length ≤ ((((s.img p).getD Image.reset).stageTable[d.val]?).getD StageDesc.reset).length + 1) :
    exec (.stagingCompletion p h d data false) s =
      let t := (((s.img p).getD Image.reset).stageTable[d.val]?).getD StageDesc.reset
      let s1 := s.modFn (p.val + 1) fun f => { f with stgBytes := f.stgBytes + BitVec.ofNat 64 (64 * data.length) }
      let s2 := if t.sealed then s1 else s1.stageWords p h d r.done data
      let drop (s : State) : State := { s with pcie := { s.pcie with stgReads := s.pcie.stgReads.erase r } }
      if r.done + data.length < t.length + 1 then .next { s2 with pcie := { s2.pcie with
        stgReads := s2.pcie.stgReads.map fun x => if x = r then { r with
          done := r.done + data.length
          buf := if t.sealed then r.buf ++ data else r.buf } else x } }
      else .next (issueStaging 4096 (
        if t.sealed then ((drop s2).loadSealed p ((r.buf ++ data).flatMap bytesOfLine) (some (p.val, h.val, d.val))).1 else drop s2)) := by
  have htake : data.take (((((s.img p).getD Image.reset).stageTable[d.val]?).getD StageDesc.reset).length + 1 - r.done) = data :=
    List.take_of_length_le (by omega)
  show execStagingCompletion p h d data false s = _
  simp only [execStagingCompletion, hr, htake, Bool.false_eq_true, if_false]

end

/-- Settles O48: the window is `Stack.go` and `State.admitWindow`, an open access `minBy_append`, a sealed record
`State.loadSealed_inside`, and staging `exec_stagingCompletion_words`. -/
theorem stackAccessesComplete : Obligations.StackAccessesComplete := by
  refine ⟨fun k s hready => ?go, fun k a s hgo hleft hs => ?admits, fun k a s hgo hleft => exec_stkWinAccess_done hgo hleft,
    ?best, fun p rec i s hi => ?sealed, ?epoch, ?completion⟩
  case go =>
    intro a go no
    obtain ⟨hread, hwrite⟩ := exec_stkWin_ready (k := k) hready
    rw [hread, hwrite]
    refine ⟨fun hg hs => ?_, fun hg hs => ?_, fun hg => ?_⟩
    · have hy (wr : Bool) := (congrArg (fun b => (s.stk k).go b wr) hs).trans ((s.stk k).go_free wr hg)
      exact ⟨congrArg Host.Outcome.next (State.modStk_congr s (hy false)), congrArg Host.Outcome.next (State.modStk_congr s (hy true))⟩
    · have hy (wr : Bool) := (congrArg (fun b => (s.stk k).go b wr) hs).trans ((s.stk k).go_scrubbed wr hg)
      exact ⟨congrArg Host.Outcome.next (State.modStk_congr s (hy false)), congrArg Host.Outcome.next (State.modStk_congr s (hy true))⟩
    · have hy (scrubs wr : Bool) := (s.stk k).go_busy scrubs wr hg
      exact ⟨congrArg Host.Outcome.next (State.modStk_congr s (hy _ false)), congrArg Host.Outcome.next (State.modStk_congr s (hy _ true))⟩
  case admits =>
    intro x hb ho s1 taken
    have hexec := exec_stkWinAccess_admit hgo hleft hs hb ho
    exact ⟨fun hw hu => hexec.trans (congrArg Host.Outcome.next (State.admitWindow_read hw hu)),
      fun hw hu => hexec.trans (congrArg Host.Outcome.next (State.admitWindow_unreadable hw hu)),
      fun hw => hexec.trans (congrArg Host.Outcome.next (State.admitWindow_write hw))⟩
  case best =>
    intro k c o pre post s x hq hpre hpost hk ho s1 t
    refine exec_stackOpenAccess_best ?_ hk ho
    rw [hq]
    exact minBy_append _ hpre hpost
  case sealed =>
    intro r
    refine ⟨fun hr => ?_, fun g hr => ⟨fun locs hl => ?_, fun hl => ?_⟩⟩
    · exact congrArg (fun x => Host.Outcome.next x.1) (State.loadSealed_noRegion hi hr)
    · exact congrArg Host.Outcome.next (State.loadSealed_inside hi hr hl)
    · exact congrArg (fun x => Host.Outcome.next x.1) (State.loadSealed_outside hi hr hl)
  case epoch =>
    intro p i l s hi hl ht htick hf m hm t
    rw [exec_stagingEpoch_due hi hl ht htick hf hm]
    exact (apply_ite Host.Outcome.next _ _ _).symm
  case completion =>
    intro p h d data r s hr t s1 s2 drop
    refine ⟨exec_stagingCompletion_error hr, fun hlt => ?_, fun heq => ?_⟩
    · exact (exec_stagingCompletion_words hr (Nat.le_succ_of_le hlt)).trans (if_pos (Nat.lt_succ_of_le hlt))
    · exact (exec_stagingCompletion_words hr heq.le).trans (if_neg (Nat.not_lt.mpr heq.ge))

end Sys2Proof.Machine
end

section
/-! Bind and re-bind: O49 (08_placement.md, 15_partitions_and_security.md). -/

namespace Sys2Proof.Machine
open Sys2Proof

/-! ### A run starts (R220, R236, R405) -/

/-- The chip with a run of partition `p` begun. -/
def State.runStarted (s : State) (p : Nat) (rebind : Bool) (env : BindEnv) : State :=
  let s0 : State := { s with map := { s.map with part := BitVec.ofNat 4 p } }
  let s1 := match s0.map.run with
    | some r => if r.rebind then s0 else s0.setWings r.part.toNat 2
    | none => s0
  { s1 with map := { s1.map with
    chipState := s0.bindHealth
    state := 1
    restart := s0.map.run.isSome
    code := 0
    failLtile := 0
    failStream := 0
    failObj := 0
    records := env.records
    digests := env.digests
    peerConfigs := env.peers
    run := some (s1.mapRun p rebind) } }

section
variable {s : State} {p : Nat} {env : BindEnv}

/-- BIND of a set that is there (R236). -/
theorem State.startRun_bind (hm : s.mayBind p false = true) :
    s.startRun p false env = ((s.runStarted p false env).modPt p fun b => { b with wings := { b.wings with mapped := false } }).setWings p 3 :=
  (ite_not_of_true hm _ _).trans (if_pos rfl)

/-- REBIND of a set that is there, by the state of Wings (R405). -/
theorem State.startRun_rebind (hm : s.mayBind p true = true) :
    let w := ((s.runStarted p true env).pt p).wingsState
    let u := (s.runStarted p true env).modPt p fun b => { b with rebound := none }
    s.startRun p true env =
      if w = 4#3 || w = 5#3 || w = 6#3 then
        (u.modPt p fun b => { b with
          wings := { b.wings with mapped := false }
          curtainArm := none }).setWings p (if w = 6#3 then 1 else 2)
      else u :=
  (ite_not_of_true hm _ _).trans (if_neg Bool.false_ne_true)

theorem State.mayBind_bind (hst : (s.pt p).state = 1#3) (hi : (s.pt p).wings.image.isSome = true)
    (hw : (s.pt p).wingsState = 2#3 ∨ (s.pt p).wingsState = 3#3 ∨ (s.pt p).wingsState = 4#3) : s.mayBind p false = true := by
  have hwor : (decide ((s.pt p).wingsState = 2#3) || decide ((s.pt p).wingsState = 3#3) || decide ((s.pt p).wingsState = 4#3)) = true := by
    simpa [or_assoc] using hw
  simp only [State.mayBind, hst, hi, hwor, decide_true, Bool.false_eq_true, if_false, Bool.and_self]

theorem State.mayBind_rebind (hst : (s.pt p).state = 1#3) (hi : (s.pt p).stage.image.isSome = true) : s.mayBind p true = true := by
  simp only [State.mayBind, hst, hi, decide_true, if_true, Bool.and_self]

end

/-! ### A run goes on (R235) -/

section
variable {s : State} {r : MapRun}

theorem State.continueRun_waits (hr : s.map.run = some r) (hw : s.bindWaits r.part.toNat = true) : s.continueRun = s := by
  simp only [State.continueRun, hr, hw, if_true]

/-- A run that need not wait goes on by the phase that it is in. -/
theorem State.continueRun_phase (hr : s.map.run = some r) (hw : s.bindWaits r.part.toNat = false) :
    let r1 := { r with since := some (r.since.getD s.wall) }
    let s1 : State := { s with map := { s.map with run := some r1 } }
    s.continueRun = if s.map.state = 2#3 then s1.checkRun r1 (s1.jobCtx r1)
      else if s.map.state = 3#3 then s1.placeRun r1 (s1.jobCtx r1)
      else s1.agreeRun r1 (s1.jobCtx r1) := by
  simp only [State.continueRun, hr, hw, Bool.false_eq_true, if_false]

variable {c : JobCtx}

theorem State.agreeRun_waits (h : c.gathered = false) : s.agreeRun r c = s := ite_not_of_false h _ _

/-- Records gathered, and every neighbour in agreement (R219). -/
theorem State.agreeRun_agreed (h : c.gathered = true) (hd : (s.disagree c).isEmpty = true) :
    s.agreeRun r c = { s with map := { s.map with
      run := some { r with gatheredAt := some (r.gatheredAt.getD s.wall) }
      jhmDigest := c.digest
      state := 2 } } :=
  (ite_not_of_true h _ _).trans (if_pos hd)

/-- The check that phase 3 of a run makes (R149, R235). -/
def State.runCheck (s : State) (r : MapRun) (c : JobCtx) : Option (Nat × CheckLoc) :=
  let b := s.pt r.part.toNat
  let x := s.runSet r c
  c.img.check s.clk.stepCur.toNat b.res.poolPages.toNat b.res.devArea.toNat
    (x.bind fun x => if x.rankValid then some x.rank.toNat else none) ((x.map fun x => s.cellClash r.part.toNat x).getD false) (s.runDet r)

theorem State.checkRun_pass (h : s.runCheck r c = none) (hc : s.cfgDiffers c = []) (hx : (s.recordCal r.own).calExceeds c = []) :
    s.checkRun r c = (s.recordCal r.own).enterPhase 3 := by
  unfold State.runCheck at h
  simp only [State.checkRun, h, hc, hx]

theorem State.checkRun_fail {code : Nat} {loc : CheckLoc} (h : s.runCheck r c = some (code, loc)) :
    s.checkRun r c = s.failRun r code loc loc.pc := by
  unfold State.runCheck at h
  simp only [State.checkRun, h]

/-- An embedding found ends the run (R235). -/
theorem State.placeRun_placed {m : RankMap} {y : CfgSet} (he : s.runEmbed r c = .inl m) (hy : s.runSet r c = some y) :
    s.placeRun r c =
      let t := State.signal { s with map := { s.map with
        state := 4
        restart := false
        run := none } } 0 2
      if r.rebind then t.modPt r.part.toNat fun b => { b with rebound := some y }
      else (t.modPt r.part.toNat fun b => { b with wings := y }).setWings r.part.toNat 4 := by
  simp only [State.placeRun, he, hy]

theorem State.placeRun_fail {e : Nat × BitVec 24} (he : s.runEmbed r c = .inr e) :
    s.placeRun r c = s.failRun r e.1 noLoc e.2.toNat := by
  simp only [State.placeRun, he]

end

/-! ### Time limits (R218, R219) -/

/-- HEALTH_RECORD_TIMEOUT of a chip that is silent too long (R218). -/
theorem exec_healthRecordTimeout_due {chip : BitVec 24} {r : MapRun} {a : Nat} {s : State} (hr : s.map.run = some r) (hst : s.map.state = 1#3)
    (ha : r.since = some a) (hw : a + 2000 * tuMs ≤ s.wall) (hc : (s.jobCtx r).chips.contains chip = true)
    (hn : ((s.jobCtx r).recs.any fun x => x.addr = chip) = false) :
    exec (.healthRecordTimeout chip) s = .next { s with map := { s.map with
      records := insertBy (fun a b => a.addr.toNat < b.addr.toNat) { HealthRec.reset with
        addr := chip
        state := 2 } s.map.records } } := by
  show execHealthRecordTimeout chip s = _
  simp only [execHealthRecordTimeout, hr, hst, ha, hw, hc, hn, Option.map_some, Option.getD_some, ne_eq, not_true_eq_false, decide_false,
    decide_true, Bool.not_true, Bool.or_self, Bool.false_eq_true, if_false]

/-- The lowest address of a list. -/
theorem lowest_of_le {a : BitVec 24} {l : List (BitVec 24)} (ha : a ∈ l) (hle : ∀ x ∈ l, a.toNat ≤ x.toNat) : lowest l = some a :=
  minBy_least BitVec.toNat a l ha hle fun _ _ h => BitVec.eq_of_toNat_eq h

/-- HEALTH_DISAGREE 5 s after the last record (R219). -/
theorem exec_healthDisagree_due {r : MapRun} {a : BitVec 24} {g : Nat} {s : State} (hr : s.map.run = some r) (hst : s.map.state = 1#3)
    (hg : r.gatheredAt = some g) (hw : g + 5000 * tuMs ≤ s.wall) (ha : lowest (s.disagree (s.jobCtx r)) = some a) :
    exec .healthDisagree s = .next (s.failRun r 0x24 noLoc a.toNat) := by
  show execHealthDisagree s = _
  simp only [execHealthDisagree, hr, hst, hg, hw, ha, Option.map_some, Option.getD_some, ne_eq, not_true_eq_false, decide_false,
    decide_true, Bool.not_true, Bool.or_self, Bool.false_eq_true, if_false]

/-- A run that ends with code 0x24 (R235). -/
theorem State.failRun_disagree (s : State) (r : MapRun) (a : Nat) :
    s.failRun r 0x24 noLoc a =
      let t := State.signal { s with map := { s.map with
        state := 5
        code := 0x24
        failLtile := 0
        failStream := 3
        failObj := BitVec.ofNat 32 a
        restart := false
        run := none } } 0 2
      if r.rebind then t
      else (t.modPt r.part.toNat fun b => { b with wings := { b.wings with mapped := false } }).setWings r.part.toNat 2 := by
  unfold State.failRun
  cases r.rebind <;> rfl

/-- Settles O49: a start is `State.startRun_bind` or `State.startRun_rebind`, a phase `State.continueRun_phase`. -/
theorem bindRunsComplete : Obligations.BindRunsComplete := by
  refine ⟨?start, fun r s hr hw => State.continueRun_waits hr hw, ?phase,
    fun chip r a s hr hst ha hw hc hn => exec_healthRecordTimeout_due hr hst ha hw hc hn, ?disagree⟩
  case start =>
    intro p env s hready hst s0 s1 t u v w
    have hexec (rebind : Bool) (c : Instr) (h : exec c s = .next (s.ifReady fun s => s.startRun p rebind env)) :
        exec c s = .next (s.startRun p rebind env) := h.trans (congrArg Host.Outcome.next (if_pos hready))
    have hre (hi : (s.pt p).stage.image.isSome = true) : exec (.rebind p env) s =
        .next (if w = 4#3 || w = 5#3 || w = 6#3 then v.setWings p (if w = 6#3 then 1 else 2) else u) :=
      (hexec true (.rebind p env) rfl).trans (congrArg Host.Outcome.next (State.startRun_rebind (State.mayBind_rebind hst hi)))
    refine ⟨fun hi hw => ?_, fun hi h4 h5 h6 => ?_, fun hi h45 => ?_, fun hi h6 => ?_⟩
    · exact (hexec false (.bindRun p env) rfl).trans
        (congrArg Host.Outcome.next (State.startRun_bind (State.mayBind_bind hst hi hw)))
    · simp only [hre hi, h4, h5, h6, decide_false, Bool.or_self, Bool.false_eq_true, if_false]
    · have h6 : w ≠ 6#3 := by
        rintro h6
        obtain h | h := h45 <;> exact absurd (h6.symm.trans h) (by decide)
      have hor : (decide (w = 4#3) || decide (w = 5#3)) = true := by simpa using h45
      simp only [hre hi, hor, h6, Bool.true_or, if_true, if_false]
    · simp only [hre hi, h6, decide_true, Bool.or_true, if_true]
  case phase =>
    intro r s hr hw r1 s1 c p b x check s2 mapped
    have hphase : s.continueRun = if s.map.state = 2#3 then s1.checkRun r1 c
      else if s.map.state = 3#3 then s1.placeRun r1 c else s1.agreeRun r1 c := State.continueRun_phase hr hw
    have hcheck : s1.runCheck r1 c = check := rfl
    have h1 (hst : s.map.state = 1#3) : s.continueRun = s1.agreeRun r1 c := by
      rw [hphase, if_neg (by rw [hst]; decide), if_neg (by rw [hst]; decide)]
    have h2 (hst : s.map.state = 2#3) : s.continueRun = s1.checkRun r1 c := by
      rw [hphase, if_pos hst]
    have h3 (hst : s.map.state = 3#3) : s.continueRun = s1.placeRun r1 c := by
      rw [hphase, if_neg (by rw [hst]; decide), if_pos hst]
    exact ⟨fun hst hg => (h1 hst).trans (State.agreeRun_waits hg),
      fun hst hg hd => (h1 hst).trans (State.agreeRun_agreed (s := s1) hg hd),
      fun hst hc hd hx => (h2 hst).trans (State.checkRun_pass (s := s1) (hcheck.trans hc) hd hx),
      fun code loc hst hc => (h2 hst).trans (State.checkRun_fail (s := s1) (hcheck.trans hc)),
      fun m y hst he hy => (h3 hst).trans (State.placeRun_placed (s := s1) he hy),
      fun e hst he => (h3 hst).trans (State.placeRun_fail (s := s1) he)⟩
  case disagree =>
    intro r a g s hr hst hg hw ha hle t
    rw [exec_healthDisagree_due hr hst hg hw (lowest_of_le ha hle), State.failRun_disagree]

end Sys2Proof.Machine
end

section
/-! Boundary work: O50 (09_serving_steps.md, 14_determinism_and_faults.md). -/

namespace Sys2Proof.Machine
open Sys2Proof

/-! ### The partition and the tick of boundary work in progress -/

/-- What boundary work never changes: whose it is, and the tick that it answers. -/
def Bnd.place (b : Bnd) : Nat × Nat := (b.p, b.tick)

theorem Bnd.reply_place (b : Bnd) (id status : Nat) : (b.reply id status).place = b.place := rfl

theorem Bnd.replySub_place (b : Bnd) (id status : Nat) : (b.replySub id status).place = b.place := rfl

theorem Bnd.findMarks_place (b : Bnd) : b.findMarks.place = b.place := by
  unfold Bnd.findMarks
  split <;> rfl

theorem Bnd.cancel_place (b : Bnd) (id : Nat) (waiting : List (BitVec 32 × BitVec 64)) : (b.cancel id waiting).place = b.place := by
  unfold Bnd.cancel
  dsimp only
  split
  · rfl
  split
  · rfl
  split
  · rfl
  · split <;> rfl

theorem Bnd.deadline_place (b : Bnd) (id dl : Nat) : (b.deadline id dl).place = b.place := by
  unfold Bnd.deadline
  split <;> rfl

theorem Bnd.budget_place {b b' : Bnd} {op cust : Nat} {val : Int} (h : b.budget op cust val = some b') : b'.place = b.place := by
  obtain ⟨r, -, rfl⟩ := Option.map_eq_some_iff.mp h
  dsimp only
  split <;> rfl

theorem Bnd.control_place (b : Bnd) (r : List (BitVec 8)) (waiting : List (BitVec 32 × BitVec 64)) :
    (b.control r waiting).place = b.place := by
  unfold Bnd.control
  dsimp only
  split
  · split
    next b' h =>
      rw [Option.ite_none_right_eq_some] at h
      have hb : b'.place = b.place := Bnd.budget_place h.2
      exact hb
    next => rfl
  split
  · rfl
  split
  · rfl
  split
  · rfl
  split
  · exact Bnd.cancel_place ..
  · exact Bnd.deadline_place ..

theorem Bnd.operator_place (b : Bnd) : b.operator.place = b.place := by
  unfold Bnd.operator
  split
  · rfl
  split
  · rfl
  dsimp only
  split
  next b' h =>
    have hb := Bnd.budget_place h
    exact hb
  next => rfl

theorem Bnd.logOp_place (b : Bnd) (op cust val : Nat) : (b.logOp op cust val).place = b.place := rfl

theorem Bnd.params_place (b : Bnd) : b.params.place = b.place := by
  unfold Bnd.params
  extract_lets x b1 b2
  have h1 : b1.place = b.place := by
    simp only [b1]
    split
    · exact Bnd.logOp_place ..
    · rfl
  have h2 : b2.place = b1.place := by
    clear_value b1
    simp only [b2]
    split
    · exact Bnd.logOp_place ..
    · rfl
  clear_value b2
  split
  · rfl
  · exact h2.trans h1

theorem Bnd.settle_place (b : Bnd) (rets : List (Slot × Ret)) (i : Nat) (e : Entry) : (b.settle rets i e).place = b.place := by
  unfold Bnd.settle
  extract_lets l ret ch c b1 dec e1
  have h : b1.place = b.place := by
    simp only [b1]
    split <;> rfl
  clear_value b1 e1
  split
  · exact h
  · dsimp only
    split <;> exact h

theorem Bnd.outcomes_place (b : Bnd) : b.outcomes.place = b.place :=
  foldl_keeps Bnd.place (fun _ _ => Bnd.settle_place ..) _ _

theorem Bnd.depths_place (b : Bnd) : b.depths.place = b.place := by
  unfold Bnd.depths
  extract_lets rets ver seen c
  have hc : c.place = b.place := rfl
  split
  · exact hc
  · refine (foldl_keeps Bnd.place (fun b x => ?_) _ _).trans hc
    dsimp only
    split <;> rfl

theorem Bnd.spring_place (b : Bnd) : b.spring.place = b.place := by
  refine foldl_keeps Bnd.place (fun b x => ?_) _ _
  dsimp only
  split <;> rfl

theorem Bnd.admitAll_place (xs : List Submit) (earlier : List Nat) (b : Bnd) : (Bnd.admitAll xs earlier b).place = b.place := by
  induction xs generalizing earlier b with
  | nil => rfl
  | cons x xs ih =>
    unfold Bnd.admitAll
    extract_lets id take q mark b' len c prod o room y
    have ht (b : Bnd) : (take b).place = b.place := rfl
    have hb : b'.place = b.place := rfl
    clear_value take room
    split
    · exact (ih _ _).trans hb
    split
    · exact (ih _ _).trans (ht _)
    split
    · rfl
    split
    · rfl
    split <;> exact (ih _ _).trans (ht _)

theorem Bnd.stringsFit_place {b b' : Bnd} {set : BitVec 32} {v : Nat} (h : b.stringsFit set = some (v, b')) : b'.place = b.place := by
  unfold Bnd.stringsFit at h
  dsimp only at h
  split at h
  · cases h; rfl
  split at h
  · cases h; rfl
  split at h
  · cases h
  split at h
  · cases h
  · cases h; rfl

theorem Bnd.pagesFit_place (b : Bnd) (i upto : Nat) : (b.pagesFit i upto).2.place = b.place := by
  unfold Bnd.pagesFit
  dsimp only
  split
  · rfl
  · split <;> rfl

theorem Bnd.tryEntry_place (b : Bnd) (i : Nat) : (b.tryEntry i).place = b.place := by
  unfold Bnd.tryEntry
  extract_lets e l decoding depth d left n pos0
  split
  · rfl
  next h =>
    extract_lets r
    have hr : r.2.place = b.place := (Bnd.pagesFit_place ..).trans (Bnd.stringsFit_place h)
    clear_value r
    split <;> exact hr

theorem Bnd.pass_place (b : Bnd) (xs : List (Nat × Entry)) : (b.pass xs).place = b.place := by
  refine foldl_keeps Bnd.place (fun b x => ?_) _ _
  split
  · rfl
  · exact Bnd.tryEntry_place ..

theorem Bnd.batch_place (b : Bnd) (isOpen : Bool) : (b.batch isOpen).place = b.place :=
  (Bnd.pass_place ..).trans ((Bnd.pass_place ..).trans (Bnd.pass_place ..))

theorem Bnd.writeOuts_place (b : Bnd) : b.writeOuts.place = b.place := by
  refine foldl_keeps Bnd.place (fun b x => ?_) _ _
  dsimp only
  split
  · rfl
  · split <;> rfl

theorem Bnd.writeReplies_place (b : Bnd) (rs : List ResultRec) : (b.writeReplies rs).place = b.place :=
  foldl_keeps Bnd.place (fun _ _ => by split <;> rfl) _ _

theorem Bnd.seqWord_place (b : Bnd) (wrote : Bool) : (b.seqWord wrote).place = b.place := by
  unfold Bnd.seqWord
  dsimp only
  split <;> rfl

theorem Bnd.config_place (b : Bnd) : b.config.place = b.place := by
  unfold Bnd.config
  dsimp only
  split
  · rfl
  · split <;> rfl

theorem Bnd.checkRing_place (b : Bnd) (beyond : Bool) (ring : Nat) : (b.checkRing beyond ring).place = b.place := by
  unfold Bnd.checkRing
  split <;> rfl

theorem Bnd.useCounts_place (b : Bnd) (ctl sub prompt : Nat) : (b.useCounts ctl sub prompt).place = b.place := rfl

theorem Bnd.readCounts_place (b : Bnd) : b.readCounts.place = b.place := by
  unfold Bnd.readCounts
  dsimp only
  split
  · rfl
  · rw [Bnd.useCounts_place, Bnd.checkRing_place, Bnd.checkRing_place, Bnd.checkRing_place]

theorem Bnd.ledger_place (b : Bnd) : b.ledger.place = b.place := rfl

theorem Bnd.settleAll_place (b : Bnd) : b.settleAll.place = b.place := by
  unfold Bnd.settleAll
  extract_lets b1 waiting b2 b3
  have h1 : b1.place = b.place := by
    simp only [b1, Bnd.findMarks_place, Bnd.readCounts_place, Bnd.config_place]
  have h2 : b2.place = b1.place := foldl_keeps Bnd.place (fun _ _ => Bnd.control_place ..) _ _
  have h3 : b3.place = b2.place := rfl
  simp only [Bnd.ledger_place, Bnd.spring_place, Bnd.depths_place, Bnd.outcomes_place, Bnd.operator_place, Bnd.params_place, h3, h2, h1]

theorem Bnd.endReplay_place (b : Bnd) (e : AshEntry) : (b.endReplay e).place = b.place := rfl

end Sys2Proof.Machine
end

section
/-! Boundary work: what it leaves of SEQ's banks, and O50 (09_serving_steps.md, 14_determinism_and_faults.md). -/

namespace Sys2Proof.Machine
open Sys2Proof

/-! ### What leaves SEQ's banks as they are -/

/-- What every step of a fold keeps of SEQ's banks, the fold keeps. -/
@[simp] theorem State.seqB_foldl {α : Type} {f : State → α → State} (h : ∀ s x, (f s x).seqB = s.seqB) (l : List α) (s : State) :
    (l.foldl f s).seqB = s.seqB := foldl_keeps State.seqB h l s
@[simp] theorem State.seqB_ite (c : Prop) [Decidable c] (a b : State) :
    (if c then a else b).seqB = if c then a.seqB else b.seqB := apply_ite ..
@[simp] theorem State.signal_seqB (s : State) (f v : Nat) : (s.signal f v).seqB = s.seqB := by simp [State.signal]
@[simp] theorem State.partEvent_seqB (s : State) (p : Nat) : (s.partEvent p).seqB = s.seqB := by simp [State.partEvent]
@[simp] theorem State.logEvent_seqB (s : State) (ty detail : Nat) : (s.logEvent ty detail).seqB = s.seqB := by
  simp [State.logEvent]
@[simp] theorem State.logFault_seqB (s : State) (r : FaultRec) (c : Option FaultRec) :
    (s.logFault r c).seqB = s.seqB := by rfl
@[simp] theorem State.flood_seqB (s : State) (except : Nat) (sym : InlineSym) :
    (s.flood except sym).seqB = s.seqB := by simp [State.flood]
@[simp] theorem State.raiseCause_seqB (s : State) (code : BitVec 4) (src : CauseSrc) :
    (s.raiseCause code src).seqB = s.seqB := by
  unfold State.raiseCause
  split <;> simp
@[simp] theorem State.enterFaultStop_seqB (s : State) : s.enterFaultStop.seqB = s.seqB := by simp [State.enterFaultStop]
@[simp] theorem State.faultHold_seqB (s : State) (r : FaultRec) (c : Option FaultRec) :
    (s.faultHold r c).seqB = s.seqB := by simp [State.faultHold]
@[simp] theorem State.flowUpdate_seqB (s : State) (n : Nat) : (s.flowUpdate n).seqB = s.seqB := by simp [State.flowUpdate]
@[simp] theorem State.admitOpen_seqB (s : State) (n : Nat) : (s.admitOpen n).seqB = s.seqB := by simp [State.admitOpen]
@[simp] theorem State.countDrop_seqB (s : State) (n : Nat) : (s.countDrop n).seqB = s.seqB := by rfl
@[simp] theorem State.routeOpen_seqB (s : State) (p : Packet) (via : Nat) : (s.routeOpen p via).seqB = s.seqB := by
  unfold State.routeOpen
  dsimp only
  split <;> simp
@[simp] theorem State.inject_seqB (s : State) (p : Packet) : (s.inject p).seqB = s.seqB := by simp [State.inject]
@[simp] theorem State.toPartner_seqB (s : State) (copyB : Bool) (p : Packet) :
    (s.toPartner copyB p).seqB = s.seqB := by simp [State.toPartner]
@[simp] theorem State.sendGroup_seqB (s : State) (p : Nat) (i : Image) (sv : Serving) (m : GroupMsg) :
    (s.sendGroup p i sv m).seqB = s.seqB := by simp [State.sendGroup]
@[simp] theorem State.showAshFree_seqB (s : State) : s.showAshFree.seqB = s.seqB := by
  unfold State.showAshFree
  split <;> simp
@[simp] theorem State.sendBuddy_seqB (s : State) (kind p tag : Nat) (us : List Line) :
    (s.sendBuddy kind p tag us).seqB = s.seqB := by
  unfold State.sendBuddy
  split <;> simp
@[simp] theorem State.appendAsh_seqB (s : State) (e : AshEntry) : (s.appendAsh e).seqB = s.seqB := by
  simp [State.appendAsh]
@[simp] theorem State.admitWrite_seqB (s : State) (x : Nat) (pw : PendWrite) : (s.admitWrite x pw).seqB = s.seqB := by rfl
@[simp] theorem State.regionWrite_seqB (s : State) (p : Nat) (i : Image) (tick q : Nat) (ws : List (Nat × Line)) :
    (s.regionWrite p i tick q ws).seqB = s.seqB := by simp [State.regionWrite]
@[simp] theorem State.mailboxes_seqB (s : State) (p word : Nat) (data : Line) (q : Nat) :
    (s.mailboxes p word data q).seqB = s.seqB :=
  State.seqB_foldl (fun _ _ => State.modTile_seqB ..) _ _
@[simp] theorem State.drawDone_seqB (s : State) (tick bound : Nat) : (s.drawDone tick bound).2.seqB = s.seqB := by rfl

theorem State.sq_congr {s t : State} (h : t.seqB = s.seqB) (p : Nat) : t.sq p = s.sq p :=
  congrArg (fun v => vget v p SeqBank.reset) h

/-! ### The batch taken -/

/-- The bank runs a step on the slots that it holds, and counts them (R249). -/
def SeqBank.tookBatch (q : SeqBank) : Prop :=
  q.inStep = true ∧ q.oldReturns = [] ∧
    q.lastDecode = BitVec.ofNat 15 (q.slots.countP fun x => decide (x.kind = 1#8)) ∧
    q.lastPrefill = BitVec.ofNat 15 (q.slots.countP fun x => decide (x.kind ≠ 1#8))

theorem Bnd.seqWord_sq {b : Bnd} (wrote : Bool) (hp : b.p < 16) :
    ∃ h : IntakeHdr, (b.seqWord wrote).s.sq b.p = { b.s.sq b.p with hdr := h } := by
  unfold Bnd.seqWord
  extract_lets h f src w old q q1 src2 src3 s s1
  split
  · exact ⟨_, rfl⟩
  · have hs1 : s1.sq b.p = { b.s.sq b.p with hdr := { (b.s.sq b.p).hdr with stepNo := BitVec.ofNat 64 b.n } } :=
      (State.sq_congr (State.logEvent_seqB ..) b.p).trans (State.sq_modSq_same _ _ _ hp)
    clear_value s1
    refine ⟨_, Eq.trans ?_ hs1⟩
    dsimp only
    split
    · exact State.sq_congr (State.signal_seqB ..) b.p
    · rfl

theorem Bnd.endReplay_sq {b : Bnd} (e : AshEntry) (hp : b.p < 16) :
    ∃ h : IntakeHdr, (b.endReplay e).s.sq b.p = { b.s.sq b.p with hdr := h } := by
  unfold Bnd.endReplay
  extract_lets s1 s2
  have hs1 : s1.sq b.p = { b.s.sq b.p with hdr := { (b.s.sq b.p).hdr with
      ctlConsumed := e.ctl
      subConsumed := e.sub
      promptConsumed := e.prompt
      resultProduced := e.result } } := State.sq_modSq_same _ _ _ hp
  have hs2 : s2.seqB = s1.seqB := by
    simp only [s2]
    split
    · exact State.faultHold_seqB ..
    · rfl
  clear_value s2
  refine ⟨_, Eq.trans ?_ hs1⟩
  dsimp only
  split
  · exact State.sq_congr hs2 b.p
  · exact State.sq_congr hs2 b.p

/-- Slots counted by their kind. -/
theorem length_sub_countP (l : List Slot) :
    l.length - l.countP (fun x => decide (x.kind = 1#8)) = l.countP fun x => decide (x.kind ≠ 1#8) := by
  have hsum := List.length_eq_countP_add_countP (fun x : Slot => decide (x.kind = 1#8)) (l := l)
  simp only [decide_eq_true_eq] at hsum
  exact Nat.sub_eq_of_eq_add' hsum

/-! ### The pc at which boundary work is done (R249) -/

theorem State.drawDone_le {s : State} {tick bound : Nat} (h : s.plan.geyser - tick ≤ bound) : (s.drawDone tick bound).1 ≤ bound := by
  have hmod : (s.draw 16).1.toNat % (bound - (s.plan.geyser - tick) + 1) < bound - (s.plan.geyser - tick) + 1 :=
    Nat.mod_lt _ (Nat.succ_pos _)
  show s.plan.geyser - tick + (s.draw 16).1.toNat % (bound - (s.plan.geyser - tick) + 1) ≤ bound
  omega

theorem State.regionWrite_plan (s : State) (p : Nat) (i : Image) (tick q : Nat) (ws : List (Nat × Line)) :
    (s.regionWrite p i tick q ws).plan = s.plan := by
  unfold State.regionWrite
  exact foldl_keeps State.plan (fun _ _ => by rfl) _ _

theorem State.mailboxes_plan (s : State) (p word : Nat) (data : Line) (q : Nat) : (s.mailboxes p word data q).plan = s.plan := by
  unfold State.mailboxes
  exact foldl_keeps State.plan (fun _ _ => by rfl) _ _

/-! ### The lead chip (R249, R266, R274) -/

theorem Bnd.measure_place (b : Bnd) (clear : Bool) : (b.measure clear).place = b.place := rfl

theorem Bnd.logBatch_place (b : Bnd) : b.logBatch.place = b.place := rfl

/-- The words of the boundary written and sent, from which on its work is done. -/
def Bnd.send (b : Bnd) : State :=
  let m : GroupMsg := {
    stepNo := BitVec.ofNat 64 b.n
    header := b.header
    slots := (List.range b.sv.w).map fun k => (b.slots.map Slot.line).getD k 0
    fetch := fetchLines b.sv.fMax b.fetches
    pageWrites := b.pageWrites
    prompts := b.prompts }
  let s := b.s.sendGroup b.p b.i b.sv m
  let r := s.drawDone b.tick 40960
  let q := b.tick + r.1
  let s := (r.2.regionWrite b.p b.i b.tick q (b.writes ++ b.sv.batchWords m.header m.slots m.fetch)).mailboxes b.p b.sv.mbox
    m.header q
  s.modSq b.p fun x => { x with
    busyUntil := q
    boundaryPc := BitVec.ofNat 32 r.1 }

/-- The words sent leave the bank with the batch, and with the pc at which the work is done. -/
theorem Bnd.send_sq {b : Bnd} (hp : b.p < 16) : ∃ n : Nat,
    b.send.sq b.p = { b.s.sq b.p with
      busyUntil := b.tick + n
      boundaryPc := BitVec.ofNat 32 n } ∧
    (b.send.plan.geyser ≤ b.tick + 40960 → n ≤ 40960) := by
  unfold Bnd.send
  extract_lets m s1 r q s2
  refine ⟨r.1, ?_, fun hg => ?_⟩
  · have hs2 : s2.seqB = b.s.seqB := by
      simp only [s2, r, s1, State.mailboxes_seqB, State.regionWrite_seqB, State.drawDone_seqB, State.sendGroup_seqB]
    rw [State.sq_modSq_same _ _ _ hp, State.sq_congr hs2]
  · have hs2 : s2.plan = s1.plan := by
      simp only [s2, State.mailboxes_plan, State.regionWrite_plan]
      rfl
    refine State.drawDone_le ?_
    have hg' : s1.plan.geyser ≤ b.tick + 40960 := by
      rw [← hs2]
      exact hg
    omega

/-- What the lead chip does at a boundary ends with the words sent, once the batch is taken (R249). -/
theorem Bnd.lead_sends {b : Bnd} (hp : b.p < 16) :
    ∃ c : Bnd, c.p = b.p ∧ c.tick = b.tick ∧ (c.s.sq b.p).tookBatch ∧ b.lead = c.send := by
  obtain ⟨t, ht⟩ : ∃ t, t = b.lead := ⟨_, rfl⟩
  rw [← ht]
  unfold Bnd.lead at ht
  extract_lets clear before b1 b2 ok b3 b4 b5 dec took b6 b7 at ht
  have h2 : b2.place = b.place := by
    simp only [b2, b1, Bnd.writeReplies_place, Bnd.writeOuts_place, Bnd.measure_place, Bnd.settleAll_place]
  clear_value b2 ok
  have h3 : b3.place = b.place := by
    rw [← h2]
    simp only [b3]
    split
    · exact Bnd.admitAll_place ..
    · rfl
  clear_value b3
  have h5 : b5.place = b.place := by
    simp only [b5, b4, Bnd.logBatch_place, Bnd.batch_place, Bnd.writeReplies_place, h3]
  clear_value b4 b5
  obtain ⟨hp5, htick⟩ : b5.p = b.p ∧ b5.tick = b.tick := Prod.mk.injEq .. ▸ h5
  have htook : took.place = b5.place ∧ (took.s.sq b5.p).tookBatch := by
    refine ⟨rfl, ?_⟩
    rw [SeqBank.tookBatch, show took.s.sq b5.p = _ from State.sq_modSq_same b5.s b5.p _ (hp5 ▸ hp)]
    exact ⟨rfl, rfl, rfl, congrArg (BitVec.ofNat 15) (length_sub_countP b5.slots)⟩
  obtain ⟨hplace, hbatch⟩ := htook
  clear_value took
  have hp6 : took.p = b.p := (congrArg Prod.fst hplace).trans hp5
  have h6 : b6.place = b.place ∧ (b6.s.sq b.p).tookBatch := by
    refine ⟨(Bnd.seqWord_place ..).trans (hplace.trans h5), ?_⟩
    have hsq : ∃ h : IntakeHdr, b6.s.sq took.p = { took.s.sq took.p with hdr := h } := Bnd.seqWord_sq _ (hp6 ▸ hp)
    obtain ⟨h, hh⟩ := hsq
    rw [← hp6, hh, hp6, ← hp5]
    exact hbatch
  obtain ⟨hplace6, hbatch6⟩ := h6
  clear_value b6
  have hp6 : b6.p = b.p := congrArg Prod.fst hplace6
  have h7 : b7.place = b.place ∧ (b7.s.sq b.p).tookBatch := by
    simp only [b7]
    split
    next e _ =>
      refine ⟨hplace6, ?_⟩
      obtain ⟨h, hh⟩ := Bnd.endReplay_sq e (hp6 ▸ hp)
      rw [← hp6, hh, hp6]
      exact hbatch6
    next =>
      refine ⟨hplace6, ?_⟩
      rw [show (b6.s.appendAsh b6.entry).sq b.p = b6.s.sq b.p from State.sq_congr (State.appendAsh_seqB ..) b.p]
      exact hbatch6
  obtain ⟨hplace7, hbatch7⟩ := h7
  clear_value b7
  exact ⟨b7, congrArg Prod.fst hplace7, congrArg Prod.snd hplace7, hbatch7, ht⟩

/-- A boundary of the lead chip (R249). -/
theorem Bnd.lead_done {b : Bnd} (hp : b.p < 16) : ∃ n : Nat, (b.lead.sq b.p).tookBatch ∧
    (b.lead.sq b.p).busyUntil = b.tick + n ∧ (b.lead.sq b.p).boundaryPc = BitVec.ofNat 32 n ∧
    (b.lead.plan.geyser ≤ b.tick + 40960 → n ≤ 40960) := by
  obtain ⟨c, hcp, hct, hbatch, hlead⟩ := Bnd.lead_sends hp
  obtain ⟨n, hsq, hle⟩ := Bnd.send_sq (b := c) (hcp ▸ hp)
  rw [hcp, hct] at hsq
  rw [hct] at hle
  refine ⟨n, ?_, ?_, ?_, fun hg => hle (hlead ▸ hg)⟩
  all_goals
    rw [hlead, hsq]
  exact hbatch

/-! ### The boundary of a serving plan (R239 to R266) -/

theorem SeqBank.takeChained_declChecked (q : SeqBank) : q.takeChained.declChecked = q.declChecked := by
  unfold SeqBank.takeChained
  split <;> rfl

theorem State.modSq_modSq (s : State) {p : Nat} (f g : SeqBank → SeqBank) (hp : p < 16) :
    (s.modSq p f).modSq p g = s.modSq p fun q => g (f q) := by
  unfold State.modSq
  simp only [State.sq, vget_vset_same _ _ _ _ hp, vset_vset]

/-- Boundary work at its begin. -/
def State.boundaryOf (u : State) (p tick : Nat) (i : Image) (sv : Serving) (t : BitVec 64) (n : Nat) (logged : Option AshEntry) : Bnd :=
  { s := u
    p := p
    tick := tick
    i := i
    sv := sv
    t := t
    n := n
    units := []
    outs := []
    reps := []
    subs := []
    led := []
    writes := []
    pageWrites := []
    prompts := []
    fetches := []
    slots := []
    tl := 0
    ctl := (logged.getD AshEntry.reset).ctl.toNat
    sub := (logged.getD AshEntry.reset).sub.toNat
    prompt := (logged.getD AshEntry.reset).prompt.toNat
    space := 0
    logged := logged }

section
variable {s : State} {p n tick : Nat} {i : Image} {sv : Serving} {posted : List (Nat × BitVec 8)}

/-- The state in which the boundary of a serving plan whose declarations stand is taken. -/
def State.boundaryBegun (s : State) (p n : Nat) (posted : List (Nat × BitVec 8)) : State :=
  (s.modSq p fun q => { q.takeChained with
    stepNo := BitVec.ofNat 64 n
    intake := posted.foldl hostWrite q.intake
    declChecked := true }).logEvent 2 (p + n % 2 ^ 32 * 256)

theorem State.serveBoundary_stands (hp : p < 16)
    (hbad : (s.sq p).declChecked = true ∨ sv.bad (s.pt p).res.tableCount.toNat (s.unitLen p) i.planWords = none) :
    s.serveBoundary p n i sv tick posted =
      let u := s.boundaryBegun p n posted
      if !s.leads p sv || (u.pt p).stage.copyB then u.modSq p fun q => { q with doneTick := some tick }
      else match u.replayEntry p n with
        | some none => u.recoveryFail 3
        | r =>
          let b := u.boundaryOf p tick i sv (((r.getD none).map AshEntry.t).getD (if (u.sq p).tdom then s.time.b.ns else s.time.a.ns)) n
            (r.getD none)
          match b.unreadable with
          | some s => s
          | none => match b.mismatch with
            | some s => s
            | none => ({ b with s := u.modSq p fun q => { q with doneTick := some tick } } : Bnd).lead := by
  obtain ⟨t, ht⟩ : ∃ t, t = s.serveBoundary p n i sv tick posted := ⟨_, rfl⟩
  rw [← ht]
  unfold State.serveBoundary at ht
  extract_lets lead s1 t0 bad s2 s3 at ht
  have hs1 : s1.sq p = { (s.sq p).takeChained with
      stepNo := BitVec.ofNat 64 n
      intake := posted.foldl hostWrite (s.sq p).intake } := State.sq_modSq_same _ _ _ hp
  have hbad' : bad = none := by
    simp only [bad]
    rw [hs1, (s.sq p).takeChained_declChecked]
    obtain h | h := hbad
    · exact if_pos h
    · exact ite_eq_left_iff.mpr fun _ => h
  have hs3 : s3 = s.boundaryBegun p n posted := by
    simp only [s3, s2, s1, State.modSq_modSq _ _ _ hp] <;> rfl
  have ht0 : t0 = if ((s.boundaryBegun p n posted).sq p).tdom then s.time.b.ns else s.time.a.ns := by
    simp only [t0]
    rw [hs1, State.boundaryBegun, State.sq_congr (State.logEvent_seqB ..), State.sq_modSq_same _ _ _ hp]
    rfl
  rw [hbad'] at ht
  clear_value s3 t0 bad
  rw [hs3, ht0] at ht
  exact ht

end

/-! ### What leaves the unit tick of a partition as it is -/

/-- What the unit tick of a partition rests on. -/
def State.clockOf (s : State) (k : Nat) : Nat × Option Nat × CfgSet := (s.plan.geyser, (s.pt k).launched, (s.pt k).stage)

theorem State.unitTick_congr {s t : State} {k : Nat} (h : t.clockOf k = s.clockOf k) : t.unitTick k = s.unitTick k := by
  obtain ⟨hg, hl, hs⟩ : t.plan.geyser = s.plan.geyser ∧ (t.pt k).launched = (s.pt k).launched ∧ (t.pt k).stage = (s.pt k).stage := by
    simpa only [State.clockOf, Prod.mk.injEq] using h
  have hi : t.img k = s.img k := congrArg CfgSet.image hs
  unfold State.unitTick State.unitLen State.frameLen State.unitFrames
  rw [hg, hl, hi]

theorem State.clockOf_foldl {α : Type} {f : State → α → State} {k : Nat} (h : ∀ s x, (f s x).clockOf k = s.clockOf k) (l : List α)
    (s : State) : (l.foldl f s).clockOf k = s.clockOf k := foldl_keeps (fun s => State.clockOf s k) h l s

/-- The tick of a partition stands where the count and the partitions do. -/
theorem State.clockOf_congr {s t : State} {k : Nat} (hg : t.plan.geyser = s.plan.geyser) (hp : t.parts = s.parts) :
    t.clockOf k = s.clockOf k := by simp only [State.clockOf, State.pt, hg, hp]

theorem State.flood_plan (s : State) (x : Nat) (y : InlineSym) : (s.flood x y).plan = s.plan :=
  foldl_keeps State.plan (fun s n => by split <;> rfl) _ _

theorem State.raiseCause_geyser (s : State) (c : BitVec 4) (x : CauseSrc) : (s.raiseCause c x).plan.geyser = s.plan.geyser := by
  unfold State.raiseCause
  split
  · rfl
  · dsimp only
    rw [State.flood_plan]

theorem State.partEvent_plan (s : State) (p : Nat) : (s.partEvent p).plan = s.plan := by
  unfold State.partEvent State.signal
  dsimp only
  split <;> rfl

theorem State.enterFaultStop_clockOf (s : State) (k : Nat) : s.enterFaultStop.clockOf k = s.clockOf k := by
  refine (State.clockOf_foldl (fun s p => ?_) s.activeParts s : State.clockOf _ k = _)
  split
  · rfl
  · refine (State.clockOf_congr (congrArg PlanRegs.geyser (State.partEvent_plan ..)) (State.partEvent_parts ..)).trans ?_
    exact congrArg (Prod.mk s.plan.geyser) (State.pt_modPt_keeps (fun b => (b.launched, b.stage)) (fun _ => by rfl) s p k)

theorem State.faultHold_clockOf (s : State) (r : FaultRec) (c : Option FaultRec) (k : Nat) : (s.faultHold r c).clockOf k = s.clockOf k :=
  (State.enterFaultStop_clockOf ..).trans (State.clockOf_congr (State.raiseCause_geyser ..) (State.raiseCause_parts ..))

theorem State.flowUpdate_clockOf (s : State) (n k : Nat) : (s.flowUpdate n).clockOf k = s.clockOf k := by
  unfold State.flowUpdate
  dsimp only
  split <;> rfl

theorem State.admitOpen_clockOf (s : State) (n k : Nat) : (s.admitOpen n).clockOf k = s.clockOf k := by
  refine (State.clockOf_foldl (fun s v => ?_) _ _ : State.clockOf _ k = _)
  split
  · exact State.flowUpdate_clockOf ..
  · rfl

theorem State.routeOpen_clockOf (s : State) (p : Packet) (via k : Nat) : (s.routeOpen p via).clockOf k = s.clockOf k := by
  unfold State.routeOpen
  dsimp only
  split
  case h_1 => rfl
  case h_2 => exact State.faultHold_clockOf ..
  case h_3 => rfl
  case h_4 =>
    split
    · rfl
    split
    · split
      · exact State.faultHold_clockOf ..
      · rfl
    · exact State.admitOpen_clockOf ..

theorem State.toPartner_clockOf (s : State) (copyB : Bool) (p : Packet) (k : Nat) : (s.toPartner copyB p).clockOf k = s.clockOf k :=
  State.admitOpen_clockOf ..

theorem State.sendGroup_clockOf (s : State) (p : Nat) (i : Image) (sv : Serving) (m : GroupMsg) (k : Nat) :
    (s.sendGroup p i sv m).clockOf k = s.clockOf k := by
  unfold State.sendGroup
  extract_lets x us t
  have ht : t.clockOf k = s.clockOf k :=
    State.clockOf_foldl (fun _ r => State.clockOf_foldl (fun _ u => State.routeOpen_clockOf ..) us _) sv.group.tail s
  split
  · exact (State.clockOf_foldl (fun _ u => State.toPartner_clockOf ..) us t).trans ht
  · exact ht

/-! ### The commands -/

/-- BOUNDARY_WORK at its tick, by whether an entry is not confirmed yet and by what the plan is (R249, R383). -/
theorem exec_boundaryWork_due {p : PartId} {posted : List (Nat × BitVec 8)} {k : Nat} {i : Image} {s : State}
    (hk : s.mayBoundary p = some k) (hi : s.img p = some i) :
    exec (.boundaryWork p posted) s =
      if (alGet p.val s.dig.logReplayTo).isNone && s.ashPending p then
        .next { s.raiseCause 1 (.ashWait p) with dig := { s.dig with ashWait := nsIns p.val s.dig.ashWait } }
      else
        let s0 : State := { s with dig := { s.dig with ashWait := nsDel p.val s.dig.ashWait } }
        match i.serving with
        | some sv => .next (s0.serveBoundary p (s.unitNo p) i sv k posted)
        | none => .next (match alGet p.val s.dig.logReplayTo with
          | none => (s0.modSq p fun q => { q with doneTick := some k }).appendAsh { AshEntry.reset with
            stepNo := BitVec.ofNat 64 (s.unitNo p)
            part := BitVec.ofNat 4 p.val
            t := if (s.sq p).tdom then s.time.b.ns else s.time.a.ns
            geyser := BitVec.ofNat 64 k }
          | some m => if m.toNat ≤ s.unitNo p then
              { s0.modSq p (fun q => { q with doneTick := some k }) with dig := { s0.dig with
                logReplayTo := alDel p.val s.dig.logReplayTo } }
            else s0.modSq p fun q => { q with doneTick := some k }) := by
  show execBoundaryWork p posted s = _
  simp only [execBoundaryWork, hk, hi] <;> rfl

/-- The Ash log of a chip without a buddy takes an entry that finds room as its last, and confirmed (R383, R385). -/
theorem State.appendAsh_alone {s : State} {e : AshEntry} (hb : s.buddyChip = none)
    (hroom : ¬s.ashCap e.part.toNat < s.ashUsed e.part.toNat + e.size) :
    (s.appendAsh e).dig.ash.getLast? = some { e with confirmed := true } ∧ (s.appendAsh e).dig.ashConfirmed = e.stepNo := by
  unfold State.appendAsh
  extract_lets p cap lf src e1 log src1 s1
  rw [if_neg hroom]
  have hb1 : s1.showAshFree.buddyChip = none := by
    unfold State.showAshFree
    split <;> exact hb
  have hdig : s1.showAshFree.dig.ash = s1.dig.ash ∧ s1.showAshFree.dig.ashConfirmed = s1.dig.ashConfirmed := by
    unfold State.showAshFree
    split <;> exact ⟨rfl, rfl⟩
  have hsend : s1.showAshFree.sendBuddy 0 p e1.stepNo.toNat e1.lines = s1.showAshFree := by
    simp only [State.sendBuddy, hb1]
  have he1 : e1 = { e with confirmed := true } := by
    simp only [e1, hb, Option.isNone_none]
  rw [hsend, hdig.1, hdig.2]
  refine ⟨?_, if_pos ?_⟩
  · rw [← he1]
    exact List.getLast?_concat
  · rw [he1]

/-- ASH_CONFIRM of an entry that waits (R383). -/
theorem exec_ashConfirm_waiting {p : PartId} {n : BitVec 64} {s : State}
    (h : (s.dig.ash.any fun e => e.part.toNat = p.val && e.stepNo = n && !e.confirmed) = true) :
    exec (.ashConfirm p n) s =
      let t : State := { s with dig := { s.dig with
        ash := s.dig.ash.map fun e => if e.part.toNat = p.val && e.stepNo = n then { e with confirmed := true } else e
        ashConfirmed := n } }
      .next (if t.ashPending p then t else t.clearCause (.ashWait p)) := if_pos h

/-- An entry marked as confirmed. -/
theorem AshEntry.confirm_eq (e : AshEntry) (c : Bool) :
    (if c then { e with confirmed := true } else e) = { e with confirmed := e.confirmed || c } := by
  cases c
  · simp only [Bool.false_eq_true, if_false, Bool.or_false]
  · simp only [if_true, Bool.or_true]

/-- GROUP_MESSAGE of this step on a chip that takes it (R266, R379). -/
theorem exec_groupMessage_taken {p : PartId} {msg : GroupMsg} {k : Nat} {i : Image} {sv : Serving} {s : State} (hk : s.unitTick p = some k)
    (hi : s.img p = some i) (hsv : i.serving = some sv) (ha : s.alive = true) (hst : (s.pt p).state = 1#3) (hf : (s.pt p).faultStop = false)
    (hl : s.leads p sv = false ∨ (s.pt p).stage.copyB = true) (hn : msg.stepNo = BitVec.ofNat 64 (s.unitNo p)) :
    exec (.groupMessage p msg) s =
      let d : State := { s with fab := { s.fab with delivered := s.fab.delivered.filter fun x => !(x.clsN = 1 && x.type = 2) } }
      let d' := if s.leads p sv then d.sendGroup p i sv msg else d
      let r := d'.drawDone k (d'.plan.geyser - k + 16384)
      let q := k + r.1
      .next (((r.2.regionWrite p i k q (msg.pageWrites ++ msg.prompts ++
        sv.batchWords msg.header msg.slots msg.fetch)).mailboxes p sv.mbox msg.header q).modSq p fun x => { x with
          busyUntil := q
          boundaryPc := BitVec.ofNat 32 r.1 }) := by
  have hor : (!s.leads p sv || (s.pt p).stage.copyB) = true := by
    rw [Bool.or_eq_true, Bool.not_eq_true']
    exact hl
  have hd (d : State) (h : d.clockOf p = s.clockOf p) :
      (if s.leads p sv then d.sendGroup p i sv msg else d).unitTick p = some k := by
    refine (State.unitTick_congr ?_).trans hk
    split
    · exact (State.sendGroup_clockOf ..).trans h
    · exact h
  show execGroupMessage p msg s = _
  simp only [execGroupMessage, hk, hi, hsv, Option.bind_some, Option.map_some]
  rw [if_pos (by simp only [ha, hst, hf, hor, hn, decide_true, Bool.not_false, Bool.and_self]),
    hd { s with fab := { s.fab with delivered := s.fab.delivered.filter fun x => !(x.clsN = 1 && x.type = 2) } } rfl]
  rfl

/-- Settles O50: a boundary is `State.serveBoundary_stands` and `Bnd.lead_done`, an entry `State.appendAsh_alone`, a group message
`exec_groupMessage_taken`. -/
theorem boundaryWorkComplete : Obligations.BoundaryWorkComplete := by
  refine ⟨?work, ?lead, ?append, ?confirm, ?group⟩
  case work =>
    intro p posted k i s hk hi s₀ n
    have hexec := exec_boundaryWork_due (posted := posted) hk hi
    refine ⟨fun hr hp => ?_, fun hr hp hsv => ?_, fun sv hsv hp hdecl => ?_⟩
    · exact hexec.trans (if_pos (by rw [hr, hp, Option.isNone_none, Bool.and_self]))
    · rw [hexec, if_neg (by rw [hp, Bool.and_false]; exact Bool.false_ne_true), hsv, hr]
    · have hgo : ¬((alGet p.val s.dig.logReplayTo).isNone && s.ashPending p) = true := by
        obtain hp | hp := hp
        · rw [hp, Bool.and_false]
          exact Bool.false_ne_true
        · rw [← Option.not_isSome, hp, Bool.not_true, Bool.false_and]
          exact Bool.false_ne_true
      rw [hexec, if_neg hgo, hsv]
      intro u
      have hcopy : (u.pt p).stage.copyB = (s.pt p).stage.copyB :=
        congrArg (fun v => (vget v p PartBank.reset).stage.copyB) (State.logEvent_parts ..)
      have hserve := State.serveBoundary_stands (s := s₀) (n := n) (tick := k) (i := i) (posted := posted) p.isLt hdecl
      rw [show s₀.boundaryBegun p n posted = u from rfl] at hserve
      have hleads : s₀.leads p sv = s.leads p sv := rfl
      dsimp only at hserve
      rw [hcopy, hleads] at hserve
      refine ⟨fun hl => ?_, fun hl hc => ?_⟩
      · refine congrArg Host.Outcome.next (hserve.trans (if_pos ?_))
        rw [Bool.or_eq_true, Bool.not_eq_true']
        exact hl
      · rw [if_neg (by rw [hl, hc]; exact Bool.false_ne_true)] at hserve
        refine ⟨fun hr => ?_, fun logged hr => ?_⟩
        · rw [hr] at hserve
          exact congrArg Host.Outcome.next hserve
        · have hget : (u.replayEntry p n).getD none = logged ∧ u.replayEntry p n ≠ some none := by
            obtain ⟨hr, hlog⟩ | ⟨hr, hlog⟩ := hr
            · rw [hr, hlog]
              exact ⟨rfl, nofun⟩
            · rw [hr]
              exact ⟨rfl, fun h => hlog (Option.some.inj h)⟩
          obtain ⟨hget, hne⟩ := hget
          intro e b
          have hlive : s₀.serveBoundary p n i sv k posted = match b.unreadable with
              | some s => s
              | none => match b.mismatch with
                | some s => s
                | none => ({ b with s := u.modSq p fun q => { q with doneTick := some k } } : Bnd).lead := by
            rw [hserve]
            split
            next h => exact absurd h hne
            next => rw [hget] <;> rfl
          refine (congrArg Host.Outcome.next hlive).trans ?_
          cases b.unreadable with
          | some t => rfl
          | none => cases b.mismatch <;> rfl
  case lead =>
    intro b hp q
    obtain ⟨m, ⟨hin, hold, hdec, hpre⟩, hbusy, hpc, hle⟩ := Bnd.lead_done hp
    refine ⟨hin, hold, hdec, hpre, ?_, ?_, fun hg => ?_⟩
    · exact hbusy ▸ Nat.le_add_right _ _
    · rw [show q.busyUntil = b.tick + m from hbusy, Nat.add_sub_cancel_left]
      exact hpc
    · exact hbusy ▸ Nat.add_le_add_left (hle hg) _
  case append =>
    intro e s hb t
    split
    next h =>
      have ht : t = { s.logFault (s.fault 0x505 0x11 (e.stepNo.toNat % 2 ^ 32) (some e.part.toNat)) with dig := { s.dig with
        recReason := 3 } } := if_pos h
      rw [ht]
      exact ⟨rfl, rfl⟩
    next h => exact State.appendAsh_alone hb h
  case confirm =>
    intro p n s h t
    have hmap : (s.dig.ash.map fun e => if e.part.toNat = p.val && e.stepNo = n then { e with confirmed := true } else e) =
        s.dig.ash.map fun e => { e with confirmed := e.confirmed || decide (e.part.toNat = p.val ∧ e.stepNo = n) } :=
      List.map_congr_left fun e _ => (AshEntry.confirm_eq e _).trans (by rw [Bool.decide_and])
    have hexec := exec_ashConfirm_waiting h
    rw [hmap] at hexec
    exact hexec
  case group =>
    intro p msg k i sv s hk hi hsv ha hst hf hl hn d d' now r q
    exact ⟨State.drawDone_le (Nat.le_add_right _ _), exec_groupMessage_taken hk hi hsv ha hst hf hl hn⟩

end Sys2Proof.Machine
end

section
/-! Holds in each clk, and loops: O57 and O58 (02_plan_time_and_statue_hold.md, 04_instruction_set_baseline.md). -/

namespace Sys2Proof.Machine
open Sys2Proof

/-! ### One clk (R37, R40) -/

theorem State.countClk_debt_of_paused {s : State} (h : s.paused = true) : s.countClk.plan.debt = s.plan.debt + s.depth :=
  if_pos h

theorem State.countClk_holdClk_of_paused {s : State} (h : s.paused = true) : s.countClk.plan.holdClk = s.plan.holdClk :=
  if_neg (by rw [h, Bool.not_true, Bool.and_false]; exact Bool.false_ne_true)

/-- A clk without a pause adds the episodes that stand, and takes the clk that the counter stands still for them. -/
theorem State.countClk_debt {s : State} (h : s.paused = false) :
    s.countClk.plan.debt + (if s.held then 1 else 0) = s.plan.debt + s.depth := by
  have hdebt : s.countClk.plan.debt = if 0 < s.depth then s.plan.debt + (s.depth - 1) else s.plan.debt - 1 :=
    if_neg (ne_true_of_eq_false h)
  simp only [hdebt, State.held, Bool.or_eq_true, decide_eq_true_eq]
  split <;> split <;> omega

theorem State.countClk_holdClk {s : State} (h : s.paused = false) :
    s.countClk.plan.holdClk = s.plan.holdClk + if s.held then 1 else 0 := by
  show (if s.held && !s.paused then _ else _) = _
  rw [h, Bool.not_false, Bool.and_true]
  split
  · rfl
  · exact (BitVec.add_zero _).symm

theorem State.running_iff (s : State) : s.running = true ↔
    s.alive = true ∧ s.depth = 0 ∧ s.plan.debt = 0 ∧ s.paused = false ∧ s.plan.counterWasStopped = false := by
  simp only [State.running, State.held, Bool.and_eq_true, Bool.not_eq_true', Bool.or_eq_false_iff, decide_eq_false_iff_not,
    Nat.not_lt, Nat.le_zero, and_assoc]

theorem State.countClk_geyser (s : State) : s.countClk.plan.geyser = s.plan.geyser +
    if s.alive = true ∧ s.depth = 0 ∧ s.plan.debt = 0 ∧ s.paused = false ∧ s.plan.counterWasStopped = false then 1 else 0 := by
  show (if s.running = true then _ else _) = _
  simp only [State.running_iff]
  split <;> rfl

/-- A saturated field reads the number up to its largest value. -/
theorem toNat_satNat (w n : Nat) : (satNat w n).toNat = min n (2 ^ w - 1) := by
  have hpos : 0 < 2 ^ w := Nat.two_pow_pos w
  unfold satNat
  split
  next h => rw [BitVec.toNat_allOnes, Nat.min_eq_right (by omega)]
  next h => rw [BitVec.toNat_ofNat, Nat.mod_eq_of_lt (by omega), Nat.min_eq_left (by omega)]

/-- A register of PLAN once firmware is ready. -/
theorem State.readReg_plan {s : State} (h : s.top.fwReady = true) {o : Nat} (ho : o < 65536) :
    s.readReg (0x80000 + o) = s.readPlan o := by
  have hk : (0x80000 + o) / 65536 = 8 := by omega
  have hm : (0x80000 + o) % 65536 = o := by omega
  simp [State.readReg, h, State.readBlock, hk, hm]

/-- Settles O57: `State.countClk` by whether a pause stands. -/
theorem holdDepthAndDebtStopTheCounter : Obligations.HoldDepthAndDebtStopTheCounter := by
  refine ⟨fun s h => ⟨State.countClk_debt h, State.countClk_holdClk h⟩,
    fun s h => ⟨State.countClk_debt_of_paused h, State.countClk_holdClk_of_paused h⟩, State.countClk_geyser, fun s => rfl, fun s h => ?_⟩
  rw [show 0x80034 = 0x80000 + 0x34 from rfl, State.readReg_plan h (by decide)]
  exact toNat_satNat 32 s.plan.debt

/-! ### Loops (R103) -/

theorem loopNext_cons (pc seq : Nat) (f : LoopFrame) (rest : List LoopFrame) : loopNext pc seq (f :: rest) =
    if f.last = seq then
      if 0 < f.left then (f.startPc, f.start, { f with left := f.left - 1 } :: rest) else loopNext pc seq rest
    else (pc + 1, seq + 1, f :: rest) := rfl

/-- The stream at the body's place `i`, with `n` repetitions left. -/
def loopAt (a q b n i : Nat) (rest : List LoopFrame) : Nat × Nat × List LoopFrame :=
  (a + i, q + i, { start := q, startPc := a, last := q + b - 1, left := n } :: rest)

/-- The stream after an instruction that neither branches nor jumps. -/
def loopStep (x : Nat × Nat × List LoopFrame) : Nat × Nat × List LoopFrame := loopNext x.1 x.2.1 x.2.2

section
variable {a q b n : Nat} {rest : List LoopFrame}

/-- Within the body the stream goes on to the next place. -/
theorem loopStep_loopAt_body {i : Nat} (hi : i + 1 < b) : loopStep (loopAt a q b n i rest) = loopAt a q b n (i + 1) rest := by
  refine (loopNext_cons ..).trans (if_neg ?_)
  dsimp only [loopAt]
  omega

/-- After the last place of the body the stream goes on at its first, with one repetition less. -/
theorem loopStep_loopAt_last (hb : 0 < b) (hn : 0 < n) : loopStep (loopAt a q b n (b - 1) rest) = loopAt a q b (n - 1) 0 rest := by
  refine (loopNext_cons ..).trans ((if_pos ?_).trans (if_pos hn))
  dsimp only [loopAt]
  omega

theorem repeat_loopStep_body {i : Nat} (hi : i < b) : Nat.repeat loopStep i (loopAt a q b n 0 rest) = loopAt a q b n i rest := by
  induction i with
  | zero => rfl
  | succ i ih => rw [Nat.repeat, ih (by omega), loopStep_loopAt_body hi]

theorem repeat_loopStep_again (hb : 0 < b) (hn : 0 < n) :
    Nat.repeat loopStep b (loopAt a q b n 0 rest) = loopAt a q b (n - 1) 0 rest := by
  obtain ⟨i, rfl⟩ : ∃ i, b = i + 1 := ⟨b - 1, by omega⟩
  rw [Nat.repeat, repeat_loopStep_body (Nat.lt_succ_self i)]
  exact loopStep_loopAt_last hb hn

theorem repeat_add' {α : Type} (f : α → α) (m k : Nat) (x : α) : Nat.repeat f (m + k) x = Nat.repeat f k (Nat.repeat f m x) := by
  induction k with
  | zero => rfl
  | succ k ih => exact congrArg f ih

theorem repeat_loopStep_times {j : Nat} (hb : 0 < b) (hj : j ≤ n) :
    Nat.repeat loopStep (j * b) (loopAt a q b n 0 rest) = loopAt a q b (n - j) 0 rest := by
  induction j with
  | zero => rw [Nat.zero_mul]; rfl
  | succ j ih => rw [Nat.succ_mul, repeat_add', ih (by omega), repeat_loopStep_again hb (by omega), Nat.sub_sub]

/-- The instruction `j` bodies and `i` places after the body's first. -/
theorem repeat_loopStep {i j : Nat} (hi : i < b) (hj : j ≤ n) :
    Nat.repeat loopStep (j * b + i) (loopAt a q b n 0 rest) = loopAt a q b (n - j) i rest := by
  rw [repeat_add', repeat_loopStep_times (by omega) hj, repeat_loopStep_body hi]

end

/-- The last place of the last repetition leaves the frame. -/
theorem loopNext_done {a q b pc : Nat} {rest : List LoopFrame} :
    loopNext pc (q + b - 1) ({ start := q, startPc := a, last := q + b - 1, left := 0 } :: rest) = loopNext pc (q + b - 1) rest :=
  (loopNext_cons ..).trans ((if_pos rfl).trans (if_neg (Nat.lt_irrefl 0)))

theorem Front.next_seq {fr : Front} (h : fr.join = none) (p lwait : Nat) : fr.next p lwait .seq = [{ fr with
    pc := (loopNext fr.pc fr.seq fr.loops).1
    seq := (loopNext fr.pc fr.seq fr.loops).2.1
    last := p
    extra := lwait
    loops := (loopNext fr.pc fr.seq fr.loops).2.2 }] := by
  simp only [Front.next, h]

/-- Settles O58: the loop's places by `repeat_loopStep`. -/
theorem aLoopRunsItsBodyEachTime : Obligations.ALoopRunsItsBodyEachTime :=
  ⟨fun _ _ _ _ _ _ _ _ hi hj => repeat_loopStep hi hj, fun _ _ _ _ _ _ => loopNext_done, fun _ _ => rfl, fun _ _ _ _ _ => rfl,
    fun _ p lwait h => Front.next_seq h p lwait⟩

end Sys2Proof.Machine
end

section
/-! Buckets: O59 (10_budgets_and_speculation.md, 15_partitions_and_security.md). -/

namespace Sys2Proof.Machine
open Sys2Proof

/-! ### Lists of buckets by customer -/

theorem alGet_alSet_same {α : Type} (k : Nat) (v : α) (l : List (Nat × α)) : alGet k (alSet k v l) = some v := by
  induction l with
  | nil => exact if_pos rfl
  | cons e l ih =>
    obtain ⟨i, x⟩ := e
    unfold alSet
    split
    · exact if_pos rfl
    split
    · exact if_pos rfl
    · next hne => exact (if_neg (Ne.symm hne)).trans ih

theorem alGet_alSet_ne {α : Type} {k j : Nat} (h : j ≠ k) (v : α) (l : List (Nat × α)) : alGet j (alSet k v l) = alGet j l := by
  induction l with
  | nil => exact if_neg (Ne.symm h)
  | cons e l ih =>
    obtain ⟨i, x⟩ := e
    unfold alSet
    split
    · exact if_neg (Ne.symm h)
    split
    · next heq => exact (if_neg (Ne.symm h)).trans (if_neg (heq ▸ Ne.symm h)).symm
    · simp only [alGet, ih]

/-- The entries of some keys taken from a list. -/
theorem alGet_filter {α : Type} (q : Nat → Bool) (j : Nat) (l : List (Nat × α)) :
    alGet j (l.filter fun e => q e.1) = if q j then alGet j l else none := by
  induction l with
  | nil => exact (ite_self none).symm
  | cons e l ih =>
    obtain ⟨i, x⟩ := e
    by_cases hij : i = j
    · subst hij
      by_cases hq : q i = true
      · rw [List.filter_cons_of_pos (p := fun e : Nat × α => q e.1) (a := (i, x)) hq, if_pos hq]
        exact (if_pos rfl).trans (if_pos rfl).symm
      · rw [List.filter_cons_of_neg (p := fun e : Nat × α => q e.1) (a := (i, x)) hq, ih, if_neg hq, if_neg hq]
    · have hskip : alGet j ((i, x) :: l) = alGet j l := if_neg hij
      rw [hskip, ← ih]
      by_cases hq : q i = true
      · rw [List.filter_cons_of_pos (p := fun e : Nat × α => q e.1) (a := (i, x)) hq]
        exact if_neg hij
      · rw [List.filter_cons_of_neg (p := fun e : Nat × α => q e.1) (a := (i, x)) hq]

theorem alGet_alDel_same {α : Type} (k : Nat) (l : List (Nat × α)) : alGet k (alDel k l) = none :=
  (alGet_filter (fun i => i != k) k l).trans (if_neg (by rw [bne_self_eq_false]; exact Bool.false_ne_true))

theorem alGet_alDel_ne {α : Type} {k j : Nat} (h : j ≠ k) (l : List (Nat × α)) : alGet j (alDel k l) = alGet j l :=
  (alGet_filter (fun i => i != k) j l).trans (if_pos (bne_iff_ne.mpr h))

/-! ### Buckets -/

theorem Bucket.conserved_iff {b : Bucket} : b.conserved = true ↔ b.granted = (b.charged : Int) + b.balance := decide_eq_true_iff

theorem Bucket.conserved_grant {b : Bucket} (h : b.conserved = true) (g : Int) : (b.grant g).conserved = true := by
  rw [Bucket.conserved_iff] at h ⊢
  simp only [Bucket.grant]
  omega

theorem Bucket.conserved_charge {b : Bucket} (h : b.conserved = true) (c : Nat) : (b.charge c).conserved = true := by
  rw [Bucket.conserved_iff] at h ⊢
  simp only [Bucket.charge]
  omega

/-- What Spring adds (R275). -/
theorem Bucket.springNow_spec (b : Bucket) :
    0 ≤ b.springNow ∧ b.springNow ≤ b.spring.toNat ∧ ((b.cap.toNat : Int) ≤ b.balance → b.springNow = 0) ∧
      (b.balance ≤ (b.cap.toNat : Int) → (b.grant b.springNow).balance ≤ (b.cap.toNat : Int)) ∧
      (b.springNow < b.spring.toNat → b.balance ≤ (b.cap.toNat : Int) →
        (b.grant b.springNow).balance = (b.cap.toNat : Int)) := by
  simp only [Bucket.springNow, Bucket.grant]
  omega

theorem State.bkt_setBkt_same (s : State) (c : Nat) (b : Bucket) : (s.setBkt c b).bkt c = b := by
  unfold State.setBkt State.bkt
  dsimp only
  split
  next h => rw [alGet_alDel_same, h, Option.getD_none]
  next => rw [alGet_alSet_same, Option.getD_some]

theorem State.bkt_setBkt_ne (s : State) {c k : Nat} (h : k ≠ c) (b : Bucket) : (s.setBkt c b).bkt k = s.bkt k := by
  unfold State.setBkt State.bkt
  dsimp only
  split
  · rw [alGet_alDel_ne h]
  · rw [alGet_alSet_ne h]

section
variable {s : State} {p c : Nat} {f : Bucket → Bucket}

theorem State.changeBkt_conserved (h : (f (s.bkt c)).conserved = true) : s.changeBkt p c f = s.setBkt c (f (s.bkt c)) := if_pos h

theorem State.changeBkt_broken (h : (f (s.bkt c)).conserved = false) :
    s.changeBkt p c f = (s.setBkt c (f (s.bkt c))).ledgerFault p c := if_neg (ne_true_of_eq_false h)

/-- A grant that the bucket takes. -/
theorem State.changeBkt_grant (h : (s.bkt c).conserved = true) (g : Int) :
    ((s.changeBkt p c fun x => x.grant g).bkt c).balance = (s.bkt c).balance + g := by
  rw [State.changeBkt_conserved (Bucket.conserved_grant h g), State.bkt_setBkt_same]
  rfl

end

section
variable {s : State} {p c : Nat} {v : Int} (ho : s.ownsBkt p c = true)
include ho

/-- ADD by an owner (R276). -/
theorem State.budgetOp_add (hlo : -(2 ^ 62) ≤ (s.bkt c).balance + v) (hhi : (s.bkt c).balance + v ≤ 2 ^ 62) :
    s.budgetOp p 0 c v = some (s.changeBkt p c fun x => x.grant v, v) := by
  refine if_pos ?_
  rw [ho, Bool.true_and, Bool.and_eq_true, decide_eq_true_eq, decide_eq_true_eq]
  exact ⟨hlo, hhi⟩

/-- SET by an owner (R276). -/
theorem State.budgetOp_set (hlo : -(2 ^ 62) ≤ v) (hhi : v ≤ 2 ^ 62) :
    s.budgetOp p 1 c v = some (s.changeBkt p c fun x => x.grant (v - (s.bkt c).balance), v - (s.bkt c).balance) := by
  refine if_pos ?_
  rw [ho, Bool.true_and, Bool.and_eq_true, decide_eq_true_eq, decide_eq_true_eq]
  exact ⟨hlo, hhi⟩

end

/-! ### Teardown (R410) -/

theorem State.signal_bud (s : State) (f v : Nat) : (s.signal f v).bud = s.bud := by
  unfold State.signal
  dsimp only
  split <;> rfl

theorem State.setPartState_bud (s : State) (p : Nat) (st : BitVec 3) : (s.setPartState p st).bud = s.bud := by
  unfold State.setPartState State.partEvent
  split
  · rfl
  · rw [State.signal_bud, State.signal_bud]
    rfl

theorem State.setWings_bud (s : State) (p : Nat) (w : BitVec 3) : (s.setWings p w).bud = s.bud := by
  unfold State.setWings
  split
  · rfl
  · rw [State.signal_bud]
    rfl

theorem State.leaveJob_bud (s : State) : s.leaveJob.bud = s.bud := by
  unfold State.leaveJob
  split <;> rfl

theorem State.dropRun_bud (s : State) (p : Nat) (w : Bool) : (s.dropRun p w).bud = s.bud := by
  unfold State.dropRun
  split
  · rfl
  split
  · rfl
  · exact State.signal_bud ..

theorem State.refreshFabric_bud (s : State) : s.refreshFabric.bud = s.bud := by
  unfold State.refreshFabric
  dsimp only
  split
  · rfl
  · exact foldl_keeps State.bud (fun _ _ => by rfl) _ _

theorem State.syncCheck_budget (s : State) (p : Nat) : ((s.syncCheck p).bud, (s.syncCheck p).parts) = (s.bud, s.parts) := by
  unfold State.syncCheck
  dsimp only
  split <;> rfl

/-- A teardown's tables of a partition: its buckets go (R410). -/
theorem State.bkt_clearTables (s : State) (p c : Nat) :
    (s.clearTables p).bkt c = if s.ownsBkt p c then Bucket.reset else s.bkt c := by
  have hget : alGet c (s.clearTables p).bud.buckets = if !s.ownsBkt p c then alGet c s.bud.buckets else none :=
    alGet_filter (fun k => !s.ownsBkt p k) c s.bud.buckets
  rw [State.bkt, hget]
  cases s.ownsBkt p c <;> rfl

theorem State.bkt_congr {s t : State} (h : t.bud = s.bud) (c : Nat) : t.bkt c = s.bkt c :=
  congrArg (fun b : BudShared => (alGet c b.buckets).getD Bucket.reset) h

theorem State.ownsBkt_congr {s t : State} (h : t.parts = s.parts) (p c : Nat) : t.ownsBkt p c = s.ownsBkt p c := by
  unfold State.ownsBkt
  rw [show t.pt p = s.pt p from congrArg (fun v => vget v p PartBank.reset) h]

/-- A teardown zeroes the partition's buckets alone. -/
theorem State.bkt_beginScrub (s : State) (p c : Nat) : (s.beginScrub p).bkt c = if s.ownsBkt p c then Bucket.reset else s.bkt c := by
  unfold State.beginScrub
  extract_lets rows s1 s2 s3 s4 s5
  have h3 : (s3.bud, s3.parts) = (s.bud, s.parts) := by
    refine Eq.trans ?_ (State.syncCheck_budget s p)
    exact foldl_keeps (fun s : State => (s.bud, s.parts)) (fun _ _ => by rfl) rows s1
  obtain ⟨hbud, hparts⟩ : s3.bud = s.bud ∧ s3.parts = s.parts := Prod.mk.injEq .. ▸ h3
  have hend : (s5.setPartState p 2).leaveJob.refreshFabric.bud = (s3.clearTables p).bud := by
    rw [State.refreshFabric_bud, State.leaveJob_bud, State.setPartState_bud]
    exact (State.setWings_bud ..).trans (State.dropRun_bud ..)
  rw [State.bkt_congr hend, State.bkt_clearTables, State.ownsBkt_congr hparts, State.bkt_congr hbud]

/-- Settles O59: a changed bucket by `State.changeBkt_conserved`, an operation by `State.budgetOp_add` and `State.budgetOp_set`, a
teardown by `State.bkt_beginScrub`. -/
theorem grantsAndChargesKeepTheLedgerIdentity : Obligations.GrantsAndChargesKeepTheLedgerIdentity := by
  refine ⟨fun b g c h => ?bucket, Bucket.springNow_spec, fun p c f s h => ?kept, fun p c f s h => State.changeBkt_broken h,
    fun p c v s ho h hlo hhi => ?op, fun p s hready hst => ?teardown⟩
  case bucket =>
    exact ⟨Bucket.conserved_grant h g, rfl, rfl, rfl, Bucket.conserved_charge h c, rfl, rfl, rfl⟩
  case kept =>
    rw [State.changeBkt_conserved h]
    exact ⟨rfl, State.bkt_setBkt_same .., fun k hk => State.bkt_setBkt_ne s hk _⟩
  case op =>
    refine ⟨⟨_, State.budgetOp_set ho hlo hhi, ?_⟩, fun hlo hhi => ⟨_, State.budgetOp_add ho hlo hhi, State.changeBkt_grant h v⟩⟩
    rw [State.changeBkt_grant h]
    omega
  case teardown =>
    have hexec : exec (.teardown p) s = .next (s.beginScrub p) :=
      (congrArg Host.Outcome.next (if_pos hready)).trans (congrArg Host.Outcome.next (if_pos hst))
    exact ⟨_, hexec, State.bkt_beginScrub s p⟩

end Sys2Proof.Machine
end

section
/-! Codewords: O60 (13_link_layer.md). -/

namespace Sys2Proof.Machine
open Sys2Proof

/-! ### The control Machine.field (R342) -/

theorem LinkSym.type_lt (x : LinkSym) : x.type < 8 := by
  unfold LinkSym.type
  split <;> decide

/-- The number that a control field spells: INLINE, TYPE and VALUE. -/
theorem LinkSym.toNat_field (x : LinkSym) (inline : Bool) :
    (x.field inline).toNat = bn inline * 2 ^ 19 + x.type * 2 ^ 16 + x.value.toNat := by
  have hbn : bn inline ≤ 1 := by cases inline <;> decide
  have htype : x.type < 8 := x.type_lt
  have hvalue : x.value.toNat < 2 ^ 16 := x.value.isLt
  rw [LinkSym.field, BitVec.toNat_ofNat, Nat.mod_eq_of_lt (by omega)]

/-- INLINE of a control field. -/
theorem LinkSym.inline_field (x : LinkSym) (inline : Bool) : (x.field inline).getLsbD 19 = inline := by
  have htype : x.type < 8 := x.type_lt
  have hvalue : x.value.toNat < 2 ^ 16 := x.value.isLt
  rw [BitVec.getLsbD, LinkSym.toNat_field, Nat.testBit_eq_decide_div_mod_eq]
  cases inline
  · exact decide_eq_false (by simp only [bn, Bool.false_eq_true, if_false]; omega)
  · exact decide_eq_true (by simp only [bn, if_true]; omega)

/-- TYPE of a control field. -/
theorem LinkSym.type_field (x : LinkSym) (inline : Bool) : Machine.field (x.field inline) 18 16 = x.type := by
  have htype : x.type < 8 := x.type_lt
  have hvalue : x.value.toNat < 2 ^ 16 := x.value.isLt
  rw [Machine.field, LinkSym.toNat_field, Nat.shiftRight_eq_div_pow]
  omega

/-- VALUE of a control field. -/
theorem LinkSym.value_field (x : LinkSym) (inline : Bool) : (x.field inline).setWidth 16 = x.value := by
  have hvalue : x.value.toNat < 2 ^ 16 := x.value.isLt
  refine BitVec.eq_of_toNat_eq ?_
  rw [BitVec.toNat_setWidth, LinkSym.toNat_field]
  omega

/-- A control field decoded, by its TYPE and VALUE. -/
theorem LinkSym.ofField_field (x : LinkSym) (inline : Bool) : LinkSym.ofField (x.field inline) =
    match x.type with
    | 0 => some .idle
    | 1 => some (.ack x.value)
    | 2 => some (.nak x.value)
    | 3 => some (.flow x.value)
    | 4 => some (.replay x.value)
    | 5 =>
      let op := Machine.field x.value 15 12
      if 1 ≤ op && op ≤ 4 && Machine.field x.value 7 0 = 0 then some (.lane (BitVec.ofNat 4 op) (BitVec.ofNat 4 (Machine.field x.value 11 8))) else none
    | 6 => some (.cal x.value)
    | _ => none := by
  rw [LinkSym.ofField, LinkSym.type_field, LinkSym.value_field] <;> rfl

/-- The fields of VALUE of a LANE symbol. -/
theorem LinkSym.lane_fields (op l : BitVec 4) : Machine.field (LinkSym.lane op l).value 15 12 = op.toNat ∧
    Machine.field (LinkSym.lane op l).value 11 8 = l.toNat ∧ Machine.field (LinkSym.lane op l).value 7 0 = 0 := by
  have hop : op.toNat < 16 := op.isLt
  have hl : l.toNat < 16 := l.isLt
  have hvalue : (LinkSym.lane op l).value.toNat = op.toNat * 4096 + l.toNat * 256 := by
    rw [LinkSym.value, BitVec.toNat_ofNat, Nat.mod_eq_of_lt (by omega)]
  simp only [Machine.field, hvalue, Nat.shiftRight_eq_div_pow]
  omega

theorem LinkSym.ofField_lane {op : BitVec 4} (hlo : 1 ≤ op.toNat) (hhi : op.toNat ≤ 4) (l : BitVec 4) (inline : Bool) :
    LinkSym.ofField ((LinkSym.lane op l).field inline) = some (.lane op l) := by
  obtain ⟨hop, hlane, hlow⟩ := LinkSym.lane_fields op l
  refine (LinkSym.ofField_field ..).trans ?_
  show (if _ then _ else _) = _
  rw [hop, hlane, hlow, if_pos, BitVec.ofNat_toNat, BitVec.ofNat_toNat, BitVec.setWidth_eq, BitVec.setWidth_eq]
  simp only [hlo, hhi, decide_true, Bool.and_self]

theorem LinkSym.ofField_reserved (v : BitVec 16) : LinkSym.ofField (BitVec.ofNat 20 (7 * 2 ^ 16 + v.toNat)) = none := by
  have hv : v.toNat < 2 ^ 16 := v.isLt
  have htype : Machine.field (BitVec.ofNat 20 (7 * 2 ^ 16 + v.toNat)) 18 16 = 7 := by
    rw [Machine.field, BitVec.toNat_ofNat, Nat.mod_eq_of_lt (by omega), Nat.shiftRight_eq_div_pow]
    omega
  rw [LinkSym.ofField, htype] <;> rfl

/-! ### Bodies and messages (R342, R345) -/

theorem codewordBody_length (units : List (BitVec 64)) (stream : List (BitVec 8)) : (codewordBody units stream).length = 640 := by
  simp only [codewordBody, fillBytes, List.length_take, List.length_append, List.length_replicate]
  omega

theorem bitsLsb_length (b : BitVec 8) : (bitsLsb b).length = 8 := by rw [bitsLsb, List.length_map, List.length_range]

theorem flatMap_bitsLsb_length (l : List (BitVec 8)) : (l.flatMap bitsLsb).length = 8 * l.length := by
  induction l with
  | nil => rfl
  | cons b l ih => rw [List.flatMap_cons, List.length_append, bitsLsb_length, ih, List.length_cons]; omega

theorem Link.message_length (l : Link) (stream : List (BitVec 8)) : (l.message stream).length = 5140 := by
  rw [Link.message, List.length_append, List.length_map, List.length_range, flatMap_bitsLsb_length, codewordBody_length]

theorem Link.take_message (l : Link) (stream : List (BitVec 8)) :
    (l.message stream).take 20 = (List.range 20).map fun i => l.fieldOut.getLsbD i :=
  List.take_left' (by rw [List.length_map, List.length_range])

/-! ### Scrambler and code (R341) -/

/-- A bit scrambled with two others and descrambled with them is itself. -/
theorem bne_bne_cancel (b x y : Bool) : ((((b != x) != y) != x) != y) = b := by cases b <;> cases x <;> cases y <;> rfl

theorem descramble_scramble (m : List Bool) (reg : BitVec 58) : descramble reg (scramble reg m) = m := by
  induction m generalizing reg with
  | nil => rfl
  | cons b m ih => exact congrArg₂ List.cons (bne_bne_cancel b _ _) (ih _)

theorem rsStep_length {r : List (BitVec 10)} (h : r.length = 30) (m : BitVec 10) : (rsStep r m).length = 30 := by
  have hgen : rsGenerator.length = 30 := rfl
  rw [rsStep, List.length_zipWith, List.length_append, List.length_drop, h, List.length_reverse, hgen]
  rfl

theorem rsParity_length (m : List (BitVec 10)) : (rsParity m).length = 30 := by
  have hfold (r : List (BitVec 10)) (h : r.length = 30) : (m.foldl rsStep r).length = 30 := by
    induction m generalizing r with
    | nil => exact h
    | cons x m ih => exact ih _ (rsStep_length h x)
  exact hfold _ List.length_replicate

/-- Settles O60: a control field by `LinkSym.ofField_field` for each symbol, the rest by the lengths. -/
theorem codewordsCarryTheirSymbolsAndBits : Obligations.CodewordsCarryTheirSymbolsAndBits := by
  refine ⟨fun x inline hx => ⟨x.inline_field inline, ?_⟩, LinkSym.ofField_reserved, codewordBody_length,
    fun l stream => ⟨l.message_length stream, l.take_message stream⟩, descramble_scramble, rsParity_length,
    fun m => List.take_left' rfl⟩
  cases x with
  | lane op l => exact LinkSym.ofField_lane hx.1 hx.2 l inline
  | idle => exact LinkSym.ofField_field ..
  | ack v => exact LinkSym.ofField_field ..
  | nak v => exact LinkSym.ofField_field ..
  | flow v => exact LinkSym.ofField_field ..
  | flowRefresh v => exact LinkSym.ofField_field ..
  | replay v => exact LinkSym.ofField_field ..
  | cal v => exact LinkSym.ofField_field ..

end Sys2Proof.Machine
end

section
/-! What leaves the memories of the tiles and of the stacks as they are (O51): one lemma per operation, in the order of the model. Here
the operations that every family shares, and the reads and checks of one pc of the tiles. An equation that unfolding alone shows is
proved `by rfl`, not by the term `rfl`: `simp` then keeps its proof where it uses the lemma to discharge the hypothesis of
`State.mems_foldl`. -/

namespace Sys2Proof.Machine
open Sys2Proof

/-- The memories of the tiles, and of the pseudo-channels of the stacks. -/
def State.mems (s : State) : Vector (List Host.Cell) 160 × Vector (Vector (List Host.Cell) 32) 8 :=
  (s.tiles.map Tile.mem, s.stackBanks.map fun y => y.ch.map Channel.mem)

theorem vget_map_apply {α β : Type} {n : Nat} (g : α → β) (v : Vector α n) (i : Nat) (d : α) : vget (v.map g) i (g d) = g (vget v i d) := by
  simp only [vget, Vector.getElem?_map]
  cases v[i]? <;> rfl

theorem map_vset {α β : Type} {n : Nat} (g : α → β) (v : Vector α n) (i : Nat) (x : α) : (vset v i x).map g = vset (v.map g) i (g x) := by
  ext j hj
  by_cases h : i = j <;> simp [vset, h]

/-- An entry changed where the change does not show. -/
theorem map_vset_same {α β : Type} {n : Nat} {g : α → β} {v : Vector α n} {i : Nat} {d x : α} (h : g x = g (vget v i d)) :
    (vset v i x).map g = v.map g := by
  rw [map_vset, h, ← vget_map_apply g, vset_vget]

/-- A change of a tile that leaves its memory. -/
@[simp] theorem State.modTile_mems (s : State) (i : Nat) {f : Tile → Tile} (h : ∀ t, (f t).mem = t.mem) :
    (s.modTile i f).mems = s.mems := congrArg (·, _) (map_vset_same (h _))

/-- A change of a stack that leaves the memories of its pseudo-channels. -/
@[simp] theorem State.modStk_mems (s : State) (k : Nat) {f : Stack → Stack} (h : ∀ y, (f y).ch.map Channel.mem = y.ch.map Channel.mem) :
    (s.modStk k f).mems = s.mems := congrArg (_, ·) (map_vset_same (g := fun y : Stack => y.ch.map Channel.mem) (h _))

/-- A change of a pseudo-channel that leaves its memory. -/
@[simp] theorem State.modChan_mems (s : State) (k c : Nat) {f : Channel → Channel} (h : ∀ x, (f x).mem = x.mem) :
    (s.modChan k c f).mems = s.mems := State.modStk_mems s k fun _ => map_vset_same (h _)

@[simp] theorem State.modPch_mems (s : State) (x : Nat) {f : Channel → Channel} (h : ∀ y, (f y).mem = y.mem) :
    (s.modPch x f).mems = s.mems := State.modChan_mems s _ _ h

/-- The memories of a state written field by field, whose tiles and stacks are those of `s`. -/
@[simp] theorem State.mems_mk (s : State)
    {wall : Nat} {fuses : Fuses} {top : TopRegs} {plan : PlanRegs} {clk : ClkRegs} {snap : SnapRegs} {seq : SeqShared}
    {seqB : Vector SeqBank 16} {bud : BudShared} {budB : Vector BudBank 16} {sync : SyncRegs} {syncB : Vector SyncBank 16}
    {tileSync : Vector TileSync 160} {dig : DigRegs} {parts : Vector PartBank 16} {part : PartShared} {map : MapRegs}
    {fab : FabricRegs} {links : Vector Link 12} {recvDir : List DirEnt} {vent : VentState} {pcie : PcieRegs} {svc : SvcRegs}
    {flash : Flash} {fwu : FwuRegs} {time : TimeRegs} {crcs : Vector CrcRegs 4} {sec : SecRegs} {pins : Pins} {freeCount : Nat}
    {pending : List Instr} :
    State.mems {
      wall := wall
      fuses := fuses
      top := top
      plan := plan
      clk := clk
      snap := snap
      seq := seq
      seqB := seqB
      bud := bud
      budB := budB
      sync := sync
      syncB := syncB
      tileSync := tileSync
      dig := dig
      parts := parts
      part := part
      map := map
      fab := fab
      links := links
      recvDir := recvDir
      vent := vent
      stackBanks := s.stackBanks
      pcie := pcie
      svc := svc
      flash := flash
      fwu := fwu
      time := time
      crcs := crcs
      sec := sec
      pins := pins
      tiles := s.tiles
      freeCount := freeCount
      pending := pending } = s.mems := rfl

/-- The same, whose tiles are those of `s` with one changed. -/
@[simp] theorem State.mems_mk_modTile (s : State) (i : Nat) (f : Tile → Tile)
    {wall : Nat} {fuses : Fuses} {top : TopRegs} {plan : PlanRegs} {clk : ClkRegs} {snap : SnapRegs} {seq : SeqShared}
    {seqB : Vector SeqBank 16} {bud : BudShared} {budB : Vector BudBank 16} {sync : SyncRegs} {syncB : Vector SyncBank 16}
    {tileSync : Vector TileSync 160} {dig : DigRegs} {parts : Vector PartBank 16} {part : PartShared} {map : MapRegs}
    {fab : FabricRegs} {links : Vector Link 12} {recvDir : List DirEnt} {vent : VentState} {pcie : PcieRegs} {svc : SvcRegs}
    {flash : Flash} {fwu : FwuRegs} {time : TimeRegs} {crcs : Vector CrcRegs 4} {sec : SecRegs} {pins : Pins} {freeCount : Nat}
    {pending : List Instr} :
    State.mems {
      wall := wall
      fuses := fuses
      top := top
      plan := plan
      clk := clk
      snap := snap
      seq := seq
      seqB := seqB
      bud := bud
      budB := budB
      sync := sync
      syncB := syncB
      tileSync := tileSync
      dig := dig
      parts := parts
      part := part
      map := map
      fab := fab
      links := links
      recvDir := recvDir
      vent := vent
      stackBanks := s.stackBanks
      pcie := pcie
      svc := svc
      flash := flash
      fwu := fwu
      time := time
      crcs := crcs
      sec := sec
      pins := pins
      tiles := (s.modTile i f).tiles
      freeCount := freeCount
      pending := pending } = (s.modTile i f).mems := rfl

/-- The same, whose stacks are those of `s` with one changed. -/
@[simp] theorem State.mems_mk_modStk (s : State) (k : Nat) (f : Stack → Stack)
    {wall : Nat} {fuses : Fuses} {top : TopRegs} {plan : PlanRegs} {clk : ClkRegs} {snap : SnapRegs} {seq : SeqShared}
    {seqB : Vector SeqBank 16} {bud : BudShared} {budB : Vector BudBank 16} {sync : SyncRegs} {syncB : Vector SyncBank 16}
    {tileSync : Vector TileSync 160} {dig : DigRegs} {parts : Vector PartBank 16} {part : PartShared} {map : MapRegs}
    {fab : FabricRegs} {links : Vector Link 12} {recvDir : List DirEnt} {vent : VentState} {pcie : PcieRegs} {svc : SvcRegs}
    {flash : Flash} {fwu : FwuRegs} {time : TimeRegs} {crcs : Vector CrcRegs 4} {sec : SecRegs} {pins : Pins} {freeCount : Nat}
    {pending : List Instr} :
    State.mems {
      wall := wall
      fuses := fuses
      top := top
      plan := plan
      clk := clk
      snap := snap
      seq := seq
      seqB := seqB
      bud := bud
      budB := budB
      sync := sync
      syncB := syncB
      tileSync := tileSync
      dig := dig
      parts := parts
      part := part
      map := map
      fab := fab
      links := links
      recvDir := recvDir
      vent := vent
      stackBanks := (s.modStk k f).stackBanks
      pcie := pcie
      svc := svc
      flash := flash
      fwu := fwu
      time := time
      crcs := crcs
      sec := sec
      pins := pins
      tiles := s.tiles
      freeCount := freeCount
      pending := pending } = (s.modStk k f).mems := rfl

/-- The same, whose stacks are those of `s` with a pseudo-channel changed. -/
@[simp] theorem State.mems_mk_modChan (s : State) (k c : Nat) (f : Channel → Channel)
    {wall : Nat} {fuses : Fuses} {top : TopRegs} {plan : PlanRegs} {clk : ClkRegs} {snap : SnapRegs} {seq : SeqShared}
    {seqB : Vector SeqBank 16} {bud : BudShared} {budB : Vector BudBank 16} {sync : SyncRegs} {syncB : Vector SyncBank 16}
    {tileSync : Vector TileSync 160} {dig : DigRegs} {parts : Vector PartBank 16} {part : PartShared} {map : MapRegs}
    {fab : FabricRegs} {links : Vector Link 12} {recvDir : List DirEnt} {vent : VentState} {pcie : PcieRegs} {svc : SvcRegs}
    {flash : Flash} {fwu : FwuRegs} {time : TimeRegs} {crcs : Vector CrcRegs 4} {sec : SecRegs} {pins : Pins} {freeCount : Nat}
    {pending : List Instr} :
    State.mems {
      wall := wall
      fuses := fuses
      top := top
      plan := plan
      clk := clk
      snap := snap
      seq := seq
      seqB := seqB
      bud := bud
      budB := budB
      sync := sync
      syncB := syncB
      tileSync := tileSync
      dig := dig
      parts := parts
      part := part
      map := map
      fab := fab
      links := links
      recvDir := recvDir
      vent := vent
      stackBanks := (s.modChan k c f).stackBanks
      pcie := pcie
      svc := svc
      flash := flash
      fwu := fwu
      time := time
      crcs := crcs
      sec := sec
      pins := pins
      tiles := s.tiles
      freeCount := freeCount
      pending := pending } = (s.modChan k c f).mems := rfl

@[simp] theorem State.modPt_mems (s : State) (i : Nat) (f : PartBank → PartBank) : (s.modPt i f).mems = s.mems := by rfl
@[simp] theorem State.modSq_mems (s : State) (i : Nat) (f : SeqBank → SeqBank) : (s.modSq i f).mems = s.mems := by rfl
@[simp] theorem State.modBd_mems (s : State) (i : Nat) (f : BudBank → BudBank) : (s.modBd i f).mems = s.mems := by rfl
@[simp] theorem State.modSy_mems (s : State) (i : Nat) (f : SyncBank → SyncBank) : (s.modSy i f).mems = s.mems := by rfl
@[simp] theorem State.modTs_mems (s : State) (i : Nat) (f : TileSync → TileSync) : (s.modTs i f).mems = s.mems := by rfl
@[simp] theorem State.modLink_mems (s : State) (i : Nat) (f : Link → Link) : (s.modLink i f).mems = s.mems := by rfl
@[simp] theorem State.modCrc_mems (s : State) (i : Nat) (f : CrcRegs → CrcRegs) : (s.modCrc i f).mems = s.mems := by rfl
@[simp] theorem State.modFn_mems (s : State) (i : Nat) (f : PcieFn → PcieFn) : (s.modFn i f).mems = s.mems := by rfl
@[simp] theorem State.modBar_mems (s : State) (p b : Nat) (f : Barrier → Barrier) : (s.modBar p b f).mems = s.mems := by rfl
@[simp] theorem State.draw_mems (s : State) (w : Nat) : (s.draw w).2.mems = s.mems := by rfl

/-- What every step of a fold keeps of the memories, the fold keeps. -/
@[simp] theorem State.mems_foldl {α : Type} {f : State → α → State} (h : ∀ s x, (f s x).mems = s.mems) (l : List α)
    (s : State) : (l.foldl f s).mems = s.mems := foldl_keeps State.mems h l s

/-- A fold that changes tiles and leaves their memories. -/
@[simp] theorem State.modTile_foldl_mems {α : Type} (i : α → Nat) {f : State → α → Tile → Tile} (h : ∀ s x t, (f s x t).mem = t.mem)
    (l : List α) (s : State) : (l.foldl (fun s x => s.modTile (i x) (f s x)) s).mems = s.mems :=
  State.mems_foldl (fun _ _ => State.modTile_mems _ _ (h _ _)) l s

/-- A fold that changes tiles with their sync units and leaves the memories. -/
@[simp] theorem State.modTile_modTs_foldl_mems {α : Type} (i j : α → Nat) {f : State → α → Tile → Tile}
    (g : State → α → TileSync → TileSync) (h : ∀ s x t, (f s x t).mem = t.mem) (l : List α) (s : State) :
    (l.foldl (fun s x => (s.modTile (i x) (f s x)).modTs (j x) (g s x)) s).mems = s.mems :=
  State.mems_foldl (fun _ _ => (State.modTs_mems ..).trans (State.modTile_mems _ _ (h _ _))) l s

/-- A fold that changes sync units of tiles. -/
@[simp] theorem State.modTs_foldl_mems {α : Type} (j : α → Nat) (g : State → α → TileSync → TileSync) (l : List α)
    (s : State) : (l.foldl (fun s x => s.modTs (j x) (g s x)) s).mems = s.mems := State.mems_foldl (by intros; rfl) l s

@[simp] theorem State.mems_ite (c : Prop) [Decidable c] (a b : State) :
    (if c then a else b).mems = if c then a.mems else b.mems := apply_ite ..

@[simp] theorem State.rng_mems (s : State) (w : Nat) : (s.rng w).2.mems = s.mems := by rfl

/-! ### Memories in canonical form -/

/-- The memory of every tile and of every pseudo-channel is in canonical form. -/
def State.memOk (s : State) : Prop := s.tileMemOk ∧ s.stackMemOk

/-- The memories of a stack's pseudo-channels are in canonical form. -/
def Stack.memOk (y : Stack) : Prop := ∀ c, c < 32 → Memory.wf (vget y.ch c Channel.reset).mem = true

theorem State.memOk.stk {s : State} (h : s.memOk) {k : Nat} (hk : k < 8) : (s.stk k).memOk := fun c hc => h.2 k c hk hc

theorem State.tile_mem (s : State) (i : Nat) : (s.tile i).mem = vget s.mems.1 i [] :=
  (vget_map_apply Tile.mem s.tiles i Tile.reset).symm

theorem State.chan_mem (s : State) (k c : Nat) : (s.chan k c).mem = vget (vget s.mems.2 k (Stack.reset.ch.map Channel.mem)) c [] := by
  rw [State.mems, vget_map_apply (fun y : Stack => y.ch.map Channel.mem)]
  exact (vget_map_apply Channel.mem _ c Channel.reset).symm

theorem State.memOk.congr {s t : State} (hs : s.memOk) (h : t.mems = s.mems) : t.memOk := by
  refine ⟨fun i hi => ?_, fun k c hk hc => ?_⟩
  · rw [State.tile_mem, h, ← State.tile_mem]
    exact hs.1 i hi
  · rw [State.chan_mem, h, ← State.chan_mem]
    exact hs.2 k c hk hc

theorem State.memOk.foldl {α : Type} {f : State → α → State} (h : ∀ s x, s.memOk → (f s x).memOk) (l : List α) {s : State}
    (hs : s.memOk) : (l.foldl f s).memOk :=
  List.foldlRecOn (motive := State.memOk) l f hs fun t ht x _ => h t x ht

/-- A tile changed by what keeps its memory canonical. -/
theorem State.memOk.modTile {s : State} (hs : s.memOk) (i : Nat) {f : Tile → Tile}
    (hf : ∀ t, Memory.wf t.mem = true → Memory.wf (f t).mem = true) : (s.modTile i f).memOk := by
  refine ⟨fun j hj => ?_, hs.2⟩
  by_cases hij : i = j
  · subst hij
    rw [State.tile_modTile_same _ _ _ hj]
    exact hf _ (hs.1 i hj)
  · rw [State.tile_modTile_ne _ _ _ _ hij]
    exact hs.1 j hj

/-- A stack changed by what keeps its memories canonical. -/
theorem State.memOk.modStk {s : State} (hs : s.memOk) (k : Nat) {f : Stack → Stack} (hf : ∀ y, y.memOk → (f y).memOk) :
    (s.modStk k f).memOk := by
  refine ⟨hs.1, fun j c hj hc => ?_⟩
  show Memory.wf (vget ((s.modStk k f).stk j).ch c Channel.reset).mem = true
  by_cases hkj : k = j
  · subst hkj
    rw [State.stk_modStk_same _ _ _ hj]
    exact hf _ (hs.stk hj) c hc
  · rw [State.stk_modStk_ne _ _ _ _ hkj]
    exact hs.2 j c hj hc

/-- A pseudo-channel changed by what keeps its memory canonical. -/
theorem State.memOk.modChan {s : State} (hs : s.memOk) (k c : Nat) {f : Channel → Channel}
    (hf : ∀ x, Memory.wf x.mem = true → Memory.wf (f x).mem = true) : (s.modChan k c f).memOk := by
  refine hs.modStk k fun y hy j hj => ?_
  by_cases hcj : c = j
  · subst hcj
    rw [vget_vset_same _ _ _ _ hj]
    exact hf _ (hy c hj)
  · rw [vget_vset_ne _ _ _ _ _ hcj]
    exact hy j hj

theorem State.memOk.modPch {s : State} (hs : s.memOk) (x : Nat) {f : Channel → Channel}
    (hf : ∀ x, Memory.wf x.mem = true → Memory.wf (f x).mem = true) : (s.modPch x f).memOk := hs.modChan _ _ hf

theorem Tile.put_mem (t : Tile) (x : PendWrite) : (t.put x).mem = (x.data.map (Memory.writeLine t.mem x.word)).getD t.mem := by
  unfold Tile.put
  cases x.data <;> cases x.full <;> dsimp only [Option.map, Option.getD]

/-- A write of a tile's word keeps its memory canonical. -/
theorem Tile.wf_put {t : Tile} (h : Memory.wf t.mem = true) (x : PendWrite) : Memory.wf (t.put x).mem = true := by
  rw [Tile.put_mem]
  cases x.data with
  | none => exact h
  | some d =>
    rw [Option.map_some, Option.getD_some]
    exact Memory.wf_writeLine x.word d h

theorem Tile.wf_puts {t : Tile} (h : Memory.wf t.mem = true) (ws : List PendWrite) :
    Memory.wf (ws.foldl (fun t w => t.put w) t).mem = true :=
  List.foldlRecOn (motive := fun t : Tile => Memory.wf t.mem = true) ws _ h fun _ ht x _ => Tile.wf_put ht x

theorem Channel.store_mem (c : Channel) (w : Nat) (d : Line) : (c.store w d).mem = Memory.writeLine c.mem w d := by
  dsimp only [Channel.store]

theorem Channel.wf_store {c : Channel} (h : Memory.wf c.mem = true) (w : Nat) (d : Line) : Memory.wf (c.store w d).mem = true := by
  rw [Channel.store_mem]
  exact Memory.wf_writeLine w d h

/-! ### Parts of a tile -/

@[simp] theorem Tile.setStream_mem (t : Tile) (e : Eng) (x : Stream) : (t.setStream e x).mem = t.mem := by cases e <;> rfl
@[simp] theorem Tile.setSlot_mem (t : Tile) (i : Bool) (x : WSlot) : (t.setSlot i x).mem = t.mem := by cases i <;> rfl
@[simp] theorem Tile.corrected_mem (t : Tile) (w : Nat) : (t.corrected w).mem = t.mem := by
  unfold Tile.corrected
  split <;> rfl
@[simp] theorem Tile.fold_mem (t : Tile) (held : Bool) (x : PendWrite) : (t.fold held x).mem = t.mem := by
  unfold Tile.fold
  split
  · split <;> rfl
  · rfl
@[simp] theorem Tile.endPc_mem (t : Tile) : t.endPc.mem = t.mem := by
  unfold Tile.endPc
  split <;> rfl
@[simp] theorem Tile.countParity_mem (t : Tile) (source : BitVec 2) (queue : Bool) (attempt : Nat) (pc : BitVec 32) :
    (t.countParity source queue attempt pc).mem = t.mem := by rfl

/-- A planned write keeps the tile's memory canonical. -/
theorem Tile.wf_land {t : Tile} (h : Memory.wf t.mem = true) (x : PendWrite) : Memory.wf (t.land x).mem = true := by
  have hput : Memory.wf ((t.put x).fold false x).mem = true := by
    rw [Tile.fold_mem]
    exact Tile.wf_put h x
  unfold Tile.land
  dsimp only
  split
  · exact hput
  · exact hput

/-- A tile changed or not, its memory left. -/
@[simp] theorem Tile.mem_ite (c : Prop) [Decidable c] (a b : Tile) : (if c then a else b).mem = if c then a.mem else b.mem :=
  apply_ite ..

/-! ### Interrupts, faults, holds and episodes (R32 to R43, R436, R494, R513) -/

@[simp] theorem State.signal_mems (s : State) (f v : Nat) : (s.signal f v).mems = s.mems := by simp [State.signal]
@[simp] theorem State.partEvent_mems (s : State) (p : Nat) : (s.partEvent p).mems = s.mems := by simp [State.partEvent]
@[simp] theorem State.setPartState_mems (s : State) (p : Nat) (st : BitVec 3) :
    (s.setPartState p st).mems = s.mems := by simp [State.setPartState]
@[simp] theorem State.setWings_mems (s : State) (p : Nat) (w : BitVec 3) : (s.setWings p w).mems = s.mems := by
  simp [State.setWings]
@[simp] theorem State.logEvent_mems (s : State) (ty detail : Nat) : (s.logEvent ty detail).mems = s.mems := by
  simp [State.logEvent]
@[simp] theorem State.showLastFault_mems (s : State) (r : FaultRec) : (s.showLastFault r).mems = s.mems := by
  simp [State.showLastFault]
@[simp] theorem State.logFault_mems (s : State) (r : FaultRec) (c : Option FaultRec) :
    (s.logFault r c).mems = s.mems := by rfl
@[simp] theorem State.writeFault_mems (s : State) (r : FaultRec) (c : Option FaultRec) :
    (s.writeFault r c).mems = s.mems := by simp [State.writeFault]
@[simp] theorem State.writeFaults_mems (s : State) : s.writeFaults.mems = s.mems := by simp [State.writeFaults]
@[simp] theorem State.flood_mems (s : State) (except : Nat) (sym : InlineSym) :
    (s.flood except sym).mems = s.mems := by simp [State.flood]
@[simp] theorem State.raiseCause_mems (s : State) (code : BitVec 4) (src : CauseSrc) :
    (s.raiseCause code src).mems = s.mems := by
  unfold State.raiseCause
  split <;> simp
@[simp] theorem State.clearCause_mems (s : State) (src : CauseSrc) : (s.clearCause src).mems = s.mems := by rfl
@[simp] theorem State.enterFaultStop_mems (s : State) : s.enterFaultStop.mems = s.mems := by simp [State.enterFaultStop]
@[simp] theorem State.faultHold_mems (s : State) (r : FaultRec) (c : Option FaultRec) :
    (s.faultHold r c).mems = s.mems := by simp [State.faultHold]
@[simp] theorem State.applyHold_mems (s : State) (origin : BitVec 24) (num : BitVec 8) :
    (s.applyHold origin num).mems = s.mems := by
  unfold State.applyHold
  split <;> simp
@[simp] theorem State.applyRelease_mems (s : State) (origin : BitVec 24) (num : BitVec 8) :
    (s.applyRelease origin num).mems = s.mems := by rfl
@[simp] theorem State.releaseOwn_mems (s : State) : s.releaseOwn.mems = s.mems := by
  unfold State.releaseOwn
  split <;> simp
@[simp] theorem State.applyOwn_mems (s : State) : s.applyOwn.mems = s.mems := by simp [State.applyOwn]
@[simp] theorem State.resume_mems (s : State) : s.resume.mems = s.mems := by
  unfold State.resume
  split
  · rfl
  split
  · simp
  · cases s.windowBusy <;> cases s.refreshBusy <;> simp

/-! ### Words of a stack -/

@[simp] theorem State.poisonWord_mems (s : State) (x w : Nat) : (s.poisonWord x w).mems = s.mems := by simp [State.poisonWord]
@[simp] theorem State.stackUE_mems (s : State) (x w : Nat) (p : Option Nat) : (s.stackUE x w p).mems = s.mems := by
  unfold State.stackUE
  dsimp only
  rw [State.logFault_mems, State.modStk_mems _ _ fun y => by split <;> rfl, State.poisonWord_mems]
@[simp] theorem State.stackCE_mems (s : State) (x w : Nat) (die : BitVec 4) : (s.stackCE x w die).mems = s.mems := by
  simp [State.stackCE]
@[simp] theorem State.admitWrite_mems (s : State) (x : Nat) (pw : PendWrite) : (s.admitWrite x pw).mems = s.mems := by
  simp [State.admitWrite]

/-! ### The check point of a tile instruction -/

@[simp] theorem State.conflict_mems (s : State) (part res num : Nat) (a b : Nat × Nat × BitVec 32) :
    (s.conflict part res num a b).mems = s.mems := by rfl
@[simp] theorem State.windowConflict_mems (s : State) (part bank tile unit : Nat) (pc : BitVec 32) :
    (s.windowConflict part bank tile unit pc).mems = s.mems := by rfl
@[simp] theorem State.tileUE_mems (s : State) (t w unit : Nat) (pc : BitVec 32) :
    (s.tileUE t w unit pc).mems = s.mems := by simp [State.tileUE]
@[simp] theorem State.noteStall_mems (s : State) (t w unit : Nat) (pc : BitVec 32) :
    (s.noteStall t w unit pc).mems = s.mems := by
  unfold State.noteStall
  dsimp only
  split <;> simp
@[simp] theorem State.syncConflict_mems (s : State) (t unit : Nat) (pc : BitVec 32) (word : Nat) :
    (s.syncConflict t unit pc word).mems = s.mems := by
  unfold State.syncConflict
  dsimp only
  split
  · simp
  · split <;> simp
@[simp] theorem State.lateUse_mems (s : State) (t : Nat) (e : Eng) (code : BitVec 4) (words : List Nat) (pc : BitVec 32) :
    (s.lateUse t e code words pc).mems = s.mems := by
  unfold State.lateUse
  extract_lets s1 s2
  have h2 : s2.mems = s.mems := by
    refine (State.raiseCause_mems ..).trans ?_
    simp only [s1]
    split
    · exact congrArg (_, ·) (by simp only [Vector.map_map]; rfl)
    · rfl
  split
  · exact (State.mems_foldl (fun _ _ => State.noteStall_mems ..) _ _).trans h2
  · exact h2
@[simp] theorem State.checkPlan_mems (s : State) (t : Nat) (e : Eng) (fr : Front) (f : Flight) (pl : Plan) :
    (s.checkPlan t e fr f pl).mems = s.mems := by
  unfold State.checkPlan
  dsimp only
  split
  · simp
  · split <;> simp
@[simp] theorem State.check_mems (s : State) (t : Nat) (e : Eng) (op : Nat) (w : IWord) (ok : Bool) (plan : Ctx → Plan)
    (fr : Front) : (s.check t e op w ok plan fr).mems = s.mems := by
  unfold State.check
  dsimp only
  split
  · rfl
  split
  · simp
  split
  · simp
  · split <;> simp
@[simp] theorem State.runInstr_mems (s : State) (t : Nat) (e : Eng) (op : Nat) (w : IWord) (ok : Bool)
    (plan : Ctx → Plan) : (s.runInstr t e op w ok plan).mems = s.mems := by
  unfold State.runInstr
  split
  · rfl
  split
  · simp
  · split <;> simp

/-! ### Packets -/

@[simp] theorem State.flowUpdate_mems (s : State) (n : Nat) : (s.flowUpdate n).mems = s.mems := by simp [State.flowUpdate]
@[simp] theorem State.admitOpen_mems (s : State) (n : Nat) : (s.admitOpen n).mems = s.mems := by simp [State.admitOpen]
@[simp] theorem State.countDrop_mems (s : State) (n : Nat) : (s.countDrop n).mems = s.mems := by rfl
@[simp] theorem State.routeOpen_mems (s : State) (p : Packet) (via : Nat) : (s.routeOpen p via).mems = s.mems := by
  unfold State.routeOpen
  dsimp only
  split <;> simp
@[simp] theorem State.inject_mems (s : State) (p : Packet) : (s.inject p).mems = s.mems := by simp [State.inject]
@[simp] theorem State.queueP_mems (s : State) (n : Nat) (p : Packet) (readyAt : Nat) (relay : Bool) (via part : Nat) :
    (s.queueP n p readyAt relay via part).mems = s.mems := by simp [State.queueP]
@[simp] theorem State.sendP_mems (s : State) (part : Nat) (p : Packet) (readyAt : Nat) :
    (s.sendP part p readyAt).mems = s.mems := by
  unfold State.sendP
  dsimp only
  split <;> simp
@[simp] theorem State.countStall_mems (s : State) (n : Nat) : (s.countStall n).mems = s.mems := by rfl
@[simp] theorem State.transmit_mems (s : State) (n : Nat) (p : Packet) : (s.transmit n p).mems = s.mems := by rfl
@[simp] theorem State.retransmit_mems (s : State) (n : Nat) (p : Packet) : (s.retransmit n p).mems = s.mems := by rfl
@[simp] theorem State.dropRelayed_mems (s : State) (via : Nat) (p : Packet) : (s.dropRelayed via p).mems = s.mems := by
  simp [State.dropRelayed]
@[simp] theorem State.takeP_mems (s : State) (n : Nat) (q : PQueued) : (s.takeP n q).mems = s.mems := by simp [State.takeP]
@[simp] theorem State.slotOverrun_mems (s : State) (n cell : Nat) (p : Packet) :
    (s.slotOverrun n cell p).mems = s.mems := by simp [State.slotOverrun]
@[simp] theorem State.acceptP_mems (s : State) (n : Nat) (p : Packet) : (s.acceptP n p).mems = s.mems := by
  simp [State.acceptP]
@[simp] theorem State.dropForeign_mems (s : State) (n : Nat) (p : Packet) : (s.dropForeign n p).mems = s.mems := by rfl
@[simp] theorem State.takeAccepted_mems (s : State) (n : Nat) (p : Packet) : (s.takeAccepted n p).mems = s.mems := by rfl
@[simp] theorem State.freePools_mems (s : State) : s.freePools.mems = s.mems := by rfl
@[simp] theorem State.consume_mems (s : State) (p : Packet) : (s.consume p).mems = s.mems := by rfl

/-! ### Watches and barriers -/

@[simp] theorem State.syncObject_mems (s : State) (t w : Nat) : (s.syncObject t w).mems = s.mems := by
  simp [State.syncObject]
@[simp] theorem State.registerWatch_mems (s : State) (t engine : Nat) (pc : BitVec 32) (watched wake : Nat) (wantFull : Bool)
    (timeout : Nat) : (s.registerWatch t engine pc watched wake wantFull timeout).mems = s.mems := by
  unfold State.registerWatch
  dsimp only
  split
  · simp
  · split <;> simp
@[simp] theorem State.sidePort_mems (s : State) (t w : Nat) : (s.sidePort t w).mems = s.mems := by simp [State.sidePort]
@[simp] theorem State.deliverAll_mems (s : State) (held : Bool) : (s.deliverAll held).mems = s.mems := by rfl
@[simp] theorem State.sendBar_mems (s : State) (type p b i : Nat) (d : BarDecl) :
    (s.sendBar type p b i d).mems = s.mems := by simp [State.sendBar]
@[simp] theorem State.releaseBar_mems (s : State) (p b steps : Nat) (d : BarDecl) (i : Nat) :
    (s.releaseBar p b steps d i).mems = s.mems := by simp [State.releaseBar]
@[simp] theorem State.checkBar_mems (s : State) (p b past : Nat) (d : BarDecl) : (s.checkBar p b past d).mems = s.mems := by
  unfold State.checkBar
  dsimp only
  split
  · rfl
  split
  · simp
  · split <;> simp
@[simp] theorem State.misuse_mems (s : State) (t engine : Nat) (pc : BitVec 32) (b : Nat) :
    (s.misuse t engine pc b).mems = s.mems := by simp [State.misuse]
@[simp] theorem State.barObjects_mems (s : State) (p : Nat) (d : BarDecl) : (s.barObjects p d).mems = s.mems :=
  State.mems_foldl (fun _ _ => by split <;> simp) _ _
@[simp] theorem State.arrive_mems (s : State) (t engine : Nat) (pc : BitVec 32) (b : Nat) :
    (s.arrive t engine pc b).mems = s.mems := by
  unfold State.arrive
  dsimp only
  split <;> simp
@[simp] theorem State.erEvent_mems (s : State) (t : Nat) : (s.erEvent t).mems = s.mems := by simp [State.erEvent]

/-! ### Digests -/

@[simp] theorem State.appendDigest_mems (s : State) (e : DigEntry) : (s.appendDigest e).mems = s.mems := by
  simp [State.appendDigest]
@[simp] theorem State.closeDigest_mems (s : State) (t : Nat) (layer : BitVec 16) :
    (s.closeDigest t layer).mems = s.mems := by simp [State.closeDigest]
@[simp] theorem State.releaseFolds_mems (s : State) (t : Nat) : (s.releaseFolds t).mems = s.mems := by
  simp [State.releaseFolds]

/-! ### Packets received, chunks, and what a plan does beside its accesses -/

@[simp] theorem State.claimPacket_mems (s : State) (t p l : Nat) (tag : BitVec 12) (free : Nat) :
    (s.claimPacket t p l tag free).mems = s.mems := by
  unfold State.claimPacket
  split <;> simp
@[simp] theorem State.chunkDone_mems (s : State) (c : Ctx) (ch : Nat) (lost : Bool) (x : EmberResult) :
    (s.chunkDone c ch lost x).mems = s.mems := by
  unfold State.chunkDone
  dsimp only
  split
  · rfl
  · split <;> simp
/-- What a plan does beside its accesses leaves the memories as they are. -/
def Plan.KeepsMems (pl : Plan) : Prop := ∀ a ∈ pl.acts, ∀ s : State, (a.2 s).mems = s.mems

theorem Plan.KeepsMems.of_nil {pl : Plan} (h : pl.acts = []) : pl.KeepsMems := by simp [Plan.KeepsMems, h]
theorem Plan.KeepsMems.of_single {pl : Plan} {q : Nat} {f : State → State} (h : pl.acts = [(q, f)])
    (hf : ∀ s, (f s).mems = s.mems) : pl.KeepsMems := by
  simpa [Plan.KeepsMems, h] using hf
theorem Plan.KeepsMems.of_kv {pl : Plan} {k : KvMap} (h : pl.acts = k.acts) : pl.KeepsMems := by
  cases k with
  | bad q r => exact .of_single h fun s => State.faultHold_mems s r.1 r.2
  | _ => exact .of_nil h

theorem planSend_keepsMems (w : IWord) (c : Ctx) : (planSend w c).KeepsMems := by
  unfold planSend
  dsimp only
  split <;> exact .of_nil rfl
theorem planFrecv_keepsMems (w : IWord) (c : Ctx) : (planFrecv w c).KeepsMems := by
  unfold planFrecv
  dsimp only
  split <;> exact .of_single rfl fun _ => State.claimPacket_mems ..
theorem planEld_keepsMems (w : IWord) (c : Ctx) : (planEld w c).KeepsMems := by
  intro a ha s
  simp only [planEld, Plan.landIn, List.mem_map] at ha
  obtain ⟨x, -, rfl⟩ := ha
  exact State.chunkDone_mems ..
theorem planStrf_keepsMems (w : IWord) (c : Ctx) : (planStrf w c).KeepsMems := by
  unfold planStrf
  dsimp only
  split <;> exact .of_nil rfl

/-! ### Plans -/

theorem planOf_keepsMems (op : Nat) (w : IWord) (c : Ctx) : (planOf op w c).KeepsMems := by
  unfold planOf
  split
  case h_17 => exact .of_single rfl fun _ => State.arrive_mems ..        -- CT.BAR
  case h_18 => exact .of_single rfl fun _ => State.registerWatch_mems .. -- CT.WATCH
  case h_30 => exact .of_single rfl fun _ => State.closeDigest_mems ..   -- VX.DCLOSE
  case h_33 => exact planSend_keepsMems w c
  case h_37 => exact planFrecv_keepsMems w c
  case h_38 => exact planEld_keepsMems w c
  case h_39 => exact .of_kv rfl                                         -- MV.PGATH
  case h_40 => exact .of_kv rfl                                         -- MV.PST
  case h_41 => exact planStrf_keepsMems w c
  all_goals exact .of_nil rfl
@[simp] theorem State.modStream_mems (s : State) (t : Nat) (e : Eng) (f : Stream → Stream) :
    (s.modStream t e f).mems = s.mems := by simp [State.modStream]
@[simp] theorem State.modFlight_mems (s : State) (c : Ctx) (f : Flight → Flight) :
    (s.modFlight c f).mems = s.mems := by simp [State.modFlight]
@[simp] theorem State.delay_mems (s : State) (c : Ctx) (kind q x : Nat) : (s.delay c kind q x).mems = s.mems := by simp [State.delay]
@[simp] theorem State.noteRead_mems (s : State) (c : Ctx) (x : Got) : (s.noteRead c x).mems = s.mems := by simp [State.noteRead]

/-! ### Host windows -/

/-- A window access writes its word, or changes its full/empty bit (R82). -/
theorem State.serveWindow_memOk {s : State} (hs : s.memOk) (t : Nat) (r : WinReq) : (s.serveWindow t r).memOk := by
  unfold State.serveWindow
  extract_lets x s1 s2 d
  have h1 : s1.memOk := hs.congr (State.modTile_mems _ _ fun y => Tile.corrected_mem ..)
  split
  · have h2 : s2.memOk := h1.congr (State.modTile_mems _ _ fun _ => rfl)
    split
    · exact h2
    · exact h2.congr (State.tileUE_mems ..)
  · refine h1.modTile t fun y hy => ?_
    dsimp only
    split
    · exact hy
    · dsimp only
      exact Tile.wf_put (by exact hy) _
    · exact Tile.wf_put (by exact hy) _
@[simp] theorem State.beginWindow_mems (s : State) (t left : Nat) (holds : Bool) :
    (s.beginWindow t left holds).mems = s.mems := by simp [State.beginWindow]
@[simp] theorem State.takeWindow_mems (s : State) (t b : Nat) : (s.takeWindow t b).mems = s.mems := by simp [State.takeWindow]

/-! ### One pc of the tiles (R15, R25) -/

@[simp] theorem State.checkCodes_mems (s : State) (t : Nat) (e : Eng) : (s.checkCodes t e).mems = s.mems := by
  unfold State.checkCodes
  extract_lets x g bad
  split
  · rfl
  · split <;> simp
@[simp] theorem State.issue_mems (s : State) (t : Nat) (e : Eng) (f : Flight) : (s.issue t e f).mems = s.mems := by
  unfold State.issue
  extract_lets f' c g s'
  have h : s'.mems = s.mems := State.modStream_mems ..
  split
  · simp [h]
  · split <;> simp [h]
@[simp] theorem State.issueStream_mems (s : State) (t : Nat) (e : Eng) : (s.issueStream t e).mems = s.mems := by
  unfold State.issueStream
  split <;> simp
@[simp] theorem State.takeRetries_mems (s : State) (j : Job) : (s.takeRetries j).mems = s.mems := by
  simp [State.takeRetries]
@[simp] theorem State.portConflict_mems (s : State) (port : Nat) (a b : Ctx) :
    (s.portConflict port a b).mems = s.mems := by simp [State.portConflict]
@[simp] theorem Beats.serve_mems (b : Beats) (j : Job) : (b.serve j).s.mems = b.s.mems :=
  foldl_keeps (fun b : Beats => b.s.mems) (fun _ _ => by split <;> simp) _ _
@[simp] theorem Beats.serveSeq_mems (b : Beats) (t : Nat) : (b.serveSeq t).s.mems = b.s.mems := by
  unfold Beats.serveSeq
  dsimp only
  split
  · rfl
  · split <;> simp
@[simp] theorem State.sendPacket_mems (s : State) (j : Job) : (s.sendPacket j).mems = s.mems := by
  unfold State.sendPacket
  split <;> simp
@[simp] theorem State.passBeats_mems (s : State) (t : Nat) : (s.passBeats t).mems = s.mems := by simp [State.passBeats]
@[simp] theorem State.notServed_mems (s : State) (u : Use) : (s.notServed u).mems = s.mems := by
  unfold State.notServed
  split <;> simp
@[simp] theorem Served.serve_mems (r : Served) (u : Use) : (r.serve u).s.mems = r.s.mems := by
  unfold Served.serve
  dsimp only
  split
  · split <;> simp
  · split <;> simp
@[simp] theorem State.readWord_mems (s : State) (t w unit : Nat) (pc : BitVec 32) :
    (s.readWord t w unit pc).2.mems = s.mems := by
  unfold State.readWord
  dsimp only
  split <;> simp
@[simp] theorem State.makeRead_mems (s : State) (u : Use) : (s.makeRead u).mems = s.mems := by
  unfold State.makeRead
  split <;> simp
theorem State.makeWrite_memOk {s : State} (hs : s.memOk) (u : Use) : (s.makeWrite u).memOk := by
  unfold State.makeWrite
  split
  · exact hs
  next o _ =>
    split
    · exact hs
    extract_lets x s1
    split
    · exact hs.congr (State.modTile_mems _ _ fun y => Tile.fold_mem ..)
    · have h1 : s1.memOk := (hs.congr (State.syncConflict_mems ..)).modTile _ fun y hy => Tile.wf_land hy x
      split
      · exact h1.congr (State.erEvent_mems ..)
      · exact h1
@[simp] theorem State.passSlots_mems (s : State) (served : List Use) (before : State) (t : Nat) (e : Eng) :
    (s.passSlots served before t e).mems = s.mems := by simp [State.passSlots]
theorem State.banks_memOk {s : State} (hs : s.memOk) (ts : List Nat) (jobs : List Job) : (s.banks ts jobs).memOk := by
  unfold State.banks
  extract_lets r s1 s2
  have hr : r.s.mems = s.mems :=
    (foldl_keeps (fun r : Served => r.s.mems) Served.serve_mems _ _).trans (State.mems_foldl State.passBeats_mems _ _)
  have h1 : s1.memOk := hs.congr ((State.mems_foldl State.makeRead_mems _ _).trans hr)
  have h2 : s2.memOk := h1.foldl (fun _ u h => State.makeWrite_memOk h u) _
  exact h2.congr (State.mems_foldl (fun a t => State.mems_foldl (fun _ _ => State.passSlots_mems ..) _ _) _ _)
@[simp] theorem State.arriveAt_mems (s : State) (c : Ctx) (a : StackAcc) : (s.arriveAt c a).mems = s.mems := by
  unfold State.arriveAt
  dsimp only
  split
  · split <;> simp
  split
  · simp
  · split <;> simp
@[simp] theorem Chans.serve_mems (r : Chans) (j : Job) : (r.serve j).s.mems = r.s.mems :=
  foldl_keeps (fun r : Chans => r.s.mems) (fun _ _ => by split <;> simp) _ r
@[simp] theorem State.seqClash_mems (s : State) (y : Nat × Ctx) : (s.seqClash y).mems = s.mems := by simp [State.seqClash]
@[simp] theorem State.stacks_mems (s : State) (jobs : List Job) : (s.stacks jobs).mems = s.mems :=
  (State.mems_foldl State.seqClash_mems _ _).trans (foldl_keeps (fun r : Chans => r.s.mems) Chans.serve_mems _ _)
theorem State.act_mems (s : State) {j : Job} (h : j.pl.KeepsMems) : (s.act j).mems = s.mems :=
  List.foldlRecOn (motive := fun t : State => t.mems = s.mems) _ _ rfl fun t ht a ha =>
    (h a (List.mem_of_mem_filter ha) t).trans ht
theorem State.jobs_keepMems (s : State) (ts : List Nat) : ∀ j ∈ s.jobs ts, j.pl.KeepsMems := by
  intro j hj
  simp only [State.jobs, List.mem_flatMap, List.mem_map] at hj
  obtain ⟨t, -, e, -, f, -, rfl⟩ := hj
  exact planOf_keepsMems _ _ _
@[simp] theorem State.hostCheck_mems (s : State) (j : Job) : (s.hostCheck j).mems = s.mems :=
  State.mems_foldl (fun s u => by
    dsimp only
    split
    · split <;> simp
    · rfl) _ _
theorem State.windowPc_memOk {s : State} (hs : s.memOk) (t : Nat) : (s.windowPc t).memOk := by
  unfold State.windowPc
  extract_lets x g s1
  have h1 : s1.memOk := by
    simp only [s1]
    split
    · exact hs
    split
    · exact (State.serveWindow_memOk (hs.congr (State.takeWindow_mems ..)) t _).congr (State.beginWindow_mems ..)
    · exact hs.congr (State.modTile_mems _ _ fun _ => rfl)
  exact h1.congr (State.modTile_mems _ _ fun _ => rfl)
@[simp] theorem State.results_mems (s : State) (j : Job) : (s.results j).mems = s.mems := by
  unfold State.results
  split <;> simp
@[simp] theorem State.takeArm_mems (s : State) (t : Nat) (e : Eng) (f : Flight) (lt lf : Nat) (takesT : Bool) :
    (s.takeArm t e f lt lf takesT).mems = s.mems := by simp [State.takeArm]
@[simp] theorem State.follow_mems (s : State) (j : Job) : (s.follow j).mems = s.mems := by
  unfold State.follow
  split <;> simp
@[simp] theorem State.retire_mems (s : State) (j : Job) : (s.retire j).mems = s.mems := by simp [State.retire]
/-- One pc of the tiles keeps the memories canonical. -/
theorem State.runPc_memOk {s : State} (hs : s.memOk) : s.runPc.memOk := by
  unfold State.runPc
  extract_lets ts s1 jobs s2 b s3 s4 s5 s6 s7 last s8 s9
  split
  · exact hs
  have h1 : s1.mems = s.mems := State.mems_foldl (fun s t => State.mems_foldl (fun s e => by simp) _ _) _ _
  have h2 : s2.mems = s.mems := (State.mems_foldl State.takeRetries_mems _ _).trans h1
  have hb : b.s.mems = s.mems :=
    (foldl_keeps (fun b : Beats => b.s.mems) Beats.serveSeq_mems _ _).trans
      ((foldl_keeps (fun b : Beats => b.s.mems) Beats.serve_mems _ _).trans h2)
  have h3 : s3.memOk := State.banks_memOk (hs.congr hb) _ _
  have h5 : s5.memOk := h3.congr ((State.stacks_mems ..).trans (State.mems_foldl State.sendPacket_mems _ _))
  have h6 : s6.memOk :=
    List.foldlRecOn (motive := State.memOk) _ _ h5 fun t ht j hj => ht.congr (State.act_mems t (State.jobs_keepMems _ _ j hj))
  have h7 : s7.memOk :=
    (h6.congr (State.mems_foldl State.hostCheck_mems _ _)).foldl (fun _ t h => State.windowPc_memOk h t) _
  have h9 : s9.memOk := h7.congr ((State.mems_foldl State.follow_mems _ _).trans (State.mems_foldl State.results_mems _ _))
  exact h9.congr (State.mems_foldl State.retire_mems _ _)

/-! ### Parity and host windows of a tile -/

@[simp] theorem State.parityDetect_mems (s : State) (t : Nat) (source : BitVec 2) (queue : Bool) (pc : BitVec 32) :
    (s.parityDetect t source queue pc).mems = s.mems := by simp [State.parityDetect]
/-- A replay that ends well makes the writes held back (R72). -/
theorem State.parityFinish_memOk {s : State} (hs : s.memOk) (t : Nat) (source : BitVec 2) (ok : Bool) :
    (s.parityFinish t source ok).memOk := by
  unfold State.parityFinish
  dsimp only
  split
  · exact hs
  next f _ =>
    split
    · refine State.memOk.congr (hs.modTile t (f := fun y => { f.writes.foldl (fun y w => y.put w) y with
        parityFails := y.parityFails.erase f }) fun y hy => Tile.wf_puts hy f.writes) ?_
      split <;> split <;> simp
    · exact hs.congr (by simp)
@[simp] theorem State.queueWindow_mems (s : State) (t : Nat) (rs : List WinReq) :
    (s.queueWindow t rs).mems = s.mems := by
  refine State.modTile_mems _ _ fun x => ?_
  split <;> rfl
@[simp] theorem State.winRead_mems (s : State) (t off : Nat) (dbl : Bool) : (s.winRead t off dbl).mems = s.mems := by
  unfold State.winRead
  dsimp only
  split
  · rfl
  split
  · simp
  split
  · split <;> simp
  · simp
@[simp] theorem State.winWrite_mems (s : State) (t off val : Nat) (dbl : Bool) :
    (s.winWrite t off val dbl).mems = s.mems := by simp [State.winWrite]
@[simp] theorem State.queueFe_mems (s : State) (t : Nat) (kind : WinKind) (mask : BitVec 32) :
    (s.queueFe t kind mask).mems = s.mems := by simp [State.queueFe]

end Sys2Proof.Machine
end
section
/-! The memories are left as they are by plan time, the fabric's messages, the ports, the stacks, the mapper and the buckets. -/

namespace Sys2Proof.Machine
open Sys2Proof

/-! ### Parts of a tile and of a stack -/

@[simp] theorem Tile.prime_mem (t : Tile) (g : Nat) : (t.prime g).mem = t.mem := by rfl
@[simp] theorem Stack.remember_ch (y : Stack) (key : BitVec 256) (nonce : BitVec 96) : (y.remember key nonce).ch = y.ch := by rfl

/-! ### Plan time: debt, throttle, alignment, launch and step switch -/

@[simp] theorem State.ifReady_mems (s : State) {f : State → State} (h : ∀ s, (f s).mems = s.mems) :
    (s.ifReady f).mems = s.mems := by
  simp [State.ifReady, h]
@[simp] theorem State.addDebt_mems (s : State) (d : Nat) : (s.addDebt d).mems = s.mems := by rfl
@[simp] theorem State.subDebt_mems (s : State) (d : Nat) (origin : BitVec 24) :
    (s.subDebt d origin).mems = s.mems := by simp [State.subDebt]
@[simp] theorem State.raiseStall_mems (s : State) (num : BitVec 8) : (s.raiseStall num).mems = s.mems := by
  simp [State.raiseStall]
@[simp] theorem State.raiseLimit_mems (s : State) (e : Episode) : (s.raiseLimit e).mems = s.mems := by
  simp [State.raiseLimit]
@[simp] theorem State.writeHoldLimit_mems (s : State) (v : BitVec 32) : (s.writeHoldLimit v).mems = s.mems := by
  simp [State.writeHoldLimit]
@[simp] theorem State.writeThrottle_mems (s : State) (v : BitVec 32) : (s.writeThrottle v).mems = s.mems := by rfl
@[simp] theorem State.setCount_mems (s : State) (c16 : Nat) : (s.setCount c16).mems = s.mems := by rfl
@[simp] theorem State.alignStart_mems (s : State) : s.alignStart.mems = s.mems := by simp [State.alignStart]
@[simp] theorem State.rememberSym_mems (s : State) (ty : Nat) (u : BitVec 64) :
    (s.rememberSym ty u).mems = s.mems := by rfl
@[simp] theorem State.primePart_mems (s : State) (g p : Nat) : (s.primePart g p).mems = s.mems := by
  simp [State.primePart]
@[simp] theorem State.sendBarrier_mems (s : State) (release : Nat) : (s.sendBarrier release).mems = s.mems := by
  simp [State.sendBarrier]
@[simp] theorem State.launchArm_mems (s : State) : s.launchArm.mems = s.mems := by simp [State.launchArm]
@[simp] theorem State.startTiles_mems (s : State) (p : Nat) : (s.startTiles p).mems = s.mems := by simp [State.startTiles]
@[simp] theorem State.startPart_mems (s : State) (g p : Nat) : (s.startPart g p).mems = s.mems := by simp [State.startPart]
@[simp] theorem State.startAll_mems (s : State) (g : Nat) : (s.startAll g).mems = s.mems := by simp [State.startAll]
@[simp] theorem State.clearBarrier_mems (s : State) : s.clearBarrier.mems = s.mems := by rfl
@[simp] theorem State.rejectStep_mems (s : State) (tick : Nat) : (s.rejectStep tick).mems = s.mems := by rfl
@[simp] theorem State.tickPassed_mems (s : State) (tick ext : Nat) (p : Option Nat) :
    (s.tickPassed tick ext p).mems = s.mems := by simp [State.tickPassed]
@[simp] theorem State.stepArm_mems (s : State) : s.stepArm.mems = s.mems := by simp [State.stepArm]

/-! ### Flat data and Vent messages -/

@[simp] theorem State.writeFlat_mems (s : State) (v : BitVec 32) : (s.writeFlat v).mems = s.mems := by
  simp [State.writeFlat]
@[simp] theorem State.ventTransmit_mems (s : State) (m : VentOut) : (s.ventTransmit m).mems = s.mems := by
  simp [State.ventTransmit]
@[simp] theorem State.ventSend_mems (s : State) (dest : BitVec 24) (body : List (BitVec 8)) :
    (s.ventSend dest body).mems = s.mems := by simp [State.ventSend]
@[simp] theorem State.ventFail_mems (s : State) (src : BitVec 24) (msgId : BitVec 32) :
    (s.ventFail src msgId).mems = s.mems := by rfl
@[simp] theorem State.ventAck_mems (s : State) (src : BitVec 24) (msgId : BitVec 32) :
    (s.ventAck src msgId).mems = s.mems := by simp [State.ventAck]

/-! ### Ports -/

@[simp] theorem State.setLinkState_mems (s : State) (n : Nat) (st : BitVec 3) :
    (s.setLinkState n st).mems = s.mems := by simp [State.setLinkState]
@[simp] theorem State.goDown_mems (s : State) (n cause : Nat) : (s.goDown n cause).mems = s.mems := by simp [State.goDown]
@[simp] theorem State.seqProtocol_mems (s : State) (n : Nat) (num : BitVec 16) :
    (s.seqProtocol n num).mems = s.mems := by simp [State.seqProtocol]
@[simp] theorem State.discardPackets_mems (s : State) (n : Nat) : (s.discardPackets n).mems = s.mems := by rfl
@[simp] theorem State.failPort_mems (s : State) (n : Nat) : (s.failPort n).mems = s.mems := by simp [State.failPort]
@[simp] theorem State.badTrailer_mems (s : State) (n : Nat) : (s.badTrailer n).mems = s.mems := by rfl
@[simp] theorem State.acceptNext_mems (s : State) (n : Nat) (p : Packet) : (s.acceptNext n p).mems = s.mems := by
  simp [State.acceptNext]
@[simp] theorem State.passStates_mems (s : State) (n last : Nat) : (s.passStates n last).mems = s.mems := by
  simp [State.passStates]
@[simp] theorem State.startTraining_mems (s : State) (n : Nat) (byReq : Bool) :
    (s.startTraining n byReq).mems = s.mems := by simp [State.startTraining]
@[simp] theorem State.writeEnable_mems (s : State) (n : Nat) (on : Bool) : (s.writeEnable n on).mems = s.mems := by
  simp [State.writeEnable]
@[simp] theorem State.fullTrainReq_mems (s : State) (n : Nat) : (s.fullTrainReq n).mems = s.mems := by
  simp [State.fullTrainReq]
@[simp] theorem State.forceRetrain_mems (s : State) (n : Nat) : (s.forceRetrain n).mems = s.mems := by
  simp [State.forceRetrain]
@[simp] theorem State.declarePort_mems (s : State) (n : Nat) : (s.declarePort n).mems = s.mems := by
  simp [State.declarePort]
@[simp] theorem State.wiringMismatch_mems (s : State) (n : Nat) (id : LinkIdent) :
    (s.wiringMismatch n id).mems = s.mems := by simp [State.wiringMismatch]
@[simp] theorem State.requestLane_mems (s : State) (n lane : Nat) : (s.requestLane n lane).mems = s.mems := by rfl
@[simp] theorem State.laneDegrades_mems (s : State) (n lane : Nat) : (s.laneDegrades n lane).mems = s.mems := by
  simp [State.laneDegrades]
@[simp] theorem State.laneSwapReq_mems (s : State) (n : Nat) : (s.laneSwapReq n).mems = s.mems := by
  simp [State.laneSwapReq]

/-! ### Open accesses, refresh, stack windows, sealed loads and staging -/

@[simp] theorem State.countOpen_mems (s : State) (x : Nat) : (s.countOpen x).mems = s.mems := by simp [State.countOpen]
theorem State.openWrite_memOk {s : State} (hs : s.memOk) (x w : Nat) (d : Line) : (s.openWrite x w d).memOk := by
  unfold State.openWrite
  split
  · exact hs.congr (State.modPch_mems _ _ fun _ => rfl)
  · exact hs.modPch x fun c hc => Channel.wf_store hc w d
@[simp] theorem State.stageSettle_mems (s : State) (tag : Option (Nat × Nat × Nat)) :
    (s.stageSettle tag).mems = s.mems := by
  unfold State.stageSettle
  split <;> simp
@[simp] theorem State.beginRefresh_mems (s : State) (k c n : Nat) (forced held : Bool) :
    (s.beginRefresh k c n forced held).mems = s.mems := by simp [State.beginRefresh]
@[simp] theorem State.stkGo_mems (s : State) (k : Nat) : (s.stkGo k).mems = s.mems :=
  State.modStk_mems _ _ fun y => by
    split
    · rfl
    · split <;> rfl
/-- A stack window access that is admitted reads its word, or writes it (R210). -/
theorem State.admitWindow_memOk {s : State} (hs : s.memOk) (k : Nat) (a : WinAcc) : (s.admitWindow k a).memOk := by
  unfold State.admitWindow
  extract_lets x ch got s1
  have h1 : s1.memOk := hs.congr (by simp [s1])
  split
  · exact State.openWrite_memOk h1 ..
  split
  · exact h1.congr (by simp)
  · split
    · exact h1.congr (by simp)
    · exact h1
@[simp] theorem State.sealFailed_mems (s : State) (p stack region target : Nat) :
    (s.sealFailed p stack region target).mems = s.mems := by
  simp [State.sealFailed]
@[simp] theorem State.loadSealed_mems (s : State) (p : Nat) (b : List (BitVec 8)) (tag : Option (Nat × Nat × Nat)) :
    (s.loadSealed p b tag).1.mems = s.mems := by
  unfold State.loadSealed
  dsimp only
  split
  · rfl
  split
  · simp
  split
  · simp
  · split <;> simp
@[simp] theorem State.stagingError_mems (s : State) (p d : Nat) : (s.stagingError p d).mems = s.mems := by
  simp [State.stagingError]
@[simp] theorem issueStaging_mems (n : Nat) (s : State) : (issueStaging n s).mems = s.mems := by
  induction n generalizing s with
  | zero => rfl
  | succ k ih =>
    unfold issueStaging
    dsimp only
    split
    · rfl
    split
    · rfl
    · split <;> simp [ih]
@[simp] theorem State.fillHalf_mems (s : State) (p h : Nat) : (s.fillHalf p h).mems = s.mems := by
  simp [State.fillHalf]
@[simp] theorem State.stageWords_mems (s : State) (p h d first : Nat) (data : List Line) :
    (s.stageWords p h d first data).mems = s.mems := by simp [State.stageWords]

/-! ### The mapper -/

@[simp] theorem State.recordCal_mems (s : State) (own : HealthRec) : (s.recordCal own).mems = s.mems := by
  simp [State.recordCal]
@[simp] theorem State.failRun_mems (s : State) (r : MapRun) (code : Nat) (loc : CheckLoc) (obj : Nat) :
    (s.failRun r code loc obj).mems = s.mems := by simp [State.failRun]
@[simp] theorem State.enterPhase_mems (s : State) (n : BitVec 3) : (s.enterPhase n).mems = s.mems := by rfl
@[simp] theorem State.agreeRun_mems (s : State) (r : MapRun) (c : JobCtx) : (s.agreeRun r c).mems = s.mems := by
  simp [State.agreeRun]
@[simp] theorem State.checkRun_mems (s : State) (r : MapRun) (c : JobCtx) : (s.checkRun r c).mems = s.mems := by
  unfold State.checkRun
  dsimp only
  split
  · simp
  split
  · simp
  · split <;> simp
@[simp] theorem State.placeRun_mems (s : State) (r : MapRun) (c : JobCtx) : (s.placeRun r c).mems = s.mems := by
  unfold State.placeRun
  split <;> simp
@[simp] theorem State.refreshFabric_mems (s : State) : s.refreshFabric.mems = s.mems := by
  unfold State.refreshFabric
  dsimp only
  split
  · rfl
  · rw [State.mems_foldl fun _ _ => State.modLink_mems ..]
    rfl
@[simp] theorem State.bindTiles_mems (s : State) (p : Nat) : (s.bindTiles p).mems = s.mems :=
  State.mems_foldl (fun _ _ => by split <;> simp) _ _
@[simp] theorem State.keepRunning_mems (s : State) (old : State) (p : Nat) : (s.keepRunning old p).mems = s.mems := by
  simp [State.keepRunning]
/-- A tile as its plan loads it has the words of the preloads (R408). -/
theorem Image.wf_loadTile (i : Image) (l : Nat) (t : Tile) : Memory.wf (i.loadTile l t).mem = true := by
  dsimp only [Image.loadTile]
  exact List.foldlRecOn (motive := fun m => Memory.wf m = true) _ _ Memory.wf_nil fun m hm x _ => Memory.wf_writeLine x.word x.data hm

theorem State.loadTiles_memOk {s : State} (hs : s.memOk) (p : Nat) : (s.loadTiles p).memOk := by
  unfold State.loadTiles
  split
  · exact hs
  · exact hs.foldl (fun s x h => (h.modTile _ fun t _ => Image.wf_loadTile ..).congr (State.modTs_mems ..)) _
@[simp] theorem State.installMapping_mems (s : State) (p : Nat) : (s.installMapping p).mems = s.mems := by
  simp [State.installMapping]
@[simp] theorem State.continueRun_mems (s : State) : s.continueRun.mems = s.mems := by
  unfold State.continueRun
  split <;> simp
@[simp] theorem State.startRun_mems (s : State) (p : Nat) (rebind : Bool) (env : BindEnv) :
    (s.startRun p rebind env).mems = s.mems := by
  cases hr : s.map.run <;> simp [State.startRun, hr]
@[simp] theorem State.restartRun_mems (s : State) (old : BitVec 512) : (s.restartRun old).mems = s.mems := by
  unfold State.restartRun
  split <;> simp

/-! ### Buckets -/

@[simp] theorem State.setBkt_mems (s : State) (c : Nat) (b : Bucket) : (s.setBkt c b).mems = s.mems := by rfl
@[simp] theorem State.ledgerFault_mems (s : State) (p c : Nat) : (s.ledgerFault p c).mems = s.mems := by
  simp [State.ledgerFault]
@[simp] theorem State.changeBkt_mems (s : State) (p c : Nat) (f : Bucket → Bucket) :
    (s.changeBkt p c f).mems = s.mems := by simp [State.changeBkt]
theorem State.budgetOp_mems {s : State} {p op cust : Nat} {val : Int} {r : State × Int} (h : s.budgetOp p op cust val = some r) :
    r.1.mems = s.mems := by
  unfold State.budgetOp at h
  dsimp only at h
  repeat' split at h
  all_goals cases h
  all_goals simp
@[simp] theorem State.budGo_mems (s : State) (p : Nat) : (s.budGo p).mems = s.mems := by rfl
@[simp] theorem State.budOp_mems (s : State) (op : Nat) : (s.budOp op).mems = s.mems := by rfl
@[simp] theorem State.bktSel_mems (s : State) (v : BitVec 32) : (s.bktSel v).mems = s.mems := by rfl

end Sys2Proof.Machine
end
section
/-! The memories are left as they are by the work of a step boundary, which runs on a record `Bnd` that holds the chip as it stands. -/

namespace Sys2Proof.Machine
open Sys2Proof

/-! ### Entries, records and outcomes of a boundary -/

@[simp] theorem State.setEnt_mems (s : State) (i : Nat) (e : Entry) : (s.setEnt i e).mems = s.mems := by rfl
@[simp] theorem State.entrySel_mems (s : State) (v : BitVec 32) : (s.entrySel v).mems = s.mems := by rfl
@[simp] theorem Bnd.log_mems (b : Bnd) (us : List Line) : (b.log us).s.mems = b.s.mems := by rfl
@[simp] theorem Bnd.reply_mems (b : Bnd) (id status : Nat) : (b.reply id status).s.mems = b.s.mems := by simp [Bnd.reply]
@[simp] theorem Bnd.replySub_mems (b : Bnd) (id status : Nat) : (b.replySub id status).s.mems = b.s.mems := by
  simp [Bnd.replySub]
@[simp] theorem Bnd.note_mems (b : Bnd) (c : Nat) (g : Int) (ch : Nat) (sp : Int) :
    (b.note c g ch sp).s.mems = b.s.mems := by rfl
@[simp] theorem Bnd.findMarks_mems (b : Bnd) : b.findMarks.s.mems = b.s.mems := by simp [Bnd.findMarks]
@[simp] theorem Bnd.cancel_mems (b : Bnd) (id : Nat) (waiting : List (BitVec 32 × BitVec 64)) :
    (b.cancel id waiting).s.mems = b.s.mems := by
  unfold Bnd.cancel
  dsimp only
  split
  · simp
  split
  · rfl
  split
  · rfl
  · split <;> simp
@[simp] theorem Bnd.deadline_mems (b : Bnd) (id dl : Nat) : (b.deadline id dl).s.mems = b.s.mems := by
  unfold Bnd.deadline
  split <;> simp
theorem Bnd.budget_mems {b b' : Bnd} {op cust : Nat} {val : Int} (h : b.budget op cust val = some b') :
    b'.s.mems = b.s.mems := by
  obtain ⟨r, hr, rfl⟩ := Option.map_eq_some_iff.mp h
  simp [State.budgetOp_mems hr]
@[simp] theorem Bnd.control_mems (b : Bnd) (r : List (BitVec 8)) (waiting : List (BitVec 32 × BitVec 64)) :
    (b.control r waiting).s.mems = b.s.mems := by
  unfold Bnd.control
  dsimp only
  split
  · split
    next b' h =>
      rw [Option.ite_none_right_eq_some] at h
      simp [Bnd.budget_mems h.2]
    next => simp
  · simp
@[simp] theorem Bnd.logOp_mems (b : Bnd) (op cust val : Nat) : (b.logOp op cust val).s.mems = b.s.mems := by rfl
@[simp] theorem Bnd.operator_mems (b : Bnd) : b.operator.s.mems = b.s.mems := by
  unfold Bnd.operator
  split
  · rfl
  split
  · rfl
  dsimp only
  split
  next h => simp [Bnd.budget_mems h]
  next => simp
@[simp] theorem Bnd.params_mems (b : Bnd) : b.params.s.mems = b.s.mems := by
  unfold Bnd.params
  extract_lets x b1 b2
  split
  · rfl
  have h1 : b1.s.mems = b.s.mems := by
    simp only [b1]
    split <;> rfl
  have h2 : b2.s.mems = b1.s.mems := by
    simp only [b2]
    split <;> rfl
  exact h2.trans h1
@[simp] theorem Bnd.settle_mems (b : Bnd) (rets : List (Slot × Ret)) (i : Nat) (e : Entry) :
    (b.settle rets i e).s.mems = b.s.mems := by
  unfold Bnd.settle
  extract_lets l ret ch c b1 dec e1
  have h : b1.s.mems = b.s.mems := by simp [b1]
  clear_value b1 e1
  split
  · exact h
  · dsimp only
    split
    · exact h
    · exact h
@[simp] theorem Bnd.outcomes_mems (b : Bnd) : b.outcomes.s.mems = b.s.mems := by
  unfold Bnd.outcomes
  dsimp only
  rw [State.modSq_mems, foldl_keeps (fun b : Bnd => b.s.mems) (fun _ _ => Bnd.settle_mems ..)]
  simp
@[simp] theorem Bnd.depths_mems (b : Bnd) : b.depths.s.mems = b.s.mems := by
  unfold Bnd.depths
  extract_lets rets ver seen c
  have hc : c.s.mems = b.s.mems := State.modBd_mems ..
  split
  · exact hc
  · refine (foldl_keeps (fun b : Bnd => b.s.mems) (fun b x => ?_) _ _).trans hc
    dsimp only
    split <;> simp
@[simp] theorem Bnd.spring_mems (b : Bnd) : b.spring.s.mems = b.s.mems :=
  foldl_keeps (fun b : Bnd => b.s.mems) (fun b x => by simp) _ _
@[simp] theorem Bnd.ledger_mems (b : Bnd) : b.ledger.s.mems = b.s.mems := by rfl
@[simp] theorem Bnd.admitOne_mems (b : Bnd) (i : Nat) (x : Submit) : (b.admitOne i x).s.mems = b.s.mems := by rfl
@[simp] theorem Bnd.admitAll_mems (xs : List Submit) (earlier : List Nat) (b : Bnd) :
    (Bnd.admitAll xs earlier b).s.mems = b.s.mems := by
  induction xs generalizing earlier b with
  | nil => rfl
  | cons x xs ih =>
    unfold Bnd.admitAll
    extract_lets id take q mark b' len c prod o room y
    have ht (b : Bnd) : (take b).s.mems = b.s.mems := State.modSq_mems ..
    have hb : b'.s.mems = b.s.mems := by simp [b', ht]
    clear_value take room
    split
    · simp [ih, hb]
    split
    · simp [ih, ht]
    split
    · rfl
    split
    · rfl
    · split <;> simp [ih, ht]

/-! ### The batch of a step -/

theorem Bnd.stringsFit_mems {b b' : Bnd} {set : BitVec 32} {v : Nat} (h : b.stringsFit set = some (v, b')) :
    b'.s.mems = b.s.mems := by
  unfold Bnd.stringsFit at h
  dsimp only at h
  split at h
  · cases h; rfl
  split at h
  · cases h; rfl
  split at h
  · cases h
  split at h
  · cases h
  · cases h; rfl
@[simp] theorem Bnd.pagesFit_mems (b : Bnd) (i upto : Nat) : (b.pagesFit i upto).2.s.mems = b.s.mems := by
  unfold Bnd.pagesFit
  dsimp only
  split
  · simp
  · split <;> simp
@[simp] theorem State.setDeficit_mems (s : State) (c : Nat) (d : Int) : (s.setDeficit c d).mems = s.mems := by rfl
@[simp] theorem Bnd.tryEntry_mems (b : Bnd) (i : Nat) : (b.tryEntry i).s.mems = b.s.mems := by
  unfold Bnd.tryEntry
  dsimp only
  split
  · rfl
  next h => split <;> simp [Bnd.stringsFit_mems h]
@[simp] theorem Bnd.pass_mems (b : Bnd) (xs : List (Nat × Entry)) : (b.pass xs).s.mems = b.s.mems :=
  foldl_keeps (fun b : Bnd => b.s.mems) (fun b x => by simp) _ _
@[simp] theorem Bnd.batch_mems (b : Bnd) (isOpen : Bool) : (b.batch isOpen).s.mems = b.s.mems := by
  unfold Bnd.batch
  dsimp only
  rw [State.mems_foldl fun _ _ => State.setEnt_mems .., State.mems_foldl fun _ _ => State.setDeficit_mems .., Bnd.pass_mems,
    Bnd.pass_mems, Bnd.pass_mems]
  exact State.mems_foldl (fun _ _ => State.setDeficit_mems ..) _ _
@[simp] theorem Bnd.logBatch_mems (b : Bnd) : b.logBatch.s.mems = b.s.mems := by rfl

/-! ### Rings, replies and the boundary as a whole -/

@[simp] theorem Bnd.emit_mems (b : Bnd) (r : ResultRec) : (b.emit r).s.mems = b.s.mems := by simp [Bnd.emit]
@[simp] theorem Bnd.writeOuts_mems (b : Bnd) : b.writeOuts.s.mems = b.s.mems := by
  unfold Bnd.writeOuts
  refine foldl_keeps (fun b : Bnd => b.s.mems) (fun b x => ?_) _ _
  dsimp only
  split
  · simp
  · split <;> simp
@[simp] theorem Bnd.writeReplies_mems (b : Bnd) (rs : List ResultRec) : (b.writeReplies rs).s.mems = b.s.mems :=
  foldl_keeps (fun b : Bnd => b.s.mems) (fun _ _ => by split <;> simp) _ _
@[simp] theorem Bnd.seqWord_mems (b : Bnd) (wrote : Bool) : (b.seqWord wrote).s.mems = b.s.mems := by simp [Bnd.seqWord]
@[simp] theorem Bnd.config_mems (b : Bnd) : b.config.s.mems = b.s.mems := by simp [Bnd.config]
@[simp] theorem Bnd.overrun_mems (b : Bnd) (ring : Nat) : (b.overrun ring).s.mems = b.s.mems := by rfl
@[simp] theorem Bnd.checkRing_mems (b : Bnd) (beyond : Bool) (ring : Nat) :
    (b.checkRing beyond ring).s.mems = b.s.mems := by simp [Bnd.checkRing]
@[simp] theorem Bnd.useCounts_mems (b : Bnd) (ctl sub prompt : Nat) :
    (b.useCounts ctl sub prompt).s.mems = b.s.mems := by rfl
@[simp] theorem Bnd.readCounts_mems (b : Bnd) : b.readCounts.s.mems = b.s.mems := by
  unfold Bnd.readCounts
  dsimp only
  split
  · rfl
  · rw [Bnd.useCounts_mems, Bnd.checkRing_mems, Bnd.checkRing_mems, Bnd.checkRing_mems]
@[simp] theorem State.regionWrite_mems (s : State) (p : Nat) (i : Image) (tick q : Nat) (ws : List (Nat × Line)) :
    (s.regionWrite p i tick q ws).mems = s.mems := by simp [State.regionWrite]
@[simp] theorem State.mailboxes_mems (s : State) (p word : Nat) (data : Line) (q : Nat) :
    (s.mailboxes p word data q).mems = s.mems := by simp [State.mailboxes]
@[simp] theorem State.drawDone_mems (s : State) (tick bound : Nat) : (s.drawDone tick bound).2.mems = s.mems := by rfl
@[simp] theorem State.toPartner_mems (s : State) (copyB : Bool) (p : Packet) :
    (s.toPartner copyB p).mems = s.mems := by simp [State.toPartner]
@[simp] theorem State.sendGroup_mems (s : State) (p : Nat) (i : Image) (sv : Serving) (m : GroupMsg) :
    (s.sendGroup p i sv m).mems = s.mems := by simp [State.sendGroup]
@[simp] theorem State.showAshFree_mems (s : State) : s.showAshFree.mems = s.mems := by
  unfold State.showAshFree
  split <;> simp
@[simp] theorem State.sendBuddy_mems (s : State) (kind p tag : Nat) (us : List Line) :
    (s.sendBuddy kind p tag us).mems = s.mems := by
  unfold State.sendBuddy
  split <;> simp
@[simp] theorem State.appendAsh_mems (s : State) (e : AshEntry) : (s.appendAsh e).mems = s.mems := by
  simp [State.appendAsh]
@[simp] theorem State.recoveryFail_mems (s : State) (reason : Nat) : (s.recoveryFail reason).mems = s.mems := by
  simp [State.recoveryFail]
@[simp] theorem Bnd.endReplay_mems (b : Bnd) (e : AshEntry) : (b.endReplay e).s.mems = b.s.mems := by
  unfold Bnd.endReplay
  extract_lets s1 s2
  have h : s2.mems = b.s.mems := by
    simp only [s2]
    split <;> simp [s1]
  simp [h]
theorem Bnd.mismatch_mems {b : Bnd} {t : State} (h : b.mismatch = some t) : t.mems = b.s.mems := by
  unfold Bnd.mismatch at h
  split at h
  · cases h
  · obtain ⟨x, -, rfl⟩ := Option.map_eq_some_iff.mp h
    simp
theorem Bnd.unreadable_mems {b : Bnd} {t : State} (h : b.unreadable = some t) : t.mems = b.s.mems := by
  unfold Bnd.unreadable at h
  split at h
  · cases h
  · obtain ⟨x, -, rfl⟩ := Option.map_eq_some_iff.mp h
    simp
@[simp] theorem Bnd.settleAll_mems (b : Bnd) : b.settleAll.s.mems = b.s.mems := by
  unfold Bnd.settleAll
  extract_lets b1 waiting b2 b3
  have h1 : b1.s.mems = b.s.mems := by simp [b1]
  have h2 : b2.s.mems = b.s.mems := (foldl_keeps (fun b : Bnd => b.s.mems) (fun _ _ => Bnd.control_mems ..) _ _).trans h1
  have h3 : b3.s.mems = b.s.mems := h2
  clear_value b3
  simp [h3]
@[simp] theorem Bnd.measure_mems (b : Bnd) (clear : Bool) : (b.measure clear).s.mems = b.s.mems := by rfl
@[simp] theorem Bnd.lead_mems (b : Bnd) : b.lead.mems = b.s.mems := by
  unfold Bnd.lead
  extract_lets clear before b1 b2 ok b3 b4 b5 dec b6 b7 b8 m s1 r q s2
  have h2 : b2.s.mems = b.s.mems := by simp [b2, b1]
  have h3 : b3.s.mems = b.s.mems := by simp [b3, h2]
  have h5 : b5.s.mems = b.s.mems := by simp [b5, b4, h3]
  have h7 : b7.s.mems = b.s.mems := by simp [b7, b6, h5]
  have h8 : b8.s.mems = b.s.mems := by
    simp only [b8]
    split <;> simp [h7]
  clear_value b8
  simp [s2, r, s1, h8]
@[simp] theorem State.serveBoundary_mems (s : State) (p n : Nat) (i : Image) (sv : Serving) (tick : Nat)
    (posted : List (Nat × BitVec 8)) : (s.serveBoundary p n i sv tick posted).mems = s.mems := by
  unfold State.serveBoundary
  dsimp only
  split
  · simp
  split
  · simp
  split
  · simp
  split
  next h => simp [Bnd.unreadable_mems h]
  next =>
    split
    next h => simp [Bnd.mismatch_mems h]
    next => simp

end Sys2Proof.Machine
end
section
/-! Recovery, partitions, keys, the other blocks' registers, and a clk of the part: what of them writes or erases memories keeps them
canonical, and the rest leaves them as they are. -/

namespace Sys2Proof.Machine
open Sys2Proof

/-! ### Parts of a tile and of a stack -/

@[simp] theorem Tile.stop_mem (t : Tile) : t.stop.mem = t.mem := by rfl
@[simp] theorem Tile.endWindow_mem (t : Tile) (now : Nat) : (t.endWindow now).mem = t.mem := by
  unfold Tile.endWindow
  split
  · split <;> rfl
  · rfl
@[simp] theorem Stack.clear_ch (y : Stack) (o : Nat) : (y.clear o).ch = y.ch := by
  unfold Stack.clear
  split <;> rfl
@[simp] theorem Stack.warm_ch (y : Stack) (temp : BitVec 8) : (y.warm temp).ch = y.ch := by rfl
@[simp] theorem Stack.cycle_ch (y : Stack) (admits : Bool) : (y.cycle admits).ch = y.ch := by
  unfold Stack.cycle
  split <;> rfl

/-- Writes made one after the other keep the memory canonical. -/
theorem Channel.wf_stores {c : Channel} (h : Memory.wf c.mem = true) (l : List PendWrite) :
    Memory.wf (l.foldl (fun (c : Channel) x => match x.data with
      | some d => c.store x.word d
      | none => c) c).mem = true :=
  List.foldlRecOn (motive := fun c : Channel => Memory.wf c.mem = true) l _ h fun c hc x _ => by
    split
    · exact Channel.wf_store hc ..
    · exact hc

theorem Channel.wf_drain {c : Channel} (h : Memory.wf c.mem = true) : Memory.wf c.drain.mem = true :=
  Channel.wf_stores (c := { c with pend := [] }) h c.pend

theorem Channel.wf_tick {c : Channel} (h : Memory.wf c.mem = true) (g now : Nat) : Memory.wf (Channel.tick g now c).mem = true :=
  Channel.wf_stores h (c.pend.filter fun x => x.due ≤ g)

/-! ### Step replay -/

theorem Image.wf_resetTile (i : Image) (l : Nat) (t : Tile) : Memory.wf (i.resetTile l t).mem = true := by
  dsimp only [Image.resetTile]
  exact Image.wf_loadTile _ l t
/-- A unit reset: its tiles are as the plan loads them (R382). -/
theorem State.resetUnit_memOk {s : State} (hs : s.memOk) (p g : Nat) (i : Image) : (s.resetUnit p g i).memOk := by
  unfold State.resetUnit
  extract_lets s1 s2
  have h1 : s1.memOk := by
    refine hs.foldl (fun s x h => (h.modTile _ fun t _ => ?_).congr (State.modTs_mems ..)) _
    rw [Tile.prime_mem]
    exact Image.wf_resetTile i x.2 t
  have h2 : s2.memOk := h1.congr (State.modSy_mems ..)
  exact h2.congr rfl
@[simp] theorem State.discardDigests_mems (s : State) (p f : Nat) : (s.discardDigests p f).mems = s.mems := by rfl
theorem State.regionNow_memOk {s : State} (hs : s.memOk) (p : Nat) (i : Image) (ws : List (Nat × Line)) : (s.regionNow p i ws).memOk :=
  hs.foldl (fun _ _ h => State.openWrite_memOk h ..) ws
theorem State.replayUnit_memOk {s : State} (hs : s.memOk) (p : Nat) (i : Image) : (s.replayUnit p i).memOk := by
  unfold State.replayUnit
  extract_lets n entry leads g first s1 s2 same src1 src2 s3
  split
  · exact hs.congr (by simp [State.recoveryFail])
  · have h1 : s1.memOk := (State.resetUnit_memOk hs p g i).congr (State.discardDigests_mems ..)
    have h2 : s2.memOk := by
      simp only [s2]
      split
      · exact State.regionNow_memOk h1 ..
      · exact h1
    exact h2.congr (State.modPt_mems s3 ..)
@[simp] theorem State.wantRollback_mems (s : State) (p : Nat) : (s.wantRollback p).mems = s.mems := by rfl
@[simp] theorem State.relaunch_mems (s : State) (p g : Nat) (i : Image) : (s.relaunch p g i).mems = s.mems := by
  unfold State.relaunch
  split <;> simp

/-! ### Checkpoints -/

@[simp] theorem State.ckptArm_mems (s : State) : s.ckptArm.mems = s.mems := by simp [State.ckptArm]
@[simp] theorem State.ackBuddy_mems (s : State) (dest : BitVec 24) (kind part tag : Nat) :
    (s.ackBuddy dest kind part tag).mems = s.mems := by simp [State.ackBuddy]
@[simp] theorem State.sendItem_mems (s : State) (type : Nat) (dest : BitVec 24) (kind part tag : Nat) (us : List Line) :
    (s.sendItem type dest kind part tag us).mems = s.mems := by simp [State.sendItem]

/-! ### Rollback and re-binding -/

@[simp] theorem State.endFaultHold_mems (s : State) : s.endFaultHold.mems = s.mems := by simp [State.endFaultHold]
/-- A plan stopped for its rollback: what was on its way to the stacks is written (R391). -/
theorem State.rollPart_memOk {s : State} (hs : s.memOk) (p : Nat) (i : Image) : (s.rollPart p i).memOk := by
  unfold State.rollPart
  extract_lets s1 s2 s3 s4
  have h1 : s1.memOk := hs.foldl (fun _ x h => h.modPch x fun _ => Channel.wf_drain) _
  have h2 : s2.memOk := (State.resetUnit_memOk h1 p 0 i).congr (State.discardDigests_mems ..)
  exact h2.congr (by simp [s4, s3])
@[simp] theorem State.takeRebound_mems (s : State) (p : Nat) : (s.takeRebound p).mems = s.mems := by
  unfold State.takeRebound
  split <;> simp
theorem State.endByRebind_memOk {s : State} (hs : s.memOk) (p : Nat) : (s.endByRebind p).memOk := by
  unfold State.endByRebind
  extract_lets s1 s2 s3
  have h1 : s1.memOk := hs.congr (State.takeRebound_mems s p)
  have h2 : s2.memOk := (State.rollPart_memOk h1 p ((s1.img p).getD Image.reset)).congr (State.modPt_mems ..)
  have h3 : s3.memOk := h2.congr (State.partEvent_mems ..)
  split
  · exact h3
  · exact h3.congr (State.endFaultHold_mems _)
theorem State.settleRebound_memOk {s : State} (hs : s.memOk) : s.settleRebound.memOk := by
  unfold State.settleRebound
  split
  · exact hs
  refine hs.foldl (fun s p h => ?_) _
  dsimp only
  split
  · exact h
  split
  · exact State.endByRebind_memOk h p
  split
  · exact h.congr (State.takeRebound_mems ..)
  · exact h
theorem State.rollAdvance_memOk {s : State} (hs : s.memOk) : s.rollAdvance.memOk := by
  unfold State.rollAdvance
  extract_lets s1 ps src1 s2 s3 moved src2
  have h1 : s1.memOk := State.settleRebound_memOk hs
  have h2 : s2.memOk := h1.congr (State.mems_foldl State.takeRebound_mems _ _)
  have h3 : s3.memOk := (h2.congr (State.endFaultHold_mems _)).foldl (fun _ p h => State.rollPart_memOk h p _) _
  split
  · exact h1
  split
  · exact h1.congr (by simp)
  split
  · exact h1
  · exact h3.congr (by simp)
/-- The words of a generation written over those that a partition keeps (R391, R393). -/
theorem State.restoreWords_memOk {s : State} (hs : s.memOk) (p : Nat) (i : Image) (ws : List (Nat × Nat × Line)) :
    (s.restoreWords p i ws).memOk := by
  unfold State.restoreWords
  refine State.memOk.foldl (fun s x h => ?_) _ (hs.foldl (fun s x h => h.modPch _ fun c hc => ?_) _)
  · split
    · exact h.modPch _ fun c hc => Channel.wf_store hc ..
    · exact h
  · exact List.foldlRecOn (motive := fun c : Channel => Memory.wf c.mem = true) _ _ hc fun _ h w _ => Channel.wf_store h w 0
@[simp] theorem State.restoreSeq_mems (s : State) (q : CkptSeq) : (s.restoreSeq q).mems = s.mems := by rfl
theorem State.resumePart_mems {s t : State} {p : Nat} {st : BitVec 64} (h : s.resumePart p st = some t) : t.mems = s.mems := by
  unfold State.resumePart at h
  dsimp only at h
  split at h
  · cases h; rfl
  split at h
  · cases h; rfl
  split at h
  · cases h; rfl
  split at h
  · cases h
  · cases h; rfl
theorem State.resumeAll_mems {l : List (Nat × BitVec 64)} {s t : State}
    (h : l.foldl (fun (s : Option State) x => s.bind fun s => s.resumePart x.1 x.2) (some s) = some t) : t.mems = s.mems := by
  induction l generalizing s with
  | nil => cases h; rfl
  | cons x l ih =>
    rw [List.foldl_cons, Option.bind_some] at h
    cases e : s.resumePart x.1 x.2 with
    | none =>
      rw [e, List.foldl_fixed' (fun _ => rfl)] at h
      cases h
    | some s' =>
      rw [e] at h
      exact (ih h).trans (State.resumePart_mems e)
theorem State.restoreGen_memOk {s : State} (hs : s.memOk) (g : CkptGen) : (s.restoreGen g).memOk := by
  unfold State.restoreGen
  extract_lets s1 s2
  have h2 : s2.memOk :=
    (hs.congr (State.mems_foldl State.restoreSeq_mems _ _)).foldl (fun _ x h => State.restoreWords_memOk h ..) _
  split
  · exact h2.congr (by simp [State.recoveryFail])
  next h => exact (h2.congr (State.resumeAll_mems h)).congr (by simp)
@[simp] theorem State.adoptAsh_mems (s : State) (items : List BuddyItem) : (s.adoptAsh items).mems = s.mems := by rfl
theorem State.phase4_memOk {s : State} (hs : s.memOk) : s.phase4.memOk := by
  unfold State.phase4
  dsimp only
  split
  · split
    · exact State.restoreGen_memOk hs _
    · exact hs.congr (by simp)
  split
  · exact hs.congr (by simp)
  split
  · split
    · exact State.restoreGen_memOk (hs.congr (State.adoptAsh_mems ..)) _
    · exact hs.congr (by simp)
  · exact hs.congr (by simp)
theorem State.writeRestoreGen_memOk {s : State} (hs : s.memOk) (v : BitVec 32) : (s.writeRestoreGen v).memOk := by
  unfold State.writeRestoreGen
  extract_lets s0 s1
  have h1 : s1.memOk := State.rollAdvance_memOk (hs.congr (by simp))
  split
  · exact State.phase4_memOk h1
  · exact h1
theorem State.writeRoDone_memOk {s : State} (hs : s.memOk) : s.writeRoDone.memOk := by
  unfold State.writeRoDone
  extract_lets s1 src s2 p
  have h1 : s1.memOk := State.rollAdvance_memOk hs
  have h2 : s2.memOk := h1.congr (by simp [s2])
  split
  · exact h1
  split
  · split
    · split
      · exact h2.congr (State.wantRollback_mems ..)
      · exact State.replayUnit_memOk h2 ..
    · exact h2
  split
  · exact h2.congr (by simp)
  · exact h2

/-! ### Frame ticks and mirror digests -/

@[simp] theorem State.frameWork_mems (s : State) (p : Nat) : (s.frameWork p).mems = s.mems := by
  unfold State.frameWork
  dsimp only
  split <;> simp
@[simp] theorem State.conserve_mems (s : State) (p : Nat) : (s.conserve p).mems = s.mems := by simp [State.conserve]
@[simp] theorem State.sendDigest_mems (s : State) (p : Nat) : (s.sendDigest p).mems = s.mems := by
  unfold State.sendDigest
  split <;> simp
@[simp] theorem State.mirrorDone_mems (s : State) (f : BitVec 32) : (s.mirrorDone f).mems = s.mems := by rfl
@[simp] theorem State.mirrorDiffers_mems (s : State) (p : Nat) (f : BitVec 32) :
    (s.mirrorDiffers p f).mems = s.mems := by simp [State.mirrorDiffers]

/-! ### Partitions, Wings and Curtains -/

@[simp] theorem State.checkEnable_mems (s : State) (p : Nat) : (s.checkEnable p).mems = s.mems := by
  unfold State.checkEnable
  dsimp only
  split <;> simp
@[simp] theorem State.enable_mems (s : State) (p : Nat) : (s.enable p).mems = s.mems := by simp [State.enable]
@[simp] theorem State.partEnable_mems (s : State) (p : Nat) : (s.partEnable p).mems = s.mems := by simp [State.partEnable]
@[simp] theorem State.syncCheck_mems (s : State) (p : Nat) : (s.syncCheck p).mems = s.mems := by
  unfold State.syncCheck
  dsimp only
  split <;> simp
@[simp] theorem State.dropRun_mems (s : State) (p : Nat) (wingsOnly : Bool) :
    (s.dropRun p wingsOnly).mems = s.mems := by
  unfold State.dropRun
  split <;> simp
@[simp] theorem State.emptyPools_mems (s : State) (p : Nat) : (s.emptyPools p).mems = s.mems := by rfl
@[simp] theorem State.clearTables_mems (s : State) (p : Nat) : (s.clearTables p).mems = s.mems := by rfl
@[simp] theorem State.leaveJob_mems (s : State) : s.leaveJob.mems = s.mems := by simp [State.leaveJob]
@[simp] theorem State.beginScrub_mems (s : State) (p : Nat) : (s.beginScrub p).mems = s.mems := by
  simp [State.beginScrub]
@[simp] theorem State.partDisable_mems (s : State) (p : Nat) : (s.partDisable p).mems = s.mems := by
  simp [State.partDisable]
@[simp] theorem State.scrubFailed_mems (s : State) (p k c : Nat) : (s.scrubFailed p k c).mems = s.mems := by
  simp [State.scrubFailed]
/-- Tiles and pseudo-channels erased (R410). -/
theorem State.erase_memOk {s : State} (hs : s.memOk) (p : Nat) : (s.erase p).memOk := by
  unfold State.erase
  refine State.memOk.foldl (fun s k h => h.foldl (fun s c h => h.modChan k c fun _ _ => Memory.wf_nil) _) _ ?_
  exact hs.foldl (fun _ t h => h.modTile t fun _ _ => Memory.wf_nil) _
@[simp] theorem State.retryWaiting_mems (s : State) : s.retryWaiting.mems = s.mems :=
  State.mems_foldl (fun _ _ => by split <;> simp) _ _
@[simp] theorem State.beginLoad_mems (s : State) (p : Nat) : (s.beginLoad p).mems = s.mems := by simp [State.beginLoad]
@[simp] theorem State.wingsGo_mems (s : State) (p : Nat) : (s.wingsGo p).mems = s.mems := by simp [State.wingsGo]
@[simp] theorem State.loadFailed_mems (s : State) (p : Nat) (cpl : Bool) : (s.loadFailed p cpl).mems = s.mems := by
  simp [State.loadFailed]
@[simp] theorem State.resetRequests_mems (s : State) (p : Nat) : (s.resetRequests p).mems = s.mems := by rfl
@[simp] theorem State.lastBoundary_mems (s : State) (p : Nat) (i : Image) (sv : Serving) :
    (s.lastBoundary p i sv).mems = s.mems := by
  unfold State.lastBoundary
  extract_lets b
  split
  next h => exact Bnd.mismatch_mems h
  next => exact Bnd.outcomes_mems b
@[simp] theorem State.endServing_mems (s : State) (p : Nat) : (s.endServing p).mems = s.mems := by
  unfold State.endServing
  split <;> simp
@[simp] theorem State.keepReturns_mems (s : State) (p : Nat) : (s.keepReturns p).mems = s.mems := by
  unfold State.keepReturns
  split
  · rfl
  · split <;> simp
theorem State.writeProfiles_memOk {s : State} (hs : s.memOk) (p : Nat) : (s.writeProfiles p).memOk := by
  unfold State.writeProfiles
  dsimp only
  split
  · split
    · exact State.regionNow_memOk hs ..
    · exact hs
  · exact hs
@[simp] theorem State.exchange_mems (s : State) (p : Nat) : (s.exchange p).mems = s.mems := by simp [State.exchange]
theorem State.curtainNow_memOk {s : State} (hs : s.memOk) (p : Nat) : (s.curtainNow p).memOk :=
  State.writeProfiles_memOk (State.loadTiles_memOk (hs.congr (by simp)) p) p
theorem State.paramCurtain_memOk {s : State} (hs : s.memOk) (p : Nat) : (s.paramCurtain p).memOk :=
  State.writeProfiles_memOk (hs.congr (by simp)) p
@[simp] theorem State.primeTiles_mems (s : State) (p g : Nat) : (s.primeTiles p g).mems = s.mems := by
  simp [State.primeTiles]
theorem State.imageCurtain_memOk {s : State} (hs : s.memOk) (p c : Nat) : (s.imageCurtain p c).memOk := by
  unfold State.imageCurtain
  extract_lets f n s1 s2 s3 us s4 s5
  have h4 : s4.memOk := hs.congr (by simp [s4, s3, s2, s1])
  have h5 : s5.memOk :=
    (State.writeProfiles_memOk (State.loadTiles_memOk (h4.congr (State.installMapping_mems ..)) p) p).congr (State.primeTiles_mems ..)
  exact h5.congr (by simp)
@[simp] theorem State.rejectCurtain_mems (s : State) (p tick : Nat) : (s.rejectCurtain p tick).mems = s.mems := by rfl
theorem State.curtainArm_memOk {s : State} (hs : s.memOk) (p : Nat) : (s.curtainArm p).memOk := by
  unfold State.curtainArm
  dsimp only
  split
  · exact hs.congr (State.rejectCurtain_mems ..)
  split
  · exact State.curtainNow_memOk hs p
  split
  · exact hs.congr (State.rejectCurtain_mems ..)
  · exact hs.congr (by simp)
@[simp] theorem State.curtainOpen_mems (s : State) (p : Nat) (x : Nat × Nat × Option Nat) :
    (s.curtainOpen p x).mems = s.mems := by simp [State.curtainOpen]

/-! ### Keys and reports -/

@[simp] theorem State.makeReport_mems (s : State) (p : Option Nat) : (s.makeReport p).mems = s.mems := by
  unfold State.makeReport
  split <;> simp
@[simp] theorem State.requestReport_mems (s : State) : s.requestReport.mems = s.mems := by simp [State.requestReport]
@[simp] theorem State.installKey_mems (s : State) (p slot : Nat) (key : BitVec 256) :
    (s.installKey p slot key).mems = s.mems := by simp [State.installKey]
@[simp] theorem State.installMgmt_mems (s : State) (epoch : BitVec 32) (key : BitVec 256) :
    (s.installMgmt epoch key).mems = s.mems := by rfl
@[simp] theorem State.deliver_mems (s : State) : s.deliver.mems = s.mems := by
  unfold State.deliver
  dsimp only
  split <;> simp
@[simp] theorem State.promote_mems (s : State) : s.promote.mems = s.mems := by
  unfold State.promote
  split <;> simp
@[simp] theorem State.writeMgmtTx_mems (s : State) (v : BitVec 32) : (s.writeMgmtTx v).mems = s.mems := by
  simp [State.writeMgmtTx]

/-! ### Power states -/

@[simp] theorem State.enterD3_mems (s : State) : s.enterD3.mems = s.mems := by rfl

/-! ### The service port and boot records -/

@[simp] theorem State.sendFrame_mems (s : State) (f : EthFrame) : (s.sendFrame f).mems = s.mems := by rfl
@[simp] theorem State.dropFrame_mems (s : State) : s.dropFrame.mems = s.mems := by rfl
@[simp] theorem State.popPtp_mems (s : State) : s.popPtp.mems = s.mems := by rfl
@[simp] theorem State.jtag_mems (s : State) (ir : JtagIr) (dr : BitVec 32) : (s.jtag ir dr).mems = s.mems := by rfl
@[simp] theorem State.updateRec_mems (s : State) (f : BootRec → BootRec) : (s.updateRec f).mems = s.mems := by
  unfold State.updateRec
  split <;> simp
@[simp] theorem State.pickSlot_mems (s : State) (r : BootRec) : (s.pickSlot r).2.mems = s.mems := by
  unfold State.pickSlot
  extract_lets act s' p
  have h : p.2.mems = s.mems := by
    simp only [p, s']
    split
    · simp
    · split <;> simp
  clear_value p
  split <;> simp [h]
@[simp] theorem State.pickFresh_mems (s : State) : s.pickFresh.2.mems = s.mems := by rfl

/-! ### The time unit -/

@[simp] theorem State.incRejected_mems (s : State) : s.incRejected.mems = s.mems := by rfl
@[simp] theorem State.modDom_mems (s : State) (b : Bool) (f : Domain → Domain) : (s.modDom b f).mems = s.mems := by rfl
@[simp] theorem State.incCommit_mems (s : State) (dom : Bool) (val : BitVec 32) :
    (s.incCommit dom val).mems = s.mems := by simp [State.incCommit]
@[simp] theorem State.adjust_mems (s : State) : s.adjust.mems = s.mems := by simp [State.adjust]
@[simp] theorem State.setDomain_mems (s : State) (dom : Bool) : (s.setDomain dom).mems = s.mems := by rfl
@[simp] theorem State.ppsLow_mems (s : State) : s.ppsLow.mems = s.mems := by rfl
@[simp] theorem State.modTrig_mems (s : State) (j : Nat) (f : Trigger → Trigger) : (s.modTrig j f).mems = s.mems := by rfl
@[simp] theorem State.armTrigger_mems (s : State) (j : Nat) : (s.armTrigger j).mems = s.mems := by simp [State.armTrigger]
@[simp] theorem State.writeTrigger_mems (s : State) (val : BitVec 32) : (s.writeTrigger val).mems = s.mems := by
  simp [State.writeTrigger]
@[simp] theorem State.fireTrigger_mems (s : State) (j action : Nat) (refused : Bool) :
    (s.fireTrigger j action refused).mems = s.mems := by simp [State.fireTrigger]
@[simp] theorem State.popTimeLog_mems (s : State) : s.popTimeLog.mems = s.mems := by rfl

/-! ### Check-value units -/

@[simp] theorem State.crcGo_mems (s : State) (u : Nat) (check : Bool) : (s.crcGo u check).mems = s.mems := by
  simp [State.crcGo]

/-! ### Snapshots and the fault log -/

@[simp] theorem State.takeSnap_mems (s : State) (tick : Bool) : (s.takeSnap tick).mems = s.mems := by rfl
@[simp] theorem State.armSnap_mems (s : State) : s.armSnap.mems = s.mems := by simp [State.armSnap]
@[simp] theorem State.clearFaults_mems (s : State) : s.clearFaults.mems = s.mems := by rfl
@[simp] theorem State.popFault_mems (s : State) : s.popFault.mems = s.mems := by rfl

/-! ### Registers -/

@[simp] theorem State.writeTop_mems (s : State) (o : Nat) (v : BitVec 32) : (s.writeTop o v).mems = s.mems := by
  unfold State.writeTop
  split <;> simp
@[simp] theorem State.writeClk_mems (s : State) (o : Nat) (v : BitVec 32) : (s.writeClk o v).mems = s.mems := by
  unfold State.writeClk
  split <;> simp
@[simp] theorem State.writeTimeCtrl_mems (s : State) (v : BitVec 32) : (s.writeTimeCtrl v).mems = s.mems := by
  simp [State.writeTimeCtrl]
@[simp] theorem State.writeTime_mems (s : State) (o : Nat) (v : BitVec 32) : (s.writeTime o v).mems = s.mems := by
  unfold State.writeTime
  dsimp only
  split
  case h_14 => rfl  -- PPS_WIDTH, whose bound of 999,999 `simp` would evaluate
  all_goals simp
@[simp] theorem State.writeSec_mems (s : State) (o : Nat) (v : BitVec 32) : (s.writeSec o v).mems = s.mems := by
  unfold State.writeSec
  split <;> simp
@[simp] theorem State.writeSnap_mems (s : State) (o : Nat) (v : BitVec 32) : (s.writeSnap o v).mems = s.mems := by
  unfold State.writeSnap
  split <;> simp
@[simp] theorem State.writePlan_mems (s : State) (o : Nat) (v : BitVec 32) : (s.writePlan o v).mems = s.mems := by
  unfold State.writePlan
  split <;> simp
@[simp] theorem State.writeMapCtrl_mems (s : State) (v : BitVec 32) : (s.writeMapCtrl v).mems = s.mems := by
  simp [State.writeMapCtrl]
@[simp] theorem State.writeMap_mems (s : State) (o : Nat) (v : BitVec 32) : (s.writeMap o v).mems = s.mems := by
  unfold State.writeMap
  split <;> simp
@[simp] theorem State.writeSeqCtl_mems (s : State)
    (f : Bool × Bool × BitVec 16 × BitVec 16 → Bool × Bool × BitVec 16 × BitVec 16) :
    (s.writeSeqCtl f).mems = s.mems := by rfl
@[simp] theorem State.writeSeq_mems (s : State) (o : Nat) (v : BitVec 32) : (s.writeSeq o v).mems = s.mems := by
  unfold State.writeSeq
  split <;> simp
@[simp] theorem State.writeBud_mems (s : State) (o : Nat) (v : BitVec 32) : (s.writeBud o v).mems = s.mems := by
  unfold State.writeBud
  split <;> simp
@[simp] theorem State.writeSync_mems (s : State) (o : Nat) (v : BitVec 32) : (s.writeSync o v).mems = s.mems := by
  unfold State.writeSync
  split <;> simp
@[simp] theorem State.clearErFlags_mems (s : State) (m : Nat) (v : BitVec 32) : (s.clearErFlags m v).mems = s.mems := by
  simp [State.clearErFlags]
theorem State.writeDig_memOk {s : State} (hs : s.memOk) (o : Nat) (v : BitVec 32) : (s.writeDig o v).memOk := by
  unfold State.writeDig
  dsimp only
  split
  case h_4 =>   -- RO_DONE
    split
    · exact State.writeRoDone_memOk hs
    · exact hs
  case h_9 => exact State.writeRestoreGen_memOk hs v
  all_goals exact hs.congr (by simp)
@[simp] theorem State.writeRes_mems (s : State) (f : PartRes → PartRes) : (s.writeRes f).mems = s.mems := by rfl
theorem State.writePartCtrl_memOk {s : State} (hs : s.memOk) (p : Nat) (v : BitVec 32) : (s.writePartCtrl p v).memOk := by
  unfold State.writePartCtrl
  extract_lets s1 s2
  have h2 : s2.memOk := hs.congr (by simp [s2, s1])
  split
  · exact State.curtainArm_memOk h2 p
  · exact h2
theorem State.writePart_memOk {s : State} (hs : s.memOk) (o : Nat) (v : BitVec 32) : (s.writePart o v).memOk := by
  unfold State.writePart
  dsimp only
  split
  case h_2 => exact State.writePartCtrl_memOk hs ..
  all_goals exact hs.congr (by simp)
@[simp] theorem State.writeLnkCtrl_mems (s : State) (n : Nat) (v : BitVec 32) :
    (s.writeLnkCtrl n v).mems = s.mems := by simp [State.writeLnkCtrl]
@[simp] theorem State.writeLnk_mems (s : State) (n o : Nat) (v : BitVec 32) : (s.writeLnk n o v).mems = s.mems := by
  unfold State.writeLnk
  split <;> simp
@[simp] theorem State.writeStk_mems (s : State) (k o : Nat) (v : BitVec 32) : (s.writeStk k o v).mems = s.mems := by
  unfold State.writeStk
  split <;> simp
@[simp] theorem State.writePcie_mems (s : State) (o : Nat) (v : BitVec 32) : (s.writePcie o v).mems = s.mems := by
  unfold State.writePcie
  split <;> simp
@[simp] theorem State.writeSvc_mems (s : State) (o : Nat) (v : BitVec 32) : (s.writeSvc o v).mems = s.mems := by
  unfold State.writeSvc
  split <;> simp
@[simp] theorem State.writeTile_mems (s : State) (n o : Nat) (v : BitVec 32) : (s.writeTile n o v).mems = s.mems := by
  unfold State.writeTile
  split
  · rfl
  split
  · simp
  · split <;> simp
@[simp] theorem State.readClears_mems (s : State) (k o : Nat) : (s.readClears k o).mems = s.mems := by
  unfold State.readClears
  split <;> simp
@[simp] theorem State.afterRead_mems (s : State) (off : Nat) : (s.afterRead off).mems = s.mems := by
  unfold State.afterRead
  dsimp only
  split
  · split <;> rfl
  split
  · rfl
  split
  · exact State.modStk_mems _ _ fun y => congrArg (·.map Channel.mem) (Stack.clear_ch ..)
  split
  · rfl
  split
  · split <;> rfl
  split
  · split
    · rfl
    split
    · exact State.modTile_mems _ _ fun _ => rfl
    · exact State.modTile_mems _ _ fun _ => rfl
    · split
      · exact State.winRead_mems ..
      · rfl
  · exact State.readClears_mems ..
@[simp] theorem State.deliverRead_mems (s : State) (v : BitVec 32) : (s.deliverRead v).mems = s.mems := by rfl
@[simp] theorem State.portRead_mems (s : State) (off : Nat) : (s.portRead off).mems = s.mems := by
  simp [State.portRead]
@[simp] theorem State.writeFn_mems (s : State) (f o : Nat) (v : BitVec 32) : (s.writeFn f o v).mems = s.mems := by
  unfold State.writeFn
  split <;> simp
theorem State.access_mems (s : State) (off : Nat) (write : Bool) {f : State → State} (h : (f s).mems = s.mems) :
    (s.access off write f).mems = s.mems := by
  simp [State.access, h]

/-! ### Sensors and alerts -/

@[simp] theorem State.alert_mems (s : State) : s.alert.mems = s.mems := by rfl
@[simp] theorem State.dropPorts_mems (s : State) : s.dropPorts.mems = s.mems := by simp [State.dropPorts]
@[simp] theorem State.sense_mems (s : State) (sensor : Nat) (temp : BitVec 8) :
    (s.sense sensor temp).mems = s.mems := by simp [State.sense]

/-! ### One clk -/

@[simp] theorem State.countClk_mems (s : State) : s.countClk.mems = s.mems := by rfl
/-- The end of a clk: planned writes to the stacks that are due (R188). -/
theorem State.landAll_memOk {s : State} (hs : s.memOk) (ran : Bool) : (s.landAll ran).memOk := by
  unfold State.landAll
  extract_lets g admits s1
  have h1 : s1.memOk := by
    refine ⟨fun i hi => ?_, fun k c hk hc => ?_⟩
    · rw [show s1.tile i = (s.tile i).endPc.endWindow s.wall from vget_map _ (fun t : Tile => t.endPc.endWindow s.wall) hi _]
      rw [Tile.endWindow_mem, Tile.endPc_mem]
      exact hs.1 i hi
    · have hstk : s1.stk k = { (s.stk k).cycle admits with ch := (s.stk k).ch.map (Channel.tick g s.wall) } := vget_map _ _ hk _
      rw [State.chan, hstk, vget_map _ _ hc]
      exact Channel.wf_tick (hs.2 k c hk hc) g s.wall
  exact h1.congr (by simp [State.endUses])
@[simp] theorem State.replayNext_mems (s : State) (n : Nat) : (s.replayNext n).mems = s.mems := by
  unfold State.replayNext
  dsimp only
  split
  · rfl
  split
  · rfl
  split
  · simp
  split
  · split <;> simp
  · simp
@[simp] theorem State.linksClk_mems (s : State) : s.linksClk.mems = s.mems := by simp [State.linksClk]
@[simp] theorem State.timeClk_mems (s : State) : s.timeClk.mems = s.mems := by simp [State.timeClk]
@[simp] theorem State.flrClk_mems (s : State) : s.flrClk.mems = s.mems := by rfl
/-- A clk keeps the memories canonical. -/
theorem State.tick_memOk {s : State} (hs : s.memOk) : s.tick.memOk := by
  unfold State.tick
  split
  · exact hs
  extract_lets s1 s2 ran s3 s4 s5 s6
  have h3 : s3.memOk := hs.congr (by simp [s3, s2, s1])
  have h4 : s4.memOk := by
    refine State.memOk.congr ?_ (State.countClk_mems _)
    split
    · exact State.runPc_memOk h3
    · exact h3
  have h5 : s5.memOk := (State.landAll_memOk h4 ran).congr (State.freePools_mems _)
  exact State.rollAdvance_memOk (h5.congr (by simp [s6]))

end Sys2Proof.Machine
end
section
/-! The commands outside the tile instructions, reset, boot, update and register writes: most leave the memories as they are, and
those that write or erase memories keep them canonical (`MemsKept`). -/

namespace Sys2Proof.Machine
open Sys2Proof

/-- The memories after a command that answers a next state. -/
def memsAfter : Host.Outcome State Fault Refusal → Option (Vector (List Host.Cell) 160 × Vector (Vector (List Host.Cell) 32) 8)
  | .next t => some t.mems
  | _ => none

@[simp] theorem memsAfter_next (t : State) : memsAfter (.next t) = some t.mems := by rfl

@[simp] theorem memsAfter_ite (c : Prop) [Decidable c] (a b : Host.Outcome State Fault Refusal) :
    memsAfter (if c then a else b) = if c then memsAfter a else memsAfter b := apply_ite ..

/-- Every next state that a command answers has its memories canonical where `s` has. -/
def MemsKept (s : State) (o : Host.Outcome State Fault Refusal) : Prop := ∀ t : State, o = .next t → s.memOk → t.memOk

theorem MemsKept.of_mems {s : State} {o : Host.Outcome State Fault Refusal} (h : memsAfter o = some s.mems) : MemsKept s o := by
  rintro t rfl hs
  exact hs.congr (Option.some.inj h)

theorem MemsKept.next {s t : State} (h : s.memOk → t.memOk) : MemsKept s (.next t) := by
  rintro _ ⟨⟩
  exact h

theorem MemsKept.same (s : State) : MemsKept s (.next s) := .next id

theorem MemsKept.of_eq {s t : State} (h : t.mems = s.mems) : MemsKept s (.next t) := .next fun hs => hs.congr h

theorem State.memOk.ifReady {s : State} {f : State → State} (hf : s.memOk → (f s).memOk) (hs : s.memOk) : (s.ifReady f).memOk := by
  unfold State.ifReady
  split
  · exact hf hs
  · exact hs

/-! ### Watches and barriers -/

@[simp] theorem execWatchFire_mems (t : TileId) (wake : WordIx) (s : State) :
    memsAfter (execWatchFire t wake s) = some s.mems := by
  unfold execWatchFire
  split <;> simp
@[simp] theorem execWakeWrite_mems (t : TileId) (wake : WordIx) (s : State) :
    memsAfter (execWakeWrite t wake s) = some s.mems := by
  unfold execWakeWrite
  split <;> simp
@[simp] theorem execWatchTimeout_mems (t : TileId) (wake : WordIx) (s : State) :
    memsAfter (execWatchTimeout t wake s) = some s.mems := by
  unfold execWatchTimeout
  split <;> simp
@[simp] theorem execBarrierCompletionWrite_mems (p : PartId) (b : BarIx) (s : State) :
    memsAfter (execBarrierCompletionWrite p b s) = some s.mems := by
  unfold execBarrierCompletionWrite
  split
  · exact congrArg some (State.mems_foldl (fun _ _ => by split <;> simp) _ _)
  · rfl
@[simp] theorem execBarrierArrive_mems (s : State) : memsAfter (execBarrierArrive s) = some s.mems := by
  unfold execBarrierArrive
  dsimp only
  split
  · rfl
  split
  · simp
  · split <;> simp
@[simp] theorem execBarrierRelease_mems (s : State) : memsAfter (execBarrierRelease s) = some s.mems := by
  unfold execBarrierRelease
  dsimp only
  split
  · rfl
  split
  · simp
  · split <;> simp
@[simp] theorem execBarrierTimeout_mems (p : PartId) (b : BarIx) (s : State) :
    memsAfter (execBarrierTimeout p b s) = some s.mems := by
  unfold execBarrierTimeout
  split <;> simp
@[simp] theorem execErFlagWordSet_mems (t : TileId) (s : State) : memsAfter (execErFlagWordSet t s) = some s.mems := by
  unfold execErFlagWordSet
  dsimp only
  split
  · split <;> simp
  · rfl

/-! ### Fetch, parity and windows of the tiles -/

@[simp] theorem execInstructionFetch_mems (t : TileId) (e : Eng) (s : State) :
    memsAfter (execInstructionFetch t e s) = some s.mems := by simp [execInstructionFetch]
theorem execParityReplay_memsKept (t : TileId) (ev : ParityEv) (s : State) : MemsKept s (execParityReplay t ev s) := by
  unfold execParityReplay
  split
  · exact .of_eq (State.parityDetect_mems ..)
  · exact .next fun hs => State.parityFinish_memOk hs ..
@[simp] theorem execTileEccWriteback_mems (t : TileId) (word : WordIx) (s : State) :
    memsAfter (execTileEccWriteback t word s) = some s.mems := by simp [execTileEccWriteback]
@[simp] theorem execTileScrubRead_mems (t : TileId) (bank : BankIx) (s : State) :
    memsAfter (execTileScrubRead t bank s) = some s.mems := by simp [execTileScrubRead]
@[simp] theorem execTileWinRead_mems (t : TileId) (off : BitVec 12) (dbl : Bool) (s : State) :
    memsAfter (execTileWinRead t off dbl s) = some s.mems := by simp [execTileWinRead]
@[simp] theorem execTileWinWrite_mems (t : TileId) (off : BitVec 12) (val : BitVec 64) (dbl : Bool) (s : State) :
    memsAfter (execTileWinWrite t off val dbl s) = some s.mems := by simp [execTileWinWrite]
@[simp] theorem execTileFeSet_mems (t : TileId) (mask : BitVec 32) (s : State) :
    memsAfter (execTileFeSet t mask s) = some s.mems := by simp [execTileFeSet]
@[simp] theorem execTileFeClr_mems (t : TileId) (mask : BitVec 32) (s : State) :
    memsAfter (execTileFeClr t mask s) = some s.mems := by simp [execTileFeClr]
theorem execTileWinAccess_memsKept (t : TileId) (s : State) : MemsKept s (execTileWinAccess t s) := by
  unfold execTileWinAccess
  dsimp only
  split
  · exact .same s
  next r _ _ =>
    have hserve (left : Nat) (holds : Bool) (hs : s.memOk) : ((s.serveWindow t r).beginWindow t left holds).memOk :=
      (State.serveWindow_memOk hs t r).congr (State.beginWindow_mems ..)
    split
    · exact .same s
    split
    · exact .next (hserve 4 false)
    split
    · split
      · exact .next fun hs => (State.serveWindow_memOk (hs.congr (State.takeWindow_mems ..)) t r).congr (State.beginWindow_mems ..)
      · exact .same s
    split
    · exact .next (hserve 4 true)
    split
    · exact .same s
    · exact .of_eq (State.modTile_mems _ _ fun _ => rfl)

/-! ### Plan time -/

@[simp] theorem execHoldSymbol_mems (n : PortId) (unit : BitVec 64) (cause : BitVec 4) (s : State) :
    memsAfter (execHoldSymbol n unit cause s) = some s.mems := by simp [execHoldSymbol]
@[simp] theorem execReleaseSymbol_mems (n : PortId) (unit : BitVec 64) (s : State) :
    memsAfter (execReleaseSymbol n unit s) = some s.mems := by simp [execReleaseSymbol]
@[simp] theorem execHoldApply_mems (origin : BitVec 24) (num : BitVec 8) (s : State) :
    memsAfter (execHoldApply origin num s) = some s.mems := by
  unfold execHoldApply
  split <;> simp
@[simp] theorem execReleaseApply_mems (origin : BitVec 24) (num : BitVec 8) (s : State) :
    memsAfter (execReleaseApply origin num s) = some s.mems := by
  unfold execReleaseApply
  split <;> simp
@[simp] theorem execEpisodeRelease_mems (s : State) : memsAfter (execEpisodeRelease s) = some s.mems := by
  simp [execEpisodeRelease]
@[simp] theorem execCounterResume_mems (s : State) : memsAfter (execCounterResume s) = some s.mems := by
  simp [execCounterResume]
@[simp] theorem execHoldLimit_mems (origin : BitVec 24) (num : BitVec 8) (s : State) :
    memsAfter (execHoldLimit origin num s) = some s.mems := by
  unfold execHoldLimit
  split <;> simp
@[simp] theorem execHoldLimitWrite_mems (val : BitVec 32) (s : State) :
    memsAfter (execHoldLimitWrite val s) = some s.mems := by simp [execHoldLimitWrite]
@[simp] theorem execThrottleEval_mems (tj : BitVec 8) (s : State) : memsAfter (execThrottleEval tj s) = some s.mems := by
  simp [execThrottleEval]
@[simp] theorem execThermalHoldEnd_mems (s : State) : memsAfter (execThermalHoldEnd s) = some s.mems := by
  unfold execThermalHoldEnd
  split <;> simp
@[simp] theorem execThrottleWrite_mems (val : BitVec 32) (s : State) :
    memsAfter (execThrottleWrite val s) = some s.mems := by simp [execThrottleWrite]
@[simp] theorem execAlignStart_mems (s : State) : memsAfter (execAlignStart s) = some s.mems := by simp [execAlignStart]
@[simp] theorem execAlignSymbol_mems (n : PortId) (unit lo hi : BitVec 64) (s : State) :
    memsAfter (execAlignSymbol n unit lo hi s) = some s.mems := by simp [execAlignSymbol]
@[simp] theorem execLaunchArm_mems (s : State) : memsAfter (execLaunchArm s) = some s.mems := by simp [execLaunchArm]
@[simp] theorem execLaunch_mems (s : State) : memsAfter (execLaunch s) = some s.mems := by
  unfold execLaunch
  split <;> simp
@[simp] theorem execBarrierSymbol_mems (n : PortId) (unit lo hi : BitVec 64) (s : State) :
    memsAfter (execBarrierSymbol n unit lo hi s) = some s.mems := by simp [execBarrierSymbol]
@[simp] theorem execLaunchBarrierRelease_mems (s : State) : memsAfter (execLaunchBarrierRelease s) = some s.mems := by
  unfold execLaunchBarrierRelease
  split <;> simp
@[simp] theorem execStepArm_mems (s : State) : memsAfter (execStepArm s) = some s.mems := by simp [execStepArm]
@[simp] theorem execStepSwitch_mems (s : State) : memsAfter (execStepSwitch s) = some s.mems := by
  unfold execStepSwitch
  split <;> simp
@[simp] theorem execStepSwitchEnd_mems (s : State) : memsAfter (execStepSwitchEnd s) = some s.mems := by
  unfold execStepSwitchEnd
  split <;> simp

/-! ### The fabric -/

@[simp] theorem execPSlotStart_mems (n : PortId) (s : State) : memsAfter (execPSlotStart n s) = some s.mems := by
  unfold execPSlotStart
  dsimp only
  split
  · rfl
  split
  · rfl
  · split <;> simp
@[simp] theorem execRelayTransmit_mems (n : PortId) (s : State) : memsAfter (execRelayTransmit n s) = some s.mems := by
  unfold execRelayTransmit
  split <;> simp
@[simp] theorem execOpenPacketTransmit_mems (n : PortId) (s : State) :
    memsAfter (execOpenPacketTransmit n s) = some s.mems := by
  unfold execOpenPacketTransmit
  dsimp only
  split
  · rfl
  · split <;> simp
@[simp] theorem execPPacketReceive_mems (n : PortId) (s : State) : memsAfter (execPPacketReceive n s) = some s.mems := by
  unfold execPPacketReceive
  split <;> simp
@[simp] theorem execOpenPacketReceive_mems (n : PortId) (s : State) :
    memsAfter (execOpenPacketReceive n s) = some s.mems := by
  unfold execOpenPacketReceive
  split <;> simp
@[simp] theorem execFlatDataWrite_mems (val : BitVec 32) (s : State) :
    memsAfter (execFlatDataWrite val s) = some s.mems := by simp [execFlatDataWrite]
@[simp] theorem execFlow_mems (n : PortId) (val : BitVec 16) (s : State) : memsAfter (execFlow n val s) = some s.mems := by
  simp [execFlow]
@[simp] theorem execFlowRefresh_mems (n : PortId) (s : State) : memsAfter (execFlowRefresh n s) = some s.mems := by
  simp [execFlowRefresh]
@[simp] theorem execVentMessage_mems (s : State) : memsAfter (execVentMessage s) = some s.mems := by
  unfold execVentMessage
  dsimp only
  split
  · rfl
  · split <;> simp
@[simp] theorem execVentAck_mems (msgId : BitVec 32) (s : State) : memsAfter (execVentAck msgId s) = some s.mems := by
  unfold execVentAck
  split <;> simp
@[simp] theorem execVentRetryTimeout_mems (msgId : BitVec 32) (s : State) :
    memsAfter (execVentRetryTimeout msgId s) = some s.mems := by
  unfold execVentRetryTimeout
  split <;> simp

/-! ### Ports -/

@[simp] theorem execAck_mems (n : PortId) (val : BitVec 16) (s : State) : memsAfter (execAck n val s) = some s.mems := by
  unfold execAck
  dsimp only
  split
  · rfl
  · split <;> simp
@[simp] theorem execNak_mems (n : PortId) (val : BitVec 16) (s : State) : memsAfter (execNak n val s) = some s.mems := by
  unfold execNak
  dsimp only
  split
  · rfl
  · split <;> simp
@[simp] theorem execReplay_mems (n : PortId) (val : BitVec 16) (s : State) :
    memsAfter (execReplay n val s) = some s.mems := by simp [execReplay]
@[simp] theorem execLinkPacketCheck_mems (n : PortId) (pkt : Packet) (s : State) :
    memsAfter (execLinkPacketCheck n pkt s) = some s.mems := by simp [execLinkPacketCheck]
@[simp] theorem execAckTimerExpiry_mems (n : PortId) (s : State) : memsAfter (execAckTimerExpiry n s) = some s.mems := by
  simp [execAckTimerExpiry]
@[simp] theorem execNakRepeat_mems (n : PortId) (s : State) : memsAfter (execNakRepeat n s) = some s.mems := by
  simp [execNakRepeat]
@[simp] theorem execAckInterval_mems (n : PortId) (s : State) : memsAfter (execAckInterval n s) = some s.mems := by
  simp [execAckInterval]
@[simp] theorem execUncorrectableCodeword_mems (n : PortId) (s : State) :
    memsAfter (execUncorrectableCodeword n s) = some s.mems := by simp [execUncorrectableCodeword]
@[simp] theorem execCal_mems (n : PortId) (stamp : BitVec 16) (raw : CalRaw) (s : State) :
    memsAfter (execCal n stamp raw s) = some s.mems := by simp [execCal]
@[simp] theorem execLinkDown_mems (n : PortId) (cause : DownCause) (s : State) :
    memsAfter (execLinkDown n cause s) = some s.mems := by simp [execLinkDown]
@[simp] theorem execLinkEnable_mems (n : PortId) (on : Bool) (s : State) :
    memsAfter (execLinkEnable n on s) = some s.mems := by simp [execLinkEnable]
@[simp] theorem execFullTrain_mems (n : PortId) (s : State) : memsAfter (execFullTrain n s) = some s.mems := by
  simp [execFullTrain]
@[simp] theorem execForceRetrain_mems (n : PortId) (s : State) : memsAfter (execForceRetrain n s) = some s.mems := by
  simp [execForceRetrain]
@[simp] theorem execDeclareFailed_mems (n : PortId) (s : State) : memsAfter (execDeclareFailed n s) = some s.mems := by
  simp [execDeclareFailed]
@[simp] theorem execTrainingDone_mems (n : PortId) (id : LinkIdent) (locked : BitVec 9) (s : State) :
    memsAfter (execTrainingDone n id locked s) = some s.mems := by
  unfold execTrainingDone
  dsimp only
  split
  · rfl
  split
  · rfl
  split
  · simp
  · split <;> simp
@[simp] theorem execRetrainDone_mems (n : PortId) (id : LinkIdent) (locked : BitVec 9) (s : State) :
    memsAfter (execRetrainDone n id locked s) = some s.mems := by
  unfold execRetrainDone
  dsimp only
  split
  · rfl
  split
  · rfl
  split
  · simp
  · split <;> simp
@[simp] theorem execRetrainTimeout_mems (n : PortId) (s : State) : memsAfter (execRetrainTimeout n s) = some s.mems := by
  simp [execRetrainTimeout]
@[simp] theorem execLinkCatchUp_mems (n : PortId) (pll : Bool) (s : State) :
    memsAfter (execLinkCatchUp n pll s) = some s.mems := by simp [execLinkCatchUp]
@[simp] theorem execLaneLockTimeout_mems (n : PortId) (locked : BitVec 9) (s : State) :
    memsAfter (execLaneLockTimeout n locked s) = some s.mems := by
  unfold execLaneLockTimeout
  dsimp only
  split
  · rfl
  · split <;> simp
@[simp] theorem execLaneErrorWindow_mems (n : PortId) (counts : List (BitVec 32)) (corrected : BitVec 32) (s : State) :
    memsAfter (execLaneErrorWindow n counts corrected s) = some s.mems := by simp [execLaneErrorWindow]
@[simp] theorem execLaneSwapReq_mems (n : PortId) (s : State) : memsAfter (execLaneSwapReq n s) = some s.mems := by
  simp [execLaneSwapReq]
@[simp] theorem execLaneReq_mems (n : PortId) (lane : LaneIx) (s : State) :
    memsAfter (execLaneReq n lane s) = some s.mems := by simp [execLaneReq]
@[simp] theorem execLaneAck_mems (n : PortId) (lane : LaneIx) (s : State) :
    memsAfter (execLaneAck n lane s) = some s.mems := by simp [execLaneAck]
@[simp] theorem execLaneDone_mems (n : PortId) (lane : LaneIx) (s : State) :
    memsAfter (execLaneDone n lane s) = some s.mems := by simp [execLaneDone]
@[simp] theorem execLaneRevert_mems (n : PortId) (lane : LaneIx) (s : State) :
    memsAfter (execLaneRevert n lane s) = some s.mems := by simp [execLaneRevert]
@[simp] theorem execLaneSymbolRetry_mems (n : PortId) (s : State) : memsAfter (execLaneSymbolRetry n s) = some s.mems := by
  unfold execLaneSymbolRetry
  dsimp only
  split <;> simp
@[simp] theorem execLaneSwap_mems (n : PortId) (s : State) : memsAfter (execLaneSwap n s) = some s.mems := by
  unfold execLaneSwap
  dsimp only
  split <;> simp
@[simp] theorem execLaneSwapVerify_mems (n : PortId) (good : Bool) (s : State) :
    memsAfter (execLaneSwapVerify n good s) = some s.mems := by
  unfold execLaneSwapVerify
  dsimp only
  split <;> simp

/-! ### Stacks and staging -/

@[simp] theorem Stack.scrubbedCh_ch (y : Stack) (c : Nat) : (y.scrubbedCh c).ch = y.ch := by
  unfold Stack.scrubbedCh
  dsimp only
  split <;> rfl
@[simp] theorem Stack.winDone_ch (y : Stack) (a : WinAcc) : (y.winDone a).ch = y.ch := by rfl

@[simp] theorem execStackEccWriteback_mems (k : StackId) (c : ChId) (word : BitVec 26) (s : State) :
    memsAfter (execStackEccWriteback k c word s) = some s.mems := by simp [execStackEccWriteback]
@[simp] theorem execPatrolScrub_mems (k : StackId) (c : ChId) (s : State) : memsAfter (execPatrolScrub k c s) = some s.mems := by
  unfold execPatrolScrub
  dsimp only
  split
  · rfl
  split
  · simp
  · split <;> simp
theorem execStackOpenAccess_memsKept (k : StackId) (c : ChId) (s : State) : MemsKept s (execStackOpenAccess k c s) := by
  unfold execStackOpenAccess
  dsimp only
  split
  · exact .same s
  split
  · exact .same s
  refine .next fun hs => ?_
  refine State.memOk.congr ?_ (State.stageSettle_mems ..)
  split
  · exact State.openWrite_memOk (hs.congr (by simp)) ..
  · exact hs.congr (by simp)
@[simp] theorem execRefreshDebtTick_mems (k : StackId) (c : ChId) (s : State) :
    memsAfter (execRefreshDebtTick k c s) = some s.mems := by simp [execRefreshDebtTick]
@[simp] theorem execRefreshIdle_mems (k : StackId) (c : ChId) (s : State) :
    memsAfter (execRefreshIdle k c s) = some s.mems := by simp [execRefreshIdle]
@[simp] theorem execRefreshWindow_mems (k : StackId) (c : ChId) (s : State) :
    memsAfter (execRefreshWindow k c s) = some s.mems := by
  unfold execRefreshWindow
  dsimp only
  split <;> simp
@[simp] theorem execForcedRefresh_mems (k : StackId) (s : State) : memsAfter (execForcedRefresh k s) = some s.mems := by
  simp [execForcedRefresh]
@[simp] theorem execHoldRefresh_mems (k : StackId) (s : State) : memsAfter (execHoldRefresh k s) = some s.mems := by
  simp [execHoldRefresh]
@[simp] theorem execStackHot_mems (k : StackId) (temp : BitVec 8) (s : State) :
    memsAfter (execStackHot k temp s) = some s.mems := by simp [execStackHot]
@[simp] theorem execStkWinRead_mems (k : StackId) (s : State) : memsAfter (execStkWinRead k s) = some s.mems := by
  simp [execStkWinRead]
@[simp] theorem execStkWinWrite_mems (k : StackId) (s : State) : memsAfter (execStkWinWrite k s) = some s.mems := by
  simp [execStkWinWrite]
theorem execStkWinAccess_memsKept (k : StackId) (s : State) : MemsKept s (execStkWinAccess k s) := by
  unfold execStkWinAccess
  dsimp only
  split
  · split
    · exact .of_eq (by simp)
    split
    · exact .next fun hs => State.admitWindow_memOk hs ..
    · exact .same s
  · exact .of_eq (by simp)
  · exact .same s
@[simp] theorem execSealedLoad_mems (p : PartId) (rec : List (BitVec 8)) (s : State) :
    memsAfter (execSealedLoad p rec s) = some s.mems := by simp [execSealedLoad]
@[simp] theorem execStagingEpoch_mems (p : PartId) (s : State) : memsAfter (execStagingEpoch p s) = some s.mems := by
  unfold execStagingEpoch
  split <;> simp
@[simp] theorem execStagingCompletion_mems (p : PartId) (half : HalfIx) (desc : DescIx) (data : List (BitVec 512))
    (err : Bool) (s : State) :
    memsAfter (execStagingCompletion p half desc data err s) = some s.mems := by
  unfold execStagingCompletion
  split <;> simp
@[simp] theorem execStackTrain_mems (k : StackId) (result : BitVec 8) (s : State) :
    memsAfter (execStackTrain k result s) = some s.mems := by simp [execStackTrain]

/-! ### The mapper -/

@[simp] theorem execBind_mems (p : PartId) (env : BindEnv) (s : State) : memsAfter (execBind p env s) = some s.mems := by
  simp [execBind]
@[simp] theorem execRebind_mems (p : PartId) (env : BindEnv) (s : State) :
    memsAfter (execRebind p env s) = some s.mems := by simp [execRebind]
@[simp] theorem execHealthRecordTimeout_mems (chip : BitVec 24) (s : State) :
    memsAfter (execHealthRecordTimeout chip s) = some s.mems := by
  unfold execHealthRecordTimeout
  split <;> simp
@[simp] theorem execHealthDisagree_mems (s : State) : memsAfter (execHealthDisagree s) = some s.mems := by
  unfold execHealthDisagree
  dsimp only
  split
  · rfl
  split
  · rfl
  · split <;> simp

/-! ### Budgets -/

@[simp] theorem execBudOpGrant_mems (s : State) : memsAfter (execBudOpGrant s) = some s.mems := by simp [execBudOpGrant]
@[simp] theorem execBudOpSetBalance_mems (s : State) : memsAfter (execBudOpSetBalance s) = some s.mems := by
  simp [execBudOpSetBalance]
@[simp] theorem execBudOpSetSpring_mems (s : State) : memsAfter (execBudOpSetSpring s) = some s.mems := by
  simp [execBudOpSetSpring]
@[simp] theorem execBudOpSetCap_mems (s : State) : memsAfter (execBudOpSetCap s) = some s.mems := by simp [execBudOpSetCap]
@[simp] theorem execBudOpSetPageQuota_mems (s : State) : memsAfter (execBudOpSetPageQuota s) = some s.mems := by
  simp [execBudOpSetPageQuota]
@[simp] theorem execBudOpSetReserve_mems (s : State) : memsAfter (execBudOpSetReserve s) = some s.mems := by
  simp [execBudOpSetReserve]
@[simp] theorem execBudBktSel_mems (val : BitVec 32) (s : State) : memsAfter (execBudBktSel val s) = some s.mems := by
  simp [execBudBktSel]

/-! ### Sequences -/

@[simp] theorem execSeqEntrySel_mems (val : BitVec 32) (s : State) : memsAfter (execSeqEntrySel val s) = some s.mems := by
  simp [execSeqEntrySel]

/-! ### Step boundaries -/

@[simp] theorem execAshConfirm_mems (p : PartId) (stepNo : BitVec 64) (s : State) :
    memsAfter (execAshConfirm p stepNo s) = some s.mems := by simp [execAshConfirm]
@[simp] theorem execBoundaryWork_mems (p : PartId) (posted : List (Nat × BitVec 8)) (s : State) :
    memsAfter (execBoundaryWork p posted s) = some s.mems := by
  unfold execBoundaryWork
  dsimp only
  split
  · split
    · simp
    split
    · simp
    · rw [memsAfter_next]
      split <;> simp
  · rfl
@[simp] theorem execGroupMessage_mems (p : PartId) (msg : GroupMsg) (s : State) :
    memsAfter (execGroupMessage p msg s) = some s.mems := by
  unfold execGroupMessage
  split <;> simp

/-! ### Step replay -/

theorem execStepReplay_memsKept (p : PartId) (s : State) : MemsKept s (execStepReplay p s) := by
  unfold execStepReplay
  dsimp only
  split
  · exact .same s
  split
  · exact .same s
  split
  · exact .of_eq (by simp)
  split
  · exact .of_eq (State.wantRollback_mems ..)
  · exact .of_eq (by simp)
  · refine .next fun hs => ?_
    split
    · exact hs.congr (State.wantRollback_mems ..)
    · exact State.replayUnit_memOk hs ..
@[simp] theorem execRelaunch_mems (p : PartId) (s : State) : memsAfter (execRelaunch p s) = some s.mems := by
  unfold execRelaunch
  dsimp only
  split <;> simp

/-! ### Checkpoints -/

@[simp] theorem execCkptArm_mems (s : State) : memsAfter (execCkptArm s) = some s.mems := by simp [execCkptArm]
@[simp] theorem execCheckpointPause_mems (s : State) : memsAfter (execCheckpointPause s) = some s.mems := by
  unfold execCheckpointPause
  split <;> simp
@[simp] theorem execCheckpointPauseEnd_mems (s : State) : memsAfter (execCheckpointPauseEnd s) = some s.mems := by
  unfold execCheckpointPauseEnd
  split <;> simp
@[simp] theorem execCkptWrite_mems (s : State) : memsAfter (execCkptWrite s) = some s.mems := by
  unfold execCkptWrite
  split <;> simp
@[simp] theorem execCkptRead_mems (s : State) : memsAfter (execCkptRead s) = some s.mems := by
  unfold execCkptRead
  split <;> simp
@[simp] theorem execBulk_mems (s : State) : memsAfter (execBulk s) = some s.mems := by
  unfold execBulk
  split <;> simp

/-! ### Rollback -/

theorem execRollback_memsKept (p : PartId) (env : BindEnv) (s : State) : MemsKept s (execRollback p env s) := by
  unfold execRollback
  dsimp only
  split
  · exact .same s
  split
  · exact .next State.rollAdvance_memOk
  split
  · exact .of_eq (by simp)
  · exact .of_eq (by simp)
theorem execRestoreGenWrite_memsKept (val : BitVec 32) (s : State) : MemsKept s (execRestoreGenWrite val s) :=
  .next (State.memOk.ifReady fun hs => State.writeRestoreGen_memOk hs val)
theorem execCkptData_memsKept (s : State) : MemsKept s (execCkptData s) := by
  unfold execCkptData
  split
  · exact .same s
  extract_lets s1 h items src s2
  have h1 : s1.mems = s.mems := State.consume_mems ..
  have h2 : s2.mems = s.mems := by simp [s2, h1]
  split
  · exact .of_eq h1
  split
  · refine .next fun hs => ?_
    split
    · exact hs.congr (by simp [h2])
    · exact State.restoreGen_memOk (hs.congr (by simp [h2])) _
  · exact .of_eq h2
theorem execRoDone_memsKept (s : State) : MemsKept s (execRoDone s) := .next (State.memOk.ifReady State.writeRoDone_memOk)
@[simp] theorem execChipDeclaredFailed_mems (chip : BitVec 24) (s : State) :
    memsAfter (execChipDeclaredFailed chip s) = some s.mems := by
  unfold execChipDeclaredFailed
  extract_lets a old map s1 ranks s2 dig s3 s4 ps p dig' s5 env
  have h4 : s4.mems = s.mems := by
    rw [show s4.mems = s2.mems from State.restartRun_mems ..]
    exact State.mems_foldl (fun _ _ => State.ventSend_mems ..) _ _
  clear_value s4 ps
  split
  · rfl
  split
  · simp [h4]
  split
  · simp [h4]
  split
  · simp [s5, h4]
  split
  · split
    · simp [h4]
    · rw [memsAfter_next, State.wantRollback_mems, State.mems_foldl fun _ _ => State.modPt_mems .., h4]
  · simp [h4]

/-! ### Frames and mirrors -/

@[simp] theorem execMirrorDigest_mems (s : State) : memsAfter (execMirrorDigest s) = some s.mems := by
  unfold execMirrorDigest
  split
  · extract_lets u f s1 es
    have h : s1.mems = s.mems := by simp [s1]
    split
    · rfl
    split
    · exact congrArg some h
    · simp [h]
  · rfl
@[simp] theorem execMirrorEntries_mems (s : State) : memsAfter (execMirrorEntries s) = some s.mems := by
  unfold execMirrorEntries
  split
  next k _ _ _ =>
    extract_lets s1 u f total o n bs theirs
    have h : s1.mems = s.mems := State.consume_mems ..
    clear_value u f total n bs theirs
    split
    · exact congrArg some h
    split
    · exact congrArg some h
    · rw [memsAfter_next, State.mems_mk, h]
  · rfl
@[simp] theorem execMirrorDigestLate_mems (frame : BitVec 32) (s : State) :
    memsAfter (execMirrorDigestLate frame s) = some s.mems := by simp [execMirrorDigestLate]
@[simp] theorem execFrameTick_mems (p : PartId) (s : State) : memsAfter (execFrameTick p s) = some s.mems := by
  unfold execFrameTick
  extract_lets b g s1 n s2 s3
  split
  · rfl
  have h2 : s2.mems = s.mems := by
    simp only [s2]
    split <;> simp [s1]
  simp [s3, h2]

/-! ### Partitions -/

@[simp] theorem execPartEnable_mems (p : PartId) (s : State) : memsAfter (execPartEnable p s) = some s.mems := by
  simp [execPartEnable]
@[simp] theorem execTeardown_mems (p : PartId) (s : State) : memsAfter (execTeardown p s) = some s.mems := by
  simp [execTeardown]
theorem execScrubDone_memsKept (p : PartId) (fails : List (StackId × ChId)) (s : State) : MemsKept s (execScrubDone p fails s) := by
  unfold execScrubDone
  extract_lets b s1 s2 s3
  split
  · exact .same s
  refine .next fun hs => ?_
  have h1 : s1.memOk := State.erase_memOk hs p
  have h3 : s3.mems = s1.mems := by
    simp only [s3]
    split <;> simp [s2]
  exact h1.congr (by simp [h3])
@[simp] theorem execWingsLoad_mems (p : PartId) (s : State) : memsAfter (execWingsLoad p s) = some s.mems := by
  simp [execWingsLoad]
@[simp] theorem execWingsLoadDone_mems (p : PartId) (res : LoadResult) (s : State) :
    memsAfter (execWingsLoadDone p res s) = some s.mems := by
  unfold execWingsLoadDone
  dsimp only
  split
  · rfl
  split
  · rfl
  · split <;> simp
theorem execCurtainArm_memsKept (p : PartId) (s : State) : MemsKept s (execCurtainArm p s) :=
  .next (State.memOk.ifReady fun hs => State.curtainArm_memOk hs p)
theorem execCurtain_memsKept (p : PartId) (s : State) : MemsKept s (execCurtain p s) := by
  unfold execCurtain
  dsimp only
  split
  · exact .same s
  split
  · exact .same s
  split
  · exact .of_eq (State.curtainOpen_mems ..)
  · refine .next fun hs => ?_
    split
    · exact State.paramCurtain_memOk hs p
    · exact State.imageCurtain_memOk hs p _
@[simp] theorem execCurtainPauseEnd_mems (p : PartId) (ready : Bool) (s : State) :
    memsAfter (execCurtainPauseEnd p ready s) = some s.mems := by
  unfold execCurtainPauseEnd
  split <;> simp

/-! ### Security -/

@[simp] theorem execAttestationRequest_mems (s : State) : memsAfter (execAttestationRequest s) = some s.mems := by
  simp [execAttestationRequest]
@[simp] theorem execKeyDelivery_mems (s : State) : memsAfter (execKeyDelivery s) = some s.mems := by simp [execKeyDelivery]
@[simp] theorem execMgmtPromote_mems (s : State) : memsAfter (execMgmtPromote s) = some s.mems := by simp [execMgmtPromote]

/-! ### PCIe -/

@[simp] theorem execFlr_mems (p : PartId) (s : State) : memsAfter (execFlr p s) = some s.mems := by simp [execFlr]
@[simp] theorem execHotReset_mems (s : State) : memsAfter (execHotReset s) = some s.mems := by simp [execHotReset]
@[simp] theorem execBusMasterEnable_mems (f : FnId) (s : State) : memsAfter (execBusMasterEnable f s) = some s.mems := by
  simp [execBusMasterEnable]
@[simp] theorem execMsixUnmask_mems (f : FnId) (v : VecIx) (s : State) :
    memsAfter (execMsixUnmask f v s) = some s.mems := by simp [execMsixUnmask]
@[simp] theorem execD3hotRequest_mems (s : State) : memsAfter (execD3hotRequest s) = some s.mems := by
  simp [execD3hotRequest]
@[simp] theorem execD3hotEntry_mems (s : State) : memsAfter (execD3hotEntry s) = some s.mems := by simp [execD3hotEntry]
@[simp] theorem execInvalidAccess_mems (write : Bool) (s : State) :
    memsAfter (execInvalidAccess write s) = some s.mems := by simp [execInvalidAccess]
@[simp] theorem execOutboundQueueSend_mems (f : FnId) (s : State) :
    memsAfter (execOutboundQueueSend f s) = some s.mems := by
  unfold execOutboundQueueSend
  split <;> simp
@[simp] theorem execPcieLinkUp_mems (speed : BitVec 3) (width : BitVec 5) (flit : Bool) (s : State) :
    memsAfter (execPcieLinkUp speed width flit s) = some s.mems := by simp [execPcieLinkUp]

/-! ### The service port -/

@[simp] theorem execServiceFrameDrop_mems (s : State) : memsAfter (execServiceFrameDrop s) = some s.mems := by
  simp [execServiceFrameDrop]
@[simp] theorem execSgmiiLinkChange_mems (up : Bool) (s : State) : memsAfter (execSgmiiLinkChange up s) = some s.mems := by
  simp [execSgmiiLinkChange]
@[simp] theorem execArpRequest_mems (mac : BitVec 48) (ip target : BitVec 32) (s : State) :
    memsAfter (execArpRequest mac ip target s) = some s.mems := by simp [execArpRequest]
@[simp] theorem execIcmpEcho_mems (mac : BitVec 48) (ip target : BitVec 32) (body : List (BitVec 8)) (s : State) :
    memsAfter (execIcmpEcho mac ip target body s) = some s.mems := by simp [execIcmpEcho]
@[simp] theorem execPtpEventTimestamp_mems (tx : Bool) (type : BitVec 4) (seqId : BitVec 16) (s : State) :
    memsAfter (execPtpEventTimestamp tx type seqId s) = some s.mems := by simp [execPtpEventTimestamp]
@[simp] theorem execPtpTsPop_mems (s : State) : memsAfter (execPtpTsPop s) = some s.mems := by simp [execPtpTsPop]
@[simp] theorem execI3cCommitAddress_mems (addr : BitVec 24) (s : State) :
    memsAfter (execI3cCommitAddress addr s) = some s.mems := by simp [execI3cCommitAddress]
@[simp] theorem execEntdaa_mems (addr : BitVec 7) (s : State) : memsAfter (execEntdaa addr s) = some s.mems := by
  simp [execEntdaa]
@[simp] theorem execBypass_mems (s : State) : memsAfter (execBypass s) = some s.mems := by simp [execBypass]
@[simp] theorem execIdcode_mems (s : State) : memsAfter (execIdcode s) = some s.mems := by simp [execIdcode]
@[simp] theorem execSamplePreload_mems (cells : List Bool) (s : State) :
    memsAfter (execSamplePreload cells s) = some s.mems := by simp [execSamplePreload]
@[simp] theorem execExtest_mems (s : State) : memsAfter (execExtest s) = some s.mems := by simp [execExtest]
@[simp] theorem execFwLoadDone_mems (s : State) : memsAfter (execFwLoadDone s) = some s.mems := by simp [execFwLoadDone]

/-! ### The time unit -/

@[simp] theorem execTimeIncCommit_mems (dom : Bool) (val : BitVec 32) (s : State) :
    memsAfter (execTimeIncCommit dom val s) = some s.mems := by
  have h : execTimeIncCommit dom val s = .next (if s.ready then s.incCommit dom val else s) := rfl
  rw [h, memsAfter_next]
  split
  · rw [State.incCommit_mems]
  · rfl
@[simp] theorem execTimeAdjust_mems (dom : Bool) (s : State) : memsAfter (execTimeAdjust dom s) = some s.mems := by
  have h : execTimeAdjust dom s =
      .next (if s.ready then ({ s with time := { s.time with adjDom := dom } } : State).adjust else s) := rfl
  rw [h, memsAfter_next]
  split
  · rw [State.adjust_mems]
    rfl
  · rfl
@[simp] theorem execTimeAdjustEnd_mems (dom : Bool) (s : State) : memsAfter (execTimeAdjustEnd dom s) = some s.mems := by
  simp [execTimeAdjustEnd]
@[simp] theorem execTimeSetA_mems (s : State) : memsAfter (execTimeSetA s) = some s.mems := by simp [execTimeSetA]
@[simp] theorem execTimeSetB_mems (s : State) : memsAfter (execTimeSetB s) = some s.mems := by simp [execTimeSetB]
@[simp] theorem execTimeActiveWrite_mems (dom : Bool) (s : State) :
    memsAfter (execTimeActiveWrite dom s) = some s.mems :=
  congrArg some (State.ifReady_mems _ fun _ => rfl)
@[simp] theorem execPpsOut_mems (s : State) : memsAfter (execPpsOut s) = some s.mems := by simp [execPpsOut]
@[simp] theorem execPpsOutEnd_mems (s : State) : memsAfter (execPpsOutEnd s) = some s.mems := by
  unfold execPpsOutEnd
  split <;> simp
@[simp] theorem execPpsIn_mems (s : State) : memsAfter (execPpsIn s) = some s.mems := by simp [execPpsIn]
@[simp] theorem execTriggerArm_mems (val : BitVec 32) (s : State) : memsAfter (execTriggerArm val s) = some s.mems := by
  simp [execTriggerArm]
@[simp] theorem execTriggerCapture_mems (j : TrigIx) (s : State) : memsAfter (execTriggerCapture j s) = some s.mems := by
  simp [execTriggerCapture]
@[simp] theorem execTriggerArmLaunch_mems (j : TrigIx) (s : State) :
    memsAfter (execTriggerArmLaunch j s) = some s.mems := by simp [execTriggerArmLaunch]
@[simp] theorem execTriggerStartAlign_mems (j : TrigIx) (s : State) :
    memsAfter (execTriggerStartAlign j s) = some s.mems := by simp [execTriggerStartAlign]
@[simp] theorem execTriggerArmStep_mems (j : TrigIx) (s : State) : memsAfter (execTriggerArmStep j s) = some s.mems := by
  simp [execTriggerArmStep]
@[simp] theorem execTimeLogPop_mems (s : State) : memsAfter (execTimeLogPop s) = some s.mems := by simp [execTimeLogPop]
@[simp] theorem execTimeRefLost_mems (s : State) : memsAfter (execTimeRefLost s) = some s.mems := by simp [execTimeRefLost]
@[simp] theorem execTimeRefRestored_mems (s : State) : memsAfter (execTimeRefRestored s) = some s.mems := by
  simp [execTimeRefRestored]

/-! ### Check-value units -/

@[simp] theorem execCrcCompute_mems (u : CrcIx) (s : State) : memsAfter (execCrcCompute u s) = some s.mems := by
  simp [execCrcCompute]
@[simp] theorem execCrcCheck_mems (u : CrcIx) (s : State) : memsAfter (execCrcCheck u s) = some s.mems := by
  simp [execCrcCheck]
@[simp] theorem execCrcRunDone_mems (u : CrcIx) (data : List (BitVec 8)) (err : Bool) (s : State) :
    memsAfter (execCrcRunDone u data err s) = some s.mems := by
  unfold execCrcRunDone
  split <;> simp

/-! ### Snapshots and the fault log -/

@[simp] theorem execSnapCapture_mems (s : State) : memsAfter (execSnapCapture s) = some s.mems := by simp [execSnapCapture]
@[simp] theorem execSnapArmAt_mems (s : State) : memsAfter (execSnapArmAt s) = some s.mems := by simp [execSnapArmAt]
@[simp] theorem execSnapTickCapture_mems (s : State) : memsAfter (execSnapTickCapture s) = some s.mems := by
  simp [execSnapTickCapture]
@[simp] theorem execFaultLogClear_mems (s : State) : memsAfter (execFaultLogClear s) = some s.mems := by
  simp [execFaultLogClear]
@[simp] theorem execFaultLogPop_mems (s : State) : memsAfter (execFaultLogPop s) = some s.mems := by simp [execFaultLogPop]

/-! ### Register reads -/

@[simp] theorem execRcCounterRead_mems (f : FnId) (off : BitVec 26) (s : State) :
    memsAfter (execRcCounterRead f off s) = some s.mems :=
  congrArg some (State.access_mems _ _ _ (by split <;> simp))

/-! ### Scrubs after reset, rails, clocks and temperatures -/

theorem execTileResetScrubDone_memsKept (t : TileId) (s : State) : MemsKept s (execTileResetScrubDone t s) := by
  unfold execTileResetScrubDone
  extract_lets x s1 src s2
  split
  · exact .same s
  refine .next fun hs => ?_
  have h1 : s1.memOk := hs.modTile t fun _ _ => Memory.wf_nil
  exact h1.congr (by simp [s2])
theorem execStackResetScrubDone_memsKept (k : StackId) (s : State) : MemsKept s (execStackResetScrubDone k s) := by
  unfold execStackResetScrubDone
  extract_lets y s1
  split
  · exact .same s
  refine .next fun hs => ?_
  have h1 : s1.memOk := hs.modStk k fun y _ c hc => by
    rw [vget_map _ _ hc]
    exact Memory.wf_nil
  exact h1.congr (by simp)
@[simp] theorem execRailFault_mems (rail : RailIx) (s : State) : memsAfter (execRailFault rail s) = some s.mems := by
  simp [execRailFault]
@[simp] theorem execRefclkLost_mems (link : Bool) (s : State) : memsAfter (execRefclkLost link s) = some s.mems := by
  simp [execRefclkLost]
@[simp] theorem execThermalLimit_mems (sensor : SensorIx) (temp : BitVec 8) (s : State) :
    memsAfter (execThermalLimit sensor temp s) = some s.mems := by simp [execThermalLimit]
@[simp] theorem execThermalTrip_mems (_sensor : SensorIx) (s : State) :
    memsAfter (execThermalTrip _sensor s) = some s.mems := by simp [execThermalTrip]
@[simp] theorem execAlertNRelease_mems (tj : BitVec 8) (temps : List (BitVec 8)) (s : State) :
    memsAfter (execAlertNRelease tj temps s) = some s.mems := by
  unfold execAlertNRelease
  split
  · rfl
  · have hwarm : (temps.zipIdx.foldl (fun (s : State) x => s.modStk x.2 fun y => y.warm x.1) s).mems = s.mems :=
      State.mems_foldl (fun _ _ => State.modStk_mems _ _ fun _ => by rfl) _ _
    exact congrArg some hwarm

end Sys2Proof.Machine
end
section
/-! Every step keeps the memories canonical (O51). Here the resets, which leave every memory empty, boot and update, the register
writes, and then every command and a tick. -/

namespace Sys2Proof.Machine
open Sys2Proof

/-! ### Resets -/

theorem State.blank_tile_mem (s : State) {i : Nat} (h : i < 160) : (s.blank.tile i).mem = [] := by
  have hget : s.blank.tile i = if s.fuses.disabled.contains i then { Tile.reset with state := 0 } else Tile.reset := by
    show vget (Vector.ofFn _) i Tile.reset = _
    simp [vget, h]
  rw [hget]
  split <;> rfl

theorem State.memOk_blank (s : State) : s.blank.memOk := by
  refine ⟨fun i hi => ?_, fun k c hk hc => ?_⟩
  · rw [s.blank_tile_mem hi, Memory.wf_nil]
  · show Memory.wf (State.reset.chan k c).mem = true
    rw [State.reset_chan hk hc]
    exact Memory.wf_nil

theorem State.memOk_enterReset (s : State) (f : Pins → Pins) : (s.enterReset f).memOk := s.memOk_blank.congr rfl

theorem State.memOk_leaveReset (s : State) : s.leaveReset.memOk := s.memOk_blank.congr rfl

/-! ### Boot and update -/

@[simp] theorem State.svnCommit_mems (s : State) : s.svnCommit.mems = s.mems := by
  unfold State.svnCommit
  split <;> rfl

@[simp] theorem State.loadSlot_mems (s : State) (p : BootPick) : (s.loadSlot p).mems = s.mems := by
  refine congrArg (_, ·) ?_
  show (s.stackBanks.map _).map _ = _
  rw [Vector.map_map]
  refine Vector.map_congr_left fun y _ => ?_
  show Vector.map Channel.mem (if _ then _ else _ : Stack).ch = _
  split <;> rfl

@[simp] theorem State.beginTransfer_mems (s : State) (mac : BitVec 48) (blk : Nat) : (s.beginTransfer mac blk).mems = s.mems := by
  simp [State.beginTransfer]

@[simp] theorem State.confirm_mems (s : State) : s.confirm.mems = s.mems := by simp [State.confirm]

@[simp] theorem State.healthConfirm_mems (s : State) (host : Bool) : (s.healthConfirm host).mems = s.mems := by
  unfold State.healthConfirm
  split <;> simp

@[simp] theorem State.cancelStage_mems (s : State) : s.cancelStage.mems = s.mems := by simp [State.cancelStage]

@[simp] theorem State.writeFwu_mems (s : State) (o : Nat) (v : BitVec 32) : (s.writeFwu o v).mems = s.mems := by
  unfold State.writeFwu
  split
  · split <;> simp
  · extract_lets s'
    have h : s'.mems = s.mems := by
      simp only [s']
      split <;> simp
    split <;> simp [h]
  · rfl

@[simp] theorem execTftpWriteRequest_mems (mac : BitVec 48) (octet : Bool) (blksize : Option Nat) (s : State) :
    memsAfter (execTftpWriteRequest mac octet blksize s) = some s.mems := by
  unfold execTftpWriteRequest
  split
  · rfl
  split <;> simp

@[simp] theorem execTftpTransferEnd_mems (img : Slot48) (s : State) : memsAfter (execTftpTransferEnd img s) = some s.mems := by
  unfold execTftpTransferEnd
  dsimp only
  split
  · rfl
  · simp

@[simp] theorem execRomBoot_mems (s : State) : memsAfter (execRomBoot s) = some s.mems := by
  unfold execRomBoot
  extract_lets p st fwu s1
  have hp : p.2.mems = s.mems := by
    simp only [p]
    split <;> simp
  split
  · rfl
  split
  · exact congrArg some hp
  · have h1 : s1.mems = s.mems := (State.loadSlot_mems ..).trans hp
    simp [h1]

@[simp] theorem execSelftestPass_mems (s : State) : memsAfter (execSelftestPass s) = some s.mems := by
  simp [execSelftestPass]

@[simp] theorem execFwConfirmExpired_mems (s : State) : memsAfter (execFwConfirmExpired s) = some s.mems := by
  simp [execFwConfirmExpired]

@[simp] theorem execHealthConfirm_mems (host : Bool) (s : State) : memsAfter (execHealthConfirm host s) = some s.mems := by
  simp [execHealthConfirm]

@[simp] theorem execCancelStage_mems (s : State) : memsAfter (execCancelStage s) = some s.mems := by simp [execCancelStage]

@[simp] theorem execSvnCommit_mems (s : State) : memsAfter (execSvnCommit s) = some s.mems := by simp [execSvnCommit]

/-! ### The commands of reset -/

theorem execSysReset_memsKept (s : State) : MemsKept s (execSysReset s) := .next fun _ => s.memOk_enterReset _

theorem execPerst_memsKept (s : State) : MemsKept s (execPerst s) := .next fun _ => s.memOk_enterReset _

theorem execRailUndervoltage_memsKept (rail : RailIx) (s : State) : MemsKept s (execRailUndervoltage rail s) :=
  .next fun _ => s.memOk_enterReset _

theorem execResetRelease_memsKept (s : State) : MemsKept s (execResetRelease s) := by
  unfold execResetRelease
  split
  · exact .same s
  split
  · exact .of_eq rfl
  · exact .next fun _ => s.memOk_leaveReset

theorem execRailRestored_memsKept (s : State) : MemsKept s (execRailRestored s) := by
  unfold execRailRestored
  split
  · exact .same s
  split
  · exact .of_eq rfl
  · exact .next fun _ => s.memOk_leaveReset

/-! ### Register writes: DIG and PART act on the memories -/

theorem State.writeBlock_memOk {s : State} (hs : s.memOk) (off : Nat) (v : BitVec 32) : (s.writeBlock off v).memOk := by
  unfold State.writeBlock
  dsimp only
  split
  case h_13 => exact State.writeDig_memOk hs ..  -- block 0x0D, DIG
  case h_14 => exact State.writePart_memOk hs ..  -- block 0x0E, PART
  all_goals exact hs.congr (by simp)

theorem State.writeReg_memOk {s : State} (hs : s.memOk) (off : Nat) (v : BitVec 32) : (s.writeReg off v).memOk := by
  unfold State.writeReg
  split
  · exact State.writeBlock_memOk hs ..
  · exact hs

theorem State.aliasWrite_memOk {s : State} (hs : s.memOk) (off : Nat) (v : BitVec 32) : (s.aliasWrite off v).memOk := by
  unfold State.aliasWrite
  dsimp only
  split
  · exact State.writeReg_memOk hs ..
  split
  · exact State.writeReg_memOk hs ..
  split
  · exact State.writeReg_memOk hs ..
  · exact hs

theorem State.portWrite_memOk {s : State} (hs : s.memOk) (off : Nat) (v : BitVec 32) : (s.portWrite off v).memOk := by
  unfold State.portWrite
  split
  · exact State.aliasWrite_memOk hs ..
  · exact State.writeReg_memOk hs ..

theorem State.access_memOk {s : State} (hs : s.memOk) (off : Nat) (write : Bool) {f : State → State} (h : (f s).memOk) :
    (s.access off write f).memOk := by
  unfold State.access
  split
  · exact hs
  split
  · exact hs.congr (by simp)
  · exact h

theorem execRegisterWrite_memsKept (f : FnId) (off : BitVec 26) (val : BitVec 32) (s : State) :
    MemsKept s (execRegisterWrite f off val s) := by
  refine .next fun hs => State.access_memOk hs _ _ ?_
  split
  · exact State.portWrite_memOk hs ..
  · exact hs.congr (by simp)

theorem execBitAliasAccess_memsKept (off : BitVec 26) (write : Bool) (val : BitVec 32) (s : State) :
    MemsKept s (execBitAliasAccess off write val s) := by
  unfold execBitAliasAccess
  split
  · exact .same s
  refine .next fun hs => State.access_memOk hs _ _ ?_
  split
  · exact State.portWrite_memOk hs ..
  · exact hs.congr (by simp)

/-! ### Every command, and a step -/

/-- Every command keeps the memories canonical: those listed by name write or erase memories or reset the part, and every other one
leaves the memories as they are. -/
theorem exec_memsKept (i : Instr) (s : State) : MemsKept s (exec i s) := by
  cases hf : i.tileForm with
  | some f =>
    obtain ⟨plan, h⟩ := exec_of_tileForm s hf
    rw [h]
    exact .of_eq (State.runInstr_mems ..)
  | none =>
    cases i with
    | parityReplay t ev => exact execParityReplay_memsKept t ev s
    | tileWinAccess t => exact execTileWinAccess_memsKept t s
    | stackOpenAccess k c => exact execStackOpenAccess_memsKept k c s
    | stkWinAccess k => exact execStkWinAccess_memsKept k s
    | stepReplay p => exact execStepReplay_memsKept p s
    | rollback p env => exact execRollback_memsKept p env s
    | restoreGenWrite v => exact execRestoreGenWrite_memsKept v s
    | ckptData => exact execCkptData_memsKept s
    | roDone => exact execRoDone_memsKept s
    | scrubDone p fails => exact execScrubDone_memsKept p fails s
    | curtainArm p => exact execCurtainArm_memsKept p s
    | curtain p => exact execCurtain_memsKept p s
    | registerWrite f off val => exact execRegisterWrite_memsKept f off val s
    | bitAliasAccess off write val => exact execBitAliasAccess_memsKept off write val s
    | tileResetScrubDone t => exact execTileResetScrubDone_memsKept t s
    | stackResetScrubDone k => exact execStackResetScrubDone_memsKept k s
    | sysReset => exact execSysReset_memsKept s
    | perst => exact execPerst_memsKept s
    | railUndervoltage rail => exact execRailUndervoltage_memsKept rail s
    | resetRelease => exact execResetRelease_memsKept s
    | railRestored => exact execRailRestored_memsKept s
    | ctNop | ctLwait | ctHalt | ctAmov | ctAadd | ctAalu | ctSmov | ctSalu | ctXmov | ctSld | ctSst | ctPoll
    | ctLoop | ctJmp | ctFbr | ctBbr | ctFeset | ctBar | ctWatch
    | mxLdw | mxMma
    | vxAlu | vxCvt | vxTr | vxRed | vxRng | vxReds | vxEracc | vxEradd | vxErcvt | vxDclose
    | mvCpy | mvFill | mvSend | mvSld | mvSst | mvFsend | mvFrecv | mvEld | mvPgath | mvPst | mvStrf => cases hf
    | _ => exact .of_mems (by simp [exec])

theorem step_memOk {s t : State} (hs : s.memOk) (h : step s = .next t) : t.memOk := by
  unfold step at h
  split at h
  next =>
    rw [← Host.Outcome.next.inj h]
    exact State.tick_memOk hs
  next c rest _ => exact exec_memsKept c { s with pending := rest } t h (hs.congr rfl)

/-- Settles O51: a tick writes words by `Tile.land` and `Channel.store`, which keep the canonical form (`State.tick_memOk`), and so does
every command (`exec_memsKept`). -/
theorem everyStepKeepsTheMemoriesCanonical : Obligations.EveryStepKeepsTheMemoriesCanonical := by
  unfold Obligations.EveryStepKeepsTheMemoriesCanonical
  exact fun _ _ htile hstack h => step_memOk ⟨htile, hstack⟩ h

end Sys2Proof.Machine
end
